-- ==== Sys2Proof/Word.lean ====
section
/-! DEFINITION. The word types of the part and their plainest arithmetic: bytes, 32-bit CSR words, fields of a word, and
byte strings in little-endian order (R3, 00_scope.md). -/

namespace Sys2Proof

/-- An octet. -/
abbrev Byte := BitVec 8
/-- A Dibry word, and the width of a CSR (00_scope.md, "Numbers, units and fields"). -/
abbrev Word := BitVec 32
/-- A block of the pans (128 bits). -/
abbrev Block := BitVec 128

/-- Bit `i` of a register value. -/
abbrev bitAt {n : Nat} (v : BitVec n) (i : Nat) : Bool := v.getLsbD i

/-- The field of `len` bits of `v` that starts at bit `lo`. -/
abbrev fld {n : Nat} (v : BitVec n) (lo len : Nat) : BitVec len := v.extractLsb' lo len

/-- A field value put at bit `lo` of an otherwise zero word, for building a register's read value. -/
def at' {n : Nat} (v : BitVec n) (lo : Nat) : Word := (v.setWidth 32) <<< lo

/-- A single bit put at bit `lo` of an otherwise zero word. -/
def bit' (b : Bool) (lo : Nat) : Word := if b then (1#32) <<< lo else 0#32

/-- The octets of a little-endian number of `k` octets (R3). -/
def leBytes : Nat → Nat → List Byte
  | 0, _ => []
  | k + 1, v => BitVec.ofNat 8 v :: leBytes k (v / 256)

/-- The number that little-endian octets spell (R3). -/
def ofLe : List Byte → Nat
  | [] => 0
  | b :: bs => b.toNat + 256 * ofLe bs

/-- The octets of a number of `k` octets, most significant first: the octet order of cryptographic strings (R3). -/
def beBytes (k v : Nat) : List Byte := (leBytes k v).reverse

/-- The number that octets spell, the first octet most significant. -/
def ofBe (bs : List Byte) : Nat := ofLe bs.reverse

/-- A counter that stops at the greatest value its field can hold. -/
def satInc {n : Nat} (v : BitVec n) : BitVec n := if v = BitVec.allOnes n then v else v + 1

/-- The two worlds of the part (12_worlds_and_checkpoints.md). -/
inductive World where
  | normal
  | secure
  deriving DecidableEq, Repr

/-- The WORLD bit as registers hold it: 1 is secure. -/
def World.bit : World → Bool
  | .normal => false
  | .secure => true

end Sys2Proof
end

