-- ==== Sys2Proof/Syntax.lean ====
section
/-! DEFINITION. The commands of the part, one constructor per row of spec/opcode_table.json, and the operand types they
carry. The table gives no operands; each row carries what the spec says the event or command brings with it. -/

namespace Sys2Proof

/-- The words of ADM_CMD that every administrative command carries (R387): TAG, TARGET, BUF_ADDR, BUF_LEN. -/
structure AdmHead where
  tag    : Word
  target : BitVec 16
  buf    : BitVec 64
  len    : Word
  deriving DecidableEq, Repr

/-- What an administrative command brings: its function (0 the manager, t + 1 tenant t), the words of its command block, ARGS
(bytes 32 to 127), the octets that a read of its buffer gives (none: an error completion), and the slots that warden firmware
chooses for it. -/
structure AdmCmd where
  fn   : Fin 1025
  head : AdmHead
  a0   : Word
  a1   : Word
  a2   : Word
  args : List Byte
  buf  : Option (List Byte)
  pick : List (BitVec 20)
  deriving DecidableEq, Repr

/-- A stream that executes Dibry instructions: core c (4 the secure core), or thread t of sequencer q. -/
inductive Proc where
  | core (c : Fin 5)
  | thread (q : Fin 16) (t : Fin 32)
  deriving DecidableEq, Repr

/-- What a configuration write carries beside its function and dword: the data, and the bus number it was routed by (R44). -/
structure CfgData where
  data : Word
  bus  : Byte
  deriving DecidableEq, Repr

/-- A memory request of the host on the link (R37, R54, R55): a read of so many octets, a write, or an AtomicOp. -/
inductive BarAccess where
  | read (n : Fin 4097)
  | write (bs : List Byte)
  | atomic (bs : List Byte)
  deriving DecidableEq, Repr

/-- Where a register is written from and which: through the port of a core or the host's CSR aperture, a CSR block and word; or one of
the host's own pages, the function page of a function, the mailbox of a tenant in the manager's window, the MSI-X table; or
whatever register a request of the host reaches at an offset of BAR0 or BAR2 of a function. -/
inductive RegTarget where
  | bar (fn : Fin 1025) (two : Bool) (off : BitVec 28) (acc : BarAccess)
  | core (c : Fin 5) (block : Fin 18) (word : Fin 0x40000)
  | aperture (block : Fin 18) (word : Fin 0x40000)
  | page (fn : Fin 1025) (word : Fin 0x4000)
  | mailbox (t : Fin 1024) (word : Fin 0x100)
  | table (fn : Fin 1025) (word : Fin 0x4000)
  deriving DecidableEq, Repr

/-- A block, queue pair or tenant with staged fields. -/
inductive StagedBlock where
  | dsp | seq | pan | rke | grn | slc | ent | wpu | evr | mir
  | tenant (fn : Fin 1025)
  | qp (g : BitVec 12)
  deriving DecidableEq, Repr

/-- The arrays of SRAM test reads (R463, R661, R670). -/
inductive TestArray where
  | opBuf | eventStore | ccSram | cellar | vault | privMem | progMem | bootRom
  deriving DecidableEq, Repr

/-- A request of the debug port (R661, R669, R670): a memory access of 2^size octets with the world and privilege it carries, a sample
of a core's pc or cycle counter, or an SRAM test read of one word. -/
inductive DbgReq where
  | read (world : World) (priv : Bool) (addr : BitVec 40) (size : Fin 3)
  | write (world : World) (priv : Bool) (addr : BitVec 40) (size : Fin 3) (data : Word)
  | pc (c : Fin 5)
  | cycle (c : Fin 5)
  | sram (a : TestArray) (word : BitVec 24)
  deriving DecidableEq, Repr

/-- What a debugger does with a core (R661). -/
inductive Steer where
  | halt | step | resume
  deriving DecidableEq, Repr

/-- The commands, in the order of the table. -/
inductive Instr where
  | registerWrite (target : RegTarget) (v : Word)
  | stagedSetApply (block : StagedBlock)
  | powerGood (aonLost unitSel : Bool)
  | pllLock (xin1 : Bool)
  | fullReset (cause : Fin 7)
  | resetNLowTimeout
  | resetNRise (filtered unitSel : Bool)
  | mainPowerFail (vbat : Bool)
  | supplyResetStart
  | hostLinkReset
  | linkTrained (rates widths : List (BitVec 4)) (flit : Bool)
  | pfFlr
  | vfFlr (v : Fin 1024)
  | drainTimeout (n : Fin 1025)
  | numvfsWrite (v : BitVec 16)
  | vfEnableSet
  | vfEnableClear
  | busMasterEnableClear (n : Fin 1025)
  | busMasterEnableSet (n : Fin 1025)
  | configWrite (n : Fin 1025) (dw : Fin 1024) (v : CfgData)
  | d3hotEntry
  | d0Return
  | msixUnmask (n : Fin 1025) (v : Fin 2048)
  | hifResetReqFull (key : Byte)
  | hostResetAck
  | hostResetTimeout
  | doeObject (object inner : List Byte) (good : Bool)
  | ideKm (stream : Fin 5) (op : Fin 3) (fns : List (Fin 1024))
  | lockInterface (v : Fin 1024)
  | startInterface (v : Fin 1024)
  | stopInterface (v : Fin 1024)
  | qpCommit (n : Fin 1025) (q : Fin 64)
  | qpEnableSet (n : Fin 1025) (q : Fin 64)
  | qpEnableClear (n : Fin 1025) (q : Fin 64)
  | sqTailWrite (n : Fin 1025) (q : Fin 64) (v : BitVec 16)
  | cqHeadWrite (n : Fin 1025) (q : Fin 64) (v : BitVec 16)
  | dspEnableWrite (on : Bool)
  | dspCommit
  | laneFetch (g : BitVec 12) (n : Fin 9)
  | descriptorDecode (c : BitVec 16) (desc input : Option (List Byte))
  | sglRead (c : BitVec 16) (lists : Option (List Byte × List Byte))
  | operationPlace (c : BitVec 16) (data : List Byte)
  | completionWrite (c : BitVec 16)
  | coalTimeExpiry (g : BitVec 12)
  | bulkStreamStart (c : BitVec 16)
  | bulkChunk (c : BitVec 16) (data : List Byte)
  | bulkStreamEnd (c : BitVec 16)
  | harvestStart (c : BitVec 16)
  | engineResult (q : Fin 16) (t : Fin 32) (n : Fin 4)
  | budgetExhausted (q : Fin 16) (t : Fin 32)
  | mldsaFixedDelivery (q : Fin 16) (t : Fin 32) (n : Fin 4)
  | add (x : Proc) (rd ra rb : BitVec 5)
  | sub (x : Proc) (rd ra rb : BitVec 5)
  | and (x : Proc) (rd ra rb : BitVec 5)
  | or (x : Proc) (rd ra rb : BitVec 5)
  | xor (x : Proc) (rd ra rb : BitVec 5)
  | slt (x : Proc) (rd ra rb : BitVec 5)
  | sltu (x : Proc) (rd ra rb : BitVec 5)
  | sll (x : Proc) (rd ra rb : BitVec 5)
  | srl (x : Proc) (rd ra rb : BitVec 5)
  | sra (x : Proc) (rd ra rb : BitVec 5)
  | slli (x : Proc) (rd ra rb : BitVec 5)
  | srli (x : Proc) (rd ra rb : BitVec 5)
  | srai (x : Proc) (rd ra rb : BitVec 5)
  | mul (x : Proc) (rd ra rb : BitVec 5)
  | mulhi (x : Proc) (rd ra rb : BitVec 5)
  | mulhiu (x : Proc) (rd ra rb : BitVec 5)
  | div (x : Proc) (rd ra rb : BitVec 5)
  | divu (x : Proc) (rd ra rb : BitVec 5)
  | mod (x : Proc) (rd ra rb : BitVec 5)
  | modu (x : Proc) (rd ra rb : BitVec 5)
  | addi (x : Proc) (rd ra : BitVec 5) (imm : BitVec 16)
  | andi (x : Proc) (rd ra : BitVec 5) (imm : BitVec 16)
  | ori (x : Proc) (rd ra : BitVec 5) (imm : BitVec 16)
  | xori (x : Proc) (rd ra : BitVec 5) (imm : BitVec 16)
  | slti (x : Proc) (rd ra : BitVec 5) (imm : BitVec 16)
  | sltiu (x : Proc) (rd ra : BitVec 5) (imm : BitVec 16)
  | lih (x : Proc) (rd : BitVec 5) (imm : BitVec 16)
  | lb (x : Proc) (rd ra : BitVec 5) (imm : BitVec 16)
  | lh (x : Proc) (rd ra : BitVec 5) (imm : BitVec 16)
  | lw (x : Proc) (rd ra : BitVec 5) (imm : BitVec 16)
  | lbu (x : Proc) (rd ra : BitVec 5) (imm : BitVec 16)
  | lhu (x : Proc) (rd ra : BitVec 5) (imm : BitVec 16)
  | sb (x : Proc) (rs ra : BitVec 5) (imm : BitVec 16)
  | sh (x : Proc) (rs ra : BitVec 5) (imm : BitVec 16)
  | sw (x : Proc) (rs ra : BitVec 5) (imm : BitVec 16)
  | lr (x : Proc) (rd ra : BitVec 5)
  | sc (x : Proc) (rd ra rs : BitVec 5)
  | tas (x : Proc) (rd ra : BitVec 5)
  | reservationTimeout (c : Fin 5)
  | beq (x : Proc) (ra rb : BitVec 5) (off : BitVec 16)
  | bne (x : Proc) (ra rb : BitVec 5) (off : BitVec 16)
  | blt (x : Proc) (ra rb : BitVec 5) (off : BitVec 16)
  | bge (x : Proc) (ra rb : BitVec 5) (off : BitVec 16)
  | bltu (x : Proc) (ra rb : BitVec 5) (off : BitVec 16)
  | bgeu (x : Proc) (ra rb : BitVec 5) (off : BitVec 16)
  | j (x : Proc) (off : BitVec 26)
  | call (x : Proc) (off : BitVec 26)
  | jlr (x : Proc) (rd ra : BitVec 5) (imm : BitVec 16)
  | trap (x : Proc) (n : BitVec 12)
  | eret (x : Proc)
  | brk (x : Proc)
  | doze (x : Proc)
  | dozeWake (c : Fin 5)
  | fence (x : Proc)
  | fenceCode (x : Proc)
  | fenceRule (x : Proc)
  | fenceRuleComplete (c : Fin 5)
  | mfsr (x : Proc) (rd : BitVec 5) (sr : BitVec 12)
  | mtsr (x : Proc) (sr : BitVec 12) (ra : BitVec 5)
  | interruptTake (c : Fin 5)
  | sclr (x : Proc) (sd : BitVec 4)
  | smov (x : Proc) (sd sa : BitVec 4)
  | sxor (x : Proc) (sd sa sb : BitVec 4)
  | sand (x : Proc) (sd sa sb : BitVec 4)
  | sor (x : Proc) (sd sa sb : BitVec 4)
  | sshf (x : Proc) (sd sa : BitVec 4) (k : BitVec 6)
  | sperm (x : Proc) (sd sa sb : BitVec 4) (h : Bool)
  | sdec (x : Proc) (sd sa sb : BitVec 4)
  | ssel (x : Proc) (sd sa sb : BitVec 4)
  | scmp (x : Proc) (sa sb : BitVec 4) (n : BitVec 5)
  | scmpA (x : Proc) (sa sb : BitVec 4) (n : BitVec 5)
  | scomb (x : Proc) (sd sa sb : BitVec 4)
  | spinUnpk (x : Proc) (sd sa sb : BitVec 4) (f : BitVec 3)
  | spinPack (x : Proc) (sd sa sb : BitVec 4) (f : BitVec 3)
  | sld (x : Proc) (sd : BitVec 4) (ga n : BitVec 5) (off : BitVec 7)
  | sins (x : Proc) (sd : BitVec 4) (gs : BitVec 5) (w : BitVec 2)
  | sext (x : Proc) (gd : BitVec 5) (ss : BitVec 4) (w : BitVec 2)
  | emit (x : Proc) (ss : BitVec 4) (go : BitVec 5)
  | hend (x : Proc) (gs gl : BitVec 5)
  | swr (x : Proc) (ss : BitVec 4) (f : BitVec 2)
  | landingSlotWrite (q : Fin 16) (t : Fin 32)
  | enc (x : Proc) (sd ss : BitVec 4) (k : BitVec 5) (m : BitVec 9)
  | dec (x : Proc) (sd ss : BitVec 4) (k : BitVec 5) (m : BitVec 9)
  | mac (x : Proc) (sd ss : BitVec 4) (k : BitVec 5) (m : BitVec 9)
  | hash (x : Proc) (sd ss : BitVec 4) (k : BitVec 5) (m : BitVec 9)
  | kder (x : Proc) (sd ss : BitVec 4) (k : BitVec 5) (m : BitVec 9)
  | rsaSign (x : Proc) (sd ss : BitVec 4) (k : BitVec 5)
  | rsaVerify (x : Proc) (sd ss : BitVec 4) (k : BitVec 5)
  | rsaOaepDec (x : Proc) (sd ss : BitVec 4) (k : BitVec 5)
  | ecSign (x : Proc) (sd ss : BitVec 4) (k : BitVec 5)
  | ecVerify (x : Proc) (sd ss : BitVec 4) (k : BitVec 5)
  | ecDh (x : Proc) (sd ss : BitVec 4) (k : BitVec 5)
  | edSign (x : Proc) (sd ss : BitVec 4) (k : BitVec 5)
  | edVerify (x : Proc) (sd ss : BitVec 4) (k : BitVec 5)
  | mldsaSign (x : Proc) (sd ss : BitVec 4) (k : BitVec 5)
  | mldsaVerify (x : Proc) (sd ss : BitVec 4) (k : BitVec 5)
  | mlkemEnc (x : Proc) (sd ss : BitVec 4) (k : BitVec 5)
  | mlkemDec (x : Proc) (sd ss : BitVec 4) (k : BitVec 5)
  | slhFors (x : Proc) (sd ss : BitVec 4) (k : BitVec 5)
  | slhLayer (x : Proc) (sd ss : BitVec 4) (k : BitVec 5)
  | slhVerify (x : Proc) (sd ss : BitVec 4) (k : BitVec 5)
  | engineOpStart (e : Fin 56)
  | engineOpEnd (e : Fin 56) (releaseFail rejected : Bool)
  | seqPmemDataWrite (v : Word)
  | loadOpenClear
  | seqRunSet
  | seqCommit
  | panCommit
  | panKat (n : Fin 16)
  | panKatEnd (n : Fin 16) (failed : Bool)
  | panRetire (n : Fin 16)
  | maskReseedRequest (n : Fin 16)
  | maskLimitStall (n : Fin 16)
  | maskReseedArrive (n : Fin 16)
  | rkeCommit (grn : Bool)
  | engineKat (e : Fin 56)
  | engineKatEnd (e : Fin 56) (failed : Bool)
  | engineRetire (e : Fin 56)
  | sjobRsaKeygen (j : Fin 4) (engine : BitVec 6) (param : BitVec 16)
  | sjobEcKeygen (j : Fin 4) (engine : BitVec 6) (param : BitVec 16)
  | sjobRsaCheck (j : Fin 4) (engine : BitVec 6) (param : BitVec 16)
  | sjobMldsaKeygen (j : Fin 4) (engine : BitVec 6) (param : BitVec 16)
  | sjobMlkemKeygen (j : Fin 4) (engine : BitVec 6) (param : BitVec 16)
  | sjobDone (j : Fin 8)
  | thermalTrip (n : Fin 7)
  | voltageTrip (d : Fin 131)
  | tripClear (thermal : Bool) (n : Fin 131)
  | write
  | openLanding
  | destroy
  | chainOpen
  | chainClose
  | sweep
  | readAttr
  | narrow
  | blobOpen
  | blobSeal
  | deriveId
  | vaultInit
  | newSkey
  | spCmdUnknown
  | spCommandEnd
  | chainOpenTimeout
  | cellarClearStart
  | cellarClearEnd
  | scrubStripe (upset : List (Fin 1024))
  | bankRestoreStart (b : Fin 32)
  | bankRestoreEnd (b : Fin 32)
  | tplLock
  | slcCommit
  | vaultDataAccess (v : Option Word)
  | quarantineZeroEnd
  | vaultClearEnd
  | entResetRelease (condFail drbgFail : Bool)
  | sourceBit (k : Fin 16) (bit : Bool)
  | entropyRequest (w : Fin 75) (cls : BitVec 2) (n : Fin 65)
  | entSwReq (port : Fin 2) (words : BitVec 4) (cls : BitVec 2)
  | entSwDataRead (port : Fin 2) (k : Fin 16)
  | entKatCond
  | entKatDrbg
  | entKatEnd (drbg failed : Bool)
  | entCommit
  | run (c : AdmCmd) (input : Option (List Byte))
  | keyLand (c : AdmCmd)
  | keyGenerate (c : AdmCmd)
  | keyLoadBlob (c : AdmCmd)
  | keySealBlob (c : AdmCmd)
  | keyDestroy (c : AdmCmd)
  | keyNarrow (c : AdmCmd)
  | storageRotate (c : AdmCmd)
  | ctrRead (c : AdmCmd)
  | ctrAdvance (c : AdmCmd)
  | query (c : AdmCmd)
  | tenantCreate (c : AdmCmd)
  | tenantSet (c : AdmCmd)
  | tenantDestroy (c : AdmCmd)
  | freeze (c : AdmCmd)
  | thaw (c : AdmCmd)
  | migOffer (c : AdmCmd)
  | migAccept (c : AdmCmd)
  | migBind (c : AdmCmd)
  | snapshot (c : AdmCmd)
  | restore (c : AdmCmd)
  | migAbandon (c : AdmCmd)
  | migRefuse (c : AdmCmd)
  | migClose (c : AdmCmd)
  | ceremonyOpen (c : AdmCmd)
  | approve (c : AdmCmd)
  | component (c : AdmCmd)
  | execute (c : AdmCmd)
  | ceremonyClose (c : AdmCmd)
  | ceremonyTimeout
  | admCommandEnd (n : Fin 1025)
  | tntCommit (t : BitVec 11)
  | tntStateSet (t : BitVec 11) (st : BitVec 3)
  | downRing (t : Fin 1024)
  | upRing (t : Fin 1024)
  | downFullClear (t : Fin 1024)
  | upFullClear (t : Fin 1024)
  | wmbSlotWrite (w : World) (k : Fin 128) (v : Word)
  | wmbTailWrite (w : World) (v : BitVec 4)
  | wmbHeadWrite (w : World) (v : BitVec 4)
  | swiNSet
  | swiNClr
  | swiSSet
  | swiSClr (w : World)
  | ccRun (c : Fin 4)
  | ccHold (c : Fin 4)
  | dmaGo (c : Fin 64)
  | dmaHostError (c : Fin 64) (n : BitVec 25) (data : List Byte)
  | dmaTransferEnd (c : Fin 64) (data : List Byte)
  | acuCommit (m : Fin 4)
  | acuRegionCommit (m : Fin 6)
  | acuTagCommit
  | faultPop (w : World)
  | leaseSet (k : Fin 5) (v : Word)
  | leaseClr (k : Fin 5) (v : Word)
  | modeFreeze
  | modeResume
  | lcNextWrite (target : BitVec 3)
  | lcFusesBlown
  | lcWipeDone
  | rootBurn
  | rootBurnEnd (weak : BitVec 256)
  | decisionSecondEval (n : Fin 16)
  | nvmRead (w : World)
  | nvmProgram (w : World)
  | nvmErase4k (w : World)
  | nvmErase64k (w : World)
  | nvmCmdEnd (w : World) (device : Bool)
  | nvmFailedSet (slotB : Bool)
  | arbAdvance (target : Byte)
  | ownerBurn
  | blGo
  | blEnd (device : Bool)
  | handoff (responder : Bool) (entry : BitVec 21)
  | startEndService (reason : Byte)
  | startEndStandby (reason : Byte)
  | startEndQuarantine (reason : Byte)
  | assayWatchdog
  | causewayTrained (lanes : BitVec 2)
  | lanesChanged (lanes : BitVec 2)
  | linkLost (failedTags : Bool)
  | frameAuthFail
  | frameResend
  | heartbeatSend (hold : Word)
  | heartbeat (fseq : BitVec 64) (fack : Word) (old : Bool) (bs : List Byte)
  | handshakeStep1 (fseq : BitVec 64) (fack : Word) (bs : List Byte)
  | handshakeStep2 (fseq : BitVec 64) (fack : Word) (bs : List Byte)
  | handshakeStep3 (fseq : BitVec 64) (fack : Word) (bs : List Byte)
  | keyInstall
  | sessionRekey
  | ledger (fseq : BitVec 64) (fack : Word) (old : Bool) (bs : List Byte)
  | ledgerAck (fseq : BitVec 64) (fack : Word) (old : Bool) (bs : List Byte)
  | ledgerTimeout (seq : BitVec 64)
  | resyncBegin (fseq : BitVec 64) (fack : Word) (old : Bool) (bs : List Byte)
  | resyncRecords (fseq : BitVec 64) (fack : Word) (old : Bool) (bs : List Byte)
  | resyncChunk (fseq : BitVec 64) (fack : Word) (old : Bool) (bs : List Byte)
  | resyncEnd (fseq : BitVec 64) (fack : Word) (old : Bool) (bs : List Byte)
  | handover (fseq : BitVec 64) (fack : Word) (old : Bool) (bs : List Byte)
  | resyncRequest (fseq : BitVec 64) (fack : Word) (old : Bool) (bs : List Byte)
  | stepDown (fseq : BitVec 64) (fack : Word) (old : Bool) (bs : List Byte)
  | gatePeriod (low : Bool)
  | lineStateChange (line : BitVec 2) (long high : Bool)
  | gateClaimFirst
  | standbyLinkTimeout
  | holderSoloTimeout
  | mirHandover
  | handoverRequest
  | handoverTimeout
  | mirCommit
  | causewayLinkEnable
  | meshStep (mis : BitVec 64)
  | meshReseed
  | supplyExcursion (supply : Fin 5) (static long : Bool) (mv : BitVec 16)
  | crustTempSample (t0 t1 t2 t3 : BitVec 12)
  | lightSample (sensor : Fin 32) (count : Byte)
  | clockFault (clock : Fin 11) (drift present : Bool)
  | vbatSample (mv : BitVec 16)
  | thresholdDrift
  | alarmClear (mask : BitVec 19)
  | throttleRelease
  | backupMeshCheck (mis : BitVec 64) (cold low : Bool)
  | batPor
  | recordPost (code : BitVec 16) (detail aux : Word) (payload : List Byte)
  | rateWindowEnd (code : BitVec 16) (sixty : Bool)
  | evrFreezeSet (w : World)
  | evrFreezeClear (w : World)
  | evrFreezeTimeout
  | evrSwGo (w : World)
  | persistEnable
  | persistScanEnd
  | logPageProgram (device : Bool)
  | flushTimeout
  | evrFlush
  | evrRdDataRead
  | evrBlogDataRead
  | evrCommit
  | xin1Lost
  | xin1Present
  | relock
  | relockEnd
  | xin2Lost
  | xin2Return
  | rtcApply
  | rtcFracRead
  | wpuTick (temps : List (BitVec 12)) (slack : List Byte) (power : BitVec 12)
  | avsReadback (answered : Bool) (mv : BitVec 10)
  | domainEnableWrite (w : World) (d : Fin 131) (run sleep dsleep : Bool)
  | domainIdleTimeout (d : Fin 131) (deep : Bool)
  | domainIdleBoundary (d : Fin 131)
  | domainWake (d : Fin 131)
  | ageMeasure (hyd : List (BitVec 12))
  | ageDrainEnd (n : Fin 7)
  | wpuCommit
  | extest (pins bits : List Bool)
  | samplePreload (pins bits : List Bool)
  | idcode
  | clamp
  | highz
  | challenge
  | token (w : Word)
  | tokenSubmit (ir : Byte)
  | dbgAccess (r : DbgReq)
  | tapStatus
  | scan
  | bypass (ir : Byte)
  | trstNFall
  | debugHaltStepResume (c : Fin 5) (act : Steer)
  | dbgCommit
  | revoke
  | grantExpiry
  | ladleKat
  | ladleKatEnd (failed : Bool)
  | illegal (x : Proc) (word : Word)
  | resetSenseDisagree (point : Fin 8)
  | keyPhaseWindowEnd
  deriving DecidableEq, Repr

end Sys2Proof
end

