-- ==== Sys2Proof/Decode.lean ====
section
/-! DEFINITION. The instruction words of Dibry (R174 to R179, R200 to R203): the formats, an encoder and a decoder; and the command
that a table word spells, which is none, since the opcode table gives no bits. -/

namespace Sys2Proof.Dibry

/-- Format R: op, rd, ra, rb, fn. -/
def fmtR (op : BitVec 6) (rd ra rb : BitVec 5) (fn : BitVec 11) : Word := op ++ rd ++ ra ++ rb ++ fn
/-- Formats I and S: op, rd or rs, ra, imm16. -/
def fmtI (op : BitVec 6) (rd ra : BitVec 5) (imm : BitVec 16) : Word := op ++ rd ++ ra ++ imm
/-- Format J: op, off26. -/
def fmtJ (op : BitVec 6) (off : BitVec 26) : Word := op ++ off
/-- Format Y: op 0x30, rd, ra, sr, fn. -/
def fmtY (rd ra : BitVec 5) (sr : BitVec 12) (fn : BitVec 4) : Word := 0x30#6 ++ rd ++ ra ++ sr ++ fn
/-- Format SA: op 0x38, fn, sd, sa, sb, aux. -/
def fmtSA (fn : BitVec 5) (sd sa sb : BitVec 4) (aux : BitVec 9) : Word := 0x38#6 ++ fn ++ sd ++ sa ++ sb ++ aux
/-- Format SG: op 0x39, fn, s, g, imm. -/
def fmtSG (fn : BitVec 5) (s : BitVec 4) (g : BitVec 5) (imm : BitVec 12) : Word := 0x39#6 ++ fn ++ s ++ g ++ imm
/-- Format SE: op 0x3A, fn, sd, ss, K, mode. -/
def fmtSE (fn sd ss : BitVec 4) (k : BitVec 5) (mode : BitVec 9) : Word := 0x3A#6 ++ fn ++ sd ++ ss ++ k ++ mode

/-! ### The fields of a word (R174) -/

def fOp (w : Word) : BitVec 6 := fld w 26 6
def fA (w : Word) : BitVec 5 := fld w 21 5
def fB (w : Word) : BitVec 5 := fld w 16 5
def fC (w : Word) : BitVec 5 := fld w 11 5
def fFn (w : Word) : BitVec 11 := fld w 0 11
def fImm (w : Word) : BitVec 16 := fld w 0 16
def fOff (w : Word) : BitVec 26 := fld w 0 26
def fSr (w : Word) : BitVec 12 := fld w 4 12
def fFn4 (w : Word) : BitVec 4 := fld w 0 4

/-- Format SA: fn, sd, sa, sb, aux. -/
def fSaFn (w : Word) : BitVec 5 := fld w 21 5
def fSd (w : Word) : BitVec 4 := fld w 17 4
def fSa (w : Word) : BitVec 4 := fld w 13 4
def fSb (w : Word) : BitVec 4 := fld w 9 4
def fAux (w : Word) : BitVec 9 := fld w 0 9

/-- Format SG: fn and s as format SA has them, g, imm. -/
def fG (w : Word) : BitVec 5 := fld w 12 5
def fImm12 (w : Word) : BitVec 12 := fld w 0 12

/-- Format SE: fn, sd, ss, K, mode. -/
def fSeFn (w : Word) : BitVec 4 := fld w 22 4
def fSeSd (w : Word) : BitVec 4 := fld w 18 4
def fSs (w : Word) : BitVec 4 := fld w 14 4
def fK (w : Word) : BitVec 5 := fld w 9 5

/-! ### Ranges of fields (R175, R200, R201, R202) -/

/-- K names a sealed key register or a handle field. -/
def keyField (k : BitVec 5) : Bool := decide (k.toNat ≤ 0x13)
/-- K of ENGX: a key, or none. -/
def engField (k : BitVec 5) : Bool := keyField k || k == 0x1F
/-- A count of 1 to 16 octets. -/
def countOk (n : BitVec 5) : Bool := decide (1 ≤ n.toNat ∧ n.toNat ≤ 16)
/-- A PIN block format. -/
def fmtOk (f : BitVec 3) : Bool := f == 0 || f == 1 || f == 3 || f == 4 || f == 7

/-! ### The decoder (R175 to R179, R200 to R203) -/

/-- A command where a condition on its fields holds: a field out of range, or an unused field that is not zero, is ILLEGAL. -/
def given (b : Bool) (i : Instr) : Option Instr := if b then some i else none

/-- The ALU group. -/
def decodeAlu (x : Proc) (w : Word) : Option Instr :=
  match (fFn w).toNat with
  | 0x00 => some (.add x (fA w) (fB w) (fC w))
  | 0x01 => some (.sub x (fA w) (fB w) (fC w))
  | 0x02 => some (.and x (fA w) (fB w) (fC w))
  | 0x03 => some (.or x (fA w) (fB w) (fC w))
  | 0x04 => some (.xor x (fA w) (fB w) (fC w))
  | 0x05 => some (.slt x (fA w) (fB w) (fC w))
  | 0x06 => some (.sltu x (fA w) (fB w) (fC w))
  | 0x07 => some (.sll x (fA w) (fB w) (fC w))
  | 0x08 => some (.srl x (fA w) (fB w) (fC w))
  | 0x09 => some (.sra x (fA w) (fB w) (fC w))
  | 0x0A => some (.slli x (fA w) (fB w) (fC w))
  | 0x0B => some (.srli x (fA w) (fB w) (fC w))
  | 0x0C => some (.srai x (fA w) (fB w) (fC w))
  | 0x10 => some (.mul x (fA w) (fB w) (fC w))
  | 0x11 => some (.mulhi x (fA w) (fB w) (fC w))
  | 0x12 => some (.mulhiu x (fA w) (fB w) (fC w))
  | 0x14 => some (.div x (fA w) (fB w) (fC w))
  | 0x15 => some (.divu x (fA w) (fB w) (fC w))
  | 0x16 => some (.mod x (fA w) (fB w) (fC w))
  | 0x17 => some (.modu x (fA w) (fB w) (fC w))
  | _ => none

/-- The system group. -/
def decodeSys (x : Proc) (w : Word) : Option Instr :=
  let bare := fA w == 0 && fB w == 0 && fSr w == 0
  match (fFn4 w).toNat with
  | 0x0 => given (fA w == 0 && fB w == 0) (.trap x (fSr w))
  | 0x1 => given bare (.eret x)
  | 0x2 => given bare (.brk x)
  | 0x3 => given bare (.doze x)
  | 0x4 => given bare (.fence x)
  | 0x5 => given bare (.fenceCode x)
  | 0x6 => given bare (.fenceRule x)
  | 0x8 => given (fB w == 0) (.mfsr x (fA w) (fSr w))
  | 0x9 => given (fA w == 0) (.mtsr x (fSr w) (fB w))
  | _ => none

/-- The sealed register group. -/
def decodeSealed (x : Proc) (w : Word) : Option Instr :=
  let sd := fSd w
  let sa := fSa w
  let sb := fSb w
  let aux := fAux w
  match (fSaFn w).toNat with
  | 0x00 => given (sa == 0 && sb == 0 && aux == 0) (.sclr x sd)
  | 0x01 => given (sb == 0 && aux == 0) (.smov x sd sa)
  | 0x02 => given (aux == 0) (.sxor x sd sa sb)
  | 0x03 => given (aux == 0) (.sand x sd sa sb)
  | 0x04 => given (aux == 0) (.sor x sd sa sb)
  | 0x05 => given (sb == 0 && fld aux 6 3 == 0 && fld aux 0 6 != 0x20) (.sshf x sd sa (fld aux 0 6))
  | 0x06 => given (fld aux 1 8 == 0) (.sperm x sd sa sb (bitAt aux 0))
  | 0x07 => given (aux == 0) (.sdec x sd sa sb)
  | 0x08 => given (aux == 0) (.ssel x sd sa sb)
  | 0x09 => given (sd == 0 && fld aux 5 4 == 0 && countOk (fld aux 0 5)) (.scmp x sa sb (fld aux 0 5))
  | 0x0A => given (sd == 0 && fld aux 5 4 == 0 && countOk (fld aux 0 5)) (.scmpA x sa sb (fld aux 0 5))
  | 0x0B => given (aux == 0) (.scomb x sd sa sb)
  | 0x0C => given (fld aux 3 6 == 0 && fmtOk (fld aux 0 3)) (.spinUnpk x sd sa sb (fld aux 0 3))
  | 0x0D => given (fld aux 3 6 == 0 && fmtOk (fld aux 0 3)) (.spinPack x sd sa sb (fld aux 0 3))
  | _ => none

/-- The sealed general group. -/
def decodeGeneral (x : Proc) (w : Word) : Option Instr :=
  let s := fSd w
  let g := fG w
  let imm := fImm12 w
  match (fSaFn w).toNat with
  | 0x00 => given (countOk (fld imm 7 5)) (.sld x s g (fld imm 7 5) (fld imm 0 7))
  | 0x01 => given (fld imm 2 10 == 0) (.sins x s g (fld imm 0 2))
  | 0x02 => given (fld imm 2 10 == 0) (.sext x g s (fld imm 0 2))
  | 0x03 => given (imm == 0) (.emit x s g)
  | 0x04 => given (s == 0 && fld imm 5 7 == 0) (.hend x g (fld imm 0 5))
  | 0x05 => given (g == 0 && fld imm 2 10 == 0) (.swr x s (fld imm 0 2))
  | _ => none

/-- ENGX, by its op code (R286). -/
def decodeEngx (x : Proc) (w : Word) : Option Instr :=
  let sd := fSeSd w
  let ss := fSs w
  let k := fK w
  match (fAux w).toNat with
  | 0x000 => given (engField k) (.rsaSign x sd ss k)
  | 0x001 => given (engField k) (.rsaVerify x sd ss k)
  | 0x002 => given (engField k) (.rsaOaepDec x sd ss k)
  | 0x040 => given (engField k) (.ecSign x sd ss k)
  | 0x041 => given (engField k) (.ecVerify x sd ss k)
  | 0x042 => given (engField k) (.ecDh x sd ss k)
  | 0x048 => given (engField k) (.edSign x sd ss k)
  | 0x049 => given (engField k) (.edVerify x sd ss k)
  | 0x080 => given (engField k) (.mldsaSign x sd ss k)
  | 0x081 => given (engField k) (.mldsaVerify x sd ss k)
  | 0x088 => given (engField k) (.mlkemEnc x sd ss k)
  | 0x089 => given (engField k) (.mlkemDec x sd ss k)
  | 0x090 => given (engField k) (.slhFors x sd ss k)
  | 0x091 => given (engField k) (.slhLayer x sd ss k)
  | 0x092 => given (engField k) (.slhVerify x sd ss k)
  | _ => none

/-- The sealed engine group. -/
def decodeEngine (x : Proc) (w : Word) : Option Instr :=
  let sd := fSeSd w
  let ss := fSs w
  let k := fK w
  match (fSeFn w).toNat with
  | 0x0 => given (keyField k) (.enc x sd ss k (fAux w))
  | 0x1 => given (keyField k) (.dec x sd ss k (fAux w))
  | 0x2 => given (keyField k) (.mac x sd ss k (fAux w))
  | 0x3 => given (k == 0x1F) (.hash x sd ss k (fAux w))
  | 0x4 => given (keyField k) (.kder x sd ss k (fAux w))
  | 0x8 => decodeEngx x w
  | _ => none

/-- The command that an instruction word is on a processor; none where the word raises ILLEGAL (R175, R176). -/
def decode (x : Proc) (w : Word) : Option Instr :=
  match (fOp w).toNat with
  | 0x00 => decodeAlu x w
  | 0x07 => given (fB w == 0) (.lih x (fA w) (fImm w))
  | 0x1C => given (fImm w == 0) (.lr x (fA w) (fB w))
  | 0x1D => given (fFn w == 0) (.sc x (fA w) (fB w) (fC w))
  | 0x1E => given (fImm w == 0) (.tas x (fA w) (fB w))
  | 0x28 => some (.j x (fOff w))
  | 0x29 => some (.call x (fOff w))
  | 0x30 => decodeSys x w
  | 0x38 => decodeSealed x w
  | 0x39 => decodeGeneral x w
  | 0x3A => decodeEngine x w
  | 0x01 => some (.addi x (fA w) (fB w) (fImm w))
  | 0x02 => some (.andi x (fA w) (fB w) (fImm w))
  | 0x03 => some (.ori x (fA w) (fB w) (fImm w))
  | 0x04 => some (.xori x (fA w) (fB w) (fImm w))
  | 0x05 => some (.slti x (fA w) (fB w) (fImm w))
  | 0x06 => some (.sltiu x (fA w) (fB w) (fImm w))
  | 0x10 => some (.lb x (fA w) (fB w) (fImm w))
  | 0x11 => some (.lh x (fA w) (fB w) (fImm w))
  | 0x12 => some (.lw x (fA w) (fB w) (fImm w))
  | 0x13 => some (.lbu x (fA w) (fB w) (fImm w))
  | 0x14 => some (.lhu x (fA w) (fB w) (fImm w))
  | 0x18 => some (.sb x (fA w) (fB w) (fImm w))
  | 0x19 => some (.sh x (fA w) (fB w) (fImm w))
  | 0x1A => some (.sw x (fA w) (fB w) (fImm w))
  | 0x20 => some (.beq x (fA w) (fB w) (fImm w))
  | 0x21 => some (.bne x (fA w) (fB w) (fImm w))
  | 0x22 => some (.blt x (fA w) (fB w) (fImm w))
  | 0x23 => some (.bge x (fA w) (fB w) (fImm w))
  | 0x24 => some (.bltu x (fA w) (fB w) (fImm w))
  | 0x25 => some (.bgeu x (fA w) (fB w) (fImm w))
  | 0x2A => some (.jlr x (fA w) (fB w) (fImm w))
  | _ => none

/-! ### The encoder -/

/-- The processor and the word of a command that is a Dibry instruction; none for every other command. -/
def encode : Instr → Option (Proc × Word)
  | .add x rd ra rb => some (x, fmtR 0 rd ra rb 0x00)
  | .sub x rd ra rb => some (x, fmtR 0 rd ra rb 0x01)
  | .and x rd ra rb => some (x, fmtR 0 rd ra rb 0x02)
  | .or x rd ra rb => some (x, fmtR 0 rd ra rb 0x03)
  | .xor x rd ra rb => some (x, fmtR 0 rd ra rb 0x04)
  | .slt x rd ra rb => some (x, fmtR 0 rd ra rb 0x05)
  | .sltu x rd ra rb => some (x, fmtR 0 rd ra rb 0x06)
  | .sll x rd ra rb => some (x, fmtR 0 rd ra rb 0x07)
  | .srl x rd ra rb => some (x, fmtR 0 rd ra rb 0x08)
  | .sra x rd ra rb => some (x, fmtR 0 rd ra rb 0x09)
  | .slli x rd ra rb => some (x, fmtR 0 rd ra rb 0x0A)
  | .srli x rd ra rb => some (x, fmtR 0 rd ra rb 0x0B)
  | .srai x rd ra rb => some (x, fmtR 0 rd ra rb 0x0C)
  | .mul x rd ra rb => some (x, fmtR 0 rd ra rb 0x10)
  | .mulhi x rd ra rb => some (x, fmtR 0 rd ra rb 0x11)
  | .mulhiu x rd ra rb => some (x, fmtR 0 rd ra rb 0x12)
  | .div x rd ra rb => some (x, fmtR 0 rd ra rb 0x14)
  | .divu x rd ra rb => some (x, fmtR 0 rd ra rb 0x15)
  | .mod x rd ra rb => some (x, fmtR 0 rd ra rb 0x16)
  | .modu x rd ra rb => some (x, fmtR 0 rd ra rb 0x17)
  | .addi x a b imm => some (x, fmtI 0x01 a b imm)
  | .andi x a b imm => some (x, fmtI 0x02 a b imm)
  | .ori x a b imm => some (x, fmtI 0x03 a b imm)
  | .xori x a b imm => some (x, fmtI 0x04 a b imm)
  | .slti x a b imm => some (x, fmtI 0x05 a b imm)
  | .sltiu x a b imm => some (x, fmtI 0x06 a b imm)
  | .lb x a b imm => some (x, fmtI 0x10 a b imm)
  | .lh x a b imm => some (x, fmtI 0x11 a b imm)
  | .lw x a b imm => some (x, fmtI 0x12 a b imm)
  | .lbu x a b imm => some (x, fmtI 0x13 a b imm)
  | .lhu x a b imm => some (x, fmtI 0x14 a b imm)
  | .sb x a b imm => some (x, fmtI 0x18 a b imm)
  | .sh x a b imm => some (x, fmtI 0x19 a b imm)
  | .sw x a b imm => some (x, fmtI 0x1A a b imm)
  | .beq x a b imm => some (x, fmtI 0x20 a b imm)
  | .bne x a b imm => some (x, fmtI 0x21 a b imm)
  | .blt x a b imm => some (x, fmtI 0x22 a b imm)
  | .bge x a b imm => some (x, fmtI 0x23 a b imm)
  | .bltu x a b imm => some (x, fmtI 0x24 a b imm)
  | .bgeu x a b imm => some (x, fmtI 0x25 a b imm)
  | .jlr x a b imm => some (x, fmtI 0x2A a b imm)
  | .lih x rd imm => some (x, fmtI 0x07 rd 0 imm)
  | .lr x rd ra => some (x, fmtI 0x1C rd ra 0)
  | .sc x rd ra rs => some (x, fmtR 0x1D rd ra rs 0)
  | .tas x rd ra => some (x, fmtI 0x1E rd ra 0)
  | .j x off => some (x, fmtJ 0x28 off)
  | .call x off => some (x, fmtJ 0x29 off)
  | .trap x n => some (x, fmtY 0 0 n 0)
  | .eret x => some (x, fmtY 0 0 0 1)
  | .brk x => some (x, fmtY 0 0 0 2)
  | .doze x => some (x, fmtY 0 0 0 3)
  | .fence x => some (x, fmtY 0 0 0 4)
  | .fenceCode x => some (x, fmtY 0 0 0 5)
  | .fenceRule x => some (x, fmtY 0 0 0 6)
  | .mfsr x rd sr => some (x, fmtY rd 0 sr 8)
  | .mtsr x sr ra => some (x, fmtY 0 ra sr 9)
  | .sclr x sd => some (x, fmtSA 0x00 sd 0 0 0)
  | .smov x sd sa => some (x, fmtSA 0x01 sd sa 0 0)
  | .sxor x sd sa sb => some (x, fmtSA 0x02 sd sa sb 0)
  | .sand x sd sa sb => some (x, fmtSA 0x03 sd sa sb 0)
  | .sor x sd sa sb => some (x, fmtSA 0x04 sd sa sb 0)
  | .sshf x sd sa k => some (x, fmtSA 0x05 sd sa 0 (0#3 ++ k))
  | .sperm x sd sa sb h => some (x, fmtSA 0x06 sd sa sb (if h then 1 else 0))
  | .sdec x sd sa sb => some (x, fmtSA 0x07 sd sa sb 0)
  | .ssel x sd sa sb => some (x, fmtSA 0x08 sd sa sb 0)
  | .scmp x sa sb n => some (x, fmtSA 0x09 0 sa sb (0#4 ++ n))
  | .scmpA x sa sb n => some (x, fmtSA 0x0A 0 sa sb (0#4 ++ n))
  | .scomb x sd sa sb => some (x, fmtSA 0x0B sd sa sb 0)
  | .spinUnpk x sd sa sb f => some (x, fmtSA 0x0C sd sa sb (0#6 ++ f))
  | .spinPack x sd sa sb f => some (x, fmtSA 0x0D sd sa sb (0#6 ++ f))
  | .sld x sd ga n off => some (x, fmtSG 0x00 sd ga (n ++ off))
  | .sins x sd gs i => some (x, fmtSG 0x01 sd gs (0#10 ++ i))
  | .sext x gd ss i => some (x, fmtSG 0x02 ss gd (0#10 ++ i))
  | .emit x ss go => some (x, fmtSG 0x03 ss go 0)
  | .hend x gs gl => some (x, fmtSG 0x04 0 gs (0#7 ++ gl))
  | .swr x ss f => some (x, fmtSG 0x05 ss 0 (0#10 ++ f))
  | .enc x sd ss k m => some (x, fmtSE 0 sd ss k m)
  | .dec x sd ss k m => some (x, fmtSE 1 sd ss k m)
  | .mac x sd ss k m => some (x, fmtSE 2 sd ss k m)
  | .hash x sd ss k m => some (x, fmtSE 3 sd ss k m)
  | .kder x sd ss k m => some (x, fmtSE 4 sd ss k m)
  | .rsaSign x sd ss k => some (x, fmtSE 8 sd ss k 0x000)
  | .rsaVerify x sd ss k => some (x, fmtSE 8 sd ss k 0x001)
  | .rsaOaepDec x sd ss k => some (x, fmtSE 8 sd ss k 0x002)
  | .ecSign x sd ss k => some (x, fmtSE 8 sd ss k 0x040)
  | .ecVerify x sd ss k => some (x, fmtSE 8 sd ss k 0x041)
  | .ecDh x sd ss k => some (x, fmtSE 8 sd ss k 0x042)
  | .edSign x sd ss k => some (x, fmtSE 8 sd ss k 0x048)
  | .edVerify x sd ss k => some (x, fmtSE 8 sd ss k 0x049)
  | .mldsaSign x sd ss k => some (x, fmtSE 8 sd ss k 0x080)
  | .mldsaVerify x sd ss k => some (x, fmtSE 8 sd ss k 0x081)
  | .mlkemEnc x sd ss k => some (x, fmtSE 8 sd ss k 0x088)
  | .mlkemDec x sd ss k => some (x, fmtSE 8 sd ss k 0x089)
  | .slhFors x sd ss k => some (x, fmtSE 8 sd ss k 0x090)
  | .slhLayer x sd ss k => some (x, fmtSE 8 sd ss k 0x091)
  | .slhVerify x sd ss k => some (x, fmtSE 8 sd ss k 0x092)
  | _ => none

end Sys2Proof.Dibry

namespace Sys2Proof

/-- The command a table word spells: none. The table's rows give no bits (98_reader.md). -/
def decodeTableWord (_nbits _w : Nat) : Option Instr := none

end Sys2Proof
end

