-- ==== Sys2Proof/Config.lean ====
section
/-! DEFINITION. What one implementation fixes or an outside standard computes, as opaque constants: no proof can see a value
of them, so a claim about them holds whatever they are. Free values (log entry 2) are applied to the state's counter
`free`; the cryptographic primitives (log entry 4) to their inputs. -/

namespace Sys2Proof.Config

/-- A free 32-bit value: what a register or counter reads where the spec fixes no value. -/
opaque freeWord : Nat → Word
/-- A free 64-bit value. -/
opaque freeLong : Nat → BitVec 64
/-- Octet `i` of free draw `n`, such as the random numbers the expander gives. -/
opaque freeByte : Nat → Nat → Byte
/-- Vortutan's JEDEC manufacturer code JEDEC_ID, which R660 names without a value. -/
opaque jedecId : BitVec 11
/-- The PCI Vendor ID VID of R38, which the spec names without a value. -/
opaque vendorId : BitVec 16
/-- The severity EVR_QUERY reports for a firmware code, whose severity each record gives for itself (R603). -/
opaque firmwareSev : BitVec 16 → BitVec 2

/-- The trim fuses L25, V25 of R567, and sL, sV in thousandths of a count or mV per quarter of a °C. -/
opaque lightAt25 : Int
opaque lightSlope : Int
opaque glitchAt25 : Int
opaque glitchSlope : Int
/-- The trim floor of an island at a step, in mV (R636). -/
opaque trimFloor : Nat → BitVec 2 → Nat

/-- The library ROM of stepping B0 (R212, R213), whose code the spec does not give: the entry offset, segment length and
instruction budget of a program. -/
opaque libraryEntry : BitVec 16 → Word
opaque libraryLen : BitVec 16 → Nat
opaque libraryBudget : BitVec 16 → Nat
/-- KDER method 0x020 under an AES key, and 0x021 under one of more than 16 octets (R233), whose computation the spec does not
give. -/
opaque emvAes : Nat → List Byte → List Byte → List Byte
/-- The digest that program 0x0130 makes of its message for both signatures (R248), whose function the spec does not give. -/
opaque hybridDigest : List Byte → List Byte
/-- The octets that HKDF-SHA-256 makes of a shared secret in program 0x0114, whose number R247 does not give. -/
opaque hkdfLen : Nat
/-- The MAC of a counter table: its key, and the epoch with the table's values (R349), whose algorithm the spec does not give. -/
opaque counterMac : List Byte → List Byte → List Byte
/-- The keystream octet of R333: scramble key, bank, row address, octet of the row; and the row permutation of a bank: row key, bank,
row. The spec gives neither function. -/
opaque scramble : List Byte → Nat → Nat → Nat → Byte
opaque rowOrder : List Byte → Nat → Nat → Nat
/-- The octets of counter value `i` in the KDF of KDER method 0x030, whose width R263 does not give. -/
opaque kdfCounter : Nat → List Byte

/-- The public output of an ML-DSA, ML-KEM or SLH-DSA operation: op code of R286, ALG and MOD_LIMBS of the key, the key octets and the
two inputs, word 3 of the operand map, and the fresh octets drawn; and of an RSA signature whose modulus is too short for its padding. -/
opaque pkOut : Nat → Nat → Nat → List (List Byte) → Nat → List Byte → List Byte
/-- The shared secret or SLH-DSA root of an operation. -/
opaque pkSecret : Nat → Nat → Nat → List (List Byte) → Nat → List Byte → List Byte
/-- The verdict of an ML-DSA or SLH-DSA verification. -/
opaque pkVerify : Nat → Nat → Nat → List (List Byte) → Nat → Bool
/-- The private scalar or seed that a secure job of KIND 2 and PARAM makes of fresh octets (R311). -/
opaque keygen : Nat → Nat → List Byte → List Byte
/-- The public key that FIPS 204 or 203 makes of a private seed (d and z for ML-KEM), by ALG. -/
opaque latticePublic : Nat → List Byte → List Byte
/-- The two primes that an RSA key generation of PARAM limbs finds. -/
opaque rsaPrimes : Nat → List Byte → Nat × Nat

/-- The verdict on a signature: ALG code of R322 of the public key (0x41 ML-DSA-65, 0x42 ML-DSA-87), the key,
the message and the signature. -/
opaque verifySig : Nat → List Byte → List Byte → List Byte → Bool

/-- A signature by an identity key: ALG code as in `verifySig`, the private key, the message, and a free draw. -/
opaque sign : Nat → List Byte → List Byte → Nat → List Byte
/-- The certificate chain of an identity key (ALG code) that the octets of the IDENT partition hold (R674). -/
opaque identChain : Nat → List Byte → List Byte
/-- The identity public key that a chain of DER certificates certifies under Vortutan's root, if it does (R401, R527). -/
opaque certified : Nat → List Byte → Option (List Byte)
/-- ML-KEM-768 (FIPS 203): the encapsulation key of a 64-octet seed; the ciphertext and the shared secret of an
encapsulation to a key with 32 random octets; the decapsulation of a ciphertext with a seed. -/
opaque kemKey : List Byte → List Byte
opaque kemCipher : List Byte → List Byte → List Byte
opaque kemShared : List Byte → List Byte → List Byte
opaque kemOpen : List Byte → List Byte → List Byte
/-- SHA-384 of the boot ROM, measurement 1 of R62, which the spec gives no value of. -/
opaque romHash : List Byte
/-- The octets of the boot ROM, which the spec does not give. -/
opaque bootOctet : Nat → Byte

/-- COMPAT_LEVEL and COMPAT_MIN of the charter that a measurement 4 names: no migration format carries them (R401). -/
opaque charterCompat : List Byte → BitVec 16 × BitVec 16

end Sys2Proof.Config
end

