-- ==== Sys2Proof/Machine/Standards.lean ====
section
/-! DEFINITION. The functions that the spec names by outside standards and that the model writes out (log entry 145): AES (FIPS 197),
DES (FIPS 46-3), SHA-1 and SHA-2 (FIPS 180-4), SHA-3 and SHAKE (FIPS 202), and X25519 (RFC 7748). They compute on numbers. -/

namespace Sys2Proof.Standard

/-! ### AES -/

/-- The AES S-box and its inverse, 32 octets a row. -/
def sbox : List Nat :=
  [0x637C777BF26B6FC53001672BFED7AB76CA82C97DFA5947F0ADD4A2AF9CA472C0,
   0xB7FD9326363FF7CC34A5E5F171D8311504C723C31896059A071280E2EB27B275,
   0x09832C1A1B6E5AA0523BD6B329E32F8453D100ED20FCB15B6ACBBE394A4C58CF,
   0xD0EFAAFB434D338545F9027F503C9FA851A3408F929D38F5BCB6DA2110FFF3D2,
   0xCD0C13EC5F974417C4A77E3D645D197360814FDC222A908846EEB814DE5E0BDB,
   0xE0323A0A4906245CC2D3AC629195E479E7C8376D8DD54EA96C56F4EA657AAE08,
   0xBA78252E1CA6B4C6E8DD741F4BBD8B8A703EB5664803F60E613557B986C11D9E,
   0xE1F8981169D98E949B1E87E9CE5528DF8CA1890DBFE6426841992D0FB054BB16]
def sboxInv : List Nat :=
  [0x52096AD53036A538BF40A39E81F3D7FB7CE339829B2FFF87348E4344C4DEE9CB,
   0x547B9432A6C2233DEE4C950B42FAC34E082EA16628D924B2765BA2496D8BD125,
   0x72F8F66486689816D4A45CCC5D65B6926C704850FDEDB9DA5E154657A78D9D84,
   0x90D8AB008CBCD30AF7E45805B8B34506D02C1E8FCA3F0F02C1AFBD0301138A6B,
   0x3A9111414F67DCEA97F2CFCEF0B4E67396AC7422E7AD3585E2F937E81C75DF6E,
   0x47F11A711D29C5896FB7620EAA18BE1BFC563E4BC6D279209ADBC0FE78CD5AF4,
   0x1FDDA8338807C731B11210592780EC5F60517FA919B54A0D2DE57A9F93C99CEF,
   0xA0E03B4DAE2AF5B0C8EBBB3C83539961172B047EBA77D626E169146355210C7D]

/-- Octet `x` of such a table. -/
def octetAt (t : List Nat) (x : Nat) : Nat := (t.getD (x / 32) 0 >>> (8 * (31 - x % 32))) % 256

/-- Multiplication by x in the AES field, and by a factor below 16. -/
def xtime (a : Nat) : Nat := if a < 128 then 2 * a else (2 * a) ^^^ 0x11B
def gmul (a f : Nat) : Nat :=
  let b := xtime a
  let c := xtime b
  (if f.testBit 0 then a else 0) ^^^ (if f.testBit 1 then b else 0) ^^^ (if f.testBit 2 then c else 0)
    ^^^ if f.testBit 3 then xtime c else 0

/-- A word of four octets through the S-box. -/
def subWord (w : Nat) : Nat :=
  (octetAt sbox ((w >>> 24) % 256) <<< 24) ||| (octetAt sbox ((w >>> 16) % 256) <<< 16) ||| (octetAt sbox ((w >>> 8) % 256) <<< 8)
    ||| octetAt sbox (w % 256)

/-- Word `i` of the key schedule from the words before it, `nk` words of key. -/
def keyWord (nk : Nat) (ws : List Nat) (i : Nat) : Nat :=
  let t := ws.getD (i - 1) 0
  let u :=
    if i % nk = 0 then
      subWord ((t <<< 8 ||| t >>> 24) % 2 ^ 32) ^^^ ([1, 2, 4, 8, 16, 32, 64, 128, 27, 54].getD (i / nk - 1) 0 <<< 24)
    else if 6 < nk ∧ i % nk = 4 then subWord t
    else t
  ws.getD (i - nk) 0 ^^^ u

/-- The round keys, 16 octets each. -/
def roundKeys (key : List Byte) : List (List Nat) :=
  let nk := key.length / 4
  let w0 := (List.range nk).map fun i => ofBe ((key.drop (4 * i)).take 4)
  let ws := (List.range (3 * nk + 28)).foldl (fun ws i => ws ++ [keyWord nk ws (nk + i)]) w0
  (List.range (nk + 7)).map fun r => (List.range 16).map fun j => (ws.getD (4 * r + j / 4) 0 >>> (8 * (3 - j % 4))) % 256

def addKey (s k : List Nat) : List Nat := List.zipWith (· ^^^ ·) s k

/-- Each octet through a table, its row `r` turned by `r` columns forward or back. -/
def subShift (t : List Nat) (back : Bool) (s : List Nat) : List Nat :=
  (List.range 16).map fun j => octetAt t (s.getD (j % 4 + 4 * ((j / 4 + if back then 4 - j % 4 else j % 4) % 4)) 0)

/-- The columns multiplied by the circulant matrix of a first row. -/
def mixWith (f : List Nat) (s : List Nat) : List Nat :=
  (List.range 16).map fun j =>
    (List.range 4).foldl (fun v k => v ^^^ gmul (s.getD (4 * (j / 4) + k) 0) (f.getD ((k + 4 - j % 4) % 4) 0)) 0

def octetsOf (v : BitVec 128) : List Nat := (beBytes 16 v.toNat).map BitVec.toNat
def blockOf (s : List Nat) : BitVec 128 := BitVec.ofNat 128 (s.foldl (fun v b => v * 256 + b) 0)

/-- One AES block under a key of 16, 24 or 32 octets. -/
def aesEnc (key : List Byte) (b : BitVec 128) : BitVec 128 :=
  let ks := roundKeys key
  let s := ((ks.drop 1).dropLast).foldl (fun s k => addKey (mixWith [2, 3, 1, 1] (subShift sbox false s)) k)
    (addKey (octetsOf b) (ks.headD []))
  blockOf (addKey (subShift sbox false s) (ks.getLastD []))

def aesDec (key : List Byte) (b : BitVec 128) : BitVec 128 :=
  let ks := (roundKeys key).reverse
  let s := ((ks.drop 1).dropLast).foldl (fun s k => mixWith [14, 11, 13, 9] (addKey (subShift sboxInv true s) k))
    (addKey (octetsOf b) (ks.headD []))
  blockOf (addKey (subShift sboxInv true s) (ks.getLastD []))

/-! ### DES -/

/-- The permutations of FIPS 46-3; entry 1 is the most significant bit. -/
def desIP : List Nat :=
  [58, 50, 42, 34, 26, 18, 10, 2, 60, 52, 44, 36, 28, 20, 12, 4, 62, 54, 46, 38, 30, 22, 14, 6,
   64, 56, 48, 40, 32, 24, 16, 8, 57, 49, 41, 33, 25, 17, 9, 1, 59, 51, 43, 35, 27, 19, 11, 3,
   61, 53, 45, 37, 29, 21, 13, 5, 63, 55, 47, 39, 31, 23, 15, 7]
def desFP : List Nat :=
  [40, 8, 48, 16, 56, 24, 64, 32, 39, 7, 47, 15, 55, 23, 63, 31, 38, 6, 46, 14, 54, 22, 62, 30,
   37, 5, 45, 13, 53, 21, 61, 29, 36, 4, 44, 12, 52, 20, 60, 28, 35, 3, 43, 11, 51, 19, 59, 27,
   34, 2, 42, 10, 50, 18, 58, 26, 33, 1, 41, 9, 49, 17, 57, 25]
def desE : List Nat :=
  [32, 1, 2, 3, 4, 5, 4, 5, 6, 7, 8, 9, 8, 9, 10, 11, 12, 13, 12, 13, 14, 15, 16, 17,
   16, 17, 18, 19, 20, 21, 20, 21, 22, 23, 24, 25, 24, 25, 26, 27, 28, 29, 28, 29, 30, 31, 32, 1]
def desP : List Nat :=
  [16, 7, 20, 21, 29, 12, 28, 17, 1, 15, 23, 26, 5, 18, 31, 10, 2, 8, 24, 14, 32, 27, 3, 9, 19, 13, 30, 6, 22, 11, 4, 25]
def desPC1 : List Nat :=
  [57, 49, 41, 33, 25, 17, 9, 1, 58, 50, 42, 34, 26, 18, 10, 2, 59, 51, 43, 35, 27, 19, 11, 3, 60, 52, 44, 36,
   63, 55, 47, 39, 31, 23, 15, 7, 62, 54, 46, 38, 30, 22, 14, 6, 61, 53, 45, 37, 29, 21, 13, 5, 28, 20, 12, 4]
def desPC2 : List Nat :=
  [14, 17, 11, 24, 1, 5, 3, 28, 15, 6, 21, 10, 23, 19, 12, 4, 26, 8, 16, 7, 27, 20, 13, 2,
   41, 52, 31, 37, 47, 55, 30, 40, 51, 45, 33, 48, 44, 49, 39, 56, 34, 53, 46, 42, 50, 36, 29, 32]
/-- The S-boxes, row by row. -/
def desS : List Nat :=
  [0xE4D12FB83A6C59070F74E2D1A6CB953841E8D62BFC973A50FC8249175B3EA06D,
   0xF18E6B34972DC05A3D47F28EC01A69B50E7BA4D158C6932FD8A13F42B67C05E9,
   0xA09E63F51DC7B428D709346A285ECBF1D6498F30B12C5AE71AD069874FE3B52C,
   0x7DE3069A1285BC4FD8B56F03472C1AE9A690CB7DF13E52843F06A1D8945BC72E,
   0x2C417AB6853FD0E9EB2C47D150FA3986421BAD78F9C5630EB8C71E2D6F09A453,
   0xC1AF92680D34E75BAF427C9561DE0B389EF528C3704A1DB6432C95FABE17608D,
   0x4B2EF08D3C975A61D0B7491AE35C2F8614BDC37EAF6805926BD814A7950FE23C,
   0xD2846FB1A93E50C71FD8A374C56B0E927B419CE206ADF35821E74A8DFC90356B]

/-- The bits of a value of `n` bits in the order of a table. -/
def permute (n : Nat) (t : List Nat) (v : Nat) : Nat := t.foldl (fun r p => 2 * r + (v >>> (n - p)) % 2) 0

/-- The round function. -/
def desF (r k : Nat) : Nat :=
  let e := permute 32 desE r ^^^ k
  permute 32 desP ((List.range 8).foldl (fun o i =>
    let x := (e >>> (42 - 6 * i)) % 64
    16 * o + (desS.getD i 0 >>> (4 * (63 - (16 * (2 * (x / 32) + x % 2) + x / 2 % 16)))) % 16) 0)

/-- The sixteen round keys. -/
def desKeys (key : List Byte) : List Nat :=
  let cd := permute 64 desPC1 (ofBe (key.take 8))
  let turn := fun (v n : Nat) => (v <<< n ||| v >>> (28 - n)) % 2 ^ 28
  [1, 2, 4, 6, 8, 10, 12, 14, 15, 17, 19, 21, 23, 25, 27, 28].map fun n =>
    permute 56 desPC2 (turn (cd >>> 28) n <<< 28 ||| turn (cd % 2 ^ 28) n)

def desRounds (ks : List Nat) (b : BitVec 64) : BitVec 64 :=
  let v := permute 64 desIP b.toNat
  let (l, r) := ks.foldl (fun (x : Nat × Nat) k => (x.2, x.1 ^^^ desF x.2 k)) (v >>> 32, v % 2 ^ 32)
  BitVec.ofNat 64 (permute 64 desFP (r <<< 32 ||| l))

/-- One DES block under a key of 8 octets. -/
def desEnc (key : List Byte) (b : BitVec 64) : BitVec 64 := desRounds (desKeys key) b
def desDec (key : List Byte) (b : BitVec 64) : BitVec 64 := desRounds (desKeys key).reverse b

/-! ### SHA-1 and SHA-2 -/

/-- The round constants of SHA-512; those of SHA-256 are the upper halves of the first 64. -/
def shaK1 : List Nat :=
  [0x428A2F98D728AE22, 0x7137449123EF65CD, 0xB5C0FBCFEC4D3B2F, 0xE9B5DBA58189DBBC, 0x3956C25BF348B538,
   0x59F111F1B605D019, 0x923F82A4AF194F9B, 0xAB1C5ED5DA6D8118, 0xD807AA98A3030242, 0x12835B0145706FBE,
   0x243185BE4EE4B28C, 0x550C7DC3D5FFB4E2, 0x72BE5D74F27B896F, 0x80DEB1FE3B1696B1, 0x9BDC06A725C71235,
   0xC19BF174CF692694, 0xE49B69C19EF14AD2, 0xEFBE4786384F25E3, 0x0FC19DC68B8CD5B5, 0x240CA1CC77AC9C65,
   0x2DE92C6F592B0275, 0x4A7484AA6EA6E483, 0x5CB0A9DCBD41FBD4, 0x76F988DA831153B5, 0x983E5152EE66DFAB,
   0xA831C66D2DB43210, 0xB00327C898FB213F, 0xBF597FC7BEEF0EE4, 0xC6E00BF33DA88FC2, 0xD5A79147930AA725,
   0x06CA6351E003826F, 0x142929670A0E6E70, 0x27B70A8546D22FFC, 0x2E1B21385C26C926, 0x4D2C6DFC5AC42AED,
   0x53380D139D95B3DF, 0x650A73548BAF63DE, 0x766A0ABB3C77B2A8, 0x81C2C92E47EDAEE6, 0x92722C851482353B]
def shaK2 : List Nat :=
  [0xA2BFE8A14CF10364, 0xA81A664BBC423001, 0xC24B8B70D0F89791, 0xC76C51A30654BE30, 0xD192E819D6EF5218,
   0xD69906245565A910, 0xF40E35855771202A, 0x106AA07032BBD1B8, 0x19A4C116B8D2D0C8, 0x1E376C085141AB53,
   0x2748774CDF8EEB99, 0x34B0BCB5E19B48A8, 0x391C0CB3C5C95A63, 0x4ED8AA4AE3418ACB, 0x5B9CCA4F7763E373,
   0x682E6FF3D6B2B8A3, 0x748F82EE5DEFB2FC, 0x78A5636F43172F60, 0x84C87814A1F0AB72, 0x8CC702081A6439EC,
   0x90BEFFFA23631E28, 0xA4506CEBDE82BDE9, 0xBEF9A3F7B2C67915, 0xC67178F2E372532B, 0xCA273ECEEA26619C,
   0xD186B8C721C0C207, 0xEADA7DD6CDE0EB1E, 0xF57D4F7FEE6ED178, 0x06F067AA72176FBA, 0x0A637DC5A2C898A6,
   0x113F9804BEF90DAE, 0x1B710B35131C471B, 0x28DB77F523047D84, 0x32CAAB7B40C72493, 0x3C9EBE0A15C9BEBC,
   0x431D67C49C100D4C, 0x4CC5D4BECB3E42B6, 0x597F299CFC657E2A, 0x5FCB6FAB3AD6FAEC, 0x6C44198C4A475817]

/-- The initial values of SHA-512 and SHA-384; SHA-256 has the upper and SHA-224 the lower halves. -/
def sha512Init : List Nat :=
  [0x6A09E667F3BCC908, 0xBB67AE8584CAA73B, 0x3C6EF372FE94F82B, 0xA54FF53A5F1D36F1,
   0x510E527FADE682D1, 0x9B05688C2B3E6C1F, 0x1F83D9ABFB41BD6B, 0x5BE0CD19137E2179]
def sha384Init : List Nat :=
  [0xCBBB9D5DC1059ED8, 0x629A292A367CD507, 0x9159015A3070DD17, 0x152FECD8F70E5939,
   0x67332667FFC00B31, 0x8EB44A8768581511, 0xDB0C2E0D64F98FA7, 0x47B5481DBEFA4FA4]

/-- A message padded to whole blocks of `b` octets with its length in `l` octets. -/
def shaPad (b l : Nat) (bs : List Byte) : List Byte :=
  bs ++ [0x80] ++ List.replicate ((2 * b - 1 - l - bs.length % b) % b) 0 ++ beBytes l (8 * bs.length)

/-- A word of `w` bits turned right. -/
def rotr (w n x : Nat) : Nat := (x >>> n ||| x <<< (w - n)) % 2 ^ w

/-- Three rotations combined, the third a shift where `sh`. -/
def sigma (w : Nat) (sh : Bool) (a b c x : Nat) : Nat := rotr w a x ^^^ rotr w b x ^^^ if sh then x >>> c else rotr w c x

/-- The big-endian words of a block, `n` octets each. -/
def wordsOf (n : Nat) (bs : List Byte) : List Nat := (List.range 16).map fun i => ofBe ((bs.drop (n * i)).take n)

/-- The sixteen words of a block extended, each from those before it, latest first. -/
def extend (f : List Nat → Nat) (n : Nat) (ws : List Nat) : List Nat :=
  ((List.range n).foldl (fun ws _ => f ws :: ws) ws.reverse).reverse

/-- One block of SHA-2 with words of `w` bits. -/
def sha2Block (w : Nat) (ks : List Nat) (h : List Nat) (block : List Byte) : List Nat :=
  let m := 2 ^ w
  let g := fun (ws : List Nat) =>
    if w = 64 then (sigma 64 true 19 61 6 (ws.getD 1 0) + ws.getD 6 0 + sigma 64 true 1 8 7 (ws.getD 14 0) + ws.getD 15 0) % m
    else (sigma 32 true 17 19 10 (ws.getD 1 0) + ws.getD 6 0 + sigma 32 true 7 18 3 (ws.getD 14 0) + ws.getD 15 0) % m
  let ws := extend g (ks.length - 16) (wordsOf (w / 8) block)
  let s := (List.zip ks ws).foldl
    (fun (s : List Nat) x =>
      match s with
      | [a, b, c, d, e, f, g, h] =>
        let s1 := if w = 64 then sigma 64 false 14 18 41 e else sigma 32 false 6 11 25 e
        let s0 := if w = 64 then sigma 64 false 28 34 39 a else sigma 32 false 2 13 22 a
        let t := h + s1 + ((e &&& f) ^^^ ((m - 1 - e) &&& g)) + x.1 + x.2
        [(t + s0 + ((a &&& b) ^^^ (a &&& c) ^^^ (b &&& c))) % m, a, b, c, (d + t) % m, e, f, g]
      | s => s)
    h
  List.zipWith (fun x y => (x + y) % m) h s

/-- SHA-2: word width, initial value, octets of output. -/
def sha2 (w : Nat) (init : List Nat) (n : Nat) (bs : List Byte) : List Byte :=
  let ks := if w = 64 then shaK1 ++ shaK2 else ((shaK1 ++ shaK2).take 64).map (· >>> 32)
  let p := shaPad (2 * w) (w / 4) bs
  let h := (List.range (p.length / (2 * w))).foldl (fun h i => sha2Block w ks h ((p.drop (2 * w * i)).take (2 * w))) init
  (h.flatMap (beBytes (w / 8))).take n

/-- One block of SHA-1. -/
def sha1Block (h : List Nat) (block : List Byte) : List Nat :=
  let m := 2 ^ 32
  let ws := extend (fun ws => rotr 32 31 (ws.getD 2 0 ^^^ ws.getD 7 0 ^^^ ws.getD 13 0 ^^^ ws.getD 15 0)) 64 (wordsOf 4 block)
  let s := ws.zipIdx.foldl
    (fun (s : List Nat) x =>
      match s with
      | [a, b, c, d, e] =>
        let f := if x.2 < 20 then (b &&& c) ^^^ ((m - 1 - b) &&& d)
          else if 40 ≤ x.2 ∧ x.2 < 60 then (b &&& c) ^^^ (b &&& d) ^^^ (c &&& d) else b ^^^ c ^^^ d
        let k := [0x5A827999, 0x6ED9EBA1, 0x8F1BBCDC, 0xCA62C1D6].getD (x.2 / 20) 0
        [(rotr 32 27 a + f + e + k + x.1) % m, a, rotr 32 2 b, c, d]
      | s => s)
    h
  List.zipWith (fun x y => (x + y) % m) h s

def sha1 (bs : List Byte) : List Byte :=
  let p := shaPad 64 8 bs
  let h := (List.range (p.length / 64)).foldl (fun h i => sha1Block h ((p.drop (64 * i)).take 64))
    [0x67452301, 0xEFCDAB89, 0x98BADCFE, 0x10325476, 0xC3D2E1F0]
  h.flatMap (beBytes 4)

/-! ### SHA-3 -/

/-- One step of the shift register of FIPS 202, x^8 + x^6 + x^5 + x^4 + 1, whose lowest bit is its output. -/
def keccakLfsr (r : Nat) : Nat := if r < 128 then 2 * r else (2 * r) ^^^ 0x171

/-- The 24 round constants: of each, bit 2^j − 1 is the register's next output, for j 0 to 6. -/
def keccakRC : List Nat :=
  ((List.range 24).foldl (fun (l : List Nat × Nat) _ =>
    let c := (List.range 7).foldl (fun (c : Nat × Nat) j => (c.1 + (c.2 % 2) * 2 ^ (2 ^ j - 1), keccakLfsr c.2)) (0, l.2)
    (l.1 ++ [c.1], c.2)) ([], 1)).1

/-- The rotation of each lane x + 5y: the lanes met from (1, 0) by (x, y) to (y, 2x + 3y) turn by the triangular numbers. -/
def keccakRot : List Nat :=
  ((List.range 24).foldl (fun (l : List Nat × Nat) t =>
    (l.1.set l.2 ((t + 1) * (t + 2) / 2 % 64), l.2 / 5 + 5 * ((2 * (l.2 % 5) + 3 * (l.2 / 5)) % 5)))
    (List.replicate 25 0, 1)).1

/-- Theta: into each lane go the parities of the column to its left and of the one to its right turned by one. -/
def keccakTheta (a : List Nat) : List Nat :=
  let parity := fun (x : Nat) => (List.range 5).foldl (fun c y => c ^^^ a.getD (x % 5 + 5 * y) 0) 0
  let mix := (List.range 5).map fun x => parity (x + 4) ^^^ rotr 64 63 (parity (x + 1))
  a.zipIdx.map fun l => l.1 ^^^ mix.getD (l.2 % 5) 0

/-- Rho and pi: lane (x, y) takes the turned lane (x + 3y, x). -/
def keccakMove (rot a : List Nat) : List Nat :=
  (List.range 25).map fun i =>
    let source := (i % 5 + 3 * (i / 5)) % 5 + 5 * (i % 5)
    rotr 64 (64 - rot.getD source 0) (a.getD source 0)

/-- Chi: in each row, a lane takes the second lane on from it where the first on from it is clear. -/
def keccakChi (a : List Nat) : List Nat :=
  a.zipIdx.map fun l =>
    let on := fun (k : Nat) => a.getD (l.2 / 5 * 5 + (l.2 + k - l.2 / 5 * 5) % 5) 0
    l.1 ^^^ (on 2 - (on 1 &&& on 2))

/-- Keccak-f[1600] on the 25 lanes; iota adds the round constant to lane 0. -/
def keccakF (a : List Nat) : List Nat :=
  let rot := keccakRot
  keccakRC.foldl (fun a rc => (keccakChi (keccakMove rot (keccakTheta a))).modify 0 (· ^^^ rc)) a

/-- The sponge's padding of a message of `n` octets: the domain octet, and bit 7 of the block's last octet. -/
def spongePad (r : Nat) (dom : Byte) (n : Nat) : List Byte :=
  (dom :: List.replicate (r - 1 - n % r) 0).modify (r - 1 - n % r) (· ||| 0x80)

/-- A block added to the state, lane by lane, and the permutation. -/
def spongeAbsorb (s : List Nat) (block : List Byte) : List Nat :=
  keccakF (s.zipIdx.map fun l => l.1 ^^^ ofLe ((block.drop (8 * l.2)).take 8))

/-- The sponge of a rate of `r` octets with a domain octet: `n` octets of output. -/
def sponge (r : Nat) (dom : Byte) (n : Nat) (bs : List Byte) : List Byte :=
  let m := bs ++ spongePad r dom bs.length
  let s := (List.range (m.length / r)).foldl (fun s i => spongeAbsorb s ((m.drop (r * i)).take r)) (List.replicate 25 0)
  let out := (List.range ((n + r - 1) / r)).foldl (fun (x : List Byte × List Nat) _ =>
    (x.1 ++ (x.2.flatMap (leBytes 8)).take r, keccakF x.2)) ([], s)
  out.1.take n

/-! ### Digests by the hash codes of R255 -/

/-- The digest of a hash code: 0 SHA-1, 1 SHA-224, 2 SHA-256, 3 SHA-384, 4 SHA-512, 5 SHA3-256, 6 SHA3-384, 7 SHA3-512. -/
def hash (code : Nat) (bs : List Byte) : List Byte :=
  match code with
  | 0 => sha1 bs
  | 1 => sha2 32 (sha384Init.map (· % 2 ^ 32)) 28 bs
  | 2 => sha2 32 (sha512Init.map (· >>> 32)) 32 bs
  | 3 => sha2 64 sha384Init 48 bs
  | 4 => sha2 64 sha512Init 64 bs
  | 5 => sponge 136 0x06 32 bs
  | 6 => sponge 104 0x06 48 bs
  | _ => sponge 72 0x06 64 bs

/-- `n` octets of SHAKE128 (code 8), else of SHAKE256. -/
def shake (code n : Nat) (bs : List Byte) : List Byte := sponge (if code = 8 then 168 else 136) 0x1F n bs

/-! ### X25519 -/

/-- The field of RFC 7748. -/
abbrev p25519 : Nat := 2 ^ 255 - 19

/-- x^(p − 2), from the most significant bit of the exponent. -/
def inv25519 (x : Nat) : Nat :=
  (List.range 255).foldl (fun r i => let q := r * r % p25519; if (p25519 - 2).testBit (254 - i) then q * x % p25519 else q) 1

/-- One step of the ladder on (x2, z2, x3, z3) for bit `b` of the scalar. -/
def ladder (x1 : Nat) (b : Bool) (s : Nat × Nat × Nat × Nat) : Nat × Nat × Nat × Nat :=
  let m := p25519
  let (x2, z2, x3, z3) := if b then (s.2.2.1, s.2.2.2, s.1, s.2.1) else s
  let a := (x2 + z2) % m
  let c := (x2 + m - z2) % m
  let aa := a * a % m
  let bb := c * c % m
  let e := (aa + m - bb) % m
  let da := (x3 + m - z3) * a % m
  let cb := (x3 + z3) * c % m
  let u := (da + m - cb) % m
  let r := (aa * bb % m, e * (aa + 121665 * e) % m, (da + cb) * (da + cb) % m, x1 * (u * u) % m)
  if b then (r.2.2.1, r.2.2.2, r.1, r.2.1) else r

/-- X25519 of a scalar and a u-coordinate, 32 octets each. -/
def x25519 (k u : List Byte) : List Byte :=
  let n := ofLe (k.take 32)
  let n := (n % 2 ^ 254 / 8) * 8 + 2 ^ 254
  let x1 := ofLe (u.take 32) % 2 ^ 255 % p25519
  let s := (List.range 255).foldl (fun s i => ladder x1 (n.testBit (254 - i)) s) (1, 0, x1, 1)
  leBytes 32 (s.1 * inv25519 s.2.1 % p25519)

end Sys2Proof.Standard
end

