-- ==== Sys2Proof/Machine/Crypto.lean ====
section
/-! DEFINITION. The modes and constructions that the spec names by their standards, written over the block ciphers and
digests of Standards.lean (log entry 145): CBC-MAC and CMAC, CTR_DRBG (SP 800-90A), the KDF of SP 800-108, RFC 3394 key wrap,
GHASH and POLYVAL, and AES-GCM-SIV (RFC 8452). -/

namespace Sys2Proof.Crypto

/-- Octets XORed place by place, as long as the first. -/
def xorB : List Byte → List Byte → List Byte
  | a :: as, b :: bs => (a ^^^ b) :: xorB as bs
  | as, _ => as

/-- Pieces of `n` octets, the last one shorter; `fuel` bounds the pieces. -/
def chunks (n : Nat) : Nat → List Byte → List (List Byte)
  | 0, _ => []
  | fuel + 1, bs => if bs = [] then [] else bs.take n :: chunks n fuel (bs.drop n)

/-- All pieces of `n` octets. -/
def pieces (n : Nat) (bs : List Byte) : List (List Byte) := chunks n (bs.length + 1) bs

/-- Octets padded with zero on the right to `n`. -/
def padR (n : Nat) (bs : List Byte) : List Byte := bs ++ List.replicate (n - bs.length) 0

/-- A block cipher on octets: its block length and the two directions under a key. -/
structure Cipher where
  size : Nat
  enc  : List Byte → List Byte
  dec  : List Byte → List Byte

/-- AES under a key of 16, 24 or 32 octets. -/
def aes (key : List Byte) : Cipher :=
  { size := 16
    enc := fun b => beBytes 16 (Standard.aesEnc key (BitVec.ofNat 128 (ofBe b))).toNat
    dec := fun b => beBytes 16 (Standard.aesDec key (BitVec.ofNat 128 (ofBe b))).toNat }

/-- One DES block. -/
def desE (k b : List Byte) : List Byte := beBytes 8 (Standard.desEnc k (BitVec.ofNat 64 (ofBe b))).toNat
def desD (k b : List Byte) : List Byte := beBytes 8 (Standard.desDec k (BitVec.ofNat 64 (ofBe b))).toNat

/-- TDES under 16 octets (K3 = K1) or 24 octets, SP 800-67. -/
def tdes (key : List Byte) : Cipher :=
  let k1 := key.take 8
  let k2 := (key.drop 8).take 8
  let k3 := if key.length = 24 then key.drop 16 else k1
  { size := 8
    enc := fun b => desE k3 (desD k2 (desE k1 b))
    dec := fun b => desD k1 (desE k2 (desD k3 b)) }

/-- CBC-MAC of whole blocks from a chaining value. -/
def cbcMac (c : Cipher) (iv bs : List Byte) : List Byte :=
  (pieces c.size bs).foldl (fun h b => c.enc (xorB h (padR c.size b))) iv

/-- Doubling in the CMAC field (SP 800-38B): Rb is 0x87 for 16 octets and 0x1B for 8. -/
def dbl (bs : List Byte) : List Byte :=
  let n := 8 * bs.length
  let v := ofBe bs
  let w := 2 * v % 2 ^ n
  beBytes bs.length (if v < 2 ^ (n - 1) then w else w ^^^ (if bs.length = 16 then 0x87 else 0x1B))

/-- CMAC (SP 800-38B), the whole MAC. -/
def cmac (c : Cipher) (msg : List Byte) : List Byte :=
  let k1 := dbl (c.enc (List.replicate c.size 0))
  let k2 := dbl k1
  let n := (msg.length + c.size - 1) / c.size - 1
  let head := msg.take (n * c.size)
  let last := msg.drop (n * c.size)
  let fin :=
    if last.length = c.size then xorB last k1 else xorB (padR c.size (last ++ [0x80])) k2
  cbcMac c (List.replicate c.size 0) (head ++ fin)

/-! ### CTR_DRBG with AES-256 and no derivation function (SP 800-90A) -/

/-- `n` blocks of the expander's counter stream, V advanced before each. -/
def ctrBlocks (key : List Byte) (v : Nat) : Nat → List Byte
  | 0 => []
  | n + 1 => (aes key).enc (beBytes 16 ((v + 1) % 2 ^ 128)) ++ ctrBlocks key (v + 1) n

/-- CTR_DRBG_Update: the next key and V. -/
def drbgUpdate (key : List Byte) (v : Nat) (data : List Byte) : List Byte × Nat :=
  let t := xorB (ctrBlocks key v 3) data
  (t.take 32, ofBe (t.drop 32))

/-- Generate `n` octets: the octets, and the state after the update. -/
def drbgGen (key : List Byte) (v n : Nat) : List Byte × List Byte × Nat :=
  let k := (n + 15) / 16
  (((ctrBlocks key v k).take n), drbgUpdate key ((v + k) % 2 ^ 128) (List.replicate 48 0))

/-! ### Key derivation and wrapping -/

/-- The KDF of SP 800-108 in counter mode with AES-256 CMAC and an empty context: `n` octets (R346). -/
def kdf (key label : List Byte) (n : Nat) : List Byte :=
  ((List.range ((n + 15) / 16)).flatMap fun i =>
    cmac (aes key) (beBytes 4 (i + 1) ++ label ++ [0x00#8] ++ beBytes 4 (8 * n))).take n

/-- One step of RFC 3394 wrap on semiblock `i`: A and the list of semiblocks. -/
def wrapStep (c : Cipher) (n : Nat) (s : List Byte × List (List Byte)) (t : Nat) : List Byte × List (List Byte) :=
  let i := t % n
  let b := c.enc (s.1 ++ s.2.getD i [])
  (xorB (b.take 8) (beBytes 8 (t + 1)), s.2.set i (b.drop 8))

/-- RFC 3394 wrap of whole semiblocks under an initial value. -/
def keyWrapIv (c : Cipher) (iv p : List Byte) : List Byte :=
  let r := pieces 8 p
  let (a, rs) := (List.range (6 * r.length)).foldl (wrapStep c r.length) (iv, r)
  a ++ rs.flatten

/-- One step of RFC 3394 unwrap. -/
def unwrapStep (c : Cipher) (n : Nat) (s : List Byte × List (List Byte)) (t : Nat) : List Byte × List (List Byte) :=
  let i := t % n
  let b := c.dec (xorB s.1 (beBytes 8 (t + 1)) ++ s.2.getD i [])
  (b.take 8, s.2.set i (b.drop 8))

/-- RFC 3394 unwrap: the integrity value and the semiblocks. -/
def keyUnwrapIv (c : Cipher) (w : List Byte) : List Byte × List Byte :=
  let r := pieces 8 (w.drop 8)
  let (a, rs) := (List.range (6 * r.length)).reverse.foldl (unwrapStep c r.length) (w.take 8, r)
  (a, rs.flatten)

/-- The default initial value of RFC 3394. -/
def kwIv : List Byte := List.replicate 8 0xA6#8

def keyWrap (c : Cipher) (p : List Byte) : List Byte := keyWrapIv c kwIv p

/-- The unwrapped octets when the integrity value holds. -/
def keyUnwrap (c : Cipher) (w : List Byte) : Option (List Byte) :=
  let (a, p) := keyUnwrapIv c w
  if a = kwIv then some p else none

/-! ### GHASH, POLYVAL and GCM-SIV -/

/-- One bit of the GHASH product (SP 800-38D): Z and V, for bit `i` of X from the most significant. -/
def ghashBit (x : Block) (s : Block × Block) (i : Nat) : Block × Block :=
  let z := if x.getMsbD i then s.1 ^^^ s.2 else s.1
  let v := if s.2.getLsbD 0 then (s.2 >>> 1) ^^^ (0xE1#128 <<< 120) else s.2 >>> 1
  (z, v)

/-- The product of two blocks in the GHASH field. -/
def ghashMul (x y : Block) : Block := ((List.range 128).foldl (ghashBit x) (0, y)).1

/-- GHASH of whole blocks under H, from a chaining value. -/
def ghash (h : Block) (y : Block) (bs : List Byte) : Block :=
  (pieces 16 bs).foldl (fun y b => ghashMul (y ^^^ BitVec.ofNat 128 (ofBe (padR 16 b))) h) y

/-- Octets reversed in each block: POLYVAL is GHASH with the octet order turned and H multiplied by x (RFC 8452, app. A). -/
def mulX (h : Block) : Block := if h.getLsbD 0 then (h >>> 1) ^^^ (0xE1#128 <<< 120) else h >>> 1

/-- POLYVAL of whole blocks (RFC 8452). -/
def polyval (h bs : List Byte) : List Byte :=
  (beBytes 16
    (ghash (mulX (BitVec.ofNat 128 (ofBe h.reverse))) 0 ((pieces 16 bs).flatMap fun b => (padR 16 b).reverse)).toNat).reverse

/-- Zero-padded to whole blocks. -/
def pad16 (bs : List Byte) : List Byte := bs ++ List.replicate ((16 - bs.length % 16) % 16) 0

/-- The keys of RFC 8452 for a nonce: message-authentication (16 octets) and message-encryption (32). -/
def sivKeys (key nonce : List Byte) : List Byte × List Byte :=
  let d := fun (i : Nat) => ((aes key).enc (leBytes 4 i ++ nonce)).take 8
  (d 0 ++ d 1, d 2 ++ d 3 ++ d 4 ++ d 5)

/-- The tag of RFC 8452. -/
def sivTag (key nonce aad pt : List Byte) : List Byte :=
  let (mk, ek) := sivKeys key nonce
  let s := polyval mk (pad16 aad ++ pad16 pt ++ leBytes 8 (8 * aad.length) ++ leBytes 8 (8 * pt.length))
  let x := xorB s nonce
  (aes ek).enc (x.take 15 ++ [x.getD 15 0 &&& 0x7F])

/-- The counter stream of RFC 8452: a 32-bit little-endian counter in the first four octets of the tag. -/
def sivCrypt (ek tag bs : List Byte) : List Byte :=
  let c0 := ofLe (tag.take 4)
  let tail := (tag.drop 4).set 11 (tag.getD 15 0 ||| 0x80)
  ((pieces 16 bs).zipIdx.flatMap fun x => xorB x.1 ((aes ek).enc (leBytes 4 ((c0 + x.2) % 2 ^ 32) ++ tail)))

/-- AES-256-GCM-SIV: ciphertext and tag. -/
def sivSeal (key nonce aad pt : List Byte) : List Byte :=
  let t := sivTag key nonce aad pt
  sivCrypt (sivKeys key nonce).2 t pt ++ t

/-- The plaintext, when the tag holds. -/
def sivOpen (key nonce aad ct : List Byte) : Option (List Byte) :=
  let t := ct.drop (ct.length - 16)
  let pt := sivCrypt (sivKeys key nonce).2 t (ct.take (ct.length - 16))
  if sivTag key nonce aad pt = t then some pt else none

end Sys2Proof.Crypto
end

