-- ==== Sys2Proof/Machine/Modes.lean ====
section
/-! DEFINITION. The cipher modes of the pans (R255 to R261, R269) over the block ciphers of Crypto.lean: SP 800-38A, SP 800-38D,
IEEE 1619, ISO 9797-1 and FIPS 198-1. -/

namespace Sys2Proof.Crypto

/-! ### Block lengths, digests and HMAC -/

/-- The digest octets of the hash codes 0x0 to 0x7 of R255. -/
def digestLen (code : Nat) : Nat :=
  match code with
  | 0 => 20 | 1 => 28 | 2 | 5 => 32 | 3 | 6 => 48 | _ => 64

/-- The block octets of a hash code (R252). -/
def hashBlock (code : Nat) : Nat :=
  match code with
  | 0 | 1 | 2 => 64 | 3 | 4 => 128 | 5 | 9 => 136 | 6 => 104 | 7 => 72 | _ => 168

/-- The digest of a hash code; SHAKE gives `n` octets. -/
def digest (code n : Nat) (bs : List Byte) : List Byte := if code < 8 then Standard.hash code bs else Standard.shake code n bs

/-- HMAC over a hash code with a key no longer than its block (FIPS 198-1). -/
def hmac (code : Nat) (key bs : List Byte) : List Byte :=
  let k := padR (hashBlock code) key
  Standard.hash code (k.map (· ^^^ 0x5C#8) ++ Standard.hash code (k.map (· ^^^ 0x36#8) ++ bs))

/-! ### Modes over whole or trailing blocks: the output octets and the chaining value -/

/-- A key's cipher: TDES for the TDES algorithms, else AES. -/
def cipherOf (tdesAlg : Bool) (key : List Byte) : Cipher := if tdesAlg then tdes key else aes key

def ecb (f : List Byte → List Byte) (size : Nat) (bs : List Byte) : List Byte := (pieces size bs).flatMap f

def cbcEnc (c : Cipher) (iv bs : List Byte) : List Byte × List Byte :=
  (pieces c.size bs).foldl (fun s b => let y := c.enc (xorB b s.2); (s.1 ++ y, y)) ([], iv)

def cbcDec (c : Cipher) (iv bs : List Byte) : List Byte × List Byte :=
  (pieces c.size bs).foldl (fun s b => (s.1 ++ xorB (c.dec b) s.2, b)) ([], iv)

/-- CFB with a feedback of one block: a trailing short block leaves its octets at the head of the chaining value. -/
def cfb (enc : Bool) (c : Cipher) (iv bs : List Byte) : List Byte × List Byte :=
  (pieces c.size bs).foldl
    (fun s b =>
      let y := xorB b (c.enc s.2)
      (s.1 ++ y, if enc then y else b))
    ([], iv)

def ofb (c : Cipher) (iv bs : List Byte) : List Byte × List Byte :=
  (pieces c.size bs).foldl (fun s b => let k := c.enc s.2; (s.1 ++ xorB b k, k)) ([], iv)

/-- A counter block advanced by `n` in its low `w` bits. -/
def ctrAdd (w : Nat) (ctr : List Byte) (n : Nat) : List Byte :=
  let v := ofBe ctr
  beBytes ctr.length (v / 2 ^ w * 2 ^ w + (v + n) % 2 ^ w)

/-- CTR from octet `pos` of the keystream that starts at counter block `ctr`. -/
def ctrAt (c : Cipher) (w : Nat) (ctr : List Byte) (pos : Nat) (bs : List Byte) : List Byte :=
  let first := pos / c.size
  let n := (pos + bs.length + c.size - 1) / c.size - first
  let ks := (List.range n).flatMap fun i => c.enc (ctrAdd w ctr (first + i))
  xorB bs (ks.drop (pos % c.size))

/-! ### GCM (SP 800-38D) with a 12-octet IV -/

/-- The counter block of the tag. -/
def gcmJ0 (iv : List Byte) : List Byte := iv ++ [0, 0, 0, 1]

/-- Octets enciphered from position `pos` of the data. -/
def gcmCrypt (key iv : List Byte) (pos : Nat) (bs : List Byte) : List Byte :=
  ctrAt (aes key) 32 (ctrAdd 32 (gcmJ0 iv) 1) pos bs

/-- The whole tag over associated data and ciphertext. -/
def gcmTag (key iv aad ct : List Byte) : List Byte :=
  let h := BitVec.ofNat 128 (ofBe ((aes key).enc (List.replicate 16 0)))
  let y := ghash h 0 (pad16 aad ++ pad16 ct ++ beBytes 8 (8 * aad.length) ++ beBytes 8 (8 * ct.length))
  xorB (beBytes 16 y.toNat) ((aes key).enc (gcmJ0 iv))

/-! ### XTS (IEEE 1619) -/

/-- A tweak multiplied by α. -/
def xtsDbl (t : Nat) : Nat := if t < 2 ^ 127 then 2 * t else (2 * t % 2 ^ 128) ^^^ 0x87

/-- Whole blocks from octet `pos` of a stream whose data units have `size` octets and start at number `unit`. -/
def xts (enc : Bool) (key key2 : List Byte) (size unit pos : Nat) (bs : List Byte) : List Byte :=
  (pieces 16 bs).zipIdx.flatMap fun x =>
    let at_ := pos + 16 * x.2
    let t0 := ofLe ((aes key2).enc (leBytes 16 ((unit + at_ / size) % 2 ^ 128)))
    let t := leBytes 16 ((List.range (at_ % size / 16)).foldl (fun t _ => xtsDbl t) t0)
    xorB ((if enc then (aes key).enc else (aes key).dec) (xorB x.1 t)) t

/-! ### ISO 9797-1 (R257) -/

/-- Single DES as a cipher. -/
def des (key : List Byte) : Cipher := { size := 8, enc := desE key, dec := desD key }

/-- The finish of algorithm 3: a decryption under the second part of the key, an encryption under the third or the first. -/
def retail (key h : List Byte) : List Byte :=
  let k1 := key.take 8
  let k3 := if key.length = 24 then key.drop 16 else k1
  desE k3 (desD ((key.drop 8).take 8) h)

end Sys2Proof.Crypto
end

