-- ==== Sys2Proof/Machine/State.lean ====
section
/-! DEFINITION. The state of one HX6400: every register, FIFO, buffer, counter, mode and pin the spec gives the part, as
plain data, block by block; the reasons a step can stop; and the state right after reset. A field's default value is its
value at reset: the one the spec gives, or the one a log entry names (notes/assumptions). Families of like registers and
memories are held as canonical association lists (`Tab`), read and written only by the operations of Machine/Ops.lean. -/

namespace Sys2Proof.Machine

/-- Sparse storage keyed by an index or address: keys strictly rising, and no entry equal to what an unlisted key reads as
(that default is an argument of every access). -/
abbrev Tab (α : Type) := List (Nat × α)

/-- A byte memory: `Host.Cell`s in the canonical form of `Tab`. -/
abbrev Mem := List Host.Cell

/-- The copies of a staged field set (R4 type SC, R6, R640, R641): the staging copy, the pending set of an accepted
COMMIT, and the set in effect. -/
structure Staged (α : Type) where
  stage : α
  pend  : Option α := none
  eff   : α
  deriving DecidableEq, Repr

/-- The operating modes of R444. -/
inductive Mode where
  | backup | wake | assay | service | standby | ceremony | frozen | quarantine
  deriving DecidableEq, Repr

/-- The life-cycle states of R454. -/
inductive Life where
  | blank | tested | provisioned | owned | analysis | scrapped
  deriving DecidableEq, Repr

/-- The fuse banks: the life-cycle word (R454), the root bank and its marks (R462), the one-way switches of R459, the
anti-rollback thermometer (R489), the owner bank (R487), and the identity fuses (R673). -/
structure Fuses where
  lcWord      : BitVec 5
  rootSet     : Bool
  rootOk      : Bool
  rootBits    : BitVec 256
  rootDisable : Bool
  scanDisable : Bool
  arb         : BitVec 128
  owner       : List (BitVec 384)
  lot         : BitVec 24
  wafer       : BitVec 5
  dieX        : BitVec 8
  dieY        : BitVec 8
  testSite    : BitVec 4
  deriving DecidableEq, Repr

/-- The fuses of the part as the model starts it: PROVISIONED, as shipped (R509), nothing else blown. DESIGN CHOICE, log
entry 6: the spec gives the fuse registers' reset values as 'by fuses'. -/
def Fuses.shipped : Fuses :=
  { lcWord := 0b00011#5, rootSet := false, rootOk := false, rootBits := 0, rootDisable := false, scanDisable := false
    arb := 0, owner := [], lot := 0, wafer := 1, dieX := 0, dieY := 0, testSite := 0 }

/-! ### Tally Book (18_tally_book.md) -/

/-- A record before it is laid out in octets (R584, R585). -/
structure Rec where
  code    : BitVec 16
  sev     : BitVec 2
  detail  : Word := 0
  aux     : Word := 0
  count   : Word := 0
  payload : List Byte := []
  secs    : BitVec 64 := 0
  frac    : BitVec 16 := 0
  summary : Bool := false
  held    : Bool := false
  trunc   : Bool := false
  battery : Bool := false
  deriving DecidableEq, Repr

/-- A record's place in the main ring: offset, length, whether it has been copied to flash, and whether a page closes
after it (R594, R607). -/
structure RingEntry where
  off       : Nat
  len       : Nat
  persisted : Bool
  closes    : Bool
  deriving DecidableEq, Repr

/-- A tracked code of the rate limiter (R597 to R599). -/
structure LimEntry where
  code       : BitVec 16
  written    : Nat          -- records written in the window
  suppressed : Nat := 0     -- records suppressed in the flood
  inWindow   : Nat := 0     -- of them, in the present window
  lastDetail : Word := 0
  firstSecs  : Word := 0
  flood      : Bool := false
  sev        : BitVec 2 := 0
  deriving DecidableEq, Repr

/-- One world's EVR_SW register set. -/
structure EvrSw where
  number : BitVec 12 := 0
  sev    : BitVec 2 := 0
  plen   : BitVec 8 := 0
  detail : Word := 0
  aux    : Word := 0
  pay    : Tab Word := []
  deriving DecidableEq, Repr

/-- The staged fields of the EVR block: EVR_CFG, EVR_RATE and the sixteen EVR_OVRk. -/
structure EvrCfg where
  cfg  : Word := 0x6410#32          -- FLUSH_MS 100, BUDGET 16
  rate : Word := 0x00C84010#32      -- WARNING 200, NOTICE 64, INFO 16
  ovr  : Tab Word := []
  deriving DecidableEq, Repr

/-- The Tally Book (EVR block). -/
structure Evr where
  cfgMismatch  : Bool := false
  persistOn    : Bool := false
  frozen       : Bool := false
  freezeWorld  : Bool := false
  freezeBroken : Bool := false
  scanning     : Bool := false
  storeLost    : Bool := false
  flashErr     : Bool := false
  blogOverrun  : Bool := false
  swErr        : Bool := false
  st           : Staged EvrCfg := { stage := {}, eff := {} }
  irqSev       : BitVec 2 := 2
  pending      : Bool := false
  store        : Mem := []              -- the 4 MiB event store, by offset
  wp           : Nat := 0
  critWp       : Nat := 0x380000
  ring         : List RingEntry := []   -- live records of the main ring, oldest first
  seq          : BitVec 32 := 0
  dropInfo     : BitVec 8 := 0
  dropNotice   : BitVec 8 := 0
  dropWarning  : BitVec 8 := 0
  lost         : BitVec 4 := 0
  untracked    : BitVec 4 := 0
  dropPend     : Tab Nat := []          -- by severity: dropped since the last DROPPED record (R596)
  limiter      : List LimEntry := []
  hold         : List Rec := []
  holdDropped  : BitVec 8 := 0
  holdNow      : Nat := 0               -- records dropped during the present freeze
  queryCode    : BitVec 16 := 0
  swN          : EvrSw := {}
  swS          : EvrSw := {}
  persistEn    : Bool := false
  sector       : BitVec 12 := 0
  sectorSeq    : BitVec 64 := 0
  page         : Nat := 0               -- next page of the sector being written, 0 to 15
  folds        : List (List Byte) := []  -- alarm records written and not yet folded into the evidence chain (R581)
  rdWord       : BitVec 20 := 0
  blogWord     : BitVec 11 := 0
  deriving DecidableEq, Repr

/-! ### Salt Crust and battery domain (17_salt_crust.md) -/

/-- The alarms of R562, in index order. -/
inductive Alarm where
  | meshBreak | light | voltGlitch | voltRange | tempLow | tempHigh | clkGlitch | clkDrift | clkSource | resetGlitch
  | decisionSplit | sealedColour | coreLockup | entDegraded | entExhausted | entKat | meshTransient | batLow | suspendStorm
  deriving DecidableEq, Repr

/-- The CRUST entry in effect (R563, R712): rank octets (0xFF the default) and the bounds. -/
structure CrustCfg where
  ranks    : List Byte := List.replicate 19 0xFF#8
  tempLow  : BitVec 8 := 0xD8#8       -- −40
  tempHigh : BitVec 8 := 125
  lightMin : BitVec 8 := 40
  lightMax : BitVec 8 := 160
  vglMin   : BitVec 16 := 60
  vglMax   : BitVec 16 := 100
  deriving DecidableEq, Repr

/-- What the mesh remembers of one net (R562, R707). -/
structure NetHist where
  lone   : Bool := false        -- the last step was a mismatch not yet classed
  broken : Bool := false        -- a MESH_BREAK condition stands, until the net matches
  recent : List Nat := []       -- numbers of the mismatching steps within the last 1 ms
  deriving DecidableEq, Repr

/-- A double decision whose first evaluation has been taken and whose second is due (R568, R569). -/
inductive Decision where
  | securePort (cmd first : BitVec 8)      -- key-usage grant: WRITE, OPEN_LANDING, BLOB_OPEN; the first evaluation's RESULT
  | lifeCycle (target : BitVec 3) (first : Bool)
  | debugUnlock (first : Bool)
  | quorum (first : Bool)
  | gateClaim (first : Bool)
  | zeroise                          -- the protective decision of R571
  deriving DecidableEq, Repr

/-- The Salt Crust (TMP block). -/
structure Tmp where
  latched   : BitVec 19 := 0
  conds     : List (Nat × Nat) := []      -- conditions that hold now: alarm index and sensor instance (TMP_COND, R707)
  crust     : CrustCfg := {}
  applied   : BitVec 3 := 0
  throttled : Bool := false
  suspends  : List (BitVec 80) := []      -- times of the Suspend responses of the last 1 s (R572)
  light     : BitVec 8 := 40
  vgl       : BitVec 8 := 60
  temps     : Tab (BitVec 12) := []
  tempRuns  : Tab Nat := []               -- successive samples below TEMP_LOW (k) or above TEMP_HIGH (k + 4)
  meshFail  : BitVec 64 := 0
  nets      : Tab NetHist := []
  meshStep  : Nat := 0
  meshSeed  : BitVec 64 := 0
  decisions : BitVec 16 := 0
  lastR     : BitVec 8 := 0
  splits    : BitVec 8 := 0
  due       : List Decision := []         -- decisions awaiting their second evaluation, oldest first
  draw      : List Byte := []             -- delays left of the last MASK draw (R568)
  deriving DecidableEq, Repr

/-- A record of the battery log (R604) with its own SEQ and its FOLDED mark. -/
structure BlogRec where
  slot   : Nat
  item   : Rec
  seq    : Word
  folded : Bool
  deriving DecidableEq, Repr

/-- The battery domain (BAT): retained through every reset while a cell is present. -/
structure Bat where
  secs        : BitVec 64 := 0
  frac        : BitVec 16 := 0
  evidN       : Word := 0
  evidH       : BitVec 384 := 0
  batPor      : Bool := false
  causeMesh   : Bool := false
  causeTemp   : Bool := false
  causeVolt   : Bool := false
  causeNet    : BitVec 6 := 0
  backupLatch : Bool := false
  scrapDue    : Bool := false
  onCell      : Bool := false           -- main power is absent and the domain runs on the cell (R577)
  tempLow     : BitVec 8 := 0xD8#8      -- TEMP_LOW last in effect (R690)
  pattern     : BitVec 64 := 0          -- pattern state of the domain's own expander (R565, R577; log entry 193)
  blog        : List BlogRec := []      -- at most 256, oldest first, each with its slot
  blogSeq     : Word := 0
  overrun     : Bool := false           -- BLOG_OVERRUN kept for the next start (log entry 155)
  vault       : Mem := []               -- the 64 KiB Bittern Vault
  vaultClearing : Bool := false         -- a flash-clear has begun and runs to its end (R649)
  deriving DecidableEq, Repr

/-- The AON domain: what survives a full reset and is lost at power-off. -/
structure Aon where
  failedA    : Bool := false
  failedB    : Bool := false
  resetCause : BitVec 7 := 1             -- HIF_RESET_CAUSE: POWER_ON (log entry 9)
  isolated   : BitVec 16 := 0            -- Brine Wells isolation kept for this power-up (R358)
  isoCause   : Tab (BitVec 2) := []
  deriving DecidableEq, Repr

/-! ### Charter, flash controller, boot loader (14_charter.md, 15_power_up.md) -/

/-- An owner program as the charter lists it (R135, R484). -/
structure CharterProg where
  number : BitVec 16
  mask   : BitVec 4
  admin  : Bool
  budget : BitVec 16
  minOut : Nat
  entry  : Word
  len    : Nat
  offset : Nat                                -- of the code segment from the start of the slot
  hash   : BitVec 384                         -- SHA-384 of the segment
  deriving DecidableEq, Repr

/-- The chosen charter, as the part reads it from its body at hand-off (R481 to R484, R495). -/
structure Charter where
  present     : Bool := false
  slotB       : Bool := false
  rotate      : Bool := false
  svCommit    : Bool := false
  sv          : BitVec 8 := 0
  sequence    : BitVec 64 := 0
  compatLevel : BitVec 16 := 0
  compatMin   : BitVec 16 := 0
  ownerHash   : BitVec 384 := 0
  nextHash    : BitVec 384 := 0
  subVendor   : BitVec 16 := 0
  subSystem   : BitVec 16 := 0
  minModLimbs : BitVec 9 := 0
  curveEn     : BitVec 7 := 0
  setEn       : BitVec 12 := 0
  sessionMax  : BitVec 16 := 600
  timeThresh  : Word := 0
  paired      : Bool := false
  slotPool    : BitVec 21 := 0
  granulePool : BitVec 14 := 0
  qpPool      : BitVec 13 := 0
  groupPool   : BitVec 9 := 0
  mgrAllot    : List Byte := []               -- the manager's allotment (R482)
  ceremonies  : List (BitVec 16 × BitVec 8) := []   -- per class: custodian set mask, M
  custodians  : List (BitVec 8 × BitVec 8 × List Byte) := []   -- index, algorithm, key
  partners    : List (BitVec 384) := []
  migPeers    : List (BitVec 384) := []
  programs    : List CharterProg := []
  firmware    : List (BitVec 8 × BitVec 384) := []   -- kind and SHA-384 of each permitted image (R482)
  hash        : BitVec 384 := 0               -- SHA-384 of the body, and of its PROGRAMS section (R62)
  progHash    : BitVec 384 := 0
  deriving DecidableEq, Repr

/-- The commands of the NVM block (R497). -/
inductive NvmOp where
  | read | program | erase4k | erase64k
  deriving DecidableEq, Repr

/-- One world's NVM command set. -/
structure NvmSet where
  addr   : BitVec 29 := 0
  len    : BitVec 9 := 0
  busy   : Bool := false
  done   : Bool := false
  result : BitVec 2 := 0
  buf    : Tab Word := []
  op     : Option NvmOp := none         -- the waiting or running command
  deriving DecidableEq, Repr

/-- Who gave a flash command: a world, or the boot loader (R497). -/
inductive NvmUser where
  | normal | secure | loader
  deriving DecidableEq, Repr

/-- The table of a counter group as a sector of OWNER holds it (R349, R479): its epoch, the values by index in the group, and its MAC;
none where a program command has spoilt it. -/
structure CtrTable where
  epoch  : BitVec 64
  values : Tab (BitVec 64)
  mac    : Option (List Byte)
  deriving DecidableEq, Repr

/-- The xSPI balls that the part drives: XSPI_CS_N and XSPI_RESET_N by their levels, and whether the others are driven or in high
impedance (R477). -/
structure Xspi where
  csN    : Bool := true
  resetN : Bool := true
  driven : Bool := true
  deriving DecidableEq, Repr

/-- The flash controller with its boot loader, the charter registers, and the flash device's contents. -/
structure Nvm where
  charter    : Charter := {}
  wardenB    : Bool := false
  worksB     : Bool := false
  normal     : NvmSet := {}
  secure     : NvmSet := {}
  ownerProg  : Tab Word := []
  ctrTab     : Tab (Option CtrTable) := []  -- counter tables by sector of OWNER: group j has 2j and 2j + 1 (R349, R479)
  blSrc      : BitVec 29 := 0
  blLen      : BitVec 23 := 0
  blDst      : BitVec 21 := 0
  blTarget   : BitVec 2 := 0
  blBusy     : Bool := false
  blDone     : Bool := false
  blResult   : BitVec 2 := 0
  blClosed   : Bool := false
  blHash     : BitVec 384 := 0
  queue      : List NvmUser := []       -- commands that wait or run, in arrival order (R497)
  wardenHash : BitVec 384 := 0          -- SHA-384 of the warden and works images of this start (R62, R506)
  worksHash  : BitVec 384 := 0
  flash      : Mem := []                -- contents of the configuration flash; erased octets read 0xFF
  xspi       : Xspi := {}
  density    : Nat := 0x4000000         -- 64 MiB (log entry 8)
  deriving DecidableEq, Repr

/-! ### SYS block: mailbox, interrupts, cores, DMA, modes, ceremony (12_worlds_and_checkpoints.md, 13_modes_and_life_cycle.md) -/

/-- A transfer as GO found it in the channel's registers (R433). -/
structure Transfer where
  src     : BitVec 64
  dst     : BitVec 64
  len     : Nat
  srcHost : Bool
  dstHost : Bool
  deriving DecidableEq, Repr

/-- One DMA channel (R417 to R419). -/
structure Dma where
  src     : BitVec 64 := 0
  dst     : BitVec 64 := 0
  len     : BitVec 25 := 0
  srcHost : Bool := false
  dstHost : Bool := false
  busy    : Bool := false
  done    : Bool := false
  err     : Bool := false
  cause   : BitVec 4 := 0
  count   : BitVec 25 := 0
  gen     : BitVec 16 := 0              -- rule generation the running transfer was admitted under (R433)
  run     : Option Transfer := none
  deriving DecidableEq, Repr

/-- The one ceremony session and what warden firmware keeps of it (R464 to R474). -/
structure Session where
  active    : Bool := false
  id        : BitVec 128 := 0
  fn        : Nat := 0                  -- function that opened it: 0 manager, t + 1 tenant t
  cls       : BitVec 4 := 0
  comps     : Nat := 0                  -- C
  template  : BitVec 8 := 0
  target    : BitVec 3 := 0
  key       : BitVec 32 := 0            -- transport key handle, or the key to destroy
  mask      : BitVec 10 := 0            -- DEBUG_UNLOCK grant mask and duration (R666)
  duration  : Word := 0
  challenge : List Byte := []
  counted   : BitVec 16 := 0            -- custodians counted
  got       : List (Nat × List Byte) := []   -- components received, by index
  slot      : Option Nat := none        -- landing slot opened
  executing : Bool := false             -- an EXECUTE of LIFE_CYCLE awaits its transition (R711)
  deriving DecidableEq, Repr

/-- The SYS block. -/
structure Sys where
  n2s        : Tab Word := []
  s2n        : Tab Word := []
  n2sTail    : BitVec 4 := 0
  n2sHead    : BitVec 4 := 0
  s2nTail    : BitVec 4 := 0
  s2nHead    : BitVec 4 := 0
  nErr       : Bool := false
  sErr       : Bool := false
  notice     : BitVec 7 := 0            -- HOST_RESET, CC_LOCKUP0–3, GATE_DEFERRED, LEASE_BROKEN
  irqEn      : Tab Word := []
  swiN       : Bool := false
  swiS       : Bool := false
  ccStart    : Tab Word := []
  ccStartBk  : Tab Byte := []
  lockEpc    : Tab Word := []
  lockCause  : Tab Word := []
  gpioWorld  : BitVec 16 := 0xFFFF
  dma        : Tab Dma := []
  mode       : Mode := .wake
  leftMode   : Mode := .service         -- the mode FROZEN returns to (R449)
  freezing   : Bool := false
  reqRefused : Bool := false
  quarAlarm  : Bool := false
  quarStart  : Bool := false
  quarRoot   : Bool := false
  quarBackup : Bool := false            -- BACKUP_LATCH as this start took it from BAT (R502)
  porStart   : Bool := false            -- BAT_POR as this start found it (R580)
  lcBusy     : Bool := false
  lcDone     : Bool := false
  lcRefused  : Bool := false
  lcTarget   : Option (BitVec 3) := none   -- a transition both decisions of which agreed, fuses not yet blown
  rootProg   : Tab Word := []
  rootBusy   : Bool := false
  cerActive  : Bool := false
  cerClass   : BitVec 4 := 0
  cerTarget  : BitVec 3 := 0
  cerCount   : BitVec 5 := 0
  cerFails   : BitVec 2 := 0
  cerQuorum  : Bool := false
  session    : Session := {}
  reason     : BitVec 8 := 0
  startRefused : Bool := false
  assayWd    : Bool := false
  responder  : Bool := false
  handed     : Bool := false            -- hand-off done: private memory has replaced the boot ROM (R27)
  fuses      : Fuses := Fuses.shipped   -- the fuse banks as last sensed
  unitSel    : Bool := false            -- the UNIT_SEL ball (R526)
  resetLow   : Bool := false            -- RESET_N has been low for 1 µs and the part is held (R706)
  scanStopped : Bool := false           -- SCAN has stopped the clocks (R671)
  deriving DecidableEq, Repr

/-! ### Access control (12_worlds_and_checkpoints.md) -/

/-- A region of a privileged master: RGN_BASE, RGN_LIMIT, RGN_PERM. -/
structure Region where
  base  : BitVec 28 := 0
  limit : BitVec 28 := 0
  perm  : BitVec 9 := 0
  deriving DecidableEq, Repr

/-- A fault record of R443. -/
structure FaultRec where
  addr   : BitVec 40 := 0
  master : BitVec 8 := 0
  kind   : BitVec 3 := 0
  priv   : Bool := false
  secure : Bool := false
  cause  : BitVec 3 := 0
  thread : BitVec 8 := 0
  colour : BitVec 12 := 0
  tag    : BitVec 12 := 0
  gen    : BitVec 16 := 0
  region : Option (BitVec 5) := none
  length : Word := 0
  secs   : BitVec 48 := 0
  frac   : BitVec 16 := 0
  deriving DecidableEq, Repr

/-- The ACU block. Regions are keyed 32 × master + region. -/
structure Acu where
  cfgMismatch : Bool := false
  writeLocked : Bool := false
  misCause    : BitVec 3 := 0
  misMaster   : BitVec 3 := 0
  ovlA        : BitVec 5 := 0
  ovlB        : BitVec 5 := 0
  gen         : BitVec 16 := 0
  oldInflight : Bool := false
  tagFirst    : BitVec 13 := 0
  tagCount    : BitVec 14 := 0
  tagSpace    : BitVec 2 := 0
  tagColour   : BitVec 12 := 0
  queryIndex  : BitVec 13 := 0
  querySpace  : BitVec 2 := 0
  stage       : Tab Region := []
  eff         : Tab Region := []
  tagOb       : Tab (BitVec 12) := []   -- operation buffer, unlisted 0x000
  tagEs       : Tab (BitVec 12) := []   -- event store, unlisted 0xFFF
  tagCsr      : Tab (BitVec 12) := []   -- CSR space, unlisted 0xFFF
  nfault      : List FaultRec := []
  sfault      : List FaultRec := []
  nOverflow   : BitVec 8 := 0
  sOverflow   : BitVec 8 := 0
  dmaWorld    : BitVec 64 := 0xFFFF
  dmaColour   : Tab (BitVec 12) := []   -- unlisted 0xFFF
  deriving DecidableEq, Repr

/-! ### Windpump (19_windpump.md) -/

/-- The staged fields of the WPU block. -/
structure WpuCfg where
  step1   : BitVec 8 := 100
  step2   : BitVec 8 := 110
  hyst    : BitVec 4 := 5
  cap     : BitVec 8 := 110
  margin  : BitVec 8 := 5
  slew    : BitVec 8 := 10
  slackLo : BitVec 8 := 8
  slackHi : BitVec 8 := 24
  idleNs  : BitVec 12 := 1000
  dsleep  : BitVec 16 := 1000
  caps    : Tab (BitVec 2) := []        -- CAP_STEP by island
  deriving DecidableEq, Repr

/-- One voltage island. -/
structure Island where
  step        : BitVec 2 := 0
  ageStep     : BitVec 2 := 0
  thermStep   : BitVec 2 := 0
  powerStep   : BitVec 2 := 0
  cprStep     : BitVec 2 := 0
  band        : BitVec 2 := 0
  drain       : Bool := false
  cprLimit    : Bool := false
  temp        : BitVec 12 := 0
  target      : BitVec 10 := 0
  floor       : BitVec 10 := 0
  ageOffset   : BitVec 6 := 0
  planned     : Option (BitVec 2 × BitVec 6 × BitVec 8) := none   -- age step, offset and loss being drained for
  coolTicks   : Nat := 0     -- ticks spent HYST below the present thermal threshold (R632)
  slackTicks  : Nat := 0     -- ticks of slack above SLACK_HI (R629)
  deriving DecidableEq, Repr

/-- The states of a power domain (R620). -/
inductive DomState where
  | run | sleep | deepSleep | off
  deriving DecidableEq, Repr

/-- The three enables of WPU_DOMd (R621). -/
structure Enables where
  run    : Bool
  sleep  : Bool
  dsleep : Bool
  deriving DecidableEq, Repr

/-- One power domain. -/
structure Dom where
  en       : Enables := { run := true, sleep := false, dsleep := false }
  state    : DomState := .run
  held     : Option Enables := none    -- the deferred normal-world request (R430, R625)
  tripT    : Bool := false              -- held off by a thermal trip
  tripV    : Bool := false              -- held off by a voltage trip
  secGate  : Bool := false              -- the secure world itself has asked to gate it (R431)
  refused  : Bool := false
  lease    : Bool := false
  deriving DecidableEq, Repr

/-- The Windpump (WPU block). -/
structure Wpu where
  cfgMismatch : Bool := false
  clkSrcLost  : Bool := false
  xin1Present : Bool := false
  rtcDegraded : Bool := false
  avsFault    : Bool := false
  relocking   : Bool := false
  pllLocked   : Bool := false
  xin2Lost    : Bool := false            -- the real-time clock counts from the slow oscillator (R617)
  st          : Staged WpuCfg := { stage := {}, eff := {} }
  command     : BitVec 10 := 800
  readback    : BitVec 10 := 0
  power       : BitVec 12 := 0
  avsGood     : BitVec 10 := 800         -- last command that succeeded
  avsPending  : Bool := false            -- a command awaits its read-back
  avsTries    : Nat := 0
  covered     : List (BitVec 10 × Nat) := []   -- commands the crust's VDD_CORE window still covers, and their ticks left (R566)
  latchLo     : Word := 0
  latchHi     : Word := 0
  rtcSet      : Tab Word := []
  nevent      : BitVec 14 := 0
  sevent      : BitVec 14 := 0
  islands     : Tab Island := []
  temps       : Tab (BitVec 12) := []
  hyd         : Tab (BitVec 12) := []
  doms        : Tab Dom := []
  pwrSum      : Nat := 0                 -- power summed over the present 1 ms window
  pwrTicks    : Nat := 0
  pwrLow      : Nat := 0                 -- ticks below CAP − MARGIN
  deriving DecidableEq, Repr

/-! ### Pair (16_pair.md) -/

/-- A ledger entry sent and not yet acknowledged: its sequence and the operation whose completion waits for it. -/
structure Entry where
  seq     : BitVec 64
  items   : List Byte
  waiter  : Option Nat                  -- context number, or 65,536 + channel for an administrative command
  counter : Option (Nat × BitVec 64) := none
  deriving DecidableEq, Repr

/-- The MIR block. -/
structure Mir where
  linkEn      : Bool := false
  gateEn      : Bool := false
  soloAuto    : Bool := true
  cfgMismatch : Bool := false
  link        : BitVec 2 := 0
  lanes       : BitVec 2 := 0
  sync        : BitVec 3 := 0
  gate        : BitVec 2 := 0
  line        : BitVec 2 := 0
  timeSkew    : Bool := false
  lastHeld    : BitVec 18 := 0
  cause       : BitVec 6 := 0
  share       : Staged (BitVec 4) := { stage := 4, eff := 4 }
  chunks      : BitVec 10 := 0
  ownClaim    : BitVec 64 := 0
  peerClaim   : BitVec 64 := 0
  floorLo     : Word := 0
  floorHi     : BitVec 16 := 0
  seq         : BitVec 64 := 0          -- last acknowledged (holder) or applied (standby)
  sent        : BitVec 64 := 0          -- last sequence given to an entry
  entries     : List Entry := []        -- unacknowledged, oldest first
  timeOffset  : Word := 0
  authFail    : BitVec 16 := 0
  resent      : BitVec 16 := 0
  phase       : Bool := false
  oldPhase    : Bool := false           -- frames of the old phase are still accepted (R528)
  keyStage    : Tab Word := []
  keyInUse    : Tab Word := []
  keyOld      : Tab Word := []
  session     : Bool := false
  fseqTx      : BitVec 64 := 0
  fseqRx      : BitVec 64 := 0          -- next FSEQ expected (R524)
  fseqOld     : BitVec 64 := 0          -- next FSEQ of the old key phase, while it is accepted (R528)
  tx          : List (Bool × BitVec 64 × List Byte) := []   -- frames sent and not acknowledged: phase, FSEQ, octets (R524)
  out         : List (List Byte) := []  -- frames as the part has sent them, oldest first (the model's own record)
  hsMine      : List (List Byte) := []  -- handshake payloads sent and received, step by step (R533)
  hsPeer      : List (List Byte) := []
  hsSecret    : List Byte := []         -- the X25519 scalar, then the ML-KEM-768 seed
  peerRank    : BitVec 8 := 0
  peerLevel   : BitVec 16 := 0
  peerMin     : BitVec 16 := 0
  peerGate    : BitVec 2 := 0
  peerSync    : BitVec 3 := 0
  peerTime    : BitVec 64 := 0          -- time field of the partner's last HEARTBEAT, to be echoed
  seenPartner : Bool := false           -- a partner claim has been seen since the last full reset (R536)
  freeLong    : Bool := false           -- the line has been FREE for a further 200 µs (R536)
  highFive    : Bool := false           -- TIDEGATE_N has been high for 5 µs (R536)
  driving     : Bool := false           -- this unit drives TIDEGATE_N and CLAIM_SYNC
  hoStop      : Bool := false           -- steps 1 to 3 of R553: no Class A is admitted
  hoSent      : Bool := false           -- HANDOVER sent, partner not yet seen to claim
  hoRx        : Option (BitVec 64) := none   -- sequence of a received HANDOVER
  resyncFrom  : Option (BitVec 64) := none   -- S of a running resync
  resyncEnd   : Option (BitVec 64) := none   -- the holder's latest sequence, from END
  pairEvent   : Bool := false           -- source 15
  statusEvent : Bool := false           -- source 16 and vector 2
  deriving DecidableEq, Repr

/-! ### Debug and test access (21_debug_and_identity.md) -/

/-- The DBG block and the TAP. -/
structure Dbg where
  cfgMismatch : Bool := false
  attached    : Bool := false
  scanActive  : Bool := false
  granted     : BitVec 10 := 0          -- mask of the grant in effect
  maskStage   : BitVec 10 := 0
  durStage    : BitVec 17 := 0
  pendGrant   : Option (BitVec 10 × BitVec 17) := none   -- commit awaiting its second decision
  remain      : BitVec 17 := 0
  challenge   : Tab Word := []
  tokenReady  : Bool := false
  tokenWords  : BitVec 11 := 0
  tokenData   : Tab Word := []
  tapIr       : Byte := 0x02
  tapDr       : List Bool := []         -- the data register as captured, the bit next to TDO first
  boundReg    : List Bool := []         -- the boundary register's update stage
  boundary    : Bool := false           -- the boundary register is connected to the balls
  outputsOff  : Bool := false
  scanOn      : Bool := false           -- scan chains connected between TDI and TDO
  deriving DecidableEq, Repr

/-! ### Dibry cores (05_dibry_isa.md) -/

/-- The run state of a core (SYS_CC_STATE, R195, R196). -/
inductive RunState where
  | held | running | doze | lockup | halted
  deriving DecidableEq, Repr

/-- One Dibry core: general registers, pc and special registers (R166 to R169), the pending bank of R172, the
reservation of R185 and a waiting FENCE.RULE (R197). -/
structure Core where
  regs     : Tab Word := []
  pc       : Word := 0
  run      : RunState := .held
  priv     : Bool := true
  ie       : Bool := false
  exl      : Bool := false
  ppriv    : Bool := false
  pie      : Bool := false
  dbk      : Byte := 0
  ibk      : Byte := 0
  pendIbk  : Option Byte := none
  epc      : Word := 0
  ecause   : Word := 0
  eaddr    : Word := 0
  edbk     : Byte := 0
  eibk     : Byte := 0
  fbk      : Byte := 0
  evec     : Word := 0
  scratch0 : Word := 0
  scratch1 : Word := 0
  cycleHi  : Word := 0                  -- CYCLE_HI as latched by a read of CYCLE_LO (R169)
  resv     : Option Nat := none         -- reserved 64-byte granule
  fence    : Bool := false              -- a FENCE.RULE waits
  stepOne  : Bool := false              -- the debugger lets it execute one instruction (R661)
  deriving DecidableEq, Repr

/-! ### Host link (02_host_link.md). Function 0 is the physical function (the manager); function v + 1 is virtual function v. -/

/-- One MSI-X table entry with its PBA bit. -/
structure Vector where
  addr    : BitVec 64 := 0
  data    : Word := 0
  masked  : Bool := true
  pending : Bool := false
  deriving DecidableEq, Repr

/-- The TDISP states of an interface, coded as TDI_STATE. -/
inductive Tdi where
  | unlocked | locked | run | error
  deriving DecidableEq, Repr

/-- One PCIe function. -/
structure Func where
  cfg       : Tab Word := []            -- configuration-space dwords that hold what was written, by offset
  bme       : Bool := false
  mse       : Bool := false
  d3hot     : Bool := false
  fnMask    : Bool := false             -- MSI-X Function Mask
  vectors   : Tab Vector := []
  tdi       : Tdi := .unlocked
  draining  : Bool := false             -- a drain of R69 is in progress
  wedged    : Bool := false
  deriving DecidableEq, Repr

/-- A write the part issues to the host: output bytes, a completion, a message, a read request. -/
inductive HostMsg where
  | write (fn : Nat) (addr : BitVec 64) (data : List Byte)
  | msix (fn : Nat) (vector : Nat) (addr : BitVec 64) (data : Word)
  | readReq (fn : Nat) (addr : BitVec 64) (len : Nat) (tag : Nat)   -- its tag has the width of R36
  | completion (ok : Bool) (data : List Byte)    -- to a host request of a BAR; `ok` false is Unsupported Request (R37, R55)
  | doe (secured : Bool) (data : List Byte)      -- of a Secured SPDM object, the octets before they are enciphered
  | debug (data : List Byte)
  deriving DecidableEq, Repr

/-- An IDE stream (R64): keys installed, secure. -/
structure Ide where
  keySet : Bool := false
  secure : Bool := false
  deriving DecidableEq, Repr

/-- The host link and the HIF block. -/
structure Hif where
  linkUp     : Bool := false
  degraded   : Bool := false
  flit       : Bool := false
  rate       : BitVec 4 := 0
  width      : BitVec 4 := 0
  statusChg  : Bool := false
  wedgedChg  : Bool := false
  resetReq   : Bool := false             -- an HIF_RESET_REQ sequence is latched
  funcs      : Tab Func := []
  numVfs     : BitVec 16 := 0
  vfEnable   : Bool := false
  ari        : Bool := false
  vfMse      : Bool := false
  ide        : Tab Ide := []             -- 0 the link stream, 1 to 4 the selective streams
  spdm       : Bool := false             -- a secured SPDM session stands
  doeOut     : List Word := []           -- dwords of the last answer that the DOE read mailbox still holds (R59)
  bus        : Byte := 0                 -- bus number of the physical function, as configuration writes carry it (R44, R45)
  aer        : Word := 0                 -- Uncorrectable Error Status of the Advanced Error Reporting capability (R40)
  out        : List HostMsg := []        -- what the part has issued on the link, oldest first
  deriving DecidableEq, Repr

/-! ### The Sluice (03_work_queues.md) -/

/-- The staged fields of a queue pair. -/
structure QpCfg where
  sqBase  : BitVec 64 := 0
  cqBase  : BitVec 64 := 0
  sqLog   : BitVec 5 := 6
  cqLog   : BitVec 5 := 6
  qclass  : BitVec 2 := 1
  vector  : BitVec 11 := 0
  coalCnt : BitVec 8 := 0
  coalTime : BitVec 8 := 0
  authImm : Bool := true
  deriving DecidableEq, Repr

/-- One queue pair (R79 to R89). -/
structure Qp where
  st          : Staged QpCfg := { stage := {}, eff := {} }
  enable      : Bool := false
  cfgMismatch : Bool := false
  dbError     : Bool := false
  sqTail      : BitVec 16 := 0
  cqHead      : BitVec 16 := 0
  sqHead      : BitVec 16 := 0          -- the fetch point
  cqWrite     : BitVec 16 := 0          -- next completion entry to write
  phase       : Bool := true
  unsignalled : Nat := 0                -- completions not yet signalled
  deriving DecidableEq, Repr

/-- What a context is doing (R69, R106, R107). -/
inductive CtxState where
  | free | fetched | decoded | held | queued | running | awaitAck | finished
  deriving DecidableEq, Repr

/-- Which unit an operation is placed on. -/
inductive UnitRef where
  | thread (q t : Nat)
  | rake (n : Nat)
  | grainer (n : Nat)
  | pan (n : Nat)
  | secure                              -- the secure core, for administrative operations
  deriving DecidableEq, Repr

/-- One 512-byte context: what the Sluice keeps beside its bytes in the operation buffer. -/
structure Ctx where
  state     : CtxState := .free
  fn        : Nat := 0
  qp        : Nat := 0
  order     : Nat := 0                  -- fetch order
  finOrder  : Nat := 0                  -- the order in which operations finished (R89)
  tag       : Word := 0
  program   : BitVec 16 := 0
  bulk      : Bool := false
  noIrq     : Bool := false
  fence     : Bool := false
  placed    : Bool := false             -- placed on a unit (R116)
  unit      : Option UnitRef := none
  effClass  : BitVec 2 := 0
  demoted   : Bool := false
  wait      : Bool := false             -- HELD: the completion waited (R73, R89)
  discard   : Bool := false
  classA    : Bool := false
  inLen     : Nat := 0
  outLen    : Nat := 0
  outPtr    : Option (BitVec 64) := none
  sglIn     : BitVec 64 × Nat := (0, 0)
  sglOut    : BitVec 64 × Nat := (0, 0)
  streamLen : Nat := 0
  lists     : Option (List (BitVec 64 × Nat) × List (BitVec 64 × Nat)) := none   -- the scatter-gather lists read (R95)
  handles   : List (BitVec 32) := []
  param     : Word := 0
  param2    : Word := 0
  inData    : List Byte := []           -- octets of the input list, for operations that take it whole
  outList   : Nat := 0                  -- octets written to the output list
  depthR    : Nat := 16                 -- DEPTH_MAX of RKE and GRN when it was placed (R315)
  depthG    : Nat := 16
  status    : Byte := 0
  detail    : Byte := 0
  result    : List Byte := []
  outCount  : Word := 0
  deriving DecidableEq, Repr

/-- Whose turn it is in a weighted round robin: the one served now, and the turns left to it. -/
structure Turn where
  cur  : Nat := 0
  left : Nat := 0
  deriving DecidableEq, Repr

/-- Where the service of R113 stands on an engine or sequencer: the class, the tenant of each class, and the thread that issued
last (R124). -/
structure Arb where
  cls  : Turn := {}
  fns  : Tab Turn := []
  last : Nat := 0
  deriving DecidableEq, Repr

/-- Where the service of R109 stands in a lane: the tenant, and by tenant one more than the queue pair served last. -/
structure Lane where
  fns : Turn := {}
  qps : Tab Nat := []
  deriving DecidableEq, Repr

/-- The staged fields of the DSP block. -/
structure DspCfg where
  wStandard  : BitVec 8 := 8
  wBulk      : BitVec 8 := 4
  wBack      : BitVec 8 := 1
  reserve    : BitVec 5 := 2
  wDepth     : BitVec 8 := 16
  wThermal   : BitVec 8 := 8
  wStep      : BitVec 8 := 32
  deriving DecidableEq, Repr

/-- The Sluice (DSP block). -/
structure Dsp where
  enable      : Bool := false
  cfgMismatch : Bool := false
  writeLocked : Bool := false
  entHold     : Bool := true
  st          : Staged DspCfg := { stage := {}, eff := {} }
  late        : Tab (Option DspCfg) := []   -- the earlier set under which a lane or unit still runs (R121)
  lanes       : Tab Lane := []
  p999        : BitVec 16 := 0          -- DSP_AUTH_P999 of the last complete second
  qps         : Tab Qp := []            -- by global number
  ctxs        : Tab Ctx := []           -- by context number
  nextOrder   : Nat := 0
  deriving DecidableEq, Repr

/-! ### Sequencers (04_sealed_dataflow.md) -/

/-- A sealed register: 128 bits, octet 0 in the most significant octet, and the tag of R141. -/
structure SReg where
  val     : Block := 0
  colour  : BitVec 12 := 0
  cls     : BitVec 3 := 0
  len     : BitVec 5 := 0
  release : Bool := false
  form    : BitVec 2 := 0
  ksrc    : BitVec 3 := 0
  dec     : Option Nat := none          -- the DEC instruction whose result it is, for SCOMB (R150)
  tpl     : Option (BitVec 64) := none  -- the template mapped from a key block's header, for a key of KB.PARSE (R265, R326)
  deriving DecidableEq, Repr

/-- A chaining operation kept between phases (R256, R258). -/
structure Chain where
  ins     : BitVec 4                     -- the SE function code
  k       : BitVec 5
  mode    : BitVec 9
  cls     : BitVec 3                     -- the join of every piece since LOAD
  lowOnly : Bool                         -- every piece is PUBLIC or INTERMEDIATE (R258)
  ivPub   : Bool                         -- the IV or counter block taken at LOAD is PUBLIC
  nData   : Nat                          -- data pieces of non-zero LEN
  dataOk  : Bool                         -- the first of them was intact
  colour  : BitVec 12
  state   : List Byte                    -- chaining value or counter block, or the octets of a MAC, digest or key transport
  total   : Nat                          -- octets put out so far
  key     : List Byte := []              -- the key a KB.BUILD or a wrap captured at LOAD (R266, R267)
  attr    : List Word := []              -- its attribute words
  relOk   : Bool := false                -- its pieces may be released
  deriving DecidableEq, Repr

/-- An engine request a thread has outstanding (R126): destination sealed registers and the result to land there, or what
ends the harvest instead. -/
structure EngReq where
  id      : Nat := 0
  ready   : Bool := true                 -- its result stands ready to land
  fixed   : Bool := false                -- an ML-DSA signature, delivered at its fixed time (R299)
  dest    : List (Nat × SReg)            -- sealed registers to write
  window  : List (Nat × List Byte)       -- octets to write in the context data area
  verifies : Bool := false               -- a verifying op (R291)
  verdict : Option (Bool × BitVec 3)     -- folded into V, with the class joined into VCLASS
  fail    : Option (Byte × Byte)         -- status and detail that end the harvest
  unit    : UnitRef
  pendDest : List Nat                    -- sealed registers pending until it arrives
  listOut : Option (Nat × List Byte) := none   -- octets written into the output list, from an offset
  blocks  : Nat := 0                     -- cipher or hash blocks its pan still has to process for it
  pc      : Word := 0                    -- the instruction that made it (R163)
  deriving DecidableEq, Repr

/-- One thread of a sequencer (R129). -/
structure Thread where
  busy     : Bool := false
  ctx      : Nat := 0
  program  : BitVec 16 := 0
  library  : Bool := true
  segLen   : Nat := 0
  admin    : Bool := false               -- the program is marked ADMIN_ONLY
  pc       : Word := 0
  budget   : Nat := 0                    -- instructions it may still issue
  issued   : Nat := 0
  regs     : Tab Word := []
  sregs    : Tab SReg := []
  v        : Bool := true
  vclass   : BitVec 3 := 0
  colour   : BitVec 12 := 0
  cls      : BitVec 2 := 0
  outLen   : Nat := 0
  reqs     : List EngReq := []
  nextReq  : Nat := 0
  chain    : Option Chain := none
  panField : Option (Block × BitVec 3) := none   -- latched format 4 PAN field and its class (R259)
  swr      : Bool := false               -- the harvest has issued SWR (committing)
  swrSlots : List Nat := []
  landing  : Option (Nat × BitVec 64 × List Byte) := none   -- an SWR on its way to the bank: handle field, template, key
  deriving DecidableEq, Repr

/-- A loaded owner program (R135). -/
structure Program where
  number : BitVec 16
  mask   : BitVec 4
  minOut : Nat
  budget : BitVec 16
  admin  : Bool
  entry  : Word
  offset : Nat                           -- octet offset of the segment in program memory
  len    : Nat
  deriving DecidableEq, Repr

/-- One sequencer's own registers. -/
structure SeqUnit where
  harvests : BitVec 32 := 0
  arb      : Arb := {}                   -- the order in which its threads issue (R113, R124)
  fault    : Word := 0
  faultPc  : Word := 0
  deriving DecidableEq, Repr

/-- The sequencers (SEQ block). -/
structure Seq where
  loadOpen    : Bool := true
  run         : Bool := false
  cfgMismatch : Bool := false
  writeLocked : Bool := false
  loaded      : Bool := false
  st          : Staged (BitVec 16 × BitVec 16) := { stage := (4096, 16384), eff := (4096, 16384) }   -- DEFAULT, MAX
  pmemWord    : BitVec 16 := 0
  pmem        : Tab Word := []            -- one copy for the 16 sequencers, by word
  programs    : List Program := []        -- as LOAD_OPEN's clearing fixed them
  units       : Tab SeqUnit := []
  threads     : Tab Thread := []          -- keyed 32 × sequencer + thread
  deriving DecidableEq, Repr

/-! ### Pans (07_pans.md) -/

/-- A bulk stream bound to a pan (R96, R97, R253, R269). -/
structure Stream where
  ctx     : Nat
  coreB   : Bool                        -- bound to AES core B, else core A
  pos     : Nat := 0                    -- octets taken from the input list
  written : Nat := 0                    -- octets written to the output list
  started : Bool := false               -- its keys are read; until then it is only bound (R253)
  key     : List Byte := []             -- the key registers
  key2    : List Byte := []             -- the XTS tweak key
  chain   : List Byte := []             -- IV, counter block, chaining value or data unit number
  acc     : List Byte := []             -- octets under authentication or digest so far
  deriving DecidableEq, Repr

/-- One pan. -/
structure Pan where
  blocks    : BitVec 32 := 0
  maskCount : Nat := 0                  -- blocks masked since the last reseed, saturating at 2^28
  mask      : List Byte := []           -- the mask generator's state, as last reseeded (R275)
  stall     : Bool := true              -- MASK_STALL
  retired   : Bool := false
  katRun    : Bool := false
  katDone   : Bool := false
  katFail   : Bool := false
  streams   : List Stream := []
  deriving DecidableEq, Repr

/-- The staged fields of the PAN block: INTERVAL_LOG2 and LIMIT_LOG2. -/
structure PanCfg where
  interval : BitVec 5 := 20
  limit    : BitVec 5 := 24
  deriving DecidableEq, Repr

/-- The PAN block. -/
structure PanBlock where
  cfgMismatch : Bool := false
  erased      : Bool := false
  st          : Staged PanCfg := { stage := {}, eff := {} }
  pans        : Tab Pan := []
  deriving DecidableEq, Repr

/-! ### Rakes and grainers (08_rakes_and_grainers.md). Engine e is rake e below 48 and grainer e − 48 from 48 to 55. -/

/-- Whose operation an engine runs. -/
inductive OpOwner where
  | thread (k id : Nat)                 -- request `id` of thread `k`
  | ctx (n : Nat)                       -- the single primitive of a context
  | job (j : Nat)                       -- secure job j: 0 to 3 RKE, 4 to 7 GRN
  | gone                                -- its harvest has ended; the engine ends the operation all the same (R297)
  deriving DecidableEq, Repr

/-- An operation queued on an engine (R286, R288, R311). -/
structure EngOp where
  owner  : OpOwner
  cls    : BitVec 2                      -- effective class, 0 AUTH (R113)
  fn     : Nat := 0                      -- function whose operation it is
  mode   : BitVec 9                      -- op code of R286; secure jobs: 0x1C0 + KIND
  handle : BitVec 32 := 0
  field  : Nat := 0                      -- handle field the key came from
  colour : BitVec 12 := 0
  in1    : List Byte := []
  in2    : List Byte := []
  outLen : Nat := 0
  outPos : Option Nat := none            -- place of the public output in the data area
  sd     : Nat := 0
  word3  : Word := 0                     -- word 3 of the operand map: PAD, DIGEST, LAYER, OUT_DST
  param  : BitVec 16 := 0                -- PARAM of a secure job
  depth  : Nat := 16                     -- DEPTH_MAX in effect when its harvest was placed (R315)
  deriving DecidableEq, Repr

/-- An operation that an engine has started: the key chain's material, words 0, 1 and 3 of its attribute block, and the fresh
octets drawn for it. -/
structure Running where
  op  : EngOp
  mat : List Byte := []
  w0  : Word := 0
  w1  : Word := 0
  w3  : Word := 0
  rnd : List Byte := []
  deriving DecidableEq, Repr

/-- A rake or grainer. -/
structure Engine where
  queue       : List EngOp := []          -- oldest first
  cur         : Option Running := none
  parked      : Option Running := none    -- parked under R304 (ENT_WAIT)
  retired     : Bool := false
  katRun      : Bool := false
  katDone     : Bool := false
  katFail     : Bool := false
  ops         : Word := 0
  arb         : Arb := {}                 -- the order in which its queue is served (R113, R297)
  bnInvalid   : BitVec 16 := 0            -- a grainer counts to 0x3FF
  releaseFail : BitVec 16 := 0            -- a grainer counts to 0x3FF
  attemptCap  : BitVec 12 := 0
  deriving DecidableEq, Repr

/-- A secure job slot (SJOB_CMDj, SJOB_ADDRj, SJOB_STATUSj). -/
structure Sjob where
  engine : BitVec 6 := 0
  kind   : BitVec 4 := 0
  param  : BitVec 16 := 0
  addr   : Word := 0
  busy   : Bool := false
  done   : Bool := false
  result : Byte := 0
  deriving DecidableEq, Repr

/-- The block-wide registers of RKE, or of GRN. -/
structure EngBlock where
  cfgMismatch : Bool := false
  erased      : Bool := false
  st          : Staged (BitVec 6) := { stage := 16, eff := 16 }   -- DEPTH_MAX
  deriving DecidableEq, Repr

/-- The RKE and GRN blocks. -/
structure Rke where
  rke     : EngBlock := {}
  grn     : EngBlock := {}
  engines : Tab Engine := []
  jobs    : Tab Sjob := []               -- 0 to 3 RKE, 4 to 7 GRN
  waiting : List EngOp := []             -- ENGX operations that wait for a queue entry, oldest first (R293)
  deriving DecidableEq, Repr

/-! ### Salt Cellar (09_salt_cellar.md) -/

/-- A slot of 64 octets (R319): key material, the attribute block of R320, and the integrity tag of R330. -/
structure Slot where
  mat : List Byte
  w0  : Word
  w1  : Word
  w2  : Word
  w3  : Word
  tag : List Byte
  deriving DecidableEq, Repr

/-- A chain open for writing (R337): first index, length, and the positions written. -/
structure OpenChain where
  head    : Nat
  len     : Nat
  gen     : Byte                         -- the GEN that every slot of the chain takes (R328)
  written : List Nat := []
  deriving DecidableEq, Repr

/-- The SLC block, its banks and the Ladle. -/
structure Slc where
  cfgMismatch : Bool := false
  writeLocked : Bool := false
  ready       : Bool := false
  clearing    : Bool := false
  tplLocked   : Bool := false
  vaultDenied : Bool := false
  st          : Staged (Bool × BitVec 12) := { stage := (true, 60), eff := (true, 60) }   -- ENABLE, PERIOD
  lastBad     : BitVec 20 := 0
  byScrub     : Bool := false
  newBad      : Bool := false
  bankLost    : Word := 0
  bankDue     : Word := 0                -- banks that have lost their contents and not begun the rewrite of R352
  restoring   : Word := 0                -- banks whose rewrite of R352 is in progress
  tplIndex    : Byte := 0
  tpl         : Tab (BitVec 64) := []
  spIndex     : BitVec 20 := 0
  spAddr      : Word := 0
  spAttr      : Tab Word := []
  spData      : Tab Word := []
  busy        : Bool := false
  done        : Bool := false
  spBad       : Bool := false
  result      : Byte := 0
  gen         : Byte := 0
  op          : Option (Byte × Byte) := none   -- the running command's RESULT and GEN, until it ends
  spWait      : Option Byte := none      -- a command that waits for a draw (R652)
  chain       : Option OpenChain := none
  vaultWord   : BitVec 14 := 0
  slots       : Tab (Option Slot) := []  -- written slots; an unlisted slot is as the last clearing left it
  genDraw     : Nat := 0                 -- free draw of the GENs of the last clearing (R329)
  bankGen     : Tab Nat := []            -- by bank: rewrites since, each GEN advanced by 1 (R352)
  bad         : Tab Bool := []           -- the bad-slot bitmaps
  stripe      : Nat := 0                 -- next stripe of the scrubber
  keys        : Option (List Byte) := none   -- tag, scramble and row keys (R333), 16 octets each
  cache       : List Nat := []           -- owners whose storage key the Ladle caches, newest first, at most 16
  ladleRun    : Bool := false            -- the Ladle's known-answer test runs (R676)
  ladleDone   : Bool := false
  ladleFail   : Bool := false
  ladleRetired : Bool := false
  deriving DecidableEq, Repr

/-! ### Brine Wells (10_brine_wells.md) -/

/-- One noise source with its debiaser, tests and the block it is filling. -/
structure Source where
  half    : Option Bool := none          -- first bit of a raw pair
  starve  : Nat := 0                     -- raw pairs since the last debiased bit
  last    : Bool := false
  run     : Nat := 0                     -- identical debiased bits in a row
  first   : Bool := false                -- first bit of the window of 1,024
  same    : Nat := 0
  pos     : Nat := 0                     -- bits taken in the window
  passed  : Nat := 0                     -- consecutive passing bits since the release, to 1,024
  promo   : Nat := 0                     -- passing bits since promotion, to 512
  promoBlk : Bool := false               -- a block has been completed since the promotion or the last zeroing (R374)
  blk     : BitVec 512 := 0              -- block being built
  fill    : Nat := 0
  deriving DecidableEq, Repr

/-- A draw class of R364. -/
inductive EntClass where
  | mask | fresh | predict
  deriving DecidableEq, Repr

/-- A draw that waits under R366: the private wire (or software port) it came over, its class and octets. -/
structure Draw where
  wire  : Nat
  cls   : EntClass
  bytes : Nat
  deriving DecidableEq, Repr

/-- A software port of R378. -/
structure SwPort where
  words  : BitVec 4 := 0
  cls    : BitVec 2 := 0
  busy   : Bool := false
  valid  : Bool := false
  reqErr : Bool := false
  status : Byte := 0
  data   : Tab Word := []
  deriving DecidableEq, Repr

/-- The ENT block. Wires: pan n is n, rake or grainer e is 16 + e, 72 the Salt Cellar, 73 the Ladle, 74 the Salt Crust,
75 and 76 the software ports. -/
structure Ent where
  cfgMismatch : Bool := false
  running   : Bool := false              -- out of reset
  ready     : Bool := false
  dead      : Bool := false              -- READY stays 0 until the next full reset (R360, R377)
  startFail : Bool := false
  katFailed : Bool := false
  wasReady  : Bool := false              -- instantiated since the release: start-up has ended
  actA      : Nat := 0
  actB      : Nat := 8
  promoting : Bool := false              -- the source at `actB` is being promoted
  promoA    : Bool := false              -- the source at `actA` is being promoted, as well
  srcs      : Tab Source := []
  seeds     : List (Nat × Block) := []   -- seed buffer: source and block, oldest first, at most 8
  st        : Staged (BitVec 6 × BitVec 6) := { stage := (16, 32), eff := (16, 32) }
  count     : Nat := 0
  stretched : Bool := false
  highest   : Nat := 0                   -- highest COUNT while stretched
  key       : List Byte := []            -- expander state: AES-256 key and V
  v         : Block := 0
  inst      : Bool := false              -- instantiated
  reseeds   : Word := 0
  freshWaits : Word := 0
  waiting   : List Draw := []            -- in arrival order
  wires     : Tab (List Byte) := []      -- values delivered on the private wires and not yet taken
  katCond   : Bool := false              -- the conditioner test runs
  katDrbg   : Bool := false
  katDone   : Bool := false
  condFail  : Bool := false
  drbgFail  : Bool := false
  katOut    : Tab Word := []
  ports     : Tab SwPort := []
  deriving DecidableEq, Repr

/-! ### Tenants (11_tenants.md). Everything is keyed by function: 0 the manager, t + 1 tenant t. -/

/-- The staged fields of a tenant (R382). -/
structure TntCfg where
  granBase : BitVec 13 := 0
  grans    : BitVec 14 := 0
  inflight : BitVec 17 := 0
  slots    : BitVec 21 := 0
  grpBase  : BitVec 8 := 0
  groups   : BitVec 9 := 0
  weight   : BitVec 8 := 0
  floor    : BitVec 2 := 0
  qpBase   : BitVec 12 := 0
  qpCount  : BitVec 7 := 0
  deriving DecidableEq, Repr

/-- A tenant's staged registers. -/
structure Tenant where
  st : Staged TntCfg := { stage := {}, eff := {} }
  deriving DecidableEq, Repr

/-- A manager–tenant mailbox (R393, R394). -/
structure Mbox where
  down    : Tab Word := []
  up      : Tab Word := []
  downFull : Bool := false
  upFull  : Bool := false
  acked   : Bool := false
  flushed : Bool := false
  downErr : Bool := false
  upErr   : Bool := false
  deriving DecidableEq, Repr

/-- How an administrative command has ended: status, detail, RESULT octets, OUT_COUNT (R388). -/
structure AdmEnd where
  status : Byte
  detail : Byte
  result : List Byte := []
  out    : Word := 0
  deriving DecidableEq, Repr

/-- An administrative channel (R386, R388, R391). -/
structure Adm where
  cmd     : Mem := []                    -- ADM_CMD, 128 octets
  busy    : Bool := false
  done    : Bool := false
  err     : Bool := false
  result  : List Byte := []              -- ADM_RESULT
  started : Bool := false                -- begun: BUSY and no longer kept waiting
  held    : Bool := false                -- it holds a context, from GO on (R391)
  ctx     : Nat := 0                     -- that context
  tag     : Word := 0
  classA  : Bool := false
  ended   : Option AdmEnd := none        -- the outcome of a command that took no context, until ADM_RESULT is written
  out     : List Byte := []              -- octets to be written at BUF_ADDR
  deriving DecidableEq, Repr

/-- How far a migration session has come (R402). -/
inductive MigStage where
  | offered | bound | sending | sent      -- on the source
  | accepted | restoring                  -- on the target
  deriving DecidableEq, Repr

/-- A migration session (R401 to R412). -/
structure Mig where
  stage   : MigStage
  id      : List Byte
  peer    : BitVec 384 := 0               -- SHA-384 of the peer's identity P-384 public key
  peerKeys : List Byte := []              -- the peer's identity public keys as MIG_BIND or MIG_ACCEPT took them
  secret  : List Byte := []               -- ephemeral secrets
  offer   : List Byte := []               -- the offer, for the transcript of R403
  key     : List Byte := []               -- migration key
  seg     : Nat := 0                      -- next segment
  stream  : List Byte := []               -- SNAPSHOT: state not yet sent; RESTORE: state received
  hash    : List Byte := []               -- the SHA-384 that the END record carries
  bad     : Byte := 0                     -- RESTORE: the first failure, as a refusal's reason (R412)
  deriving DecidableEq, Repr

/-- The TNT and MBX blocks, the administrative channels, and what warden firmware keeps of counters and migrations. -/
structure Tnt where
  cfgMismatch : Bool := false
  mismatch  : BitVec 11 := 0
  states    : Tab (BitVec 3) := []        -- state codes of R381
  t         : Tab Tenant := []
  mbox      : Tab Mbox := []
  adm       : Tab Adm := []
  counters  : Tab (BitVec 64) := []       -- monotonic counters by global index, as their tables hold them
  acked     : Tab (Option (BitVec 64)) := []   -- last acknowledged values, by global index, where they differ (R653)
  badGroups : List Nat := []              -- groups held unusable (R516)
  migs      : Tab Mig := []
  counted   : Tab Nat := []               -- slots counted in use by warden firmware (R384)
  deriving DecidableEq, Repr

/-! ### The part and the model's state -/

/-- Everything of the part but its fuse banks and the waiting commands. -/
structure Part where
  sys    : Sys := {}
  acu    : Acu := {}
  wpu    : Wpu := {}
  hif    : Hif := {}
  dsp    : Dsp := {}
  seq    : Seq := {}
  pan    : PanBlock := {}
  rke    : Rke := {}
  slc    : Slc := {}
  ent    : Ent := {}
  tnt    : Tnt := {}
  mir    : Mir := {}
  tmp    : Tmp := {}
  evr    : Evr := {}
  nvm    : Nvm := {}
  dbg    : Dbg := {}
  aon    : Aon := {}
  bat    : Bat := {}
  cores  : Tab Core := []               -- cores 0 to 3 of the control complex, 4 the secure core
  priv   : Mem := []                    -- secure-core private memory, 2 MiB, by offset
  ccMem  : Mem := []                    -- control-complex local SRAM, 1 MiB, by offset
  opBuf  : Mem := []                    -- the operation buffer, 32 MiB, by offset
  rdata  : Word := 0                    -- the word the last read of a register has answered (the model's own)
  free   : Nat := 0                     -- the model's own counter of free values drawn (log entry 2)
  deriving DecidableEq, Repr

/-- The state: the commands that wait, first in first out (the model's own queue), the fuse banks, and the part. -/
structure State where
  pending : List Instr
  fuses   : Fuses
  part    : Part
  deriving DecidableEq, Repr

/-- The secure core right after reset: privileged, running, at 0x0000_0000 in the boot ROM (R167). -/
def Core.secureReset : Core := { run := .running }

/-- A power domain whose RUN_EN resets to 0: CC0–CC3 and DBG (WPU_DOMd). -/
def Dom.resetOff : Dom := { en := { run := false, sleep := false, dsleep := false } }

/-- The power domains at reset: RUN_EN 0 for CC0–CC3 and DBG, and the lease of SEC (R429, WPU_DOMd, WPU_LEASEk). -/
def Wpu.resetDoms : Tab Dom :=
  [(116, Dom.resetOff), (117, Dom.resetOff), (118, Dom.resetOff), (119, Dom.resetOff), (120, { lease := true }),
   (127, Dom.resetOff)]

/-- The part right after reset. -/
def Part.reset : Part :=
  { wpu := { doms := Wpu.resetDoms }, cores := [(4, Core.secureReset)] }

/-- Why a machine stops with a fault. No command of this part ends in one: the spec gives every command of the table an
effect, and an event whose condition does not hold leaves the state as it was (log entry 1). -/
inductive Fault where
  /-- Raised by nothing in this model; kept so that the type is not empty. Safe. -/
  | none
  deriving DecidableEq, Repr

/-- Why a command has no meaning. -/
inductive Refusal where
  /-- Raised by the arm of a command that is not modelled yet. Safe. -/
  | notModelled (mnemonic : String)
  deriving DecidableEq, Repr

/-- The machine right after reset: mode WAKE, nothing waiting, every field at its reset value. -/
def State.reset : State := { pending := [], fuses := Fuses.shipped, part := Part.reset }

end Sys2Proof.Machine
end

