-- ==== Sys2Proof/Machine/Ops.lean ====
section
/-! DEFINITION. The named operations over sparse tables, memories and the part's blocks. Every table and memory is read and
written only here, so that the canonical form of `Tab` is kept (Laws/Tab.lean proves it). -/

namespace Sys2Proof.Machine

/-- What entry `i` of a table reads as; `d` is what an unlisted entry reads as. -/
def Tab.get {α : Type} (d : α) : Tab α → Nat → α
  | [], _ => d
  | (k, v) :: t, i => if i = k then v else Tab.get d t i

/-- The entries but those of key `i`. -/
def Tab.drop {α : Type} (t : Tab α) (i : Nat) : Tab α := t.filter fun x => decide (x.1 ≠ i)

/-- An entry put before the first greater key. -/
def Tab.ins {α : Type} : Tab α → Nat → α → Tab α
  | [], i, v => [(i, v)]
  | (k, w) :: t, i, v => if i < k then (i, v) :: (k, w) :: t else (k, w) :: Tab.ins t i v

/-- The table with entry `i` written; an entry equal to `d` is not listed. -/
def Tab.set {α : Type} [DecidableEq α] (d : α) (t : Tab α) (i : Nat) (v : α) : Tab α :=
  if v = d then t.drop i else (t.drop i).ins i v

/-- Entry `i` changed by `g`. -/
def Tab.upd {α : Type} [DecidableEq α] (d : α) (t : Tab α) (i : Nat) (g : α → α) : Tab α :=
  t.set d i (g (t.get d i))

/-- Every listed entry changed by `g`, which takes the key; `g` leaves an unlisted entry at `d`. -/
def Tab.mapV {α : Type} [DecidableEq α] (d : α) (g : Nat → α → α) : Tab α → Tab α
  | [] => []
  | (k, v) :: t => if g k v = d then (Tab.mapV d g t).drop k else (k, g k v) :: Tab.mapV d g t

/-- The canonical form: keys strictly rising, no entry equal to the default. -/
def Tab.wf {α : Type} [DecidableEq α] (d : α) : Tab α → Bool
  | [] => true
  | [(_, v)] => v != d
  | (k, v) :: (k', v') :: t => decide (k < k') && (v != d) && Tab.wf d ((k', v') :: t)

/-- The canonical form of a byte memory. -/
abbrev Memory.wf (d : Byte) (m : Mem) : Bool := Tab.wf d m

/-- The listed keys. -/
def Tab.keys {α : Type} (t : Tab α) : List Nat := t.map Prod.fst

/-- `n` octets of a memory from address `a`; an octet nothing has written reads as `d`. -/
def Mem.read (d : Byte) (m : Mem) (a : Nat) : Nat → List Byte
  | 0 => []
  | n + 1 => Tab.get d m a :: Mem.read d m (a + 1) n

/-- Octets written from address `a` upward. -/
def Mem.write (d : Byte) (m : Mem) (a : Nat) : List Byte → Mem
  | [] => m
  | b :: bs => Mem.write d (Tab.set d m a b) (a + 1) bs

/-- The little-endian number of `n` octets at `a`. -/
def Mem.num (d : Byte) (m : Mem) (a n : Nat) : Nat := ofLe (m.read d a n)

/-- A range of a memory set to what an unwritten octet reads as. -/
def Mem.clear (m : Mem) (a n : Nat) : Mem := m.filter fun c => decide (c.1 < a ∨ a + n ≤ c.1)

/-- What RAM that nothing has written reads as: 0. DESIGN CHOICE, log entry 5. -/
abbrev ram : Byte := 0x00#8
/-- What erased flash reads as (NOR flash, R475). -/
abbrev erased : Byte := 0xFF#8

/-- A write of COMMIT (R640 to R642): a refused set leaves no pending set; an accepted one takes effect at once where the block
has no operation in progress, else at its next operation boundary, replacing an earlier one. -/
def Staged.commit {α : Type} (ok idle : Bool) (s : Staged α) : Staged α :=
  if !ok then { s with pend := none }
  else if idle then { s with pend := none, eff := s.stage }
  else { s with pend := some s.stage }

/-- The operation boundary: the pending set takes effect (R640). -/
def Staged.apply {α : Type} (s : Staged α) : Staged α := { s with eff := s.pend.getD s.eff, pend := none }

/-! ### Weighted round robin (R109, R113, R124) -/

/-- The first of `ready` above `n`, else the first of all: the next in cyclic order. -/
def nextAfter (n : Nat) (ready : List Nat) : Option Nat := (ready.filter (n < ·)).min?.or ready.min?

/-- Whose turn it is among those that are ready, and what that leaves: the one served now while it has turns left, else the next
in cyclic order with as many turns as its weight. How a turn is counted is a choice of the model's (log entry 166). -/
def Turn.pick (t : Turn) (ready : List Nat) (weight : Nat → Nat) : Option (Nat × Turn) :=
  if ready.contains t.cur && decide (0 < t.left) then some (t.cur, { t with left := t.left - 1 })
  else (nextAfter t.cur ready).map fun n => (n, { cur := n, left := weight n - 1 })

/-- The class and tenant that R113 serves next among what is ready, given as pairs of class and tenant: class AUTH before any other,
the others in the proportion of their weights, and within a class the tenants in that of their shares. -/
def Arb.pick (a : Arb) (ready : List (Nat × Nat)) (classWeight share : Nat → Nat) : Option ((Nat × Nat) × Arb) :=
  let cs := ready.map Prod.fst
  let c := if cs.contains 0 then some (0, a.cls) else a.cls.pick cs classWeight
  c.bind fun (c, turn) =>
    ((a.fns.get {} c).pick ((ready.filter fun x => x.1 == c).map Prod.snd) share).map fun (f, t) =>
      ((c, f), { a with cls := turn, fns := a.fns.set {} c t })

/-- A command that blows no fuse: it changes the part, and leaves the fuse banks and the waiting commands. -/
def onPart (g : Part → Part) (s : State) : Host.Outcome State Fault Refusal :=
  .next { s with part := g s.part }

namespace Part

/-! ### One update per block -/

def modSys (g : Sys → Sys) (p : Part) : Part := { p with sys := g p.sys }
def modAcu (g : Acu → Acu) (p : Part) : Part := { p with acu := g p.acu }
def modWpu (g : Wpu → Wpu) (p : Part) : Part := { p with wpu := g p.wpu }
def modHif (g : Hif → Hif) (p : Part) : Part := { p with hif := g p.hif }
def modDsp (g : Dsp → Dsp) (p : Part) : Part := { p with dsp := g p.dsp }
def modSeq (g : Seq → Seq) (p : Part) : Part := { p with seq := g p.seq }
def modPan (g : PanBlock → PanBlock) (p : Part) : Part := { p with pan := g p.pan }
def modRke (g : Rke → Rke) (p : Part) : Part := { p with rke := g p.rke }
def modSlc (g : Slc → Slc) (p : Part) : Part := { p with slc := g p.slc }
def modEnt (g : Ent → Ent) (p : Part) : Part := { p with ent := g p.ent }
def modTnt (g : Tnt → Tnt) (p : Part) : Part := { p with tnt := g p.tnt }
def modMir (g : Mir → Mir) (p : Part) : Part := { p with mir := g p.mir }
def modTmp (g : Tmp → Tmp) (p : Part) : Part := { p with tmp := g p.tmp }
def modEvr (g : Evr → Evr) (p : Part) : Part := { p with evr := g p.evr }
def modNvm (g : Nvm → Nvm) (p : Part) : Part := { p with nvm := g p.nvm }
def modDbg (g : Dbg → Dbg) (p : Part) : Part := { p with dbg := g p.dbg }
def modBat (g : Bat → Bat) (p : Part) : Part := { p with bat := g p.bat }
def modAon (g : Aon → Aon) (p : Part) : Part := { p with aon := g p.aon }
def modCores (g : Tab Core → Tab Core) (p : Part) : Part := { p with cores := g p.cores }

/-- Do `g` where `b` holds, else nothing. -/
def when (b : Bool) (g : Part → Part) (p : Part) : Part := if b then g p else p

/-- Core `c` (0 to 3, 4 the secure core). -/
def core (p : Part) (c : Nat) : Core := p.cores.get {} c

def modCore (c : Nat) (g : Core → Core) (p : Part) : Part :=
  { p with cores := p.cores.upd {} c g }

/-- The reservations on the granules of 64 octets that a write of `n` octets at address `a` touches are lost (R185). -/
def loseResv (a n : Nat) (p : Part) : Part :=
  let hit : Core → Bool := fun m => m.resv.any fun g => decide (0 < n ∧ a / 64 ≤ g ∧ g ≤ (a + n - 1) / 64)
  (List.range 5).foldl (fun p c => if hit (p.core c) then p.modCore c fun m => { m with resv := none } else p) p

/-- Octets written into the operation buffer, control-complex local SRAM or private memory, by offset (R22, R23). -/
def writeOb (o : Nat) (bs : List Byte) (p : Part) : Part :=
  { p with opBuf := p.opBuf.write ram o bs }.loseResv (0x20000000 + o) bs.length
def writeCc (o : Nat) (bs : List Byte) (p : Part) : Part :=
  { p with ccMem := p.ccMem.write ram o bs }.loseResv (0x10000000 + o) bs.length
def privBase (p : Part) : Nat := if p.sys.handed then 0 else 0x08000000
def writePriv (o : Nat) (bs : List Byte) (p : Part) : Part :=
  { p with priv := p.priv.write ram o bs }.loseResv (p.privBase + o) bs.length

/-- The next free value drawn: the state's counter and the part that has advanced it (log entry 2). -/
def draw (p : Part) : Nat × Part := (p.free, { p with free := p.free + 1 })

/-- A register read that answers a word and may change the part: the word is kept in the model's own `rdata`. -/
def answer (r : Word × Part) : Part := { r.2 with rdata := r.1 }

/-- `n` free octets of draw `k`. -/
def drawBytes (k n : Nat) : List Byte := (List.range n).map (Config.freeByte k)

/-! ### Facts of the part that several blocks read -/

/-- The life-cycle state that a fuse word names (R454, R455): an inconsistent word is read as SCRAPPED. -/
def lifeOf (w : BitVec 5) : Life :=
  if w = 0b00000#5 then .blank
  else if w = 0b00001#5 then .tested
  else if w = 0b00011#5 then .provisioned
  else if w = 0b00111#5 then .owned
  else if w = 0b01111#5 then .analysis
  else .scrapped

/-- LC_INCONSISTENT: the word is none of R455's. -/
def lifeInconsistent (w : BitVec 5) : Bool :=
  !([0b00000#5, 0b00001#5, 0b00011#5, 0b00111#5, 0b01111#5, 0b10111#5, 0b11111#5].contains w)

/-- The code of a life-cycle state (R454). -/
def lifeCode : Life → BitVec 3
  | .blank => 0 | .tested => 1 | .provisioned => 2 | .owned => 3 | .analysis => 4 | .scrapped => 5

/-- The mode code of R444. -/
def modeCode : Mode → BitVec 3
  | .backup => 0 | .wake => 1 | .assay => 2 | .service => 3 | .standby => 4 | .ceremony => 5 | .frozen => 6
  | .quarantine => 7

def life (p : Part) : Life := lifeOf p.sys.fuses.lcWord

/-- The Device Serial Number of R42. -/
def serial (p : Part) : BitVec 64 :=
  let f := p.sys.fuses
  (f.testSite.setWidth 64 <<< 45) ||| (f.dieY.setWidth 64 <<< 37) ||| (f.dieX.setWidth 64 <<< 29)
    ||| (f.wafer.setWidth 64 <<< 24) ||| f.lot.setWidth 64

/-- FV of R489: the index of the highest step set, plus 1. -/
def fusedVersion (a : BitVec 128) : Nat :=
  (List.range 128).foldl (fun v i => if a.getLsbD i then i + 1 else v) 0

/-- The part is one of a pair when the charter's pairing field is 0x01 (R483, R544). -/
def paired (p : Part) : Bool := p.nvm.charter.paired

/-- The calendar time in units of 1/65,536 s. -/
def now (p : Part) : BitVec 80 := p.bat.secs ++ p.bat.frac

/-- Seconds of calendar time as a record carries them. -/
def secs32 (p : Part) : Word := p.bat.secs.setWidth 32

/-- A unit of a power domain counts as powered for placement: its domain has RUN_EN 1 or is leased, is not off, and no trip
holds it (R111, R623, R651). -/
def powered (p : Part) (d : Nat) : Bool :=
  let m := p.wpu.doms.get {} d
  (m.en.run || m.lease) && !m.tripT && !m.tripV && m.state != .off

end Part
end Sys2Proof.Machine
end

