-- ==== Sys2Proof/Machine/Tally.lean ====
section
/-! DEFINITION. Operations of the Tally Book (18_tally_book.md): the layout of a record, its severity and rate limit, its
admission to the store, the holding queue, the battery log and the persistence of pages in flash. -/

namespace Sys2Proof.Machine

/-! ### Records as octets (R584 to R586) -/

/-- One bit of the reflected CRC-32 of IEEE 802.3. -/
def crcBit (c : Word) : Word := if bitAt c 0 then (c >>> 1) ^^^ 0xEDB88320#32 else c >>> 1

/-- One octet of the CRC-32. -/
def crcByte (c : Word) (b : Byte) : Word :=
  crcBit (crcBit (crcBit (crcBit (crcBit (crcBit (crcBit (crcBit (c ^^^ b.setWidth 32))))))))

/-- The CRC-32 of IEEE 802.3 over octets (R586). -/
def crc32 (bs : List Byte) : Word := ~~~ (bs.foldl crcByte 0xFFFFFFFF#32)

/-- Octets padded with zero to length `n`. -/
def padTo (n : Nat) (bs : List Byte) : List Byte := bs ++ List.replicate (n - bs.length) 0

/-- The FLAGS octet (R584). FOLDED is zero in the store. -/
def Rec.flags (r : Rec) : Byte :=
  r.sev.setWidth 8 ||| (if r.payload ≠ [] then 4 else 0) ||| (if r.summary then 8 else 0) ||| (if r.held then 16 else 0)
    ||| (if r.trunc then 32 else 0) ||| (if r.battery then 64 else 0)

/-- Octets 0 to 23 of a record (R584). -/
def Rec.header (r : Rec) (seq : Word) : List Byte :=
  leBytes 2 r.code.toNat ++ [r.flags, 0xA5#8] ++ leBytes 4 seq.toNat ++ leBytes 2 r.frac.toNat ++ leBytes 6 r.secs.toNat
    ++ leBytes 4 r.detail.toNat ++ leBytes 4 r.aux.toNat

/-- LEN of a record (R585). -/
def Rec.len (r : Rec) : Nat := if r.payload = [] then 32 else 16 * ((32 + r.payload.length + 15) / 16)

/-- A record's octets: fixed without a payload, variable with one (R585). -/
def Rec.bytes (r : Rec) (seq : Word) : List Byte :=
  let body :=
    if r.payload = [] then r.header seq ++ leBytes 4 r.count.toNat
    else padTo (r.len - 4) (r.header seq ++ leBytes 2 r.len ++ leBytes 2 r.payload.length ++ r.payload)
  body ++ leBytes 4 (crc32 body).toNat

/-- A filler of R586: CODE 0xE000, MARK, all else zero. -/
def fillerBytes (n : Nat) : List Byte := padTo n [0x00#8, 0xE0#8, 0x00#8, 0xA5#8]

/-! ### Codes, severities, limits (R589 to R592, R597, R637, R677, R713) -/

/-- The fixed severity of a hardware code: 0 INFO, 1 NOTICE, 2 WARNING, 3 CRITICAL. The TMP alarm records take theirs from
the rank, and the firmware codes from EVR_SW. -/
def hwSev (code : BitVec 16) : BitVec 2 :=
  if [0x0020#16, 0x0030#16, 0x2002#16, 0x5001#16, 0x6001#16, 0x6002#16, 0x7001#16, 0x7002#16, 0x8001#16, 0x8002#16,
      0xC007#16, 0xE001#16, 0x1014#16, 0x1021#16, 0x1031#16, 0xD1F1#16, 0xF800#16, 0xF801#16, 0xF802#16,
      0xF803#16].contains code then 3
  else if [0x0031#16, 0x001A#16, 0x4001#16, 0x9001#16, 0xA001#16, 0xC001#16, 0xC003#16, 0xC004#16, 0xC005#16, 0xC008#16,
      0xE002#16, 0xE004#16, 0xE005#16, 0xE006#16, 0xE007#16, 0x1001#16, 0x1003#16, 0x1022#16].contains code then 2
  else if [0xE003#16, 0x1010#16, 0x1020#16].contains code then 0
  else 1

/-- The recorder's own codes 0xE000 to 0xE0FF, and every code of source 0xD, are exempt and admitted as CRITICAL. -/
def evExempt (code : BitVec 16) : Bool := code >>> 12 == 0xD#16 || code >>> 8 == 0xE0#16

/-- A record admitted as CRITICAL under R594. -/
def Rec.critical (r : Rec) : Bool := r.sev == 3 || evExempt r.code

/-- The rate limit of a code at a severity, 0 for none (R597). -/
def evLimit (c : EvrCfg) (code : BitVec 16) (sev : BitVec 2) : Nat :=
  if evExempt code then 0
  else
    match (List.range 16).find? fun k =>
        bitAt (c.ovr.get 0 k) 31 && fld (c.ovr.get 0 k) 0 16 == code with
    | some k => (fld (c.ovr.get 0 k) 16 8).toNat
    | none =>
      if sev = 3 then 0
      else if sev = 2 then (fld c.rate 16 8).toNat
      else if sev = 1 then (fld c.rate 8 8).toNat
      else (fld c.rate 0 8).toNat

namespace Evr

/-! ### Writing into the store (R583, R586, R594 to R596) -/

/-- Octets of the main ring. -/
abbrev ringSize : Nat := 0x380000
abbrev critEnd : Nat := 0x400000

/-- U of R594: octets of records not yet copied to flash, 0 while persistence does not run. -/
def unpersisted (e : Evr) : Nat :=
  if e.persistEn then ((e.ring.filter fun x => !x.persisted).map RingEntry.len).sum else 0

/-- The share of the ring a record may fill (R594). -/
def share (r : Rec) : Nat :=
  if r.critical then ringSize
  else if r.sev = 2 then ringSize / 8 * 7
  else if r.sev = 1 then ringSize / 4 * 3
  else ringSize / 2

/-- The live records that a write of `[off, off + len)` leaves, and how many unpersisted ones it overwrites. -/
def overwrite (e : Evr) (off len : Nat) : List RingEntry × Nat :=
  let hit : RingEntry → Bool := fun x => decide (x.off < off + len ∧ off < x.off + x.len)
  (e.ring.filter fun x => !hit x,
   if e.persistEn then ((e.ring.filter fun x => hit x && !x.persisted)).length else 0)

/-- LOST advanced by `n`, saturating. -/
def addLost (v : BitVec 4) (n : Nat) : BitVec 4 := BitVec.ofNat 4 (min 15 (v.toNat + n))

/-- A record's octets put at the write pointer of the main ring, after a filler when it does not fit (R586). -/
def putMain (e : Evr) (r : Rec) : Evr :=
  let bs := r.bytes e.seq
  let n := bs.length
  let gap := if e.wp + n > ringSize then ringSize - e.wp else 0
  let e1 : Evr :=
    if gap = 0 then e
    else
      let (live, lost) := e.overwrite e.wp gap
      { e with store := e.store.write ram e.wp (fillerBytes gap), ring := live, lost := addLost e.lost lost, wp := 0 }
  let (live, lost) := e1.overwrite e1.wp n
  { e1 with
    store := e1.store.write ram e1.wp bs
    ring := live ++ [{ off := e1.wp, len := n, persisted := !e1.persistEn, closes := r.critical }]
    lost := addLost e1.lost lost
    wp := (e1.wp + n) % ringSize }

/-- A second copy into the critical area (R583, R595). -/
def putCrit (e : Evr) (r : Rec) : Evr :=
  let bs := r.bytes e.seq
  let e1 : Evr :=
    if e.critWp + bs.length > critEnd then
      { e with store := e.store.write ram e.critWp (fillerBytes (critEnd - e.critWp)), critWp := ringSize }
    else e
  let w := e1.critWp + bs.length
  { e1 with store := e1.store.write ram e1.critWp bs, critWp := if w = critEnd then ringSize else w }

/-- A record of R573, which extends the evidence chain as it is written. -/
def alarmRecord (r : Rec) : Bool := r.code >>> 8 == 0xD1#16 && decide ((r.code &&& 0xFF#16).toNat < 0xF0) && !r.battery

/-- An admitted record written: the ring, the critical copy, SEQ, and PENDING of R602. -/
def put (e : Evr) (r : Rec) : Evr :=
  let e1 := e.putMain r
  let e2 := if r.critical then { e1.putCrit r with seq := e.seq + 1 } else { e1 with seq := e.seq + 1 }
  let e2 := if alarmRecord r then { e2 with folds := e2.folds ++ [r.bytes e.seq] } else e2
  if e.irqSev.toNat ≤ r.sev.toNat then { e2 with pending := true } else e2

/-- One of the recorder's own records (R590). -/
def own (code : BitVec 16) (detail aux count : Word) (like : Rec) : Rec :=
  { code := code, sev := hwSev code, detail := detail, aux := aux, count := count, secs := like.secs, frac := like.frac }

/-- A drop counted by severity (R596). -/
def countDrop (e : Evr) (sev : BitVec 2) : Evr :=
  let e := { e with dropPend := e.dropPend.upd 0 sev.toNat (· + 1) }
  if sev = 0 then { e with dropInfo := satInc e.dropInfo }
  else if sev = 1 then { e with dropNotice := satInc e.dropNotice }
  else { e with dropWarning := satInc e.dropWarning }

/-- Admission of a record to the main ring (R594, R596). -/
def accepted (e : Evr) (r : Rec) : Evr :=
  if r.critical || decide (e.unpersisted + r.len ≤ share r) then
    let n := e.dropPend.get 0 r.sev.toNat
    if n = 0 then e.put r
    else
      ({ e with dropPend := e.dropPend.set 0 r.sev.toNat 0 }.put
        (own 0xE004#16 (r.sev.setWidth 32) 0 (BitVec.ofNat 32 n) r)).put r
  else e.countDrop r.sev

/-! ### Freeze and the holding queue (R600, R601) -/

/-- The queue drained in arrival order, each record with HELD set, and the HOLD_DROPPED record if any was dropped. -/
def drain (e : Evr) (like : Rec) : Evr :=
  let e1 := e.hold.foldl (fun e r => e.accepted { r with held := true })
    { e with hold := [], frozen := false, holdNow := 0 }
  if e.holdNow = 0 then e1 else e1.accepted (own 0xE005#16 0 0 (BitVec.ofNat 32 e.holdNow) like)

/-- A record past the rate limit: written, or held while frozen. A record admitted as CRITICAL that finds the queue full
ends the freeze. -/
def submit (e : Evr) (r : Rec) : Evr :=
  if !e.frozen then e.accepted r
  else if e.hold.length < 64 then { e with hold := e.hold ++ [r] }
  else if r.critical then
    (({ e with frozen := false, freezeBroken := true }.accepted
      (own 0xE006#16 (bit' e.freezeWorld 0) 0 0 r)).drain r).accepted r
  else { e with holdDropped := satInc e.holdDropped, holdNow := e.holdNow + 1 }

/-! ### Rate limits (R597 to R599) -/

/-- The limiter's decision on a record: the block after it, and whether the record goes on. -/
def limit (e : Evr) (r : Rec) : Evr × Bool :=
  let lim := evLimit e.st.eff r.code r.sev
  if lim = 0 then (e, true)
  else
    match e.limiter.find? fun x => x.code == r.code with
    | none =>
      if e.limiter.length < 512 then
        ({ e with limiter := e.limiter ++ [{ code := r.code, written := 1, sev := r.sev }] }, true)
      else ({ e with untracked := satInc e.untracked }, true)
    | some x =>
      if x.written < lim then
        ({ e with limiter := e.limiter.map fun y => if y.code == r.code then { y with written := y.written + 1 } else y },
         true)
      else
        let y : LimEntry :=
          { x with suppressed := x.suppressed + 1, inWindow := x.inWindow + 1, lastDetail := r.detail, flood := true
                   firstSecs := if x.flood then x.firstSecs else r.secs.setWidth 32, sev := r.sev }
        ({ e with limiter := e.limiter.map fun z => if z.code == r.code then y else z }, false)

/-- The summary record of a flood's end (R598). -/
def summaryRec (x : LimEntry) (secs : BitVec 64) (frac : BitVec 16) : Rec :=
  { code := x.code, sev := x.sev, detail := x.lastDetail, aux := x.firstSecs, count := BitVec.ofNat 32 x.suppressed
    secs := secs, frac := frac, summary := true }

end Evr

namespace Part

/-! ### Ranks (R562, R563) and the severity of any code (R591) -/

/-- The default ranks of R562, in alarm order. -/
def defaultRanks : List (BitVec 3) := [4, 4, 2, 3, 3, 1, 2, 1, 0, 3, 3, 2, 3, 0, 2, 2, 0, 0, 3]

/-- The rank in effect of alarm `i`: its CRUST octet, or the default for 0xFF (R563). -/
def rank (p : Part) (i : Nat) : BitVec 3 :=
  match p.tmp.crust.ranks[i]? with
  | some b => if b = 0xFF#8 then defaultRanks.getD i 0 else b.setWidth 3
  | none => defaultRanks.getD i 0

/-- The severity of an alarm's record (R591): Observe NOTICE, Throttle WARNING, Suspend and above CRITICAL. -/
def rankSev (r : BitVec 3) : BitVec 2 := if r = 0 then 1 else if r = 1 then 2 else 3

/-- The severity of any code: of an alarm record from its rank, of a firmware code what R591 leaves to the block. -/
def sevOf (p : Part) (code : BitVec 16) : BitVec 2 :=
  if code &&& 0xFF00#16 == 0xD100#16 && decide ((code &&& 0xFF#16).toNat < 19) then rankSev (p.rank (code &&& 0xFF#16).toNat)
  else if code >>> 12 == 0xE#16 && (code &&& 0xFFF#16).toNat ≥ 0x400 then Config.firmwareSev code
  else hwSev code

/-! ### The evidence chain (R581) -/

/-- The head extended by a record's octets: H ← SHA-384(H ‖ record), N ← N + 1. -/
def chainExtend (bs : List Byte) (p : Part) : Part :=
  p.modBat fun b =>
    { b with evidH := BitVec.ofNat 384 (ofBe (Standard.hash 3 (beBytes 48 b.evidH.toNat ++ bs))), evidN := b.evidN + 1 }

/-- The alarm records just written fold into the chain, in the order written (R574, R581). -/
def foldChain (p : Part) : Part :=
  (p.evr.folds.foldl (fun p bs => p.chainExtend bs) p).modEvr fun e => { e with folds := [] }

/-- FIXED_ONLY of R587. -/
def fixedOnly (p : Part) : Bool :=
  p.sys.mode == .wake || p.sys.mode == .assay || p.sys.mode == .quarantine || p.life == .blank || p.life == .tested

/-- A record reaches the Tally Book at the present time: truncated where records are fixed (R587), rate-limited (R597),
held or admitted. -/
def postRec (r : Rec) (p : Part) : Part :=
  let t := r.payload ≠ [] && p.fixedOnly
  let r : Rec := { r with secs := p.bat.secs, frac := p.bat.frac, trunc := t, payload := if t then [] else r.payload }
  (p.modEvr fun e =>
    let (e1, go) := e.limit r
    if go then e1.submit r else e1).foldChain

/-- A hardware record with its code's severity. -/
def post (code : BitVec 16) (detail aux : Word) (p : Part) : Part :=
  p.postRec { code := code, sev := hwSev code, detail := detail, aux := aux }

/-! ### The battery log (R604, R605) -/

/-- The slots of the battery log in use. -/
def freeBlogSlot (l : List BlogRec) : Option Nat :=
  (List.range 256).find? fun i => !(l.any fun b => b.slot == i)

/-- The slot a new battery record takes: a free one, else that of the oldest FOLDED record, else, for a BACKUP_ALARM,
that of the oldest BACKUP_ENTER. -/
def blogSlot (l : List BlogRec) (alarm : Bool) : Option Nat :=
  match freeBlogSlot l with
  | some i => some i
  | none =>
    match l.find? fun b => b.folded with
    | some b => some b.slot
    | none => if alarm then (l.find? fun b => b.item.code == 0xD1F0#16).map BlogRec.slot else none

/-- A record of the battery domain written to its log; BLOG_OVERRUN is set when every record is unfolded (R604), and the battery
domain keeps that for the next start (assumption 155). -/
def blogWrite (r : Rec) (p : Part) : Part :=
  let r := { r with secs := p.bat.secs, frac := p.bat.frac }
  let full := (freeBlogSlot p.bat.blog).isNone && !(p.bat.blog.any fun b => b.folded)
  let p := p.when full fun p => (p.modEvr fun e => { e with blogOverrun := true }).modBat fun b => { b with overrun := true }
  match blogSlot p.bat.blog (r.code == 0xD1F1#16) with
  | none => p
  | some i =>
    p.modBat fun b =>
      { b with blog := (b.blog.filter fun x => x.slot != i) ++ [{ slot := i, item := r, seq := b.blogSeq, folded := false }]
               blogSeq := b.blogSeq + 1 }

/-- The octets of a battery-log record as it stands in the log: a fixed record with the log's own SEQ, FOLDED in FLAGS [7]. -/
def blogBytes (b : BlogRec) : List Byte :=
  let body := leBytes 2 b.item.code.toNat ++ [b.item.flags ||| (if b.folded then 0x80#8 else 0), 0xA5#8]
    ++ leBytes 4 b.seq.toNat ++ leBytes 2 b.item.frac.toNat ++ leBytes 6 b.item.secs.toNat
    ++ leBytes 4 b.item.detail.toNat ++ leBytes 4 b.item.aux.toNat ++ leBytes 4 b.item.count.toNat
  body ++ leBytes 4 (crc32 body).toNat

/-- Each unfolded battery-log record copied into the store and folded into the chain, in log order (R605); an overrun that the
battery domain kept shows in BLOG_OVERRUN (R604). -/
def blogCopy (p : Part) : Part :=
  let p1 := p.bat.blog.foldl
    (fun p b =>
      if b.folded then p
      else
        (p.chainExtend (blogBytes b)).modEvr fun e =>
          e.submit { b.item with battery := true, aux := b.seq })
    p
  (p1.modEvr fun e => { e with blogOverrun := e.blogOverrun || p.bat.overrun }).modBat fun b =>
    { b with blog := b.blog.map (fun x => { x with folded := true }), overrun := false }

/-! ### Persistence in flash (R606 to R610) -/

/-- Flash offset of a LOG sector (R606). -/
def logBase (s : Nat) : Nat := 0x1100000 + s * 0x1000

/-- A sector is valid when its header begins with HXLG. -/
def logValid (p : Part) (s : Nat) : Bool :=
  p.nvm.flash.read erased (logBase s) 4 == [0x48#8, 0x58#8, 0x4C#8, 0x47#8]

/-- SECTOR_SEQ of a sector's header. -/
def logSeq (p : Part) (s : Nat) : Nat := p.nvm.flash.num erased (logBase s + 8) 8

/-- The valid sector with the highest SECTOR_SEQ, if LOG holds one (R609). -/
def logLast (p : Part) : Option Nat :=
  (List.range 4096).foldl
    (fun best s =>
      if p.logValid s then
        match best with
        | none => some s
        | some b => if p.logSeq b < p.logSeq s then some s else some b
      else best)
    none

/-- The 64-octet header of a sector (R606). -/
def logHeader (erases seq : Nat) (prev : List Byte) : List Byte :=
  [0x48#8, 0x58#8, 0x4C#8, 0x47#8] ++ leBytes 4 erases ++ leBytes 8 seq ++ padTo 48 prev

/-- The unpersisted records that the next page takes: those that fit `cap` octets, up to one after which the page closes;
with whether that page is closed (R607). -/
def pageTake : Nat → List RingEntry → List RingEntry × Bool
  | _, [] => ([], false)
  | cap, x :: xs =>
    if x.len > cap then ([], true)
    else if x.closes then ([x], true)
    else
      let (ys, c) := pageTake (cap - x.len) xs
      (x :: ys, c || decide (x.len = cap))

end Part
end Sys2Proof.Machine
end

