-- ==== Sys2Proof/Machine/Flow.lean ====
section
/-! DEFINITION. What every block's work ends in: messages to the host, the end of an operation in its context, the freeing of
contexts with the drains and freezes that wait for it, and the ledger entry of a Class A change. -/

namespace Sys2Proof.Machine
namespace Part

/-! ### Host messages and MSI-X (R56 to R58, R71, R73) -/

def fn (p : Part) (n : Nat) : Func := p.hif.funcs.get {} n

def modFn (n : Nat) (g : Func → Func) (p : Part) : Part := p.modHif fun h => { h with funcs := h.funcs.upd {} n g }

/-- What a configuration dword of a function reads as in its writable bits at reset: Device Control and the masks and
severities of Advanced Error Reporting as PCIe Base 6.0 resets them (log entry 160), System Page Size 1 (R43), else 0. -/
def cfgReset (n off : Nat) : Word :=
  if n = 0 then
    match off with
    | 0x58 => 0x00002810#32
    | 0x108 => 0x00400000#32
    | 0x10C => 0x00462030#32
    | 0x114 => 0x0000E000#32
    | 0x180 => 0x00000001#32
    | _ => 0
  else 0

/-- The writable bits of a configuration dword as they stand; `cfg` holds how they differ from their reset value. -/
def cfgHeld (p : Part) (n off : Nat) : Word := (p.fn n).cfg.get 0 off ^^^ cfgReset n off

/-- A message the part issues on the host link. -/
def issue (m : HostMsg) (p : Part) : Part := p.modHif fun h => { h with out := h.out ++ [m] }

/-- Max_Payload_Size and Max_Read_Request_Size of the physical function's Device Control, which hold for every function; the
part supports 512 and 4,096 octets (R36). -/
def maxPayload (p : Part) : Nat := 128 * 2 ^ min (fld (p.cfgHeld 0 0x58) 5 3).toNat 2
def maxRead (p : Part) : Nat := 128 * 2 ^ min (fld (p.cfgHeld 0 0x58) 12 3).toNat 5

/-- A range of host memory cut at the multiples of `size`: the pieces that one packet each carries. Where a range is cut, beyond
what the sizes and a 4 KiB boundary force, is a choice of the model's (log entry 160). -/
def packets (size : Nat) : Nat → Nat → Nat → List (Nat × Nat)
  | 0, _, _ => []
  | fuel + 1, a, n =>
    if n = 0 then []
    else
      let k := min n (size - a % size)
      (a, k) :: packets size fuel (a + k) (n - k)

/-- Width of the tags of the part's requests: 14 bits in flit mode, 10 in non-flit mode (R36). -/
def tagBits (p : Part) : Nat := if p.hif.flit then 14 else 10

/-- Octets written to host memory, in requests of at most Max_Payload_Size. -/
def issueWrite (fn : Nat) (addr : BitVec 64) (bs : List Byte) (p : Part) : Part :=
  (packets p.maxPayload bs.length addr.toNat bs.length).foldl
    (fun p x => p.issue (.write fn (BitVec.ofNat 64 x.1) ((bs.drop (x.1 - addr.toNat)).take x.2))) p

/-- Octets of host memory asked for, in requests of at most Max_Read_Request_Size; which tags they take is free. -/
def issueRead (fn : Nat) (addr : BitVec 64) (n : Nat) (p : Part) : Part :=
  (packets p.maxRead n addr.toNat n).foldl
    (fun p x =>
      let (k, p) := p.draw
      p.issue (.readReq fn (BitVec.ofNat 64 x.1) x.2 ((Config.freeWord k).toNat % 2 ^ p.tagBits))) p

/-- Routing ID of a function: P on the physical function, P + 1 + v on virtual function v (R44); P has device 0, function 0 on
the bus that configuration writes have named. -/
def routingId (p : Part) (n : Nat) : BitVec 16 := BitVec.ofNat 16 (256 * p.hif.bus.toNat + n)

/-- Function `n` may send completions and messages now: its Bus Master Enable is set and the part is not in D3hot, which only
the physical function enters (R40, R41, R73). -/
def mayPost (p : Part) (n : Nat) : Bool := (p.fn n).bme && !(p.fn 0).d3hot

/-- An event on a vector: sent, or held in the PBA bit while masked or while messages are held; dropped during a drain
(R58, R71, R73). The MSI-X Enable bit of the capability, which no rule names, is stored and not consulted (log entry 162). -/
def signal (n v : Nat) (p : Part) : Part :=
  let f := p.fn n
  let x := f.vectors.get {} v
  if f.draining then p
  else if x.masked || f.fnMask || !p.mayPost n then
    p.modFn n fun f => { f with vectors := f.vectors.upd {} v fun x => { x with pending := true } }
  else p.issue (.msix n v x.addr x.data)

/-- The PBA bits of unmasked vectors released: one message each (R58, R73). -/
def releaseVectors (n : Nat) (p : Part) : Part :=
  let f := p.fn n
  if f.draining || f.fnMask || !p.mayPost n then p
  else
    (f.vectors.filter fun x => x.2.pending && !x.2.masked).foldl
      (fun p x =>
        (p.modFn n fun f => { f with vectors := f.vectors.upd {} x.1 fun y => { y with pending := false } }).issue
          (.msix n x.1 x.2.addr x.2.data))
      p

/-! ### The Causeway's frames (R523, R524, R528) and the pair's status -/

/-- The part takes a signal from its rank: 0x01 or 0x02 (R526). -/
def pairRank (p : Part) : Byte := if p.sys.unitSel then 2 else 1

/-- The octets of key words `a` onward, `n` words. -/
def wordOctets (t : Tab Word) (a n : Nat) : List Byte := (List.range n).flatMap fun i => leBytes 4 (t.get 0 (a + i)).toNat

/-- The frame types of R523. -/
abbrev frHeartbeat : Byte := 1
abbrev frLedger : Byte := 2
abbrev frAck : Byte := 3
abbrev frResync : Byte := 4
abbrev frControl : Byte := 5
abbrev frHandshake : Byte := 6

/-- The octets of the next frame: header, payload under the transmit key, tag. A HANDSHAKE frame is in clear with a zero tag. -/
def frameOctets (m : Mir) (type : Byte) (last : Bool) (bs : List Byte) : List Byte :=
  let head := [type, (if m.phase then 1 else 0) ||| (if last then 2 else 0)] ++ leBytes 2 bs.length ++ leBytes 8 m.fseqTx.toNat
    ++ leBytes 4 (m.fseqRx - 1).toNat
  if type = frHandshake then head ++ bs ++ List.replicate 16 0
  else
    let key := wordOctets m.keyInUse 0 8
    let nonce := wordOctets m.keyInUse 8 1 ++ beBytes 8 m.fseqTx.toNat
    let ct := Crypto.gcmCrypt key nonce 0 bs
    head ++ ct ++ Crypto.gcmTag key nonce head ct

/-- One frame sent, kept until it is acknowledged; a frame is the block's operation boundary (R560). -/
def sendFrame (type : Byte) (last : Bool) (bs : List Byte) (m : Mir) : Mir :=
  let f := frameOctets m type last bs
  { m with out := m.out ++ [f], tx := m.tx ++ [(m.phase, m.fseqTx, f)], fseqTx := m.fseqTx + 1, share := m.share.apply }

/-- A message in the frames it needs, the last of several marked LAST. Only HANDSHAKE travels without a session. -/
def send (type : Byte) (bs : List Byte) (m : Mir) : Mir :=
  if !(m.session || type == frHandshake) then m
  else if bs.length ≤ 1024 then sendFrame type false bs m
  else
    let fs := Crypto.pieces 1024 bs
    fs.zipIdx.foldl (fun m x => sendFrame type (x.2 + 1 == fs.length) x.1 m) m

/-- HIF_PAIR: ROLE, SYNC, TIME_SKEW, SIGNAL_FAULT, STUCK, EPOCH. -/
def pairWord (p : Part) : Word :=
  let m := p.mir
  let role : BitVec 2 := if !p.paired then 0 else if m.gate = 2 then 1 else if p.sys.mode = .standby then 2 else 3
  at' role 0 ||| at' m.sync 2 ||| bit' m.timeSkew 5 ||| bit' (m.line == 3) 6 ||| bit' (m.line == 2) 7
    ||| at' (fld m.ownClaim 16 16) 16

/-- A change of HIF_PAIR raises the pair status source and vector 2 of the physical function. -/
def pairWatch (g : Part → Part) (p : Part) : Part :=
  let q := g p
  if q.pairWord = p.pairWord then q else (q.modMir fun m => { m with statusEvent := true }).signal 0 2

/-! ### FUNC_STATUS (02 R57, R77; 11 R381) -/

/-- TNT_STATE of a function: the manager's reads ACTIVE after ASSAY (R380). -/
def tntState (p : Part) (n : Nat) : BitVec 3 :=
  if n ≠ 0 then p.tnt.states.get 0 n
  else if p.sys.mode = .backup ∨ p.sys.mode = .wake ∨ p.sys.mode = .assay then 0
  else 1

/-- STATE of FUNC_STATUS. -/
def funcState (p : Part) (n : Nat) : BitVec 3 :=
  let st := p.tntState n
  if (p.fn n).draining then 3
  else if (p.fn n).wedged then 4
  else if p.sys.mode = .quarantine then 5
  else if st = 1 then 1
  else if st = 2 ∨ st = 3 ∨ st = 4 then 2
  else 0

def tdiCode : Tdi → BitVec 2
  | .unlocked => 0 | .locked => 1 | .run => 2 | .error => 3

/-- FUNC_STATUS of a function. BME_HOLD reads 1 whenever completions are held under R73, at reset too, where Bus Master Enable
is 0; the register table gives its reset value as 0 (log entry 161). -/
def funcStatus (p : Part) (n : Nat) : Word :=
  at' (p.funcState n) 0 ||| (if n = 0 then 0 else at' (tdiCode (p.fn n).tdi) 3) ||| at' p.hif.rate 8 ||| at' p.hif.width 12
    ||| bit' (!p.mayPost n) 16

/-- The functions that exist now (R47). -/
def funcsNow (p : Part) : List Nat := List.range (if p.hif.vfEnable then p.hif.numVfs.toNat + 1 else 1)

/-- A change of FUNC_STATUS is signalled on vector 0 of its function (R57). -/
def funcWatch (g : Part → Part) (p : Part) : Part :=
  let q := g p
  q.funcsNow.foldl (fun r n => if q.funcStatus n = p.funcStatus n then r else r.signal n 0) q

/-! ### Contexts (R69, R99, R106, R107) -/

def ctx (p : Part) (n : Nat) : Ctx := p.dsp.ctxs.get {} n

def modCtx (n : Nat) (g : Ctx → Ctx) (p : Part) : Part := p.modDsp fun d => { d with ctxs := d.ctxs.upd {} n g }

/-- The contexts in use of a function. -/
def ctxsOf (p : Part) (fn : Nat) : List (Nat × Ctx) := p.dsp.ctxs.filter fun c => c.2.fn == fn && c.2.state != .free

/-- What waits for a function's last context: the end of its drain (R69, R78), which vector 0 of the physical function reports as
well (R57, log entry 163), FREEZING to FROZEN unless the function is WEDGED (R398, R400), and the part's FROZEN, for which
contexts of WEDGED functions do not count, nor those of administrative commands that the freeze keeps from starting (R448, log
entry 189). -/
def settle (fn : Nat) (p : Part) : Part :=
  let p :=
    if (p.ctxsOf fn).isEmpty then
      let p := p.when (p.fn fn).draining fun p =>
        ((p.modFn fn fun f => { f with draining := false }).signal fn 0).when (fn != 0) (signal 0 0)
      p.when (p.tnt.states.get 0 fn == 2 && !(p.fn fn).wedged) fun p =>
        (p.modTnt fun t => { t with states := t.states.set 0 fn 3 }).signal 0 0
    else p
  pairWatch (fun p =>
  if p.sys.freezing && (p.dsp.ctxs.all fun c =>
      c.2.state == .free || (p.fn c.2.fn).wedged || (c.2.state == .queued && decide (4096 ≤ c.2.qp))) then
    p.modSys fun s => { s with freezing := false, leftMode := s.mode, mode := .frozen }
  else p) p

/-- The bulk stream of a context leaves the pan it is bound to. -/
def unbind (n : Nat) (p : Part) : Part :=
  match (p.ctx n).unit with
  | some (.pan k) =>
    p.modPan fun b =>
      { b with pans := b.pans.upd {} k fun x => { x with streams := x.streams.filter fun s => s.ctx != n } }
  | _ => p

/-- A context is freed (R107, R69). -/
def freeCtx (n : Nat) (p : Part) : Part :=
  let f := (p.ctx n).fn
  ((p.unbind n).modDsp fun d => { d with ctxs := d.ctxs.set {} n {} }).settle f

/-- An operation ends with a status, detail, result and octets written: its completion waits in the context, or is dropped
where a drain discards it, once no ledger entry carries it (R69, R70). A failed one has no result, and its OUT_COUNT is what its
output list had taken before (R99). -/
def finish (n : Nat) (status detail : Byte) (result : List Byte) (out : Word) (p : Part) : Part :=
  let c := p.ctx n
  if c.state = .free ∨ c.state = .finished then p
  else if c.discard && !p.mir.entries.any (fun e => e.waiter == some n) then p.freeCtx n
  else
    let good : Bool := status == 0 || status == 1
    ((p.unbind n).modCtx n fun c =>
      { c with state := .finished, status := status, detail := detail, unit := none, result := if good then result else []
               outCount := if good then out else BitVec.ofNat 32 c.outList
               finOrder := p.dsp.nextOrder }).modDsp fun d => { d with nextOrder := d.nextOrder + 1 }

/-- An operation that ends in failure. -/
def fail (n : Nat) (status detail : Byte) (p : Part) : Part := p.finish n status detail [] 0

/-- Every operation in flight ends with one status (R104), one whose completion has formed and is not yet written too. -/
def failAll (status detail : Byte) (p : Part) : Part :=
  p.dsp.ctxs.foldl
    (fun p c =>
      if c.2.state = .finished then
        p.modCtx c.1 fun c =>
          { c with status := status, detail := detail, result := [], outCount := BitVec.ofNat 32 c.outList }
      else p.fail c.1 status detail)
    p

/-! ### Priority of status for the operations of a lost unit -/

/-- The operations placed on units that `sel` picks end with `status` and `detail`. -/
def failUnits (sel : UnitRef → Bool) (status detail : Byte) (p : Part) : Part :=
  p.dsp.ctxs.foldl
    (fun p c =>
      match c.2.unit with
      | some u => if sel u && c.2.state != .finished then p.fail c.1 status detail else p
      | none => p)
    p

/-! ### Class A and the ledger (R541, R542, R544, R546, R547, R551) -/

/-- The pair admits Class A: unpaired, or in SERVICE or CEREMONY with GATE HOLDING, the line not STUCK and no handover begun
(R542, R553). -/
def gateOpen (p : Part) : Bool :=
  !p.paired || ((p.sys.mode == .service || p.sys.mode == .ceremony) && p.mir.gate == 2 && p.mir.line != 2 && !p.mir.hoStop)

/-- Class A operations complete without an ack: in SOLO with no copy running to the partner (R551, R554). -/
def alone (m : Mir) : Bool := m.sync == 5 && m.resyncFrom.isNone

/-- The items that octets hold, each whole with its header (R530); a cut one ends the list. -/
def itemsOf : Nat → List Byte → List (List Byte)
  | 0, _ => []
  | n + 1, bs =>
    let k := 4 + ofLe ((bs.drop 2).take 2)
    if bs.length < 4 ∨ bs.length < k then [] else bs.take k :: itemsOf n (bs.drop k)

/-- A LEDGER message: sequence, number and length of the items, the items (R530). -/
def ledgerMessage (seq : BitVec 64) (items : List Byte) : List Byte :=
  leBytes 8 seq.toNat ++ leBytes 4 (itemsOf items.length items).length ++ leBytes 4 items.length ++ items

/-- A Class A change has taken effect. On a pair its entry is given the next sequence and sent, and the operation's context
waits for the acknowledgement; alone, and on an unpaired part, it need not wait (R546, R547, R551). -/
def ledger (items : List Byte) (waiter : Option Nat) (counter : Option (Nat × BitVec 64)) (p : Part) : Part :=
  if !p.paired then p
  else if alone p.mir then p.modMir fun m => { m with sent := m.sent + 1, seq := m.sent + 1 }
  else
    p.modMir fun m =>
      send frLedger (ledgerMessage (m.sent + 1) items)
        { m with sent := m.sent + 1
                 entries := m.entries ++ [{ seq := m.sent + 1, items := items, waiter := waiter, counter := counter }] }

/-- Some entry not yet acknowledged carries the change of waiter `w`. -/
def waits (p : Part) (w : Nat) : Bool := p.mir.entries.any fun e => e.waiter == some w

end Part
end Sys2Proof.Machine
end

