-- ==== Sys2Proof/Machine/Wells.lean ====
section
/-! DEFINITION. Operations of the Brine Wells (10_brine_wells.md): the expander, the order in which draws are served (R366),
readiness, and what alarms do to it (R373, R374). -/

namespace Sys2Proof.Machine

namespace Ent

/-- INTERVAL and LIMIT in effect (R368). -/
def interval (e : Ent) : Nat := 2 ^ e.st.eff.1.toNat
def limit (e : Ent) : Nat := 2 ^ e.st.eff.2.toNat

/-- The three oldest blocks of the seed buffer, 48 octets (R362). -/
def oldest (e : Ent) : List Byte := (e.seeds.take 3).flatMap fun s => beBytes 16 s.2.toNat

/-- A reseed from the three oldest blocks (R363, R366). -/
def reseed (e : Ent) : Ent :=
  let (k, v) := Crypto.drbgUpdate e.key e.v.toNat e.oldest
  { e with key := k, v := BitVec.ofNat 128 v, seeds := e.seeds.drop 3, count := 0, reseeds := e.reseeds + 1 }

/-- Instantiation: one seed, and the Device Serial Number as personalization string (R363). -/
def instantiate (dsn : BitVec 64) (e : Ent) : Ent :=
  let (k, v) := Crypto.drbgUpdate (List.replicate 32 0) 0 (Crypto.xorB e.oldest (Crypto.padR 48 (leBytes 8 dsn.toNat)))
  { e with key := k, v := BitVec.ofNat 128 v, seeds := e.seeds.drop 3, count := 0, reseeds := e.reseeds + 1, inst := true
           ready := true, wasReady := true }

/-- One generate request of `n` octets (R363). -/
def generate (n : Nat) (e : Ent) : List Byte × Ent :=
  let (bs, k, v) := Crypto.drbgGen e.key e.v.toNat n
  (bs, { e with key := k, v := BitVec.ofNat 128 v, count := e.count + 1 })

/-- The first lines of R366: a reseed when the expander is stale and a seed stands ready. -/
def due (e : Ent) : Ent := if e.ready && decide (e.interval ≤ e.count ∧ 3 ≤ e.seeds.length) then e.reseed else e

/-- A draw decided by R366: the octets when it is served now. A running known-answer test holds the expander (R377). -/
def serve (cls : EntClass) (n : Nat) (e : Ent) : Option (List Byte) × Ent :=
  let e := e.due
  if !e.ready || e.katCond || e.katDrbg then (none, e)
  else
    match cls with
    | .predict =>
      if 3 ≤ e.seeds.length then
        let (bs, e) := e.reseed.generate n
        (some bs, e)
      else (none, e)
    | .fresh =>
      if e.interval ≤ e.count then (none, e)
      else
        let (bs, e) := e.generate n
        (some bs, e)
    | .mask =>
      if e.limit ≤ e.count then (none, e)
      else
        let (bs, e) := e.generate n
        (some bs, e)

/-- The words of a software port filled by a draw (R379). -/
def fillPort (bs : List Byte) (s : SwPort) : SwPort :=
  { s with busy := false, valid := true, status := 0
           data := ((Crypto.pieces 4 bs).zipIdx).foldl (fun t x => t.set 0 x.2 (BitVec.ofNat 32 (ofLe x.1))) [] }

/-- The wires: 0 to 15 the pans, 16 to 71 the rakes and grainers, 72 the Salt Cellar, 73 the Ladle, 74 the Salt Crust, 75 and 76 the
software ports. A draw that the model makes itself for the unit of wire w stands at 100 + w, apart from those that ENTROPY_REQUEST makes,
and its octets gather there. -/
def isPort (wire : Nat) : Bool := wire == 75 || wire == 76
def ownWire (wire : Nat) : Nat := 100 + wire

/-- A served draw arrives: in its software port, or on its private wire. -/
def deliver (wire : Nat) (bs : List Byte) (e : Ent) : Ent :=
  if isPort wire then { e with ports := e.ports.upd {} (wire - 75) (fillPort bs) }
  else { e with wires := e.wires.set [] wire ((if 100 ≤ wire then e.wires.get [] wire else []) ++ bs) }

/-- The waiting draws served in arrival order within each class (R366): what still waits, and the block. -/
def pumpGo : List Draw → List EntClass → Ent → List Draw × Ent
  | [], _, e => ([], e)
  | d :: ds, stuck, e =>
    if stuck.contains d.cls then
      let (l, e) := pumpGo ds stuck e
      (d :: l, e)
    else
      match e.serve d.cls d.bytes with
      | (some bs, e) => pumpGo ds stuck (e.deliver d.wire bs)
      | (none, e) =>
        let (l, e) := pumpGo ds (d.cls :: stuck) e
        (d :: l, e)

/-- R366 run again after COUNT, READY or the seed buffer has changed: a reseed that is due is made whether or not a draw waits. -/
def pump (e : Ent) : Ent :=
  let (l, e) := pumpGo e.waiting [] e.due
  { e with waiting := l }.due

/-- A draw of a class waits ahead of a new one. -/
def ahead (e : Ent) (cls : EntClass) : Bool := e.waiting.any fun d => d.cls == cls

/-- A request of `n` octets over a wire (R366): served, or left waiting behind the earlier draws of its class. -/
def ask (wire : Nat) (cls : EntClass) (n : Nat) (e : Ent) : Ent :=
  let (r, e) := if e.ahead cls then (none, e) else e.serve cls n
  match r with
  | some bs => (e.deliver wire bs).due
  | none =>
    { e with waiting := e.waiting ++ [{ wire := wire, cls := cls, bytes := n }]
             freshWaits := if cls = .mask then e.freshWaits else satInc e.freshWaits }

/-- The draws and octets of a unit's own wire dropped. -/
def dropOwn (w : Nat) (e : Ent) : Ent :=
  { e with waiting := e.waiting.filter fun d => d.wire != ownWire w, wires := e.wires.set [] (ownWire w) [] }

/-- READY falls (R369, R379): the waiting requests of the software ports end with ENT_NOT_READY. -/
def unready (e : Ent) : Ent :=
  { e with ready := false
           waiting := e.waiting.filter fun d => !isPort d.wire
           ports := e.ports.map fun x =>
             (x.1, if x.2.busy then { x.2 with busy := false, valid := false, status := 0x21 } else x.2) }

/-- The source is not isolated. -/
def sound (iso : BitVec 16) (k : Nat) : Bool := decide (k < 16) && !bitAt iso k

/-- The number of sources not isolated. -/
def soundCount (iso : BitVec 16) : Nat := ((List.range 16).filter (sound iso)).length

/-- ENT_SRC ACTIVE: a spare whose promotion runs is not active yet (R359). -/
def activeBits (e : Ent) : BitVec 16 :=
  (if e.promoA then 0 else BitVec.ofNat 16 (2 ^ e.actA)) ||| (if e.promoting then 0 else BitVec.ofNat 16 (2 ^ e.actB))

/-- The spare that replaces source `k` (R359, R375): the lowest-numbered sound source of its kind that `taken` does not
name, else of the other kind. -/
def spare (iso : BitVec 16) (taken : List Nat) (k : Nat) : Option Nat :=
  let free := (List.range 16).filter fun i => sound iso i && !taken.contains i
  match free.find? fun i => i / 8 == k / 8 with
  | some i => some i
  | none => free.head?

end Ent

namespace Part

/-- STRETCHED follows COUNT and INTERVAL, with a record at each rise and fall (R367). A highest COUNT of 2^32, which 32 bits do not
hold, is recorded as 0xFFFF_FFFF (log entry 187). -/
def entTrack (p : Part) : Part :=
  let e := p.ent
  let past := decide (e.interval ≤ e.count)
  if past && !e.stretched then
    (p.modEnt fun e => { e with stretched := true, highest := e.count }).post 0x9002#16 (e.st.eff.1.setWidth 32) 0
  else if past then p.modEnt fun e => { e with highest := max e.highest e.count }
  else if e.stretched then
    (p.modEnt fun e => { e with stretched := false, highest := 0 }).post 0x9003#16 (BitVec.ofNat 32 (min 0xFFFFFFFF e.highest)) 0
  else p

/-- The waiting draws looked at again (R366). -/
def entPump (p : Part) : Part := (p.modEnt Ent.pump).entTrack

/-- A draw that is served at once, or none, behind the draws of its class that wait (R366): `n` octets of class `cls`. What asks tries
again later. -/
def entDraw (cls : EntClass) (n : Nat) (p : Part) : Option (List Byte) × Part :=
  let (r, e) := if p.ent.ahead cls then (none, p.ent) else p.ent.serve cls n
  (r, { p with ent := e.due }.entTrack)

/-- The `n` octets that the unit of wire `w` needs, drawn over its wire in requests of `per` octets (R365): the octets once all its
requests are served; else its requests wait in arrival order (R366), and what asks tries again later. -/
def entDrawOn (w : Nat) (cls : EntClass) (per n : Nat) (p : Part) : Option (List Byte) × Part :=
  let own := Ent.ownWire w
  let p :=
    if p.ent.waiting.any (fun d => d.wire == own) || decide (n ≤ (p.ent.wires.get [] own).length) then p
    else ((List.range ((n + per - 1) / per)).foldl (fun p _ => p.modEnt (Ent.ask own cls per)) p).entTrack
  let bs := p.ent.wires.get [] own
  if n ≤ bs.length then (some (bs.take n), p.modEnt fun e => { e with wires := e.wires.set [] own [] }) else (none, p)

/-- A draw over a wire (R366): served, or left waiting behind earlier draws of its class. -/
def entRequest (wire : Nat) (cls : EntClass) (n : Nat) (p : Part) : Part :=
  (p.modEnt (Ent.ask wire cls n)).entTrack

/-- READY falls: the lanes hold again (R369). -/
def entUnready (p : Part) : Part :=
  (p.modEnt Ent.unready).modDsp fun d => { d with entHold := true }

/-- An alarm of rank Suspend makes the expander stale (R373). COUNT has changed, so a seed that stands ready reseeds it (R366). -/
def entStale (p : Part) : Part := (p.modEnt fun e => { e with count := max e.count e.interval }).entPump

/-- An alarm of rank Quarantine or Obliterate zeroes the expander, the seed buffer and the conditioner and clears READY
(R374). The sources keep running; a promotion keeps its count. -/
def entZero (p : Part) : Part :=
  (p.modEnt fun e =>
    { e with key := [], v := 0, inst := false, seeds := []
             srcs := e.srcs.mapV {} fun _ s => { s with blk := 0, fill := 0, promoBlk := false } }).entUnready

/-- ENT loses power (R375). What stands until the next full reset stays (R371, R377), and so do the draws that blocks outside ENT
have asked for or been given on their wires (R372). -/
def entLost (p : Part) : Part :=
  { p with ent :=
      { dead := p.ent.dead, startFail := p.ent.startFail, katFailed := p.ent.katFailed, wires := p.ent.wires
        waiting := p.ent.waiting.filter fun d => !Ent.isPort d.wire } }.modDsp fun d => { d with entHold := true }

/-- The ENT_READY record of a start (R519). The microseconds since power-good are a free word (assumption 154). -/
def entReadyRecord (p : Part) : Part :=
  let (k, p) := p.draw
  p.post 0x0018#16 (Config.freeWord k) 0

/-- When the unit can instantiate it does so, READY is set, ENT_HOLD falls and waiting requests are served (R370, R371,
R374): three blocks in the buffer and, at start-up, two active sources that have met their requirement. -/
def entTryReady (p : Part) : Part :=
  let e := p.ent
  let passed := fun k => decide (1024 ≤ (e.srcs.get {} k).passed)
  let started := e.wasReady || (e.actA != e.actB && passed e.actA && passed e.actB && !e.promoting && !e.promoA)
  if e.running && !e.ready && !e.dead && !e.startFail && started && decide (3 ≤ e.seeds.length) then
    let p := (p.modEnt (Ent.instantiate p.serial)).modDsp fun d => { d with entHold := false }
    (if p.sys.mode = .wake ∨ p.sys.mode = .assay then p.entReadyRecord else p).entPump
  else p

end Part
end Sys2Proof.Machine
end

