-- ==== Sys2Proof/Machine/Cellar.lean ====
section
/-! DEFINITION. Operations of the Salt Cellar (09_salt_cellar.md): the attribute block (R320), tags (R330), writes and
generations (R328), the read by handle (R327), the attribute checks (R321), templates (R325, R326), and the ways keys are
destroyed (R351). -/

namespace Sys2Proof.Machine

namespace Slot

/-! ### The attribute block (R320) -/

def colour (s : Slot) : BitVec 12 := fld s.w0 0 12
def hclass (s : Slot) : BitVec 4 := fld s.w0 12 4
def gen (s : Slot) : Byte := fld s.w0 16 8
def alg (s : Slot) : Byte := fld s.w0 24 8
def usage (s : Slot) : BitVec 16 := fld s.w1 0 16
def releaseMask (s : Slot) : Byte := fld s.w1 16 8
def decryptClass (s : Slot) : BitVec 3 := fld s.w1 24 3
def exportClass (s : Slot) : BitVec 3 := fld s.w1 27 3
def state (s : Slot) : BitVec 2 := fld s.w1 30 2
def chainPos (s : Slot) : Byte := fld s.w2 0 8
def chainLen (s : Slot) : Byte := fld s.w2 8 8
def child (s : Slot) : Byte := fld s.w2 16 8
def hold (s : Slot) : Bool := bitAt s.w2 24
def notAfter (s : Slot) : BitVec 16 := fld s.w3 0 16
def modLimbs (s : Slot) : BitVec 9 := fld s.w3 16 9

/-- The attribute block as octets, and with CHAIN_POS taken as 0. -/
def attrBytes (s : Slot) : List Byte :=
  leBytes 4 s.w0.toNat ++ leBytes 4 s.w1.toNat ++ leBytes 4 s.w2.toNat ++ leBytes 4 s.w3.toNat
def attrsButPos (s : Slot) : List Word := [s.w0, s.w1, s.w2 &&& 0xFFFFFF00#32, s.w3]

/-- Words built from fields; bits 5 and 6 of RELEASE_MASK are zero. -/
def word0 (colour : BitVec 12) (hclass : BitVec 4) (gen alg : Byte) : Word :=
  at' colour 0 ||| at' hclass 12 ||| at' gen 16 ||| at' alg 24
def word1 (usage : BitVec 16) (mask : Byte) (dec exp : BitVec 3) (state : BitVec 2) : Word :=
  at' usage 0 ||| at' (mask &&& 0x9F#8) 16 ||| at' dec 24 ||| at' exp 27 ||| at' state 30
def word2 (pos len child : Byte) (hold : Bool) : Word := at' pos 0 ||| at' len 8 ||| at' child 16 ||| bit' hold 24
def word3 (notAfter : BitVec 16) (limbs : BitVec 9) : Word := at' notAfter 0 ||| at' limbs 16

/-- STATE codes. -/
abbrev empty : BitVec 2 := 0
abbrev key : BitVec 2 := 1
abbrev landing : BitVec 2 := 2

end Slot

/-- The fields of a template entry (R325). -/
structure Template where
  hclass  : BitVec 4
  alg     : Byte
  usage   : BitVec 16
  mask    : Byte
  dec     : BitVec 3
  expo    : BitVec 3
  child   : Byte
  deriving DecidableEq, Repr

/-- An entry's fields. A template gives no RELEASE_MASK with bit 5 or 6 (R320, R325). -/
def Template.ofEntry (e : BitVec 64) : Template :=
  { hclass := fld e 0 4, alg := fld e 4 8, usage := fld e 12 16, mask := fld e 28 8 &&& 0x9F#8, dec := fld e 36 3, expo := fld e 39 3
    child := fld e 42 8 }

/-- Two templates agree where R326 compares them: not in CHILD. -/
def Template.agrees (a b : Template) : Bool :=
  a.hclass == b.hclass && a.alg == b.alg && a.usage == b.usage && a.mask == b.mask && a.dec == b.dec && a.expo == b.expo

/-- The fields of a key handle (R154). -/
def hIndex (h : BitVec 32) : Nat := (fld h 0 20).toNat
def hGen (h : BitVec 32) : Byte := fld h 20 8
def hClass (h : BitVec 32) : BitVec 4 := fld h 28 4

/-- A handle from its parts. -/
def mkHandle (cls : BitVec 4) (gen : Byte) (i : Nat) : BitVec 32 := at' (BitVec.ofNat 20 i) 0 ||| at' gen 20 ||| at' cls 28

namespace Slc

/-- The per-boot keys as the clearing drew them (R333): tag key, scramble key, row key. -/
def tagKey (k : List Byte) : List Byte := k.take 16
def scrambleKey (k : List Byte) : List Byte := (k.drop 16).take 16
def rowKey (k : List Byte) : List Byte := (k.drop 32).take 16

/-- The tag of slot `i`: AES-128 CMAC under the per-boot tag key (R330). -/
def tagOf (c : Slc) (i : Nat) (s : Slot) : List Byte :=
  match c.keys with
  | some k => Crypto.cmac (Crypto.aes (tagKey k)) (leBytes 4 i ++ s.attrBytes ++ s.mat)
  | none => []

/-- A slot with its tag computed, as the bank writes it. -/
def sealed (c : Slc) (i : Nat) (s : Slot) : Slot := { s with tag := c.tagOf i s }

/-- An EMPTY slot with a generation: every other attribute zero. -/
def emptySlot (g : Byte) : Slot := { mat := List.replicate 32 0, w0 := Slot.word0 0 0 g 0, w1 := 0, w2 := 0, w3 := 0, tag := [] }

/-- Slot `i` as the last clearing and the rewrites of its bank left it (R329, R334, R352). -/
def blank (c : Slc) (i : Nat) : Slot :=
  c.sealed i (emptySlot (Config.freeByte c.genDraw i + BitVec.ofNat 8 (c.bankGen.get 0 (i % 32))))

/-- Slot `i`. -/
def slot (c : Slc) (i : Nat) : Slot := (c.slots.get none i).getD (c.blank i)

/-- The row in which bank i mod 32 stores slot `i`, and the octets stored there: material, attribute block and tag under the keystream
(R319, R333). No command reads the array but through the bank, which undoes both, so nothing of the machine rests on their free functions
(log entry 185). -/
def rowOf (c : Slc) (i : Nat) : Nat :=
  match c.keys with
  | some k => Config.rowOrder (rowKey k) (i % 32) (i / 32)
  | none => i / 32
def stored (c : Slc) (i : Nat) : List Byte :=
  let bs := (c.slot i).mat ++ (c.slot i).attrBytes ++ (c.slot i).tag
  match c.keys with
  | some k => bs.zipIdx.map fun x => x.1 ^^^ Config.scramble (scrambleKey k) (i % 32) (c.rowOf i) x.2
  | none => bs

/-- Slot `i` written. -/
def put (c : Slc) (i : Nat) (s : Slot) : Slc := { c with slots := c.slots.set none i (some (c.sealed i s)) }

/-- The bad mark of a slot. -/
def isBad (c : Slc) (i : Nat) : Bool := c.bad.get false i

/-- The tag of slot `i` holds. -/
def tagOk (c : Slc) (i : Nat) : Bool := (c.slot i).tag == c.tagOf i (c.slot i)

/-- A slot destroyed: material zero, EMPTY, GEN + 1, bad mark cleared (R338). -/
def destroy1 (c : Slc) (i : Nat) : Slc :=
  { c.put i (emptySlot ((c.slot i).gen + 1)) with bad := c.bad.set false i false }

/-- The indices of the chain headed at `i`: the head and the continuation slots that belong to it. -/
def chainOf (c : Slc) (i : Nat) : List Nat :=
  let s := c.slot i
  if s.state = Slot.empty ∨ s.chainPos ≠ 0 then [i]
  else
    i :: ((List.range s.chainLen.toNat).drop 1 |>.filter fun k =>
      let t := c.slot (i + k)
      t.state == s.state && t.colour == s.colour && t.gen == s.gen && t.chainPos == BitVec.ofNat 8 k).map (i + ·)

/-- The slot, or the whole chain headed there, destroyed (R338, R351). -/
def destroy (c : Slc) (i : Nat) : Slc := (c.chainOf i).foldl destroy1 c

/-- The slots in use of a colour, in index order. -/
def ownedBy (c : Slc) (colour : BitVec 12) : List Nat :=
  (c.slots.map Prod.fst).dedup.filter fun i => (c.slot i).colour == colour && (c.slot i).state != Slot.empty

/-- A chain write: every slot takes the attributes, its position, the head's previous GEN plus 1 and its material (R328,
R336). -/
def putChain (c : Slc) (i : Nat) (colour : BitVec 12) (t : Template) (notAfter : BitVec 16) (limbs : BitVec 9)
    (mats : List (List Byte)) : Slc :=
  let g := (c.slot i).gen + 1
  let n := mats.length
  mats.zipIdx.foldl
    (fun c x =>
      { c.put (i + x.2)
          { mat := Crypto.padR 32 x.1, w0 := Slot.word0 colour t.hclass g t.alg
            w1 := Slot.word1 t.usage t.mask t.dec t.expo Slot.key
            w2 := Slot.word2 (BitVec.ofNat 8 x.2) (BitVec.ofNat 8 n) t.child false, w3 := Slot.word3 notAfter limbs
            tag := [] } with
        bad := c.bad.set false (i + x.2) false })
    c

/-- The entry of template `t`; entry 0 is the null template (R325). -/
def template (c : Slc) (t : Nat) : Template := Template.ofEntry (if t = 0 then 0 else c.tpl.get 0 t)

/-- The open chain holds reads of slot `i` (R337). -/
def heldRange (c : Slc) (i : Nat) : Bool :=
  match c.chain with
  | some o => decide (o.head ≤ i ∧ i < o.head + o.len)
  | none => false

end Slc

namespace Part

/-- Bank `b` is powered and not being rewritten (R327, R352). -/
def bankUp (p : Part) (b : Nat) : Bool := p.powered (72 + b) && !bitAt (p.slc.restoring ||| p.slc.bankDue) b

def slot (p : Part) (i : Nat) : Slot := p.slc.slot i

/-- A slot marked bad (R331): recorded when the mark is new. -/
def markBad (i : Nat) (byScrub : Bool) (p : Part) : Part :=
  if p.slc.isBad i then p
  else
    (p.modSlc fun c =>
      { c with bad := c.bad.set false i true, lastBad := BitVec.ofNat 20 i, byScrub := byScrub, newBad := true }).post
      0x8001#16 (at' (BitVec.ofNat 20 i) 0 ||| bit' byScrub 20) 0

/-- The tags of slots that the port reads checked: a slot whose tag fails is marked and recorded (R330, R331). -/
def checkTags (is : List Nat) (p : Part) : Part :=
  is.foldl (fun p i => p.when (p.bankUp (i % 32) && !p.slc.tagOk i) (markBad i false)) p

/-- A slot of the range is marked bad. -/
def anyBad (p : Part) (is : List Nat) : Bool := is.any fun i => p.slc.isBad i

/-- The checks of R327 on the head slot: a status and reason, or none; a failing tag is marked. -/
def headCheck (h : BitVec 32) (colour : BitVec 12) (accepted : List (BitVec 4)) (p : Part) :
    Option (Byte × Byte) × Part :=
  if !([1, 2, 3, 4, 5].contains (hClass h)) || !accepted.contains (hClass h) then (some (0x11, 2), p)
  else
    let i := hIndex h
    let s := p.slot i
    if !p.bankUp (i % 32) then (some (0x31, 0), p)
    else if p.slc.isBad i || !p.slc.tagOk i then
      (some (if s.colour = colour then (0x31, 0) else (0x11, 1)), p.markBad i false)
    else if s.state = Slot.empty ∨ s.colour ≠ colour then (some (0x11, 1), p)
    else if s.chainPos ≠ 0 ∨ s.gen ≠ hGen h ∨ s.hclass ≠ hClass h then (some (0x11, 0), p)
    else (none, p)

/-- The chain loop of R327 from position `k`, over `n` further slots. -/
def chainCheck (i : Nat) (s : Slot) : Nat → Nat → Part → Option (Byte × Byte) × Part
  | _, 0, p => (none, p)
  | k, n + 1, p =>
    let t := p.slot (i + k)
    if !p.bankUp ((i + k) % 32) || p.slc.isBad (i + k) || !p.slc.tagOk (i + k) then
      (some (0x31, 0), p.when (p.bankUp ((i + k) % 32)) (markBad (i + k) false))
    else if t.state ≠ Slot.key ∨ t.colour ≠ s.colour ∨ t.gen ≠ s.gen ∨ t.chainPos ≠ BitVec.ofNat 8 k
        ∨ t.attrsButPos ≠ s.attrsButPos then (some (0x11, 3), p)
    else chainCheck i s (k + 1) n p

/-- The SLOT item of a ledger entry (R530): a slot whose STATE is EMPTY carries zero material. -/
def slotItem (p : Part) (i : Nat) : List Byte :=
  let s := p.slot i
  [1, 0] ++ leBytes 2 52 ++ leBytes 4 i ++ s.attrBytes
    ++ (if s.state = Slot.empty then List.replicate 32 0 else Crypto.padR 32 s.mat)

/-- A read by handle (R327): the failure's status and reason, or the slots of the chain, head first. -/
def slotRead (h : BitVec 32) (colour : BitVec 12) (accepted : List (BitVec 4)) (p : Part) :
    Except (Byte × Byte) (List Slot) × Part :=
  match p.headCheck h colour accepted with
  | (some e, p) => (.error e, p)
  | (none, p) =>
    let i := hIndex h
    let s := p.slot i
    match p.chainCheck i s 1 (s.chainLen.toNat - 1) with
    | (some e, p) => (.error e, p)
    | (none, p) => (.ok ((List.range (max 1 s.chainLen.toNat)).map fun k => p.slot (i + k)), p)

/-- A lookup of slot `i` waits: the Cellar is not READY, or an open chain holds the index (R334, R337). -/
def lookupWaits (p : Part) (i : Nat) : Bool := !p.slc.ready || p.slc.heldRange i

/-- An engine's read of the key of a handle waits: the Cellar is not READY, or an open chain holds a slot of its chain. -/
def cellarWaits (p : Part) (h : BitVec 32) : Bool :=
  (List.range (max 1 (p.slot (hIndex h)).chainLen.toNat)).any fun k => p.lookupWaits (hIndex h + k)

/-- The day of the calendar, counted from 2000-01-01 (R320). -/
def today (p : Part) : Nat := p.bat.secs.toNat / 86400

/-- The attribute checks of R321 in their order: algorithm, lifetime, HOLD, usage. -/
def useCheck (p : Part) (s : Slot) (algOk : Bool) (usage : BitVec 16) : Option (Byte × Byte) :=
  if !algOk then some (0x12, 1)
  else if s.notAfter ≠ 0 ∧ s.notAfter.toNat < p.today then some (0x12, 3)
  else if s.hold then some (0x12, 4)
  else if s.usage &&& usage ≠ usage then some (0x12, 0)
  else none

/-- A slot or chain destroyed. -/
def slotDestroy (i : Nat) (p : Part) : Part := p.modSlc fun c => c.destroy i

/-- HOLD set or cleared on the whole chain of a handle (R338 NARROW). A slot whose tag fails is marked and left as it is. -/
def setHold (h : BitVec 32) (b : Bool) (p : Part) : Part :=
  (p.checkTags (p.slc.chainOf (hIndex h))).modSlc fun c =>
    (c.chainOf (hIndex h)).foldl
      (fun c i =>
        let s := c.slot i
        if s.state = Slot.empty ∨ c.isBad i then c
        else c.put i { s with w2 := (s.w2 &&& ~~~ (0x01000000#32)) ||| bit' b 24 })
      c

/-- The whole Cellar destroyed: the keys discarded first, every bank then zeroed as in clearing (R351, R576). -/
def cellarKill (p : Part) : Part :=
  p.modSlc fun c =>
    { c with keys := none, slots := [], bankGen := [], chain := none, cache := [], ready := false, clearing := true }

/-- The Ladle's cache cleared (R345). -/
def ladleClear (p : Part) : Part := p.modSlc fun c => { c with cache := [] }

/-- A bank loses power: its contents are lost, its generations kept for the advance of R352. -/
def bankLoses (b : Nat) (p : Part) : Part :=
  p.modSlc fun c =>
    { c with slots := c.slots.map fun s =>
               if s.1 % 32 = b then (s.1, s.2.map fun x => c.sealed s.1 (Slc.emptySlot x.gen)) else s
             bad := c.bad.filter fun s => s.1 % 32 != b
             bankDue := c.bankDue ||| BitVec.ofNat 32 (2 ^ b), restoring := c.restoring &&& ~~~ BitVec.ofNat 32 (2 ^ b) }

/-- A flash-clear of the Vault begins (R351, R579); it runs to its end (R649). -/
def vaultClear (p : Part) : Part := p.modBat fun b => { b with vault := [], vaultClearing := true }

/-- A secure-port command whose permissive decision has ended, or that waits for a draw that cannot come, ends with
NOT_READY (R334, R646, R652). -/
def dropPort (p : Part) : Part :=
  p.modSlc fun c => if c.busy && c.op.isNone then { c with op := some (0x01, c.gen), spWait := none } else c

end Part
end Sys2Proof.Machine
end

