-- ==== Sys2Proof/Machine/KeyBlock.lean ====
section
/-! DEFINITION. ASC X9.143 key blocks of versions B and D in the subset of R239, the mapping of their headers onto slot attributes
(R342), and RFC 5649 key wrap (R267). -/

namespace Sys2Proof.Machine
namespace KeyBlock

/-- The fields of a template as its 64-bit entry (R325). -/
def entryOf (t : Template) : BitVec 64 :=
  (t.hclass.setWidth 64) ||| (t.alg.setWidth 64 <<< 4) ||| (t.usage.setWidth 64 <<< 12) ||| (t.mask.setWidth 64 <<< 28)
    ||| (t.dec.setWidth 64 <<< 36) ||| (t.expo.setWidth 64 <<< 39) ||| (t.child.setWidth 64 <<< 42)

/-! ### ASCII -/

def ascii (s : String) : List Byte := s.toList.map fun c => BitVec.ofNat 8 c.toNat

/-- The value of an upper-case hexadecimal digit. -/
def hexVal (b : Byte) : Option Nat :=
  let v := b.toNat
  if 48 ≤ v ∧ v ≤ 57 then some (v - 48) else if 65 ≤ v ∧ v ≤ 70 then some (v - 55) else none

/-- The number that digits of a base spell. -/
def numOf (base : Nat) (bs : List Byte) : Option Nat :=
  bs.foldl (fun a b => match a, hexVal b with
    | some n, some d => if d < base then some (base * n + d) else none
    | _, _ => none) (some 0)

/-- The octets that pairs of hexadecimal digits spell. -/
def unhex (bs : List Byte) : Option (List Byte) :=
  (Crypto.pieces 2 bs).foldr (fun p l => match numOf 16 p, l with
    | some v, some l => if p.length = 2 then some (BitVec.ofNat 8 v :: l) else none
    | _, _ => none) (some [])

/-- Octets as hexadecimal digits. -/
def hex (bs : List Byte) : List Byte :=
  bs.flatMap fun b => [b.toNat / 16, b.toNat % 16].map fun v => BitVec.ofNat 8 (if v < 10 then 48 + v else 55 + v)

/-! ### Keys of the block (X9.143, CMAC derivation) -/

/-- A key derived from the protection key: `use` 0 enciphers, 1 authenticates. -/
def derive (tdes : Bool) (kbpk : List Byte) (use : Nat) : List Byte :=
  let c := Crypto.cipherOf tdes kbpk
  let n := kbpk.length
  let alg := if tdes then (if n = 24 then 1 else 0) else if n = 24 then 3 else if n = 32 then 4 else 2
  ((List.range ((n + c.size - 1) / c.size)).flatMap fun i =>
    Crypto.cmac c ([BitVec.ofNat 8 (i + 1)] ++ beBytes 2 use ++ [0] ++ beBytes 2 alg ++ beBytes 2 (8 * n))).take n

/-- The MAC of header and clear key data. -/
def macOf (tdes : Bool) (kbpk head clear : List Byte) : List Byte :=
  Crypto.cmac (Crypto.cipherOf tdes (derive tdes kbpk 1)) (head ++ clear)

/-! ### Headers (R239, R342) -/

/-- Optional blocks from `bs`: their IDs and the octets they take, `n` blocks. -/
def optional : Nat → List Byte → Option (List (List Byte) × Nat)
  | 0, _ => some ([], 0)
  | n + 1, bs =>
    match numOf 16 ((bs.drop 2).take 2) with
    | none => none
    | some l0 =>
      let len : Option Nat :=
        if l0 ≠ 0 then some l0
        else
          match numOf 16 ((bs.drop 4).take 2) with
          | some k => numOf 16 ((bs.drop 6).take k)
          | none => none
      match len with
      | none => none
      | some l =>
        if l < 4 ∨ bs.length < l then none
        else
          match optional n (bs.drop l) with
          | some (ids, m) => some (bs.take 2 :: ids, l + m)
          | none => none

/-- The USAGE, DECRYPT_CLASS and RELEASE_MASK of a key usage and a mode of use. -/
def attrsOf (use : List Byte) (mode : Byte) : Option (BitVec 16 × BitVec 3 × Byte) :=
  let m := fun (s : String) => (ascii s).contains mode
  let bit := fun (b : Bool) (i : Nat) => if b then BitVec.ofNat 16 (2 ^ i) else 0
  let enc := m "BE"
  let dec := m "BD"
  let gv := m "CGV"
  let out : Byte := if m "CG" then 0xFF else 0
  let is := fun (l : List String) => l.any fun s => use == ascii s
  if is ["B0", "B1", "E0", "E1", "E2", "E3", "E4", "E5", "E6"] then some (bit (m "X") 6, 0, 0)
  else if is ["C0"] then some (bit gv 0 ||| bit gv 12, 0, out &&& 0x02)
  else if is ["D0"] then some (bit enc 0 ||| bit dec 1 ||| bit (enc || dec) 13, 0, 0x03)
  else if is ["K0"] then some (bit enc 4 ||| bit dec 5, 3, 0x0C)
  else if is ["K1"] then some (bit (enc || dec) 15 ||| bit enc 4 ||| bit dec 5, 3, 0x0C)
  else if is ["M0", "M1", "M3", "M6", "M7"] then some (bit (m "CG") 2 ||| bit (m "CV") 3, 0, out &&& 0x03)
  else if is ["P0"] then some (bit enc 0 ||| bit dec 1 ||| bit (enc || dec) 10, 4, 0x10)
  else if is ["V0", "V1", "V2"] then some (bit gv 0 ||| bit gv 11, 0, 0)
  else none

/-- The key usages and modes of use of R239. -/
def usages : List (List Byte) :=
  ["B0", "B1", "C0", "D0", "E0", "E1", "E2", "E3", "E4", "E5", "E6", "K0", "K1", "M0", "M1", "M3", "M6", "M7", "P0", "V0", "V1"
    , "V2"].map ascii
def modesOfUse : List Byte := ascii "BCDEGNVX"

/-- The check value of a key (R245): 3 octets under TDES, 5 under AES. -/
def checkValue (tdes : Bool) (key : List Byte) : List Byte :=
  if tdes then ((Crypto.tdes key).enc (List.replicate 8 0)).take 3
  else (Crypto.cmac (Crypto.aes key) (List.replicate 16 0)).take 5

/-- A decimal number in four digits. -/
def decimal (n : Nat) : List Byte := [n / 1000, n / 100, n / 10, n].map fun v => BitVec.ofNat 8 (48 + v % 10)

/-- A KC or KP block: its ID, its length, the method (00 encipherment of zeros, 01 CMAC) and the check value of a key. X9.143 gives
its form (log entry 180). -/
def checkBlock (id : String) (tdes : Bool) (key : List Byte) : List Byte :=
  let v := hex (checkValue tdes key)
  ascii id ++ hex [BitVec.ofNat 8 (6 + v.length)] ++ ascii (if tdes then "00" else "01") ++ v

/-- The PB block that fills `n` octets of optional blocks to whole blocks of `size`; its characters are free. -/
def padBlock (size n k : Nat) : List Byte :=
  let r := (size - n % size) % size
  let len := if r = 0 then 0 else if r < 4 then r + size else r
  if len = 0 then []
  else ascii "PB" ++ hex [BitVec.ofNat 8 len] ++ ((List.range (len - 4)).flatMap fun i => (hex [Config.freeByte k i]).take 1)

/-- The KC and KP blocks that PARAM [1:0] of program 0x00B1 asks for (R238). -/
def checkBlocks (tdesProt tdesKey : Bool) (kbpk key : List Byte) (param : Word) : List (List Byte) :=
  (if bitAt param 0 then [checkBlock "KC" tdesKey key] else []) ++ if bitAt param 1 then [checkBlock "KP" tdesProt kbpk] else []

/-- The key usage and mode of use of a header for a key of these attributes: one of those that R342 maps to them, which one is free;
free octets where none does. -/
def usageOf (w1 : Word) (k : Nat) : List Byte × Byte :=
  let want := some ((fld w1 0 16 : BitVec 16), (fld w1 24 3 : BitVec 3), (fld w1 16 8 : Byte))
  let all := usages.flatMap fun u => (modesOfUse.filter fun m => attrsOf u m == want).map fun m => (u, m)
  all.getD ((Config.freeWord k).toNat % max 1 all.length) ([Config.freeByte k 64, Config.freeByte k 65], Config.freeByte k 66)

/-- The header and optional blocks that KB.BUILD forms of a key with attribute words `attr` under a protection key (R238, R239, R342):
version D under AES and B under TDES, the whole block's length, key version and reserved field "00" (log entry 180). -/
def header (tdes : Bool) (kbpk key : List Byte) (param : Word) (attr : List Word) (k : Nat) : List Byte :=
  let w0 := attr.getD 0 0
  let w1 := attr.getD 1 0
  let size := if tdes then 8 else 16
  let alg : Nat := (fld w0 24 8).toNat
  let opts := checkBlocks tdes (decide (alg ≤ 2)) kbpk key param
  let pb := padBlock size opts.flatten.length k
  let all := opts.flatten ++ pb
  let n := opts.length + if pb = [] then 0 else 1
  let total := 16 + all.length + 2 * (size * ((2 + key.length + (size - 1)) / size)) + 2 * size
  let (use, mode) := usageOf w1 k
  ascii (if tdes then "B" else "D") ++ decimal total ++ use ++ ascii (if alg ≤ 2 then "T" else "A") ++ [mode] ++ ascii "00"
    ++ ascii (if fld w1 27 3 = 2 then "E" else if fld w1 27 3 = 3 then "S" else "N") ++ (decimal n).drop 2 ++ ascii "00" ++ all

/-- ALG of an algorithm letter and a key length. -/
def algOf (a : Byte) (len : Nat) : Option Byte :=
  if [a] = ascii "T" then (if len = 16 then some 0x01 else if len = 24 then some 0x02 else none)
  else if [a] = ascii "A" then
    (if len = 16 then some 0x10 else if len = 24 then some 0x11 else if len = 32 then some 0x12 else none)
  else none

/-- A key block parsed under a protection key: the key and the template its header maps to, when every check passes (R240). -/
def parse (tdes : Bool) (kbpk blk : List Byte) : Option (List Byte × Template) :=
  let size := if tdes then 8 else 16
  let version := if tdes then ascii "B" else ascii "D"
  if blk.length < 16 ∨ 0x4000 < blk.length ∨ blk.take 1 ≠ version ∨ numOf 10 ((blk.drop 1).take 4) ≠ some blk.length then none
  else
    match numOf 10 ((blk.drop 12).take 2) with
    | none => none
    | some n =>
      match optional n (blk.drop 16) with
      | none => none
      | some (ids, optLen) =>
        let head := blk.take (16 + optLen)
        let idsOk := decide ids.Nodup
          && ids.all fun i => ["KS", "IK", "KC", "KP", "TS", "PB"].any fun s => i == ascii s
        match unhex (blk.drop (16 + optLen)), attrsOf ((blk.drop 5).take 2) (blk.getD 8 0) with
        | some body, some (usage, dec, mask) =>
          let ct := body.take (body.length - size)
          let mac := body.drop (body.length - size)
          let clear := (Crypto.cbcDec (Crypto.cipherOf tdes (derive tdes kbpk 0)) mac ct).1
          let len := ofBe (clear.take 2) / 8
          let expo : Option (BitVec 3) :=
            if [blk.getD 11 0] = ascii "E" then some 2 else if [blk.getD 11 0] = ascii "S" then some 3
            else if [blk.getD 11 0] = ascii "N" then some 1 else none
          match algOf (blk.getD 7 0) len, expo with
          | some alg, some ex =>
            if idsOk && head.length % size == 0 && ct.length % size == 0 && decide (2 + len ≤ ct.length)
                && (ascii "BCDEGNVX").contains (blk.getD 8 0) && macOf tdes kbpk head clear == mac then
              some ((clear.drop 2).take len,
                { hclass := 1, alg := alg, usage := usage, mask := mask, dec := dec, expo := ex, child := 0 })
            else none
          | _, _ => none
        | _, _ => none

/-- A key block built: a header, the key, `pad` octets to whole blocks (X9.143). -/
def build (tdes : Bool) (kbpk head key pad : List Byte) : List Byte :=
  let size := if tdes then 8 else 16
  let n := (size - (2 + key.length) % size) % size
  let clear := beBytes 2 (8 * key.length) ++ key ++ Crypto.padR n (pad.take n)
  let mac := macOf tdes kbpk head clear
  head ++ hex ((Crypto.cbcEnc (Crypto.cipherOf tdes (derive tdes kbpk 0)) mac clear).1) ++ hex mac

/-! ### RFC 5649 -/

/-- The alternative initial value for a key of `n` octets. -/
def kwpIv (n : Nat) : List Byte := [0xA6, 0x59, 0x59, 0xA6] ++ beBytes 4 n

def kwpWrap (c : Crypto.Cipher) (key : List Byte) : List Byte :=
  let p := key ++ List.replicate ((8 - key.length % 8) % 8) 0
  if p.length = 8 then c.enc (kwpIv key.length ++ p) else Crypto.keyWrapIv c (kwpIv key.length) p

def kwpUnwrap (c : Crypto.Cipher) (w : List Byte) : Option (List Byte) :=
  let (a, p) := if w.length = 16 then (let b := c.dec w; (b.take 8, b.drop 8)) else Crypto.keyUnwrapIv c w
  let n := ofBe (a.drop 4)
  if a.take 4 = [0xA6, 0x59, 0x59, 0xA6] ∧ n ≤ p.length ∧ p.length < n + 8 ∧ (p.drop n).all (· == 0) then some (p.take n)
  else none

end KeyBlock
end Sys2Proof.Machine
end

