-- ==== Sys2Proof/Machine/PublicKey.lean ====
section
/-! DEFINITION. The public-key schemes of the rakes (R284, R285) that the model writes out from their standards (log entry 145): RSA
with PKCS #1 v1.5, PSS and OAEP (RFC 8017), ECDSA and ECDH on P-256, P-384 and P-521 (FIPS 186-5, SP 800-186), Ed25519 and Ed448
(RFC 8032) and X448 (RFC 7748); the nonces of R303; the checks of R305; and the modulus check of ML-KEM (FIPS 203). -/

namespace Sys2Proof.Standard

/-! ### Modular arithmetic -/

/-- b^e mod m, from the most significant bit of e. -/
def powMod (b e m : Nat) : Nat :=
  (List.range (e.log2 + 1)).foldl
    (fun r i => let q := r * r % m; if e.testBit (e.log2 - i) then q * (b % m) % m else q) (1 % m)

/-- The inverse modulo a prime. -/
def invPrime (x p : Nat) : Nat := powMod x (p - 2) p

/-- a − b modulo m. -/
def subMod (m a b : Nat) : Nat := (a + (m - b % m)) % m

/-- One step of the extended Euclidean algorithm on remainders and the coefficients of `a`. -/
def euclid (s : (Nat × Int) × (Nat × Int)) : (Nat × Int) × (Nat × Int) :=
  if s.2.1 = 0 then s else (s.2, (s.1.1 % s.2.1, s.1.2 - (s.1.1 / s.2.1 : Nat) * s.2.2))

/-- The inverse of `a` modulo `m`, where it has one. -/
def invMod (a m : Nat) : Nat :=
  (((List.range (2 * (m.log2 + 2))).foldl (fun s _ => euclid s) ((a % m, 1), (m, 0))).1.2 % (m : Int)).toNat

/-- The integer of the leftmost `bits` bits of octets. -/
def leftmost (bits : Nat) (bs : List Byte) : Nat := ofBe bs >>> (8 * bs.length - bits)

/-! ### Prime-order curves -/

/-- y² = x³ − 3x + b modulo p, with base point (gx, gy) of order n; `len` octets hold a coordinate, `bits` the order. -/
structure Curve where
  p    : Nat
  b    : Nat
  n    : Nat
  gx   : Nat
  gy   : Nat
  len  : Nat
  bits : Nat

def p256 : Curve :=
  { p := 2 ^ 256 - 2 ^ 224 + 2 ^ 192 + 2 ^ 96 - 1, len := 32, bits := 256
    b := 0x5AC635D8AA3A93E7B3EBBD55769886BC651D06B0CC53B0F63BCE3C3E27D2604B
    n := 0xFFFFFFFF00000000FFFFFFFFFFFFFFFFBCE6FAADA7179E84F3B9CAC2FC632551
    gx := 0x6B17D1F2E12C4247F8BCE6E563A440F277037D812DEB33A0F4A13945D898C296
    gy := 0x4FE342E2FE1A7F9B8EE7EB4A7C0F9E162BCE33576B315ECECBB6406837BF51F5 }

def p384 : Curve :=
  { p := 2 ^ 384 - 2 ^ 128 - 2 ^ 96 + 2 ^ 32 - 1, len := 48, bits := 384
    b := 0xB3312FA7E23EE7E4988E056BE3F82D19181D9C6EFE8141120314088F5013875AC656398D8A2ED19D2A85C8EDD3EC2AEF
    n := 0xFFFFFFFFFFFFFFFFFFFFFFFFFFFFFFFFFFFFFFFFFFFFFFFFC7634D81F4372DDF581A0DB248B0A77AECEC196ACCC52973
    gx := 0xAA87CA22BE8B05378EB1C71EF320AD746E1D3B628BA79B9859F741E082542A385502F25DBF55296C3A545E3872760AB7
    gy := 0x3617DE4A96262C6F5D9E98BF9292DC29F8F41DBD289A147CE9DA3113B5F0B8C00A60B1CE1D7E819D7A431D7C90EA0E5F }

def p521 : Curve :=
  { p := 2 ^ 521 - 1, len := 66, bits := 521
    b := 0x51953EB9618E1C9A1F929A21A0B68540EEA2DA725B99B315F3B8B489918EF109E156193951EC7E937B1652C0BD3BB1BF073573DF883D2C34F1EF451FD46B503F00
    n := 0x1FFFFFFFFFFFFFFFFFFFFFFFFFFFFFFFFFFFFFFFFFFFFFFFFFFFFFFFFFFFFFFFFFA51868783BF2F966B7FCC0148F709A5D03BB5C9B8899C47AEBB6FB71E91386409
    gx := 0xC6858E06B70404E9CD9E3ECB662395B4429C648139053FB521F828AF606B4D3DBAA14B5E77EFE75928FE1DC127A2FFA8DE3348B3C1856A429BF97E7E31C2E5BD66
    gy := 0x11839296A789A3BC0045C8A5FB42C7D1BD998F54449579B446817AFBD17273E662C97EE72995EF42640C550B9013FAD0761353C7086A272C24088BE94769FD16650 }

/-- The curve of an ALG code of R322. -/
def curveOf (alg : Nat) : Curve := if alg = 0x30 then p256 else if alg = 0x31 then p384 else p521

/-- A point in Jacobian coordinates; Z = 0 is the point at infinity. -/
abbrev Point := Nat × Nat × Nat

def double (c : Curve) (P : Point) : Point :=
  let p := c.p
  let (x, y, z) := P
  let yy := y * y % p
  let s := 4 * x * yy % p
  let zz := z * z % p
  let m := 3 * (subMod p x zz) * (x + zz) % p
  let x' := subMod p (m * m) (2 * s)
  (x', subMod p (m * subMod p s x') (8 * (yy * yy % p)), 2 * y * z % p)

def add (c : Curve) (P Q : Point) : Point :=
  let p := c.p
  let (x1, y1, z1) := P
  let (x2, y2, z2) := Q
  if z1 = 0 then Q
  else if z2 = 0 then P
  else
    let a := z1 * z1 % p
    let b := z2 * z2 % p
    let u1 := x1 * b % p
    let u2 := x2 * a % p
    let s1 := y1 * (z2 * b % p) % p
    let s2 := y2 * (z1 * a % p) % p
    if u1 = u2 then (if s1 = s2 then double c P else (1, 1, 0))
    else
      let h := subMod p u2 u1
      let r := subMod p s2 s1
      let hh := h * h % p
      let hhh := h * hh % p
      let v := u1 * hh % p
      let x := subMod p (r * r) (hhh + 2 * v)
      (x, subMod p (r * subMod p v x) (s1 * hhh), h * (z1 * z2 % p) % p)

/-- k times a point. -/
def mul (c : Curve) (k : Nat) (P : Point) : Point :=
  (List.range (k.log2 + 1)).foldl
    (fun R i => let D := double c R; if k.testBit (k.log2 - i) then add c D P else D) (1, 1, 0)

/-- The affine coordinates of a point, unless it is the point at infinity. -/
def affine (c : Curve) (P : Point) : Option (Nat × Nat) :=
  if P.2.2 = 0 then none
  else
    let i := invPrime P.2.2 c.p
    let ii := i * i % c.p
    some (P.1 * ii % c.p, P.2.1 * (i * ii % c.p) % c.p)

/-- The base point. -/
def base (c : Curve) : Point := (c.gx, c.gy, 1)

/-- The point that x ‖ y names, where it lies on the curve. -/
def decodeXY (c : Curve) (bs : List Byte) : Option Point :=
  let x := ofBe (bs.take c.len)
  let y := ofBe (bs.drop c.len)
  if bs.length = 2 * c.len ∧ x < c.p ∧ y < c.p ∧ y * y % c.p = (x * x * x + (3 * (c.p - x) + c.b)) % c.p then some (x, y, 1)
  else none

/-- A point in uncompressed SEC 1 form. -/
def decodePoint (c : Curve) (bs : List Byte) : Option Point := if bs.headD 0 = 4 then decodeXY c (bs.drop 1) else none

/-- x ‖ y of a point. -/
def encodeXY (c : Curve) (P : Point) : List Byte :=
  match affine c P with
  | some (x, y) => beBytes c.len x ++ beBytes c.len y
  | none => List.replicate (2 * c.len) 0

/-- The public key of a scalar, x ‖ y. -/
def ecPublic (c : Curve) (d : Nat) : List Byte := encodeXY c (mul c d (base c))

/-- The shared secret: the x coordinate (SP 800-56A). -/
def ecdh (c : Curve) (d : Nat) (P : Point) : List Byte := (encodeXY c (mul c d P)).take c.len

/-- The nonce of R303. -/
def ecNonce (c : Curve) (key dig rnd : List Byte) : Nat :=
  let bits := c.bits + 128
  let h := shake 9 ((bits + 7) / 8) ("HX6400-ECDSA-K".toList.map (fun x => BitVec.ofNat 8 x.toNat) ++ key ++ dig ++ rnd)
  1 + leftmost bits h % (c.n - 1)

/-- The leftmost bits of a digest, as FIPS 186-5 uses them. -/
def digestInt (c : Curve) (dig : List Byte) : Nat := if c.bits < 8 * dig.length then leftmost c.bits dig else ofBe dig

/-- An ECDSA signature, r then s. -/
def ecSign (c : Curve) (d : Nat) (dig rnd : List Byte) : List Byte :=
  let k := ecNonce c (beBytes c.len d) dig rnd
  let r := ofBe ((encodeXY c (mul c k (base c))).take c.len) % c.n
  beBytes c.len r ++ beBytes c.len (invPrime k c.n * ((digestInt c dig + r * d) % c.n) % c.n)

/-- r and s are from 1 to n − 1. -/
def ecSigOk (c : Curve) (sig : List Byte) : Bool :=
  let r := ofBe (sig.take c.len)
  let s := ofBe (sig.drop c.len)
  sig.length == 2 * c.len && decide (0 < r ∧ r < c.n ∧ 0 < s ∧ s < c.n)

def ecVerify (c : Curve) (Q : Point) (dig sig : List Byte) : Bool :=
  let r := ofBe (sig.take c.len)
  let w := invPrime (ofBe (sig.drop c.len)) c.n
  let P := add c (mul c (digestInt c dig * w % c.n) (base c)) (mul c (r * w % c.n) Q)
  ecSigOk c sig && match affine c P with | some (x, _) => x % c.n == r | none => false

/-- ECDSA P-384 with SHA-384 of a message, under a key of 97 octets. -/
def verifyP384 (key msg sig : List Byte) : Bool :=
  match decodePoint p384 key with
  | some Q => ecVerify p384 Q (hash 3 msg) sig
  | none => false

/-! ### Edwards curves -/

/-- ax² + y² = 1 + dx²y² modulo p, with base point of order l and octet length of an encoding. -/
structure Edwards where
  p   : Nat
  a   : Nat
  d   : Nat
  l   : Nat
  bx  : Nat
  bY  : Nat
  len : Nat

def ed25519 : Edwards :=
  { p := 2 ^ 255 - 19, a := 2 ^ 255 - 20, len := 32
    d := 0x52036CEE2B6FFE738CC740797779E89800700A4D4141D8AB75EB4DCA135978A3
    l := 2 ^ 252 + 27742317777372353535851937790883648493
    bx := 15112221349535400772501151409588531511454012693041857206046113283949847762202
    bY := 46316835694926478169428394003475163141307993866256225615783033603165251855960 }

def ed448 : Edwards :=
  { p := 2 ^ 448 - 2 ^ 224 - 1, a := 1, len := 57, d := 2 ^ 448 - 2 ^ 224 - 1 - 39081
    l := 2 ^ 446 - 0x8335DC163BB124B65129C96FDE933D8D723A70AADC873D6D54A7BB0D
    bx := 224580040295924300187604334099896036246789641632564134246125461686950415467406032909029192869357953282578032075146446173674602635247710
    bY := 298819210078481492676017930443930673437544040154080242095928241372331506189835876003536878655418784733982303233503462500531545062832660 }

def edOf (alg : Nat) : Edwards := if alg = 0x38 then ed25519 else ed448

/-- The complete addition in projective coordinates. -/
def edAdd (c : Edwards) (P Q : Point) : Point :=
  let p := c.p
  let (x1, y1, z1) := P
  let (x2, y2, z2) := Q
  let a := z1 * z2 % p
  let b := a * a % p
  let cc := x1 * x2 % p
  let dd := y1 * y2 % p
  let e := c.d * (cc * dd % p) % p
  let f := subMod p b e
  let g := (b + e) % p
  (a * (f * subMod p ((x1 + y1) * (x2 + y2) % p) (cc + dd) % p) % p, a * (g * subMod p dd (c.a * cc) % p) % p, f * g % p)

def edMul (c : Edwards) (k : Nat) (P : Point) : Point :=
  (List.range (k.log2 + 1)).foldl
    (fun R i => let D := edAdd c R R; if k.testBit (k.log2 - i) then edAdd c D P else D) (0, 1, 1)

def edBase (c : Edwards) : Point := (c.bx, c.bY, 1)

/-- y with the low bit of x in the last bit. -/
def edEncode (c : Edwards) (P : Point) : List Byte :=
  let i := invPrime P.2.2 c.p
  leBytes c.len (P.2.1 * i % c.p + 2 ^ (8 * c.len - 1) * (P.1 * i % c.p % 2))

/-- A square root modulo p, where there is one: p is 5 mod 8 or 3 mod 4. -/
def sqrtMod (p w : Nat) : Option Nat :=
  let r := if p % 4 = 3 then powMod w ((p + 1) / 4) p else powMod w ((p + 3) / 8) p
  let r' := r * powMod 2 ((p - 1) / 4) p % p
  if r * r % p = w % p then some r else if r' * r' % p = w % p then some r' else none

/-- The point that an encoding names (RFC 8032). -/
def edDecode (c : Edwards) (bs : List Byte) : Option Point :=
  let v := ofLe bs
  let y := v % 2 ^ (8 * c.len - 1)
  let odd := v / 2 ^ (8 * c.len - 1)
  if bs.length ≠ c.len ∨ c.p ≤ y then none
  else
    let yy := y * y % c.p
    match sqrtMod c.p (subMod c.p yy 1 * invPrime (subMod c.p (c.d * yy) c.a) c.p) with
    | none => none
    | some x => if x = 0 ∧ odd = 1 then none else some (if x % 2 = odd then x else c.p - x, y, 1)

/-- The hash of the scheme: SHA-512, or SHAKE256 after dom4. -/
def edHash (c : Edwards) (bs : List Byte) : List Byte :=
  if c.len = 32 then hash 4 bs
  else shake 9 114 ("SigEd448".toList.map (fun x => BitVec.ofNat 8 x.toNat) ++ [0, 0] ++ bs)

/-- The scalar and the prefix of a seed. -/
def edSecret (c : Edwards) (seed : List Byte) : Nat × List Byte :=
  let h := if c.len = 32 then hash 4 seed else shake 9 114 seed
  let v := ofLe (h.take c.len)
  (if c.len = 32 then v % 2 ^ 254 / 8 * 8 + 2 ^ 254 else v % 2 ^ 447 / 4 * 4 + 2 ^ 447, h.drop c.len)

def edPublic (c : Edwards) (seed : List Byte) : List Byte := edEncode c (edMul c (edSecret c seed).1 (edBase c))

/-- A signature, with 32 random octets between the prefix and the message (R303). -/
def edSign (c : Edwards) (seed rnd msg : List Byte) : List Byte :=
  let (s, pre) := edSecret c seed
  let r := ofLe (edHash c (pre ++ rnd ++ msg)) % c.l
  let R := edEncode c (edMul c r (edBase c))
  let k := ofLe (edHash c (R ++ edPublic c seed ++ msg)) % c.l
  R ++ leBytes c.len ((r + k * s) % c.l)

/-- S is below L, and R and A decode (R305). -/
def edSigOk (c : Edwards) (key sig : List Byte) : Bool :=
  sig.length == 2 * c.len && decide (ofLe (sig.drop c.len) < c.l) && (edDecode c (sig.take c.len)).isSome && (edDecode c key).isSome

/-- 8SB = 8R + 8kA, or 4 in place of 8 for Ed448. -/
def edVerify (c : Edwards) (key msg sig : List Byte) : Bool :=
  match edDecode c (sig.take c.len), edDecode c key with
  | some R, some A =>
    let k := ofLe (edHash c (sig.take c.len ++ key ++ msg)) % c.l
    let h := if c.len = 32 then 8 else 4
    edSigOk c key sig &&
      edEncode c (edMul c (h * ofLe (sig.drop c.len)) (edBase c)) == edEncode c (edMul c h (edAdd c R (edMul c k A)))
  | _, _ => false

/-! ### X448 -/

/-- One step of the ladder of X448. -/
def ladder448 (x1 : Nat) (b : Bool) (s : Nat × Nat × Nat × Nat) : Nat × Nat × Nat × Nat :=
  let m := ed448.p
  let (x2, z2, x3, z3) := if b then (s.2.2.1, s.2.2.2, s.1, s.2.1) else s
  let a := (x2 + z2) % m
  let c := subMod m x2 z2
  let aa := a * a % m
  let bb := c * c % m
  let e := subMod m aa bb
  let da := subMod m x3 z3 * a % m
  let cb := (x3 + z3) * c % m
  let u := subMod m da cb
  let r := (aa * bb % m, e * (aa + 39081 * e) % m, (da + cb) * (da + cb) % m, x1 * (u * u) % m)
  if b then (r.2.2.1, r.2.2.2, r.1, r.2.1) else r

/-- X448 of a scalar and a u-coordinate, 56 octets each. -/
def x448 (k u : List Byte) : List Byte :=
  let n := ofLe (k.take 56) % 2 ^ 447 / 4 * 4 + 2 ^ 447
  let x1 := ofLe (u.take 56) % ed448.p
  let s := (List.range 448).foldl (fun s i => ladder448 x1 (n.testBit (447 - i)) s) (1, 0, x1, 1)
  leBytes 56 (s.1 * invPrime s.2.1 ed448.p % ed448.p)

/-! ### RSA (RFC 8017) -/

/-- A private key in the layout of R335 for L limbs: e, p, q, dp, dq, qinv. -/
structure RsaKey where
  e    : Nat
  p    : Nat
  q    : Nat
  dp   : Nat
  dq   : Nat
  qinv : Nat

def rsaPrivate (limbs : Nat) (mat : List Byte) : RsaKey :=
  let w := 32 * ((limbs + 7) / 8)
  let part := fun (i : Nat) => ofBe ((mat.drop (32 + w * i)).take w)
  { e := ofBe (mat.take 32), p := part 0, q := part 1, dp := part 2, dq := part 3, qinv := part 4 }

/-- e and n of a public key: in its slots, n right-aligned. -/
def rsaPublic (mat : List Byte) : Nat × Nat := (ofBe (mat.take 32), ofBe (mat.drop 32))

/-- c^d modulo n by the two primes. -/
def rsaCrt (k : RsaKey) (c : Nat) : Nat :=
  let m1 := powMod c k.dp k.p
  let m2 := powMod c k.dq k.q
  m2 + k.q * (k.qinv * subMod k.p m1 m2 % k.p)

/-- The key is consistent: its exponents invert e modulo p − 1 and q − 1, and qinv inverts q modulo p. -/
def rsaConsistent (limbs : Nat) (mat : List Byte) : Bool :=
  let k := rsaPrivate limbs mat
  k.e % 2 == 1 && decide (3 ≤ k.e ∧ 3 ≤ k.p ∧ 3 ≤ k.q) && (k.p * k.q).log2 + 1 == 64 * limbs
    && k.e * k.dp % (k.p - 1) == 1 && k.e * k.dq % (k.q - 1) == 1 && k.q * k.qinv % k.p == 1

/-- The private chain and the public key, e then n, of two primes with e = 65,537 (R311). -/
def rsaPair (limbs p q : Nat) : List Byte × List Byte :=
  let w := 32 * ((limbs + 7) / 8)
  let e := 65537
  (beBytes 32 e ++ [p, q, invMod e (p - 1), invMod e (q - 1), invMod q p].flatMap (beBytes w)
    , beBytes 32 e ++ beBytes (32 * ((limbs + 3) / 4)) (p * q))

/-- The hash code and length of DIGEST (R288): 0 SHA-256, 1 SHA-384, else SHA-512. -/
def digestCode (d : Nat) : Nat × Nat := if d = 0 then (2, 32) else if d = 1 then (3, 48) else (4, 64)

def mgf1 (code : Nat) (seed : List Byte) (n : Nat) : List Byte :=
  ((List.range ((n + 31) / 32)).flatMap fun i => hash code (seed ++ beBytes 4 i)).take n

def xorBytes (a b : List Byte) : List Byte := List.zipWith (· ^^^ ·) a b

/-- The DigestInfo of a digest. -/
def digestInfo (d : Nat) (dig : List Byte) : List Byte :=
  let n : Byte := BitVec.ofNat 8 dig.length
  [0x30, n + 17, 0x30, 0x0D, 0x06, 0x09, 0x60, 0x86, 0x48, 0x01, 0x65, 0x03, 0x04, 0x02, BitVec.ofNat 8 (d + 1), 0x05, 0x00, 0x04, n]
    ++ dig

/-- EMSA-PKCS1-v1_5 of k octets. -/
def pkcs1 (k d : Nat) (dig : List Byte) : List Byte :=
  let t := digestInfo d dig
  [0, 1] ++ List.replicate (k - 3 - t.length) 0xFF ++ [0] ++ t

/-- The mask of the first octet of a PSS encoding of `bits` bits. -/
def pssTop (bits : Nat) : Byte := BitVec.ofNat 8 (2 ^ (8 - (8 * ((bits + 7) / 8) - bits)) - 1)

/-- EMSA-PSS of `bits` bits with a salt as long as the digest. -/
def pss (bits d : Nat) (dig salt : List Byte) : List Byte :=
  let (code, h) := digestCode d
  let n := (bits + 7) / 8
  let hh := hash code (List.replicate 8 0 ++ dig ++ salt)
  let db := List.replicate (n - 2 * h - 2) 0 ++ [1] ++ salt
  let m := xorBytes db (mgf1 code hh db.length)
  ((m.headD 0 &&& pssTop bits) :: m.drop 1) ++ hh ++ [0xBC]

/-- The salt that an encoding carries. -/
def pssSalt (bits d : Nat) (em : List Byte) : List Byte :=
  let (code, h) := digestCode d
  let n := (bits + 7) / 8
  let m := em.take (n - h - 1)
  let db := xorBytes m (mgf1 code ((em.drop (n - h - 1)).take h) m.length)
  db.drop (db.length - h)

/-- The modulus is long enough for the padding and the digest. -/
def rsaRoom (k bits pad d : Nat) : Bool :=
  let h := (digestCode d).2
  if pad = 1 then decide (2 * h + 2 ≤ (bits + 7) / 8) else decide (h + 30 ≤ k)

/-- The encoded message of a signature: PAD 1 is PSS. -/
def rsaEncode (k bits pad d : Nat) (dig salt : List Byte) : List Byte := if pad = 1 then pss bits d dig salt else pkcs1 k d dig

def rsaVerify (limbs pad d : Nat) (mat dig sig : List Byte) : Bool :=
  let (e, n) := rsaPublic mat
  let k := 8 * limbs
  let bits := n.log2
  let v := powMod (ofBe sig) e n
  let len := if pad = 1 then (bits + 7) / 8 else k
  let em := beBytes len v
  rsaRoom k bits pad d && decide (v < 256 ^ len) && em == rsaEncode k bits pad d dig (pssSalt bits d em)

/-- OAEP decoding with an empty label: the message, where the encoding is right. -/
def oaep (d : Nat) (em : List Byte) : Option (List Byte) :=
  let (code, h) := digestCode d
  let ms := (em.drop 1).take h
  let mdb := em.drop (1 + h)
  let db := xorBytes mdb (mgf1 code (xorBytes ms (mgf1 code mdb h)) mdb.length)
  let rest := (db.drop h).dropWhile (· == 0)
  if em.headD 1 = 0 ∧ 2 * h + 2 ≤ em.length ∧ db.take h = hash code [] ∧ rest.headD 0 = 1 then some (rest.drop 1) else none

/-! ### ML-KEM -/

/-- The modulus check of FIPS 203 on an encapsulation key: every coefficient of 12 bits is below q. -/
def kemModulusOk (ek : List Byte) : Bool :=
  (List.range ((ek.length - 32) / 3)).all fun i =>
    let v := ofLe ((ek.drop (3 * i)).take 3)
    decide (v % 4096 < 3329 ∧ v / 4096 < 3329)

end Sys2Proof.Standard
end

