-- ==== Sys2Proof/Machine/Erase.lean ====
section
/-! DEFINITION. What an alarm's response, a trip or a retirement erases: threads and their harvests (R130, R164, R262),
pans and their streams (R277 to R279), rakes and grainers with their queues (R295, R313, R314), the ceremony session (R473,
R474), debug grants (R668). -/

namespace Sys2Proof.Machine
namespace Part

/-- A thread's state set to its start values (R130, R262). -/
def clearThread (k : Nat) (p : Part) : Part := p.modSeq fun s => { s with threads := s.threads.set {} k {} }

/-- Engine `e`. -/
def eng (p : Part) (e : Nat) : Engine := p.rke.engines.get {} e

def modEng (e : Nat) (g : Engine → Engine) (p : Part) : Part :=
  p.modRke fun r => { r with engines := r.engines.upd {} e g }

/-- Everything an engine holds, oldest first: running, parked, queued. -/
def Engine.held (e : Engine) : List EngOp :=
  (e.cur.map (·.op)).toList ++ (e.parked.map (·.op)).toList ++ e.queue

/-- The engines of a class. -/
def enginesOf (grainer : Bool) : List Nat := if grainer then (List.range 8).map (48 + ·) else List.range 48

/-- An engine may receive work: powered, not retired (R111, R314). -/
def engineUp (p : Part) (e : Nat) : Bool := p.powered (16 + e) && !(p.eng e).retired

/-- Operations an engine holds. -/
def depthOf (p : Part) (e : Nat) : Nat := (Engine.held (p.eng e)).length

/-- The engine that an ENGX goes to (R127): the shallowest queue, lowest index first, among those that hold fewer than
`depth` queued operations. -/
def pickEngine (p : Part) (grainer : Bool) (depth : Nat) : Option Nat :=
  ((enginesOf grainer).filter fun e => p.engineUp e && decide ((p.eng e).queue.length < depth)).foldl
    (fun b e =>
      match b with
      | none => some e
      | some a => if p.depthOf e < p.depthOf a then some e else some a)
    none

/-- The key under which the DSP block keeps a unit's set (R121): sequencers 0 to 15, engines from 16, pans from 72, lanes from 88. -/
def engKey (e : Nat) : Nat := 16 + e
def panKey' (n : Nat) : Nat := 72 + n
def laneKey (l : Nat) : Nat := 88 + l

/-- The DSP set under which a lane or unit runs. -/
def dspOf (p : Part) (key : Nat) : DspCfg := (p.dsp.late.get none key).getD p.dsp.st.eff

/-- The boundary of a lane or unit: the accepted set governs it from here on (R121). -/
def dspNow (key : Nat) (p : Part) : Part := p.modDsp fun d => { d with late := d.late.set none key none }

/-- The weight of a class under a set (R113, DSP_CLASS_WEIGHT). -/
def classWeight (c : DspCfg) (cls : Nat) : Nat :=
  match cls with
  | 1 => c.wStandard.toNat | 2 => c.wBulk.toNat | _ => c.wBack.toNat

/-- The share weight of a function's tenant in effect. -/
def shareOf (p : Part) (fn : Nat) : Nat := (p.tnt.t.get {} fn).st.eff.weight.toNat

/-- An operation put at the end of a queue; it is the engine's boundary (R121). -/
def enqueue (e : Nat) (o : EngOp) (p : Part) : Part :=
  (p.dspNow (engKey e)).modEng e fun x => { x with queue := x.queue ++ [o] }

/-- An ENGX sent to an engine, or left waiting in its thread (R293). -/
def sendOp (o : EngOp) (p : Part) : Part :=
  match p.pickEngine (o.mode.toNat / 64 == 2) o.depth with
  | some e => p.enqueue e o
  | none => p.modRke fun r => { r with waiting := r.waiting ++ [o] }

/-- Waiting ENGX operations take the entries that have freed, oldest first. -/
def refill (p : Part) : Part :=
  (p.rke.waiting).foldl (fun p o => p.sendOp o) (p.modRke fun r => { r with waiting := [] })

/-- The operations of thread `k` when its harvest ends: those that no engine has started are dropped and counted, and the entries
they leave are taken; one that an engine runs or has parked goes on to its end, its result dropped (R130, R297). -/
def dropEngOps (k : Nat) (p : Part) : Part :=
  let mine : EngOp → Bool := fun o => match o.owner with | .thread j _ => j == k | _ => false
  let orphan : Running → Running := fun x => if mine x.op then { x with op := { x.op with owner := .gone } } else x
  (p.modRke fun r =>
    { r with waiting := r.waiting.filter fun o => !mine o
             engines := r.engines.mapV {} fun _ e =>
               { e with queue := e.queue.filter fun o => !mine o
                        ops := e.ops + BitVec.ofNat 32 (e.queue.filter mine).length
                        cur := e.cur.map orphan, parked := e.parked.map orphan } }).refill

/-- A harvest ends: its completion forms in its context, a harvest that has issued SWR passing the ledger step first (R152,
R647), and its thread is cleared. -/
def endHarvest (k : Nat) (status detail : Byte) (result : List Byte) (out : Word) (p : Part) : Part :=
  let t := p.seq.threads.get {} k
  if !t.busy then p
  else
    let p := p.when t.swr (ledger (t.swrSlots.flatMap p.slotItem) (some t.ctx) none)
    (((p.finish t.ctx status detail result out).dropEngOps k).clearThread k).modSeq fun s =>
      { s with units := s.units.upd {} (k / 32) fun u => { u with harvests := u.harvests + 1 } }

/-- The harvests of the threads `sel` picks end without result. -/
def endHarvests (sel : Nat → Bool) (status detail : Byte) (p : Part) : Part :=
  p.seq.threads.foldl
    (fun p t => if sel t.1 then p.endHarvest t.1 status detail [] 0 else p) p

/-- A pan clears its keys, chaining registers, masks and buffers, and its streams end (R277, R278). -/
def erasePan (n : Nat) (status detail : Byte) (p : Part) : Part :=
  let ss := (p.pan.pans.get {} n).streams
  let p := ss.foldl (fun p x => p.fail x.ctx status detail) p
  (p.modPan fun b =>
    { b with erased := true
             pans := b.pans.upd {} n fun x => { x with stall := true, maskCount := 0, mask := [], streams := [] } }).modSeq
    fun s =>
      { s with threads := s.threads.mapV {} fun k t => if k / 32 = n then { t with chain := none, panField := none } else t }

/-- Every pan erased. -/
def erasePans (status detail : Byte) (p : Part) : Part :=
  (List.range 16).foldl (fun p n => p.erasePan n status detail) p

/-! ### Rakes and grainers -/

/-- The ENGINE_LOST detail of an engine: 0x02 for a rake, 0x03 for a grainer (R100). -/
def lostDetail (e : Nat) : Byte := if e < 48 then 2 else 3

/-- An operation of an engine ends without result: its context, its harvest, or its secure job. -/
def engineFail (status detail : Byte) (o : EngOp) (p : Part) : Part :=
  match o.owner with
  | .ctx n => p.fail n status detail
  | .thread k _ => p.endHarvest k status detail [] 0
  | .gone => p
  | .job j =>
    p.modRke fun r =>
      { r with jobs := r.jobs.upd {} j fun x => if x.busy then { x with busy := false, done := true, result := status } else x }

/-- An engine erased (R313, R314): its working state and queue cleared, its operations ended and counted. -/
def eraseEngine (status detail : Byte) (e : Nat) (p : Part) : Part :=
  let ops := Engine.held (p.eng e)
  let p := p.modEng e fun x =>
    { x with queue := [], cur := none, parked := none, ops := x.ops + BitVec.ofNat 32 ops.length }
  let p := (ops.foldl (fun p o => p.engineFail status detail o) p).refill
  p.modRke fun r =>
    if e < 48 then { r with rke := { r.rke with erased := true } } else { r with grn := { r.grn with erased := true } }

/-- Every rake and grainer erased on an alarm (R313). Nothing waits for them any longer: every harvest ends with the alarm (R164). -/
def eraseEngines (quar : Bool) (p : Part) : Part :=
  (List.range 56).foldl
    (fun p e => p.eraseEngine (if quar then 0x51 else 0x30) (if quar then 0 else lostDetail e) e)
    (p.modRke fun r => { r with waiting := [] })

/-- The lowest-numbered rake and grainer not retired, which QUARANTINE keeps (R451). -/
def firstRake (p : Part) : Nat := ((List.range 48).find? fun e => !(p.eng e).retired).getD 48
def firstGrainer (p : Part) : Nat := ((List.range 8).find? fun g => !(p.eng (48 + g)).retired).getD 8

/-- A ceremony session that ends without a successful EXECUTE is undone: its landing slot destroyed, HOLD cleared, its
approvals and components zeroed; the mode returns to SERVICE unless QUARANTINE stands (R473). The holder of a pair sends the
slots' entry (R541). -/
def undoSession (p : Part) : Part :=
  let s := p.sys.session
  if !s.active then p
  else
    let p :=
      match s.slot with
      | some i => (p.slotDestroy i).modTnt fun t => { t with counted := t.counted.upd 0 s.fn (· - 1) }
      | none => p
    let p := p.when (s.cls == 1) (setHold s.key false)
    let is := s.slot.toList ++ if s.cls = 1 then p.slc.chainOf (hIndex s.key) else []
    let p := p.when (p.mir.gate == 2 && is != []) (ledger (is.flatMap p.slotItem) none none)
    p.modSys fun y =>
      { y with session := {}, cerActive := false, cerClass := 0, cerTarget := 0, cerCount := 0, cerFails := 0
               cerQuorum := false, mode := if y.mode = .ceremony then .service else y.mode }

/-- The grant in effect ends, for any reason of R668: halted cores resume, and a grant holding SCRAP in ANALYSIS sets
SCRAP_DUE (R672). -/
def endGrant (cause : Word) (p : Part) : Part :=
  if p.dbg.granted = 0 then p
  else
    let scrap := bitAt p.dbg.granted 9 && p.life == .analysis
    (((p.modDbg fun d => { d with granted := 0, remain := 0 }).modCores fun cs =>
        cs.mapV {} fun _ c => if c.run = .halted then { c with run := .running } else c).modBat fun b =>
      { b with scrapDue := b.scrapDue || scrap }).post 0xF801#16 cause 0

end Part
end Sys2Proof.Machine
end

