-- ==== Sys2Proof/Machine/Crust.lean ====
section
/-! DEFINITION. The Salt Crust (17_salt_crust.md): alarms, the response ladder, double decisions, QUARANTINE entry (R451),
and the commands of its sensors and of the battery domain. -/

namespace Sys2Proof.Machine

/-- The index of an alarm (R562). -/
def Alarm.index : Alarm → Nat
  | .meshBreak => 0 | .light => 1 | .voltGlitch => 2 | .voltRange => 3 | .tempLow => 4 | .tempHigh => 5 | .clkGlitch => 6
  | .clkDrift => 7 | .clkSource => 8 | .resetGlitch => 9 | .decisionSplit => 10 | .sealedColour => 11 | .coreLockup => 12
  | .entDegraded => 13 | .entExhausted => 14 | .entKat => 15 | .meshTransient => 16 | .batLow => 17 | .suspendStorm => 18

/-- An alarm raised: which, its sensor instance, and the measured value (R573). -/
structure Raise where
  alarm : Alarm
  inst  : Nat := 0
  value : BitVec 16 := 0
  deriving DecidableEq, Repr

namespace Part

/-! ### Double decisions (R568) -/

/-- The r of a decision (R568): an octet of the MASK draw at hand, each draw serving eight decisions, or the value of the
counter of the fast internal oscillator, a free value (log entry 2), while no draw is at hand. -/
def drawR (p : Part) : Byte × Part :=
  match p.tmp.draw with
  | r :: l => (r, p.modTmp fun t => { t with draw := l })
  | [] =>
    match p.entDraw .mask 8 with
    | (some (r :: l), p) => (r, p.modTmp fun t => { t with draw := l })
    | (_, p) =>
      let (k, p) := p.draw
      (Config.freeByte k 0, p)

/-- A double decision's first evaluation has been taken: it is counted, its r noted, and its second evaluation due. -/
def openDecision (d : Decision) (p : Part) : Part :=
  let (r, p) := p.drawR
  p.modTmp fun t => { t with due := t.due ++ [d], decisions := t.decisions + 1, lastR := r }

/-! ### Responses (R571, R576) -/

/-- The Suspend actions: engines erase, harvests end, the Ladle cache is cleared, the expander is made stale, any ceremony
session is undone. In a Quarantine response operations end with DEVICE_QUARANTINED (R164, R277, R313). -/
def suspendActions (quar : Bool) (p : Part) : Part :=
  let st : Byte := if quar then 0x51 else 0x30
  let p := p.endHarvests (fun _ => true) st (if quar then 0 else 4)
  let p := p.erasePans st (if quar then 0 else 1)
  let p := p.eraseEngines quar
  let p := p.ladleClear.entStale
  p.undoSession

/-- The domains that QUARANTINE gates (R451 step 3): every pan and sequencer, and every rake and grainer except the
lowest-numbered of each not retired, `r` and `g`. -/
def quarGated (r g d : Nat) : Bool :=
  decide (d < 16) || (decide (16 ≤ d ∧ d < 64) && d != 16 + r) || (decide (64 ≤ d ∧ d < 72) && d != 64 + g)

/-- A domain gated now: off, with RUN_EN 0. -/
def gateNow (ds : List Nat) (p : Part) : Part :=
  p.modWpu fun w =>
    { w with doms := ds.foldl (fun t d => t.upd {} d fun m =>
      { m with en := { m.en with run := false }, state := .off }) w.doms }

/-- Entry to QUARANTINE from any mode from ASSAY on (R446, R451). Permissive decisions that await their second evaluation end without
their actions (R646). In WAKE only the erasures happen; the boot ROM then hands
off to the responder (R509). -/
def quarantine : Part → Part :=
  pairWatch (funcWatch fun p =>
  let p := p.suspendActions true
  let p := p.cellarKill.entZero
  let p := p.failAll 0x51 0
  let lc := p.tmp.due.any fun d => match d with | .lifeCycle _ _ => true | _ => false
  let p := p.when lc (modSys fun s => { s with lcBusy := false })
  let p := (p.modTmp fun t => { t with due := t.due.filter fun d => d == .zeroise }).modDbg fun d => { d with pendGrant := none }
  let p := p.dropPort
  if p.sys.mode = .wake then p
  else
    let p := p.modSys fun s => { s with mode := .quarantine, freezing := false }
    let p := p.modMir fun m => { m with driving := false, gate := if m.gate = 2 ∨ m.gate = 1 then 0 else m.gate }
    p.gateNow ((List.range 72).filter (quarGated p.firstRake p.firstGrainer)))

/-! ### Raising alarms (R572 to R574) -/

/-- The detail word of an alarm's record (R573). -/
def alarmDetail (p : Part) (a : Raise) : Word :=
  at' (BitVec.ofNat 5 a.alarm.index) 0 ||| at' (p.rank a.alarm.index) 5 ||| at' (BitVec.ofNat 8 a.inst) 8
    ||| at' a.value 16

/-- The order of R574: higher rank first, then lower index. -/
def alarmBefore (p : Part) (a b : Raise) : Bool :=
  let ra := p.rank a.alarm.index
  let rb := p.rank b.alarm.index
  decide (rb.toNat < ra.toNat) || (ra == rb && decide (a.alarm.index ≤ b.alarm.index))

/-- An alarm latched and recorded, its record folded into the evidence chain; a rank of Suspend or higher ends the debug
grant (R668). -/
def latchAlarm (a : Raise) (p : Part) : Part :=
  let i := a.alarm.index
  let p := p.modTmp fun t => { t with latched := t.latched ||| BitVec.ofNat 19 (2 ^ i) }
  let p := p.postRec { code := 0xD100#16 + BitVec.ofNat 16 i, sev := rankSev (p.rank i), detail := p.alarmDetail a }
  p.when (decide (2 ≤ (p.rank i).toNat)) (endGrant 2)

/-- The response of a rank starts (R571). A ninth Suspend response within 1 s makes a storm. -/
def respond (r : BitVec 3) (p : Part) : Part :=
  let p := p.when (decide (2 ≤ r.toNat)) (openDecision .zeroise)
  if r = 2 then
    (p.suspendActions false).modTmp fun t =>
      { t with suspends := (t.suspends.filter fun x => decide ((p.now - x).toNat < 65536)) ++ [p.now] }
  else if r = 3 ∨ r = 4 then
    let p := (p.modSys fun s => { s with quarAlarm := true }).quarantine
    p.when (r == 4) vaultClear
  else p

/-- The alarms latched in one cycle: records in order, then the response of the top rank when it passes the one applied,
then Throttle unless Quarantine stands (R574). -/
def raiseSet (new : List Raise) (p : Part) : Part :=
  if new = [] then p
  else
    let p := (new.mergeSort p.alarmBefore).foldl (fun p a => p.latchAlarm a) p
    let top := new.foldl (fun m a => if m.toNat < (p.rank a.alarm.index).toNat then p.rank a.alarm.index else m) 0
    let p :=
      if p.tmp.applied.toNat < top.toNat then (p.respond top).modTmp fun t => { t with applied := top } else p
    if new.any (fun a => p.rank a.alarm.index == 1) && decide (p.tmp.applied.toNat < 3) then
      p.modTmp fun t => { t with throttled := true }
    else p

/-- Alarms raised, and SUSPEND_STORM when the Suspend response among them was the ninth within 1 s (R572). -/
def raiseAll (new : List Raise) (p : Part) : Part :=
  let n := p.tmp.suspends
  let p := p.raiseSet new
  if p.tmp.suspends ≠ n ∧ 9 ≤ p.tmp.suspends.length then p.raiseSet [{ alarm := .suspendStorm }] else p

def raiseOne (a : Alarm) (inst : Nat) (value : BitVec 16) (p : Part) : Part :=
  p.raiseAll [{ alarm := a, inst := inst, value := value }]

/-- A sensor condition reported: it raises its alarm when it newly arises, and counts once while it persists (R707). -/
def condition (a : Alarm) (inst : Nat) (present : Bool) (value : BitVec 16) (p : Part) : Part :=
  let key := (a.index, inst)
  let had := p.tmp.conds.contains key
  if present && !had then
    (p.modTmp fun t => { t with conds := t.conds ++ [key] }).raiseOne a inst value
  else if !present then p.modTmp fun t => { t with conds := t.conds.filter (· != key) }
  else p

/-- TMP_COND. -/
def condWord (p : Part) : BitVec 19 := p.tmp.conds.foldl (fun w c => w ||| BitVec.ofNat 19 (2 ^ c.1)) 0

/-! ### The mesh (R562, R564, R565, R707) -/

/-- One net at one step: its history after the step, and the alarms it raises. -/
def netStep (step i : Nat) (mis : Bool) (h : NetHist) : NetHist × List Raise :=
  let recent := (if mis then [step] else []) ++ h.recent.filter fun x => decide (step < x + 3125)
  if mis then
    if h.broken then ({ h with recent := recent }, [])
    else if h.recent.contains (step - 1) && decide (0 < step) || decide (3 ≤ recent.length) then
      ({ lone := false, broken := true, recent := recent }, [{ alarm := .meshBreak, inst := i }])
    else ({ h with lone := true, recent := recent }, [])
  else
    ({ lone := false, broken := false, recent := recent }, if h.lone then [{ alarm := .meshTransient, inst := i }] else [])

/-- MESH_STEP: all 64 nets driven and compared; `mis` marks the nets that mismatch. -/
def meshStep (mis : BitVec 64) (p : Part) : Part :=
  let step := p.tmp.meshStep + 1
  let outs := (List.range 64).map fun i => (i, netStep step i (bitAt mis i) (p.tmp.nets.get {} i))
  let nets := outs.foldl (fun t o => t.set {} o.1 o.2.1) p.tmp.nets
  let broken := (outs.filter fun o => o.2.1.broken).map fun o => (0, o.1)
  let p := p.modTmp fun t =>
    { t with meshStep := step, nets := nets, meshFail := t.meshFail ||| mis
             conds := (t.conds.filter fun c => c.1 != 0) ++ broken }
  p.raiseAll (outs.flatMap fun o => o.2.2)

/-- MESH_RESEED: after READY a new seed is drawn with class MASK (R565). -/
def meshReseed (p : Part) : Part :=
  match p.entDraw .mask 8 with
  | (some bs, p) => p.modTmp fun t => { t with meshSeed := BitVec.ofNat 64 (ofBe bs) }
  | (none, p) => p

/-! ### Sensors (R561, R562, R567) -/

/-- The values that the VDD_CORE window and glitch band cover, in mV: the command, or with none under way the last one that succeeded
(R628), and those before it whose change is not 50 µs past (R566). -/
def coreCovered (p : Part) : List Nat :=
  let w := p.wpu
  (if w.avsPending then w.command else w.avsGood).toNat :: w.covered.map fun c => c.1.toNat

/-- The lowest and highest value, in mV, of a supply's static window (R566): 0 VDD_CORE, 1 VDD_SRAM, 2 and 3 VDD_PHY, 4 VDD_IO. -/
def staticWindow (p : Part) (supply : Nat) : Nat × Nat :=
  let c := p.coreCovered
  match supply with
  | 0 => (max 500 (c.foldl min 1023 - 100), min 900 (c.foldl max 0 + 100))
  | 1 => (680, 830)
  | 2 => (810, 990)
  | 3 => (1080, 1320)
  | _ => (1620, 1980)

/-- The lowest and highest value of a supply's glitch band: the half-width of R567 about the centre of R566. -/
def glitchBand (p : Part) (supply : Nat) : Nat × Nat :=
  let c := p.coreCovered
  let h := p.tmp.vgl.toNat
  match supply with
  | 0 => (c.foldl min 1023 - h, c.foldl max 0 + h)
  | 1 => (750 - h, 750 + h)
  | 2 => (900 - h, 900 + h)
  | 3 => (1200 - h, 1200 + h)
  | _ => (1800 - h, 1800 + h)

/-- A supply at `mv` is outside its static window, or its glitch band. -/
def supplyOutside (p : Part) (supply : Nat) (static : Bool) (mv : BitVec 16) : Bool :=
  let w := if static then p.staticWindow supply else p.glitchBand supply
  decide (mv.toNat < w.1 ∨ w.2 < mv.toNat)

/-- What a supply is read at: outside its window or band its alarm rises, where it has stood outside as `long` as R562 says (2 ns for
the band, 1 µs for the window), but not while RESET_N is low (R685). -/
def supplyExcursion (supply : Nat) (static long : Bool) (mv : BitVec 16) (p : Part) : Part :=
  let outside := p.supplyOutside supply static mv
  if outside && (p.sys.resetLow || !long) then p
  else p.condition (if static then .voltRange else .voltGlitch) supply outside mv

/-- A signed 12-bit temperature in quarters of a °C. -/
def quarter (t : BitVec 12) : Int := t.toInt

/-- One crust sensor's reading (every 100 µs): below TEMP_LOW or above TEMP_HIGH for 1 ms, ten readings. -/
def tempSample (k : Nat) (t : BitVec 12) (p : Part) : Part :=
  let lo := decide (quarter t < 4 * p.tmp.crust.tempLow.toInt)
  let hi := decide (quarter t > 4 * p.tmp.crust.tempHigh.toInt)
  let run := fun (b : Bool) (n : Nat) => if b then min 10 (n + 1) else 0
  let p := p.modTmp fun x =>
    { x with temps := x.temps.set 0 k t
             tempRuns := (x.tempRuns.upd 0 k (run lo)).upd 0 (k + 4) (run hi) }
  let p := p.condition .tempLow k (p.tmp.tempRuns.get 0 k == 10) (t.signExtend 16)
  p.condition .tempHigh k (p.tmp.tempRuns.get 0 (k + 4) == 10) (t.signExtend 16)

/-- CRUST_TEMP_SAMPLE: the four sensors. -/
def tempSamples (t0 t1 t2 t3 : BitVec 12) (p : Part) : Part :=
  (((p.tempSample 0 t0).tempSample 1 t1).tempSample 2 t2).tempSample 3 t3

/-- LIGHT_SAMPLE: a sensor above its threshold. -/
def lightSample (sensor : Nat) (count : Byte) (p : Part) : Part :=
  p.condition .light sensor (decide (p.tmp.light.toNat < count.toNat)) (count.setWidth 16)

/-- CLOCK_FAULT: a clock's short cycle or drift, present or gone. -/
def clockFault (clock : Nat) (drift present : Bool) (p : Part) : Part :=
  p.condition (if drift then .clkDrift else .clkGlitch) clock present 0

/-- VBAT_SAMPLE: the cell under main power. -/
def vbatSample (mv : BitVec 16) (p : Part) : Part := p.condition .batLow 0 (decide (mv.toNat < 2500)) mv

/-- A threshold moved towards its target by at most one (R567). -/
def toward (v target : Int) : Int := if v < target then v + 1 else if target < v then v - 1 else v

/-- The median of the four sensors: the mean of the two middle readings (DESIGN CHOICE, log entry 12). -/
def medianTemp (p : Part) : Int :=
  let l := ((List.range 4).map fun k => quarter (p.tmp.temps.get 0 k)).mergeSort (· ≤ ·)
  (l.getD 1 0 + l.getD 2 0) / 2

/-- The bounds of R567 applied. -/
def clampInt (v lo hi : Int) : Int := max lo (min v hi)

/-- THRESHOLD_DRIFT (R567). -/
def thresholdDrift (p : Part) : Part :=
  let d := p.medianTemp - 100
  let c := p.tmp.crust
  let lt := clampInt (Config.lightAt25 + Config.lightSlope * d / 1000) c.lightMin.toNat c.lightMax.toNat
  let gt := clampInt (Config.glitchAt25 + Config.glitchSlope * d / 1000) c.vglMin.toNat c.vglMax.toNat
  p.modTmp fun t =>
    { t with light := BitVec.ofInt 8 (toward t.light.toNat lt), vgl := BitVec.ofInt 8 (toward t.vgl.toNat gt) }

/-! ### Clearing and release (R575) -/

/-- ALARM_CLEAR: latches cleared where the condition is gone; with the last, the applied rank falls. -/
def alarmClear (mask : BitVec 19) (p : Part) : Part :=
  p.modTmp fun t =>
    let l := t.latched &&& ~~~ (mask &&& ~~~ p.condWord)
    { t with latched := l, applied := if l = 0 then 0 else t.applied }

/-- THROTTLE_RELEASE: ignored while an alarm of rank Throttle is latched. -/
def throttleRelease (p : Part) : Part :=
  if (List.range 19).any fun i => bitAt p.tmp.latched i && p.rank i == 1 then p
  else p.modTmp fun t => { t with throttled := false }

/-! ### The battery domain (R577 to R580) -/

/-- BACKUP_MESH_CHECK on the cell: a mismatching net, a low temperature or a low cell is an alarm of R579, unless its latch
stands. -/
def backupCheck (mis : BitVec 64) (cold low : Bool) (p : Part) : Part :=
  let b := p.bat
  if !b.onCell || b.backupLatch || (mis == 0 && !cold && !low) then p
  else
    let net := ((List.range 64).find? fun i => bitAt mis i).getD 0
    let detail := bit' (mis != 0) 0 ||| bit' cold 1 ||| bit' low 2 ||| at' (BitVec.ofNat 6 net) 8
    (p.vaultClear.blogWrite { code := 0xD1F1#16, sev := 3, detail := detail }).modBat fun b =>
      { b with backupLatch := true, causeMesh := mis != 0, causeTemp := cold, causeVolt := low, causeNet := BitVec.ofNat 6 net }

/-- The ASCII octets of a string. -/
def ascii (s : String) : List Byte := s.toList.map fun c => BitVec.ofNat 8 c.toNat

/-- BAT_POR: the battery domain powers up from nothing (R580, R581); the pattern state it then has is a free value (log entry 193). -/
def batPor (p : Part) : Part :=
  let seed := Standard.hash 3 (ascii "HX6400 evidence" ++ leBytes 8 p.serial.toNat)
  let (k, p) := p.draw
  ({ p with bat := { onCell := p.bat.onCell, batPor := true, evidH := BitVec.ofNat 384 (ofBe seed),
                     pattern := Config.freeLong k } }).vaultClear.blogWrite
    { code := 0xD1FF#16, sev := 1 }

end Part

/-! ### The meanings -/

/-- MESH_STEP (R564). -/
def execMeshStep (mis : BitVec 64) (s : State) : Host.Outcome State Fault Refusal := onPart (Part.meshStep mis) s
/-- MESH_RESEED (R565). -/
def execMeshReseed (s : State) : Host.Outcome State Fault Refusal := onPart Part.meshReseed s
/-- SUPPLY_EXCURSION (R562, R566, R685). `static` names the static window, else the glitch band. -/
def execSupplyExcursion (supply : Fin 5) (static long : Bool) (mv : BitVec 16) (s : State) :
    Host.Outcome State Fault Refusal := onPart (Part.supplyExcursion supply.val static long mv) s
/-- CRUST_TEMP_SAMPLE (R562). -/
def execCrustTempSample (t0 t1 t2 t3 : BitVec 12) (s : State) : Host.Outcome State Fault Refusal :=
  onPart (Part.tempSamples t0 t1 t2 t3) s
/-- LIGHT_SAMPLE (R562). -/
def execLightSample (sensor : Fin 32) (count : Byte) (s : State) : Host.Outcome State Fault Refusal :=
  onPart (Part.lightSample sensor.val count) s
/-- CLOCK_FAULT (R562). -/
def execClockFault (clock : Fin 11) (drift present : Bool) (s : State) : Host.Outcome State Fault Refusal :=
  onPart (Part.clockFault clock.val drift present) s
/-- VBAT_SAMPLE (R562). -/
def execVbatSample (mv : BitVec 16) (s : State) : Host.Outcome State Fault Refusal := onPart (Part.vbatSample mv) s
/-- THRESHOLD_DRIFT (R567). -/
def execThresholdDrift (s : State) : Host.Outcome State Fault Refusal := onPart Part.thresholdDrift s
/-- ALARM_CLEAR (R575). -/
def execAlarmClear (mask : BitVec 19) (s : State) : Host.Outcome State Fault Refusal := onPart (Part.alarmClear mask) s
/-- THROTTLE_RELEASE (R575). -/
def execThrottleRelease (s : State) : Host.Outcome State Fault Refusal := onPart Part.throttleRelease s
/-- BACKUP_MESH_CHECK (R577, R579). -/
def execBackupMeshCheck (mis : BitVec 64) (cold low : Bool) (s : State) : Host.Outcome State Fault Refusal :=
  onPart (Part.backupCheck mis cold low) s
/-- BAT_POR (R580). -/
def execBatPor (s : State) : Host.Outcome State Fault Refusal := onPart Part.batPor s
/-- RESET_SENSE_DISAGREE (R562): RESET_GLITCH with the sense point as instance. -/
def execResetSenseDisagree (point : Fin 8) (s : State) : Host.Outcome State Fault Refusal :=
  onPart (Part.raiseOne .resetGlitch (point.val + 1) 0) s

end Sys2Proof.Machine
end

