-- ==== Sys2Proof/Machine/Access.lean ====
section
/-! DEFINITION. Checkpoints (12_worlds_and_checkpoints.md): the physical map of R23, secure registers (R420), colour checks
(R434), region checks (R438), fault records (R443), rule generations (R440), the region and tag commits, the interrupt
sources of R425, and the world mailbox, software interrupts and core control of the SYS block. -/

namespace Sys2Proof.Machine

/-- The regions of the physical map (R23). -/
inductive Space where
  | boot | cc | ob | es | csr | priv | none
  deriving DecidableEq, Repr

/-- The region of one address and the offset in it; the secure core's own map follows hand-off (R23, R27). -/
def spaceAt (handed secureCore : Bool) (a : Nat) : Space × Nat :=
  if 0x10000000 ≤ a ∧ a < 0x10100000 then (.cc, a - 0x10000000)
  else if 0x20000000 ≤ a ∧ a < 0x22000000 then (.ob, a - 0x20000000)
  else if 0x40000000 ≤ a ∧ a < 0x40400000 then (.es, a - 0x40000000)
  else if 0x100000000 ≤ a ∧ a < 0x101200000 then (.csr, a - 0x100000000)
  else if secureCore && handed && decide (a < 0x200000) then (.priv, a)
  else if secureCore && !handed && decide (0x08000000 ≤ a ∧ a < 0x08200000) then (.priv, a - 0x08000000)
  else if !handed && decide (a < 0x80000) then (.boot, a)
  else (.none, 0)

/-- The region that holds a whole range, or none. -/
def spaceOf (handed secureCore : Bool) (a n : Nat) : Space × Nat :=
  let (s, o) := spaceAt handed secureCore a
  if (spaceAt handed secureCore (a + n - 1)).1 = s then (s, o) else (.none, 0)

/-- `lo ≤ x < hi`. -/
abbrev within (x lo hi : Nat) : Bool := decide (lo ≤ x ∧ x < hi)

/-- The register at offset `o` (a multiple of 4) of CSR block `b` is a secure register (R420): some field carries SEC-.
`dma` is the WORLD bit of each DMA channel (R416). -/
def secureReg (dma : Nat → Bool) (b o : Nat) : Bool :=
  match b with
  | 0x0 => [0x104, 0x114, 0x140, 0x150, 0x164, 0x168, 0x1420, 0x1520, 0x1600, 0x1700].contains o
      || within o 0x120 0x140 || within o 0x1610 0x1630 || within o 0x1640 0x1660
      || (within o 0x4000 0x5000 && decide (o % 0x40 < 0x20) && dma ((o - 0x4000) / 0x40))
  | 0x1 => [0x0, 0x4, 0x20, 0x64].contains o || within o 0x50 0x60 || within o 0x2000 0x2014 || within o 0x2020 0x2034
      || within o 0x2040 0x2054
  | 0x4 => [0x80000, 0x80020, 0x80024].contains o
  | 0x5 => [0x80020, 0x80028].contains o
  | 0x6 => (within o 0xC0040 0xC0080 && o % 16 != 12) || (o % 0x4000 == 0 && decide (o < 0xC0000))
  | 0x7 => (within o 0x80040 0x80080 && o % 16 != 12) || (o % 0x8000 == 0 && decide (o < 0x40000))
  | 0x8 => within o 0x20 0x30 || (within o 0x100 0x144 && o != 0x10C) || [0x200, 0x204].contains o
  | 0x9 => [0x4, 0x10, 0x40, 0x180, 0x184].contains o || within o 0x1C0 0x200
  | 0xA => [0x8, 0x20, 0x24, 0x30, 0x34, 0x200, 0x204].contains o || within o 0x140 0x164 || within o 0x300 0x400
      || (within o 0x10000 0x10C00 && decide (o % 16 < 12) && !(decide (o < 0x10800) && decide (0x100 ≤ o % 0x200)))
  | 0xC => (decide (o < 0x10040) && within (o % 0x40) 0x04 0x1C) || [0x20000, 0x20008].contains o
  | 0xD => within o 0x0 0x18 || within o 0x20 0x38 || [0x40, 0x44, 0x50, 0x54, 0x58, 0x60].contains o || within o 0x80 0xC8
  | 0xE => [0x0, 0x4, 0x20, 0x24, 0x30, 0x60, 0x64, 0x70, 0x78].contains o || within o 0x10 0x1C || within o 0x40 0x50
  | 0xF => [0x4, 0x10, 0x18, 0x300].contains o || within o 0x40 0x80 || within o 0x200 0x20C || within o 0x210 0x2F0
  | 0x10 => [0x0, 0x14].contains o || within o 0x40 0x74 || within o 0x80 0x94 || within o 0xA0 0xD0 || within o 0x300 0x310
      || within o 0x400 0x500
  | 0x11 => [0x4, 0x10, 0x14, 0x18, 0x40, 0x90].contains o || within o 0x20 0x40 || within o 0x2000 0x4000
  | _ => false

/-- A checkpoint's refusal: its CAUSE (R443), the region for REGION_PERM, the granule's tag for a colour check, and the octets of
the access before the first refused one. -/
structure Denial where
  cause  : BitVec 3
  region : Option (BitVec 5) := none
  tag    : BitVec 12 := 0
  skip   : Nat := 0
  deriving DecidableEq, Repr

/-- KIND of a fault record (R443). -/
abbrev kRead : BitVec 3 := 0
abbrev kWrite : BitVec 3 := 1
abbrev kFetch : BitVec 3 := 2
abbrev kAtomic : BitVec 3 := 3
abbrev kMoveRead : BitVec 3 := 4
abbrev kMoveWrite : BitVec 3 := 5

/-- A region permits an access of a kind at a privilege (R438): an atomic access needs read and write. -/
def Region.permits (r : Region) (kind : BitVec 3) (priv : Bool) : Bool :=
  let b := fun (u : Nat) => bitAt r.perm (if priv then u + 3 else u)
  if kind = kRead then b 0 else if kind = kWrite then b 1 else if kind = kFetch then b 2 else b 0 && b 1

def Region.enabled (r : Region) : Bool := bitAt r.perm 8

/-- The default map of R437 for privileged code of master `m` (0 to 3 cores, 4 the secure core, 5 the debug port). -/
def defaultPermits (m : Nat) (s : Space) (kind : BitVec 3) : Bool :=
  if m < 4 then
    match s with
    | .cc => true
    | .es => kind == kRead
    | .csr => kind != kFetch
    | _ => false
  else if m = 4 then
    match s with
    | .boot => kind == kRead || kind == kFetch
    | .priv => true
    | .cc | .ob | .csr => kind != kFetch
    | .es => kind == kRead
    | .none => false
  else false

/-- The colours of R414. -/
def isColour (c : BitVec 12) : Bool := decide (c.toNat ≤ 0x400) || c == 0xFFE#12 || c == 0xFFF#12

namespace Acu

/-- The enabled region of a master that holds an address. -/
def regionOf (u : Acu) (m a : Nat) : Option Nat :=
  (List.range 32).find? fun r =>
    let g := u.eff.get {} (32 * m + r)
    g.enabled && decide (g.base.toNat ≤ a / 4096 ∧ a / 4096 ≤ g.limit.toNat)

/-- The tag of a granule in the op buffer, event store or CSR space. -/
def tagAt (u : Acu) (s : Space) (g : Nat) : BitVec 12 :=
  match s with
  | .ob => u.tagOb.get 0 g
  | .es => u.tagEs.get 0xFFF#12 g
  | _ => u.tagCsr.get 0xFFF#12 g

/-- The regions of a master after a commit of the staged regions `lo` to `hi − 1`. -/
def merged (u : Acu) (m lo hi : Nat) : Tab Region :=
  (List.range (hi - lo)).foldl (fun t k => t.set {} (32 * m + lo + k) (u.stage.get {} (32 * m + lo + k))) u.eff

/-- Two enabled regions share a granule. -/
def overlap (a b : Region) : Bool :=
  a.enabled && b.enabled && decide (a.base.toNat ≤ b.limit.toNat ∧ b.base.toNat ≤ a.limit.toNat)
    && decide (a.base.toNat ≤ a.limit.toNat ∧ b.base.toNat ≤ b.limit.toNat)

/-- The first overlapping pair of a master's regions. -/
def firstOverlap (t : Tab Region) (m : Nat) : Option (Nat × Nat) :=
  let rs := List.range 32
  (rs.flatMap fun a => (rs.filter fun b => decide (a < b)).map fun b => (a, b)).find? fun x =>
    overlap (t.get {} (32 * m + x.1)) (t.get {} (32 * m + x.2))

/-- A control-complex region grants no more than the default map grants privileged code wherever it covers (R436 CEILING). -/
def underCeiling (r : Region) : Bool :=
  let cov := fun (lo hi : Nat) => decide (lo ≤ r.base.toNat ∧ r.limit.toNat ≤ hi)
  let cc := cov 0x10000 0x100FF
  let es := cov 0x40000 0x403FF
  let csr := cov 0x100000 0x1011FF
  let b := fun i => bitAt r.perm i
  ((!b 0 && !b 3) || cc || es || csr) && ((!b 1 && !b 4) || cc || csr) && ((!b 2 && !b 5) || cc)

/-- The case of R436 that refuses a master's regions, with the overlapping pair. -/
def regionFault (t : Tab Region) (m : Nat) : Option (BitVec 3 × Nat × Nat) :=
  let rs := (List.range 32).map fun r => (r, t.get {} (32 * m + r))
  match firstOverlap t m with
  | some (a, b) => some (1, a, b)
  | none =>
    if rs.any fun x => x.2.enabled && decide (x.2.limit.toNat < x.2.base.toNat) then some (2, 0, 0)
    else if decide (m < 4) && rs.any fun x => decide (16 ≤ x.1) && x.2.enabled && !underCeiling x.2 then some (3, 0, 0)
    else none

end Acu

namespace Part

/-- The WORLD bit of a DMA channel. -/
def dmaSecure (p : Part) (c : Nat) : Bool := bitAt p.acu.dmaWorld c

/-- A normal-world access to these bytes of CSR space touches a secure register. -/
def touchesSecure (p : Part) (off n : Nat) : Bool :=
  let f := off / 4
  (List.range ((off + n - 1) / 4 - f + 1)).any fun k =>
    secureReg p.dmaSecure ((f + k) * 4 / 0x100000) ((f + k) * 4 % 0x100000)

/-- R438 for a privileged master: the refusal, or none when the access is admitted. -/
def regionCheck (p : Part) (m : Nat) (secure priv : Bool) (kind : BitVec 3) (a n : Nat) : Option Denial :=
  let (s, o) := spaceOf p.sys.handed (m == 4) a n
  if s = .csr && !secure && p.touchesSecure o n then some { cause := 5 }
  else
    let rf := p.acu.regionOf m a
    if rf ≠ p.acu.regionOf m (a + n - 1) then some { cause := 6 }
    else
      match rf with
      | some r => if (p.acu.eff.get {} (32 * m + r)).permits kind priv then none
                  else some { cause := 2, region := some (BitVec.ofNat 5 r) }
      | none =>
        if !priv then some { cause := 3 }
        else if defaultPermits m s kind then none
        else some { cause := 4 }

/-- R434 for a colour master on a region of the map: the first refused granule decides. -/
def colourCheck (p : Part) (s : Space) (off n : Nat) (colour : BitVec 12) (secure : Bool) : Option Denial :=
  let f := off / 4096
  match (List.range ((off + n - 1) / 4096 - f + 1)).find? fun k =>
      p.acu.tagAt s (f + k) == 0 || p.acu.tagAt s (f + k) != colour with
  | some k =>
    let t := p.acu.tagAt s (f + k)
    some { cause := if t = 0 then 1 else 0, tag := t, skip := (f + k) * 4096 - off }
  | none =>
    if s = .csr && !secure && p.touchesSecure off n then
      let g := off / 4
      let k := ((List.range ((off + n - 1) / 4 - g + 1)).find? fun k => p.touchesSecure ((g + k) * 4) 4).getD 0
      some { cause := 5, skip := (g + k) * 4 - off }
    else none

/-! ### Fault records (R443) -/

/-- A record put in a queue of 16, or counted as dropped. -/
def pushFault (r : FaultRec) (q : List FaultRec × Byte) : List FaultRec × Byte :=
  if q.1.length < 16 then (q.1 ++ [r], q.2) else (q.1, satInc q.2)

/-- Word 1 of a fault record. -/
def FaultRec.word1 (r : FaultRec) : Word :=
  at' (fld r.addr 32 8) 0 ||| at' r.master 8 ||| at' r.kind 16 ||| bit' r.priv 19 ||| bit' r.secure 20 ||| at' r.cause 21
    ||| at' r.thread 24

/-- The eight words of a fault record. -/
def FaultRec.words (r : FaultRec) : List Word :=
  [r.addr.setWidth 32, FaultRec.word1 r, at' r.colour 0 ||| at' r.tag 16,
   at' r.gen 0 ||| (match r.region with | some g => at' g 16 ||| bit' true 21 | none => 0), r.length, 0,
   at' r.frac 0 ||| at' (r.secs.setWidth 16) 16, fld r.secs 16 32]

/-- A refusal recorded: in both queues for a normal-world master, a lane or a thread, else in the secure queue; and in the
Tally Book. -/
def refuse (r : FaultRec) (both : Bool) (p : Part) : Part :=
  let r := { r with gen := p.acu.gen, secs := p.bat.secs.setWidth 48, frac := p.bat.frac }
  (p.modAcu fun u =>
    let (sq, so) := pushFault r (u.sfault, u.sOverflow)
    let (nq, no) := if both then pushFault r (u.nfault, u.nOverflow) else (u.nfault, u.nOverflow)
    { u with sfault := sq, sOverflow := so, nfault := nq, nOverflow := no }).post 0xA001#16 (FaultRec.word1 r)
    (r.addr.setWidth 32)

/-- A denial as a fault record. -/
def denialRec (d : Denial) (a n : Nat) (master : Byte) (kind : BitVec 3) (priv secure : Bool) (colour : BitVec 12) :
    FaultRec :=
  { addr := BitVec.ofNat 40 (a + d.skip), master := master, kind := kind, priv := priv, secure := secure, cause := d.cause
    colour := colour, tag := d.tag, region := d.region, length := BitVec.ofNat 32 n }

/-- POP of a queue. -/
def faultPop (w : World) (p : Part) : Part :=
  p.modAcu fun u =>
    match w with
    | .normal => { u with nfault := u.nfault.drop 1 }
    | .secure => { u with sfault := u.sfault.drop 1 }

/-! ### Rule generations and commits (R433, R435, R436, R440, R441) -/

/-- OLD_INFLIGHT: a transfer admitted under an older generation remains. -/
def acuSettle (p : Part) : Part :=
  p.modAcu fun u => { u with oldInflight := p.sys.dma.any fun c => c.2.busy && c.2.gen != u.gen }

/-- An accepted commit. -/
def acuAccept (g : Acu → Acu) (p : Part) : Part := (p.modAcu fun u => { g u with gen := u.gen + 1 }).acuSettle

/-- A refused commit. -/
def acuRefuse (cause master : BitVec 3) (a b : Nat) (p : Part) : Part :=
  p.modAcu fun u =>
    { u with cfgMismatch := true, misCause := cause, misMaster := master
             ovlA := if cause = 1 then BitVec.ofNat 5 a else u.ovlA, ovlB := if cause = 1 then BitVec.ofNat 5 b else u.ovlB }

/-- A commit of the staged regions `lo` to `hi − 1` of a master. -/
def regionCommit (m lo hi : Nat) (p : Part) : Part :=
  let t := p.acu.merged m lo hi
  match Acu.regionFault t m with
  | some (c, a, b) => p.acuRefuse c (BitVec.ofNat 3 m) a b
  | none => p.acuAccept fun u => { u with eff := t }

/-- ACU_SEC_COMMIT naming a master: regions 0 to 15 of a core, all regions of masters 4 and 5. -/
def secRegionCommit (m : Nat) (p : Part) : Part := p.regionCommit m 0 (if m < 4 then 16 else 32)

/-- The case of R441 that refuses a tag range. -/
def tagFault (p : Part) (space : BitVec 2) (first count : Nat) (colour : BitVec 12) : Option (BitVec 3) :=
  let size := if space = 0 then 8192 else if space = 1 then 1024 else 4608
  if !isColour colour || (space != 0 && decide (0 < colour.toNat ∧ colour.toNat ≤ 0x400)) then some 4
  else if space = 3 ∨ count = 0 ∨ size < first + count then some 5
  else if space = 0 && p.dsp.ctxs.any fun c => c.2.state != .free && within (c.1 / 8) first (first + count) then some 6
  else none

/-- A range of granules given a colour. -/
def setTags (space : BitVec 2) (first count : Nat) (colour : BitVec 12) (u : Acu) : Acu :=
  let put := fun (d : BitVec 12) (t : Tab (BitVec 12)) =>
    (List.range count).foldl (fun t k => t.set d (first + k) colour) t
  if space = 0 then { u with tagOb := put 0 u.tagOb }
  else if space = 1 then { u with tagEs := put 0xFFF u.tagEs }
  else { u with tagCsr := put 0xFFF u.tagCsr }

/-- A tag commit with given values (R441). -/
def retag (space : BitVec 2) (first count : Nat) (colour : BitVec 12) (p : Part) : Part :=
  match p.tagFault space first count colour with
  | some c => p.acuRefuse c 7 0 0
  | none => p.acuAccept (setTags space first count colour)

/-- ACU_SEC_COMMIT naming 7: the staged tag range. -/
def tagCommit (p : Part) : Part := p.retag p.acu.tagSpace p.acu.tagFirst.toNat p.acu.tagCount.toNat p.acu.tagColour

/-! ### Interrupt sources (R425, R426) -/

/-- The sources raised now. Source 14 is the end of an ENT known-answer test (log entry 20). -/
def irqRaw (p : Part) : BitVec 22 :=
  let s := p.sys
  let bits : List Bool :=
    [s.s2nTail != s.s2nHead, s.n2sTail != s.n2sHead, s.notice != 0, p.acu.nfault != [], p.acu.sfault != [],
     p.hif.statusChg || p.hif.wedgedChg,
     p.tnt.mbox.any fun m => m.1 != 0 && p.tnt.states.get 0 m.1 != 0 && (m.2.upFull || m.2.acked || m.2.flushed),
     p.evr.pending, p.slc.done, p.slc.newBad || p.slc.bankLost != 0, p.rke.jobs.any fun j => j.2.done,
     p.tmp.latched != 0, p.wpu.nevent != 0, p.wpu.sevent != 0, p.ent.katDone, p.mir.pairEvent, p.mir.statusEvent,
     p.tnt.adm.any fun a => a.2.busy, s.swiN, s.swiS, s.dma.any fun c => c.2.done && !p.dmaSecure c.1,
     s.dma.any fun c => c.2.done && p.dmaSecure c.1]
  BitVec.ofNat 22 (bits.zipIdx.foldl (fun v b => if b.1 then v + 2 ^ b.2 else v) 0)

/-- The normal-world sources of R425. -/
def normalSources : BitVec 22 := 0x1510E9#22

/-- The interrupt request input of a core (R194, R425). -/
def irqLine (p : Part) (c : Nat) : Bool := p.irqRaw &&& (p.sys.irqEn.get 0 c).setWidth 22 != 0

/-! ### The world mailbox (R422, R423) -/

/-- Message `i` of a ring is unread. -/
def unread (tail head : BitVec 4) (slot : Nat) : Bool :=
  (List.range (tail - head).toNat).any fun k => (head.toNat + k) % 8 == slot

/-- A producer writes word `k` of its ring. -/
def wmbSlot (w : World) (k : Nat) (v : Word) (p : Part) : Part :=
  p.modSys fun s =>
    match w with
    | .normal => if unread s.n2sTail s.n2sHead (k / 16) then { s with nErr := true } else { s with n2s := s.n2s.set 0 k v }
    | .secure => if unread s.s2nTail s.s2nHead (k / 16) then { s with sErr := true } else { s with s2n := s.s2n.set 0 k v }

/-- A producer writes TAIL. -/
def wmbTail (w : World) (v : BitVec 4) (p : Part) : Part :=
  p.modSys fun s =>
    match w with
    | .normal => if 8 < (v - s.n2sHead).toNat then { s with nErr := true } else { s with n2sTail := v }
    | .secure => if 8 < (v - s.s2nHead).toNat then { s with sErr := true } else { s with s2nTail := v }

/-- A consumer writes HEAD. -/
def wmbHead (w : World) (v : BitVec 4) (p : Part) : Part :=
  p.modSys fun s =>
    match w with
    | .normal =>
      if (s.s2nTail - s.s2nHead).toNat < (v - s.s2nHead).toNat then { s with nErr := true } else { s with s2nHead := v }
    | .secure =>
      if (s.n2sTail - s.n2sHead).toNat < (v - s.n2sHead).toNat then { s with sErr := true } else { s with n2sHead := v }

/-! ### Control-complex cores (R427, R428) -/

/-- RUN: a core held in reset starts privileged at its start address and bank with the values of R167. -/
def ccRun (c : Nat) (p : Part) : Part :=
  if (p.core c).run = .held then
    p.modCore c fun _ =>
      { run := .running, pc := p.sys.ccStart.get 0 c, dbk := p.sys.ccStartBk.get 0 c, ibk := p.sys.ccStartBk.get 0 c }
  else p

/-- HOLD: the core is reset and held. -/
def ccHold (c : Nat) (p : Part) : Part := p.modCore c fun _ => {}

end Part

/-! ### The meanings -/

/-- WMB_SLOT_WRITE (R423). -/
def execWmbSlotWrite (w : World) (k : Fin 128) (v : Word) (s : State) : Host.Outcome State Fault Refusal :=
  onPart (Part.wmbSlot w k.val v) s
/-- WMB_TAIL_WRITE (R422, R423). -/
def execWmbTailWrite (w : World) (v : BitVec 4) (s : State) : Host.Outcome State Fault Refusal := onPart (Part.wmbTail w v) s
/-- WMB_HEAD_WRITE (R422, R423). -/
def execWmbHeadWrite (w : World) (v : BitVec 4) (s : State) : Host.Outcome State Fault Refusal := onPart (Part.wmbHead w v) s
/-- SWI_N_SET (R425, SYS_SWI). -/
def execSwiNSet (s : State) : Host.Outcome State Fault Refusal := onPart (Part.modSys fun y => { y with swiN := true }) s
/-- SWI_N_CLR. -/
def execSwiNClr (s : State) : Host.Outcome State Fault Refusal := onPart (Part.modSys fun y => { y with swiN := false }) s
/-- SWI_S_SET. -/
def execSwiSSet (s : State) : Host.Outcome State Fault Refusal := onPart (Part.modSys fun y => { y with swiS := true }) s
/-- SWI_S_CLR: the field is RO to the normal world. -/
def execSwiSClr (w : World) (s : State) : Host.Outcome State Fault Refusal :=
  onPart (Part.when w.bit (Part.modSys fun y => { y with swiS := false })) s
/-- CC_RUN (R427, R428). -/
def execCcRun (c : Fin 4) (s : State) : Host.Outcome State Fault Refusal := onPart (Part.ccRun c.val) s
/-- CC_HOLD (R428). -/
def execCcHold (c : Fin 4) (s : State) : Host.Outcome State Fault Refusal := onPart (Part.ccHold c.val) s
/-- ACU_COMMIT (R435, R436). -/
def execAcuCommit (m : Fin 4) (s : State) : Host.Outcome State Fault Refusal := onPart (Part.regionCommit m.val 16 32) s
/-- ACU_REGION_COMMIT (R435, R436). -/
def execAcuRegionCommit (m : Fin 6) (s : State) : Host.Outcome State Fault Refusal := onPart (Part.secRegionCommit m.val) s
/-- ACU_TAG_COMMIT (R441). -/
def execAcuTagCommit (s : State) : Host.Outcome State Fault Refusal := onPart Part.tagCommit s
/-- FAULT_POP (R443). -/
def execFaultPop (w : World) (s : State) : Host.Outcome State Fault Refusal := onPart (Part.faultPop w) s

end Sys2Proof.Machine
end

