-- ==== Sys2Proof/Machine/Reset.lean ====
section
/-! DEFINITION. Resets and power (R68, R498 to R502, R577, R604, R657, R684 to R686, R706): what a full reset clears, what WAKE
does first, and the supply and RESET_N events. -/

namespace Sys2Proof.Machine
namespace Part

/-- The part after a full reset raised by `cause` (a bit of HIF_RESET_CAUSE): every volatile state outside the AON and BAT
domains at its reset value, the fuse banks sensed, the flash with the counter tables in it (R349) and the host's view of past messages
kept (R68, R657). The mesh goes on from the battery domain's
pattern state (R565). The grant in effect ends (R668). `held` keeps the secure core in reset. -/
def restart (cause : Nat) (held : Bool) (f : Fuses) (p : Part) : Part :=
  let p := p.endGrant 4
  { Part.reset with
    sys := { fuses := f, unitSel := p.sys.unitSel }
    aon := { p.aon with resetCause := BitVec.ofNat 7 (2 ^ cause), isolated := 0, isoCause := [] }
    bat := p.bat
    nvm := { flash := p.nvm.flash, density := p.nvm.density, ctrTab := p.nvm.ctrTab }
    tnt := {}
    tmp := { meshSeed := p.bat.pattern }
    hif := { out := p.hif.out }
    free := p.free
    cores := if held then [(4, { Core.secureReset with run := .held })] else Part.reset.cores }

/-- The first steps of WAKE (R502, R519, R605): BACKUP_LATCH and BAT_POR taken from BAT, the battery log copied, WAKE_BEGIN,
FUSES_SENSED. -/
def wakeBegin (p : Part) : Part :=
  let f := p.sys.fuses
  let p := (p.modSys fun s => { s with quarBackup := p.bat.backupLatch, porStart := p.bat.batPor }).modBat fun b =>
    { b with batPor := false }
  let p := p.blogCopy
  let p := p.post 0x0010#16 (at' p.aon.resetCause 0 ||| at' (lifeCode p.life) 8) 0
  p.post 0x0011#16
    (at' (BitVec.ofNat 8 (fusedVersion f.arb)) 0 ||| at' (BitVec.ofNat 4 f.owner.length) 8 ||| bit' f.rootSet 12) 0

/-- A full reset with RESET_N high and every supply in band: the part restarts in WAKE (R68). -/
def fullReset (cause : Nat) (f : Fuses) (p : Part) : Part := (p.restart cause false f).wakeBegin

/-- Power-good (R499, R502): main power has returned. `aonLost` says that it had been absent long enough for the AON domain to
lose power, so that this is a power-on; `unitSel` is the level of the UNIT_SEL ball (R526). -/
def powerGood (aonLost unitSel : Bool) (f : Fuses) (p : Part) : Part :=
  let p := { p with aon := if aonLost then {} else p.aon, bat := { p.bat with onCell := false } }
  ((p.restart (if aonLost then 0 else 5) false f).modSys fun s => { s with unitSel := unitSel }).wakeBegin

/-- RESET_N has been low for 1 µs: the full reset begins and the part is held (R706), with XSPI_CS_N high, XSPI_RESET_N low and the other
xSPI balls in high impedance (R477). -/
def resetLow (f : Fuses) (p : Part) : Part :=
  ((p.restart 1 true f).modSys fun s => { s with resetLow := true }).modNvm fun n =>
    { n with xspi := { csN := true, resetN := false, driven := false } }

/-- RESET_N returns high (R706): a held part is released, with UNIT_SEL sampled and the boundary register
disconnected from the balls (R659) and the xSPI balls driven again (R477); a pulse of 5 ns or more that was shorter than
1 µs raises RESET_GLITCH, and a shorter one is filtered. -/
def resetRise (filtered unitSel : Bool) (p : Part) : Part :=
  if p.sys.resetLow then
    let p := (p.modDbg fun d => { d with boundary := false, outputsOff := false }).modNvm fun n => { n with xspi := {} }
    ((p.modSys fun s => { s with resetLow := false, unitSel := unitSel }).modCore 4 fun _ => Core.secureReset).wakeBegin
  else p.when (!filtered) (raiseOne .resetGlitch 0 0)

/-- A main supply has been below 90 % for 1 µs (R684): with a cell on VBAT the battery domain takes over the mesh, keeps the
TEMP_LOW in effect (R690) and logs BACKUP_ENTER; without one it is lost (R689). -/
def powerFail (vbat : Bool) (p : Part) : Part :=
  if vbat then
    (p.modBat fun b => { b with onCell := true, tempLow := p.tmp.crust.tempLow }).blogWrite { code := 0xD1F0#16, sev := 1 }
  else { p with bat := {} }

/-- 100 ns after the detection the full reset starts (R686), the part held; with the battery domain running it passes to BACKUP. The
level of RESET_N and what it does to the xSPI balls (R477) stay. -/
def supplyReset (f : Fuses) (p : Part) : Part :=
  ((p.restart 5 true f).modSys fun s =>
    { s with mode := if p.bat.onCell then .backup else .wake, resetLow := p.sys.resetLow }).modNvm fun n =>
      { n with xspi := p.nvm.xspi }

end Part

/-! ### The meanings -/

/-- POWER_GOOD (R502). -/
def execPowerGood (aonLost unitSel : Bool) (s : State) : Host.Outcome State Fault Refusal :=
  onPart (Part.powerGood aonLost unitSel s.fuses) s
/-- FULL_RESET (R68), with the bit of HIF_RESET_CAUSE that names what raised it. -/
def execFullReset (cause : Fin 7) (s : State) : Host.Outcome State Fault Refusal :=
  onPart (Part.fullReset cause.val s.fuses) s
/-- RESET_N_LOW_TIMEOUT (R706). -/
def execResetNLowTimeout (s : State) : Host.Outcome State Fault Refusal := onPart (Part.resetLow s.fuses) s
/-- RESET_N_RISE (R706). -/
def execResetNRise (filtered unitSel : Bool) (s : State) : Host.Outcome State Fault Refusal :=
  onPart (Part.resetRise filtered unitSel) s
/-- MAIN_POWER_FAIL (R577, R604, R684). -/
def execMainPowerFail (vbat : Bool) (s : State) : Host.Outcome State Fault Refusal := onPart (Part.powerFail vbat) s
/-- SUPPLY_RESET_START (R686). -/
def execSupplyResetStart (s : State) : Host.Outcome State Fault Refusal := onPart (Part.supplyReset s.fuses) s

end Sys2Proof.Machine
end

