-- ==== Sys2Proof/Machine/Host.lean ====
section
/-! DEFINITION. The host link (02_host_link.md): training, configuration space, SR-IOV, function and link resets with their
drains, D3hot, MSI-X, the full-reset request, and SPDM, IDE and TDISP. The placing of fields in configuration space is that of
PCIe Base 6.0, which the spec names without repeating it (log entry 21). -/

namespace Sys2Proof.Machine
namespace Part

/-! ### Configuration space (R38 to R43, R504) -/

/-- Virtual function v exists while VF Enable is 1 and v is less than NumVFs (R47); function 0 always exists. -/
def fnExists (p : Part) (n : Nat) : Bool := n == 0 || (p.hif.vfEnable && decide (n ≤ p.hif.numVfs.toNat))

/-- Configuration requests are answered: the link is up, and a charter has been chosen or hand-off has taken place (R504). -/
def cfgOpen (p : Part) (n : Nat) : Bool :=
  p.hif.linkUp && (p.sys.handed || p.nvm.charter.present) && p.fnExists n

/-- Offset of the MSI-X capability of a function (R40, R41). -/
def msixCap (n : Nat) : Nat := if n = 0 then 0xB0 else 0x70

/-- The dword of the IDE capability at an offset: of the link stream, of selective stream k, or of address association range i of
selective stream k (R64). -/
inductive IdeReg where
  | linkCtrl | linkStatus
  | cap | ctrl (k : Nat) | status (k : Nat) | rid1 | rid2 | addr1 | addr2 | addr3
  | none
  deriving DecidableEq, Repr

/-- One link stream and four selective streams of four address association ranges, as PCIe Base 6.0 lays them out. -/
def ideReg (off : Nat) : IdeReg :=
  if off = 0x30C then .linkCtrl
  else if off = 0x310 then .linkStatus
  else if off < 0x314 ∨ 0x314 + 4 * 0x44 ≤ off then .none
  else
    let k := (off - 0x314) / 0x44 + 1
    match (off - 0x314) % 0x44 with
    | 0 => .cap
    | 4 => .ctrl k
    | 8 => .status k
    | 12 => .rid1
    | 16 => .rid2
    | r => if (r - 20) % 12 = 0 then .addr1 else if (r - 20) % 12 = 4 then .addr2 else .addr3

/-- The writable bits of the IDE capability: enable, PCRC, algorithm, class and stream ID, but for the aggregation fields; the
association ranges. -/
def ideMask (off : Nat) : Word :=
  match ideReg off with
  | .linkCtrl => 0xFF3FC101#32
  | .ctrl _ => 0xFF7FC101#32
  | .rid1 => 0x00FFFF00#32
  | .rid2 => 0x00FFFF01#32
  | .addr1 => 0xFFFFFF01#32
  | .addr2 | .addr3 => 0xFFFFFFFF#32
  | .cap | .linkStatus | .status _ | .none => 0

/-- The bits of a configuration dword that a write stores: Command, BARs, Device Control, MSI-X control, AER masks, SR-IOV
control and VF BARs, whose size is that of one function (R48), and the IDE capability. Fields with rows of their own (Bus Master Enable, FLR, power state, VF Enable, NumVFs) are not among them. -/
def cfgMask (n off : Nat) : Word :=
  if n = 0 then
    match off with
    | 0x04 => 0x00000542#32
    | 0x0C => 0x000000FF#32
    | 0x10 => 0xF0000000#32
    | 0x14 | 0x1C => 0xFFFFFFFF#32
    | 0x18 => 0xFFFF0000#32
    | 0x3C => 0x000000FF#32
    | 0x58 => 0x00007FFF#32
    | 0xB0 => 0xC0000000#32
    | 0x108 | 0x10C | 0x114 => 0xFFFFFFFF#32
    | 0x168 => 0x00000018#32
    | 0x184 => 0xFFFF0000#32
    | 0x188 | 0x190 => 0xFFFFFFFF#32
    | 0x18C => 0xFFFFF000#32
    | _ => ideMask off
  else
    match off with
    | 0x48 => 0x00007FFF#32
    | 0x70 => 0xC0000000#32
    | _ => 0

/-- The capability headers of R40 and R41: ID and next pointer. Extended capabilities carry version 1 in [19:16]. -/
def capHead (n off : Nat) : Word :=
  let ext := fun (id next : Nat) => BitVec.ofNat 32 (id + 0x10000 + next * 0x100000)
  if n = 0 then
    match off with
    | 0x40 => 0x00005001#32
    | 0x50 => 0x0000B010#32
    | 0xB0 => 0x07FF0011#32
    | 0x100 => ext 0x01 0x148
    | 0x148 => ext 0x03 0x158
    | 0x158 => ext 0x0E 0x160
    | 0x160 => ext 0x10 0x1A0
    | 0x1A0 => ext 0x19 0x1C0
    | 0x1C0 => ext 0x25 0x1D0
    | 0x1D0 => ext 0x26 0x200
    | 0x200 => ext 0x2A 0x230
    | 0x230 => ext 0x31 0x240
    | 0x240 => ext 0x27 0x280
    | 0x280 => ext 0x2F 0x290
    | 0x290 => ext 0x32 0x2C0
    | 0x2C0 => ext 0x2E 0x300
    | 0x300 => ext 0x30 0
    | _ => 0
  else
    match off with
    | 0x40 => 0x00007010#32
    | 0x70 => 0x00070011#32
    | 0x100 => ext 0x0E 0
    | _ => 0

/-- Device Capabilities: 512-octet payloads, extended tags, FLR (R36, R40). -/
abbrev devCap : Word := 0x10008022#32
/-- Device Capabilities 2: 10-bit tags as completer and requester (R36). -/
abbrev devCap2 : Word := 0x00030000#32
/-- Device Capabilities 3: 14-bit tags as completer and requester (R36). -/
abbrev devCap3 : Word := 0x00000006#32
/-- Link Capabilities and Link Capabilities 2: up to 64.0 GT/s and ×8, the six rates of R31. -/
abbrev linkCap : Word := 0x00000086#32
abbrev linkCap2 : Word := 0x0000007E#32
/-- IDE Capability: link and selective streams, PCRC, IDE_KM, no aggregation, four selective streams (R40, R64). -/
abbrev ideCap : Word := 0x00030063#32

/-- The constant part of a configuration dword (R31, R36 to R43, R48, R56, R64). -/
def cfgFixed (p : Part) (n off : Nat) : Word :=
  match off with
  | 0x00 => at' Config.vendorId 0 ||| (if n = 0 then 0x64000000#32 else 0x64010000#32)
  | 0x04 => 0x00100000#32
  | 0x08 => 0x108000B0#32
  | 0x10 => if n = 0 then 0x00000004#32 else 0
  | 0x18 => if n = 0 then 0x00000004#32 else 0
  | 0x2C => at' p.nvm.charter.subVendor 0 ||| at' p.nvm.charter.subSystem 16
  | 0x34 => 0x00000040#32
  | 0x44 => if n = 0 then 0 else devCap
  | 0x4C => if n = 0 then 0 else linkCap
  | 0x54 => if n = 0 then devCap else 0
  | 0x5C => if n = 0 then linkCap else 0
  | 0x64 => if n = 0 then 0 else devCap2
  | 0x6C => if n = 0 then 0 else linkCap2
  | 0x74 => if n = 0 then devCap2 else 0x00000002#32
  | 0x7C => if n = 0 then linkCap2 else 0
  | 0x78 => if n = 0 then 0 else 0x00000802#32
  | 0xB4 => if n = 0 then 0x00000002#32 else 0
  | 0xB8 => if n = 0 then 0x00008002#32 else 0
  | 0x14C => if n = 0 then p.serial.setWidth 32 else 0
  | 0x150 => if n = 0 then (p.serial >>> 32).setWidth 32 else 0
  | 0x16C => if n = 0 then 0x04000400#32 else 0
  | 0x174 => if n = 0 then 0x00010001#32 else 0
  | 0x178 => if n = 0 then 0x64010000#32 else 0
  | 0x17C => if n = 0 then 0x00000001#32 else 0
  | 0x184 => if n = 0 then 0x0000000C#32 else 0
  | 0x18C => if n = 0 then 0x00000004#32 else 0
  | 0x284 => if n = 0 then devCap3 else 0
  | 0x304 => if n = 0 then ideCap else 0
  | _ => if n = 0 ∧ ideReg off = .cap then 0x00000004#32 else capHead n off

/-- The state of an IDE stream in its status register: 2 secure, else 0 insecure. -/
def ideStatus (p : Part) (k : Nat) : Word := if (p.hif.ide.get {} k).secure then 2 else 0

/-- A configuration dword as it reads. The live part: Bus Master Enable, the power state, the trained link, the error status, VF
Enable, NumVFs, the DOE mailbox (Data Object Ready, the read mailbox) and the states of the IDE streams. -/
def cfgRead (p : Part) (n off : Nat) : Word :=
  let f := p.fn n
  let live : Word :=
    if off = 0x04 then bit' f.bme 2
    else if off = (if n = 0 then 0x60 else 0x50) then at' p.hif.rate 16 ||| at' p.hif.width 20
    else if n = 0 ∧ off = 0x104 then p.hif.aer
    else if n = 0 ∧ off = 0x2CC then bit' (p.hif.doeOut != []) 31
    else if n = 0 ∧ off = 0x2D4 then p.hif.doeOut.headD 0
    else if n = 0 ∧ ideReg off = .linkStatus then p.ideStatus 0
    else if let (true, .status k) := (n == 0, ideReg off) then p.ideStatus k
    else if n = 0 ∧ off = 0x44 then 0x00000008#32 ||| (if f.d3hot then 3 else 0)
    else if n = 0 ∧ off = 0x168 then bit' p.hif.vfEnable 0
    else if n = 0 ∧ off = 0x170 then at' p.hif.numVfs 0
    else 0
  p.cfgFixed n off ||| p.cfgHeld n off ||| live

/-- A request of the host is completed as Unsupported Request: it has no effect but the bit that Advanced Error Reporting of the
physical function logs it in, for its virtual functions too (R37, R40, R55). -/
def unsupported (p : Part) : Part := (p.modHif fun h => { h with aer := h.aer ||| 0x00100000#32 }).issue (.completion false [])

/-- The interfaces in CONFIG_LOCKED or RUN that `sel` picks enter ERROR (R66). -/
def tdiError (sel : Nat → Bool) (p : Part) : Part :=
  let hit : Nat → Func → Bool := fun n f => sel n && (f.tdi == .locked || f.tdi == .run)
  p.funcWatch (modHif fun h => { h with funcs := h.funcs.mapV {} fun n f => if hit n f then { f with tdi := .error } else f })

/-- The bus number that a configuration write to the physical function carries is the part's from then on (R44, R45). -/
def captureBus (n : Nat) (bus : Byte) (p : Part) : Part := p.when (n == 0) (modHif fun h => { h with bus := bus })

/-- CONFIG_WRITE: the writable bits of a dword stored, and what follows from them: Memory Space Enable and the VF BARs under
R66, the MSI-X Function Mask under R58. System Page Size accepts only the value it holds (R43). A write of 1 clears an error
status bit; a write of the DOE read mailbox takes its dword, and an abort the whole answer. -/
def configWrite (n off : Nat) (v : Word) (bus : Byte) (p : Part) : Part :=
  let m := cfgMask n off
  if !p.cfgOpen n then p
  else if n = 0 ∧ off = 0x104 then (p.captureBus n bus).modHif fun h => { h with aer := h.aer &&& ~~~v }
  else if n = 0 ∧ off = 0x2D4 then (p.captureBus n bus).modHif fun h => { h with doeOut := h.doeOut.drop 1 }
  else if n = 0 ∧ off = 0x2C8 then
    (p.captureBus n bus).when (bitAt v 0) (modHif fun h => { h with doeOut := [] })
  else if m = 0 then p.captureBus n bus
  else
    let old := p.cfgHeld n off
    let new := (old &&& ~~~ m) ||| (v &&& m)
    let p := (p.captureBus n bus).modFn n fun f => { f with cfg := f.cfg.set 0 off (new ^^^ cfgReset n off) }
    if n = 0 ∧ off = 0x04 then p.modFn 0 fun f => { f with mse := bitAt new 1 }
    else if off = msixCap n then (p.modFn n fun f => { f with fnMask := bitAt new 30 }).releaseVectors n
    else if n = 0 ∧ off = 0x168 then
      let p := p.modHif fun h => { h with vfMse := bitAt new 3, ari := bitAt new 4 }
      p.when (bitAt old 3 && !bitAt new 3) (tdiError fun k => k != 0)
    else if n = 0 ∧ 0x184 ≤ off ∧ off ≤ 0x190 ∧ new ≠ old then p.tdiError fun k => k != 0
    else p

/-! ### Drains and function resets (R66 to R72) -/

/-- What becomes of a context when its function's drain starts (R69): one whose operation no unit has started is freed, one
whose operation has ended is dropped unless the ledger still carries it, any other discards its completion. -/
def drainCtx (x : Nat × Ctx) (p : Part) : Part :=
  match x.2.state with
  | .free => p
  | .fetched | .decoded | .held | .queued =>
    (p.modRke fun r =>
      { r with engines := r.engines.mapV {} fun _ e =>
        { e with queue := e.queue.filter fun o => o.owner != .ctx x.1 } }).freeCtx x.1
  | .finished =>
    if p.waits x.1 then p.modCtx x.1 fun c => { c with discard := true } else p.freeCtx x.1
  | .running | .awaitAck => p.modCtx x.1 fun c => { c with discard := true }

/-- A drain starts on a function, unless one runs there already or the function is WEDGED (R69, R72, R74). Vector 0 of the
physical function reports the start of a virtual function's reset (R57, log entry 163). -/
def drainStart (n : Nat) (p : Part) : Part :=
  if (p.fn n).draining || (p.fn n).wedged then p
  else
    let p := (p.modFn n fun f => { f with draining := true }).when (n != 0) (signal 0 0)
    ((p.ctxsOf n).foldl (fun p x => p.drainCtx x) p).settle n

/-- The local queue pairs of a function in effect: base and count (R52, R382). -/
def qpsOf (p : Part) (n : Nat) : Nat × Nat :=
  let t := (p.tnt.t.get {} n).st.eff
  (t.qpBase.toNat, t.qpCount.toNat)

/-- What an FLR clears of one function (R68, R391, R395, R474): its queues, doorbells, MSI-X table, configuration registers
(log entry 21), pending administrative completion, mailbox side and ceremony session; its interface under R66. -/
def flrScope (n : Nat) (p : Part) : Part :=
  let p := p.when (p.sys.session.active && p.sys.session.fn == n) undoSession
  let (b, k) := p.qpsOf n
  let p := p.modDsp fun d => { d with qps := (List.range k).foldl (fun t i => t.set {} (b + i) {}) d.qps }
  let p := p.modFn n fun f =>
    { f with vectors := [], fnMask := false, cfg := [], bme := false, mse := false, d3hot := false
             tdi := if f.tdi = .locked ∨ f.tdi = .run then .error else .unlocked }
  p.modTnt fun t =>
    { t with
      adm := t.adm.upd {} n fun a => if a.busy && a.started then { a with done := false, result := [], err := false } else {}
      mbox := if n = 0 then t.mbox
              else t.mbox.upd {} n fun m => { m with up := [], upFull := false, downFull := false, flushed := true } }

/-- VF FLR of function `n` = v + 1. -/
def vfFlr (n : Nat) (p : Part) : Part := (p.flrScope n).drainStart n

/-- Clearing VF Enable: an FLR on every enabled virtual function at once (R47). -/
def vfDisable (p : Part) : Part :=
  if !p.hif.vfEnable then p
  else
    ((List.range p.hif.numVfs.toNat).foldl (fun p v => p.vfFlr (v + 1)) p).modHif fun h => { h with vfEnable := false }

/-- The manager side of every tenant mailbox cleared (R395). -/
def pfMailboxes (p : Part) : Part :=
  p.modTnt fun t =>
    { t with mbox := t.mbox.mapV {} fun _ m => { m with down := [], downFull := false, acked := false, flushed := false } }

/-- PF FLR (R68). -/
def pfFlr (p : Part) : Part :=
  let p := (p.vfDisable.pfMailboxes.flrScope 0).modHif fun h => { h with numVfs := 0, ari := false, vfMse := false }
  p.drainStart 0

/-- HOST_LINK_RESET: the link goes down, configuration space, BARs, MSI-X tables, IDE keys and streams and TDISP states are
cleared, and every function has FLR scope, once (R66, R68): the virtual functions that exist with the clearing of VF Enable. -/
def hostLinkReset (p : Part) : Part :=
  let gone := fun n => !p.fnExists n
  let p := p.pfFlr
  let p := (List.range 1024).foldl (fun p v => p.when (gone (v + 1) && decide (p.fn (v + 1) ≠ {})) (vfFlr (v + 1))) p
  p.modHif fun h =>
    { h with linkUp := false, degraded := false, flit := false, rate := 0, width := 0, ide := [], spdm := false, doeOut := []
             bus := 0, aer := 0
             statusChg := h.statusChg || h.linkUp || h.degraded || h.flit }

/-- The first of the part's own rates or widths, highest first, that the partner has too (R31, R33). -/
def highest (own theirs : List (BitVec 4)) : Option (BitVec 4) := own.find? theirs.contains

/-- LINK_TRAINED with a partner of these rates, at widths that trained, with flit mode or without: the highest rate and width of
R31 that both ends have; ×1 is tried where ×8 and ×4 fail, ×2 and ×16 never; flit mode at 64.0 GT/s and where the partner
supports it (R32 to R34, R77). With no rate or width in common the link does not train. -/
def linkTrained (rates widths : List (BitVec 4)) (flit : Bool) (p : Part) : Part :=
  match highest [6, 5, 4, 3, 2, 1] rates, highest [8, 4, 1] widths with
  | some rate, some width =>
    let flit := flit || rate == 6
    let deg := !(rate == 6 && width == 8)
    let h := p.hif
    let chg := !h.linkUp || h.degraded != deg || h.flit != flit
    let p := p.funcWatch (modHif fun h =>
      { h with linkUp := true, degraded := deg, flit := flit, rate := rate, width := width, statusChg := h.statusChg || chg })
    (p.post 0x2001#16 (at' rate 0 ||| at' width 4 ||| bit' deg 8 ||| bit' flit 9) 0).signal 0 2
  | _, _ => p

/-- DRAIN_TIMEOUT: contexts remain after 100 ms and the function is WEDGED (R69, R74). -/
def drainTimeout (n : Nat) (p : Part) : Part :=
  if (p.fn n).draining && !(p.ctxsOf n).isEmpty then
    let p := p.funcWatch (modFn n fun f => { f with draining := false, wedged := true })
    let p := p.modHif fun h => { h with wedgedChg := true, statusChg := h.statusChg || n == 0 }
    let p := p.post 0x2002#16 (if n = 0 then 0x400#32 else BitVec.ofNat 32 (n - 1)) 0
    (p.when (n != 0) (signal 0 0)).settle n
  else p

/-! ### SR-IOV, power, MSI-X -/

/-- NUMVFS_WRITE: any value is stored as written, one above TotalVFs too, of which the spec does not speak (log entry 164). -/
def numVfsWrite (v : BitVec 16) (p : Part) : Part :=
  p.when (p.cfgOpen 0 && !p.hif.vfEnable) (modHif fun h => { h with numVfs := v })

def vfEnable (p : Part) : Part := p.when (p.cfgOpen 0) (modHif fun h => { h with vfEnable := true })

def bmeClear (n : Nat) (p : Part) : Part :=
  p.when (p.cfgOpen n) fun p =>
    (p.funcWatch (modFn n fun f => { f with bme := false })).tdiError fun k => k == n

def bmeSet (n : Nat) (p : Part) : Part :=
  p.when (p.cfgOpen n) fun p =>
    (p.funcWatch (modFn n fun f => { f with bme := true })).releaseVectors n

/-- D3HOT_ENTRY of the physical function, the only one with the capability (R40, R41). -/
def d3hotEntry (p : Part) : Part := p.when (p.cfgOpen 0) (funcWatch (modFn 0 fun f => { f with d3hot := true }))

/-- D0_RETURN: held messages of every function are released. -/
def d0Return (p : Part) : Part :=
  p.when (p.cfgOpen 0) fun p =>
    let p := p.funcWatch (modFn 0 fun f => { f with d3hot := false })
    p.hif.funcs.foldl (fun p f => p.releaseVectors f.1) p

/-- The vectors of a function's MSI-X table (R40, R41). -/
def vectorCount (n : Nat) : Nat := if n = 0 then 2048 else 8

/-- MSIX_UNMASK (R58). -/
def msixUnmask (n v : Nat) (p : Part) : Part :=
  p.when (p.fnExists n && decide (v < vectorCount n)) fun p =>
    (p.modFn n fun f => { f with vectors := f.vectors.upd {} v fun x => { x with masked := false } }).releaseVectors n

/-! ### SPDM, IDE and TDISP (R59 to R67) -/

/-- An address association range of selective stream `k` covers the octets of a BAR of virtual function `v` (R64). -/
def associated (p : Part) (k v : Nat) : Bool :=
  let base := fun (lo hi : Nat) => (p.cfgHeld 0 hi).toNat * 2 ^ 32 + (p.cfgHeld 0 lo).toNat / 4096 * 4096
  let bars := [(base 0x184 0x188 + v * 0x10000, 0x10000), (base 0x18C 0x190 + v * 0x1000, 0x1000)]
  (List.range 4).any fun i =>
    let o := 0x314 + 0x44 * (k - 1) + 20 + 12 * i
    let d := p.cfgHeld 0 o
    let lo := (p.cfgHeld 0 (o + 8)).toNat * 2 ^ 32 + (fld d 8 12).toNat * 2 ^ 20
    let hi := (p.cfgHeld 0 (o + 4)).toNat * 2 ^ 32 + (fld d 20 12).toNat * 2 ^ 20 + 2 ^ 20
    bitAt d 0 && bars.any fun b => decide (b.1 < hi ∧ lo < b.1 + b.2)

/-- IDE_KM over a secured session (R64): a key set programmed, the stream made secure, or stopped. The interfaces whose traffic a
selective stream carries (R66) are those that its address association ranges cover and `fns`, those the host has bound to it. -/
def ideKm (stream op : Nat) (fns : List (Fin 1024)) (p : Part) : Part :=
  if !p.hif.spdm then p
  else
    let set := fun (g : Ide → Ide) (p : Part) => p.modHif fun h => { h with ide := h.ide.upd {} stream g }
    match op with
    | 0 => set (fun x => { x with keySet := true }) p
    | 1 => set (fun x => { x with secure := x.keySet }) p
    | _ => (set (fun _ => {}) p).tdiError fun k =>
        decide (0 < stream) && decide (0 < k) && ((fns.any fun v => v.val + 1 == k) || p.associated stream (k - 1))

/-- LOCK_INTERFACE: refused while the tenant is freezing or frozen (R400). -/
def lockInterface (n : Nat) (p : Part) : Part :=
  let st := p.tnt.states.get 0 n
  p.when (p.fnExists n && (p.fn n).tdi == .unlocked && !(st == 2 || st == 3 || st == 4))
    (funcWatch (modFn n fun f => { f with tdi := .locked }))

def startInterface (n : Nat) (p : Part) : Part :=
  p.when ((p.fn n).tdi == .locked) (funcWatch (modFn n fun f => { f with tdi := .run }))

def stopInterface (n : Nat) (p : Part) : Part := p.funcWatch (modFn n fun f => { f with tdi := .unlocked })

/-! ### The full-reset request (R76, R424) -/

def resetRequest (key : Byte) (p : Part) : Part :=
  p.when (key == 0xA5#8) fun p =>
    (p.modHif fun h => { h with resetReq := true }).modSys fun s => { s with notice := s.notice ||| 1 }

/-- The latched request is carried out. -/
def requestedReset (f : Fuses) (p : Part) : Part := p.when p.hif.resetReq (fullReset 2 f)

end Part

/-! ### The meanings. Function 0 is the physical function, v + 1 is virtual function v. -/

/-- HOST_LINK_RESET (R68). -/
def execHostLinkReset (s : State) : Host.Outcome State Fault Refusal := onPart Part.hostLinkReset s
/-- LINK_TRAINED (R31 to R34). -/
def execLinkTrained (rates widths : List (BitVec 4)) (flit : Bool) (s : State) : Host.Outcome State Fault Refusal :=
  onPart (Part.linkTrained rates widths flit) s
/-- PF_FLR (R68). -/
def execPfFlr (s : State) : Host.Outcome State Fault Refusal := onPart Part.pfFlr s
/-- VF_FLR (R68). -/
def execVfFlr (v : Fin 1024) (s : State) : Host.Outcome State Fault Refusal :=
  onPart (Part.when (s.part.fnExists (v.val + 1)) (Part.vfFlr (v.val + 1))) s
/-- DRAIN_TIMEOUT (R69). -/
def execDrainTimeout (n : Fin 1025) (s : State) : Host.Outcome State Fault Refusal := onPart (Part.drainTimeout n.val) s
/-- NUMVFS_WRITE (R46). -/
def execNumvfsWrite (v : BitVec 16) (s : State) : Host.Outcome State Fault Refusal := onPart (Part.numVfsWrite v) s
/-- VF_ENABLE_SET (R47). -/
def execVfEnableSet (s : State) : Host.Outcome State Fault Refusal := onPart Part.vfEnable s
/-- VF_ENABLE_CLEAR (R47). -/
def execVfEnableClear (s : State) : Host.Outcome State Fault Refusal := onPart (Part.when (s.part.cfgOpen 0) Part.vfDisable) s
/-- BUS_MASTER_ENABLE_CLEAR (R73). -/
def execBusMasterEnableClear (n : Fin 1025) (s : State) : Host.Outcome State Fault Refusal := onPart (Part.bmeClear n.val) s
/-- BUS_MASTER_ENABLE_SET (R73). -/
def execBusMasterEnableSet (n : Fin 1025) (s : State) : Host.Outcome State Fault Refusal := onPart (Part.bmeSet n.val) s
/-- CONFIG_WRITE (R38): dword `dw` of function `n`. -/
def execConfigWrite (n : Fin 1025) (dw : Fin 1024) (v : CfgData) (s : State) : Host.Outcome State Fault Refusal :=
  onPart (Part.configWrite n.val (4 * dw.val) v.data v.bus) s
/-- D3HOT_ENTRY (R40). -/
def execD3hotEntry (s : State) : Host.Outcome State Fault Refusal := onPart Part.d3hotEntry s
/-- D0_RETURN (R40). -/
def execD0Return (s : State) : Host.Outcome State Fault Refusal := onPart Part.d0Return s
/-- MSIX_UNMASK (R58). -/
def execMsixUnmask (n : Fin 1025) (v : Fin 2048) (s : State) : Host.Outcome State Fault Refusal :=
  onPart (Part.msixUnmask n.val v.val) s
/-- HIF_RESET_REQ_FULL (R76). -/
def execHifResetReqFull (key : Byte) (s : State) : Host.Outcome State Fault Refusal := onPart (Part.resetRequest key) s
/-- HOST_RESET_ACK (R76, R424). -/
def execHostResetAck (s : State) : Host.Outcome State Fault Refusal := onPart (Part.requestedReset s.fuses) s
/-- HOST_RESET_TIMEOUT (R76). -/
def execHostResetTimeout (s : State) : Host.Outcome State Fault Refusal := onPart (Part.requestedReset s.fuses) s
/-- IDE_KM (R64). `op` 0 programs a key set, 1 makes the stream secure, 2 stops it. -/
def execIdeKm (stream : Fin 5) (op : Fin 3) (fns : List (Fin 1024)) (s : State) : Host.Outcome State Fault Refusal :=
  onPart (Part.ideKm stream.val op.val fns) s
/-- LOCK_INTERFACE (R65, R400). -/
def execLockInterface (v : Fin 1024) (s : State) : Host.Outcome State Fault Refusal :=
  onPart (Part.lockInterface (v.val + 1)) s
/-- START_INTERFACE (R65). -/
def execStartInterface (v : Fin 1024) (s : State) : Host.Outcome State Fault Refusal :=
  onPart (Part.startInterface (v.val + 1)) s
/-- STOP_INTERFACE (R67). -/
def execStopInterface (v : Fin 1024) (s : State) : Host.Outcome State Fault Refusal :=
  onPart (Part.stopInterface (v.val + 1)) s

end Sys2Proof.Machine
end

