-- ==== Sys2Proof/Machine/Windpump.lean ====
section
/-! DEFINITION. The Windpump (19_windpump.md): clock sources, the real-time clock, power domains with their leases and trips, the
control tick that decides steps and voltages, and ageing. -/

namespace Sys2Proof.Machine
namespace Part

/-! ### Events (R637, R639) -/

/-- The bit of R639 of an event number, and whether WPU_NEVENT and WPU_SEVENT mark it. -/
def wpuBit (num : Nat) : Nat × Bool × Bool :=
  match num with
  | 0x001 => (0, true, false) | 0x002 => (1, true, false) | 0x003 => (2, true, false) | 0x010 => (3, true, false)
  | 0x011 => (4, false, true) | 0x012 => (5, false, true) | 0x013 => (6, true, false) | 0x014 => (7, true, true)
  | 0x015 => (8, true, true) | 0x020 => (9, true, false) | 0x021 => (10, true, false) | 0x022 => (11, true, false)
  | 0x030 => (12, true, false) | _ => (13, true, false)

/-- A Windpump event recorded, with its pending bits (R637, R639, R705). -/
def wpuEvent (num : Nat) (detail : Word) (p : Part) : Part :=
  let (b, n, s) := wpuBit num
  (p.post (BitVec.ofNat 16 (0x1000 + num)) detail 0).modWpu fun w =>
    { w with nevent := if n then w.nevent ||| BitVec.ofNat 14 (2 ^ b) else w.nevent
             sevent := if s then w.sevent ||| BitVec.ofNat 14 (2 ^ b) else w.sevent }

/-! ### Clock sources and the real-time clock (R614 to R618) -/

/-- CLK_SOURCE of an instance: its condition stands, and the alarm is raised where its flag rises (R562). -/
def clkSource (inst : Nat) (rises : Bool) (p : Part) : Part :=
  if rises then (p.condition .clkSource inst false 0).condition .clkSource inst true 0
  else
    p.modTmp fun t =>
      { t with conds := (t.conds.filter (· != (Alarm.clkSource.index, inst))) ++ [(Alarm.clkSource.index, inst)] }

/-- XIN1_LOST (R615, R616). -/
def xin1Lost (p : Part) : Part :=
  let rises := !p.wpu.clkSrcLost
  let again := p.wpu.clkSrcLost && !p.wpu.relocking
  let p := p.modWpu fun w => { w with clkSrcLost := true, xin1Present := false, relocking := false }
  let p := p.when (!again) (wpuEvent 0x001 0)
  p.clkSource 0 rises

/-- XIN1_PRESENT: 10 ms of continuous edges. -/
def xin1Present (p : Part) : Part :=
  (p.modWpu fun w => { w with xin1Present := true }).condition .clkSource 0 false 0

/-- RELOCK: ignored unless XIN1_PRESENT reads 1 (R616). -/
def relock (p : Part) : Part :=
  p.when (p.wpu.xin1Present && p.wpu.clkSrcLost) (modWpu fun w => { w with relocking := true })

def relockEnd (p : Part) : Part :=
  p.when p.wpu.relocking fun p =>
    (p.modWpu fun w => { w with relocking := false, clkSrcLost := false }).wpuEvent 0x002 0

/-- XIN2_LOST (R617). -/
def xin2Lost (p : Part) : Part :=
  let rises := !p.wpu.rtcDegraded
  ((p.modWpu fun w => { w with xin2Lost := true, rtcDegraded := true }).wpuEvent 0x003 0).clkSource 1 rises

def xin2Return (p : Part) : Part := (p.modWpu fun w => { w with xin2Lost := false }).condition .clkSource 1 false 0

/-- RTC_APPLY: the staged time is loaded (R618). -/
def rtcApply (p : Part) : Part :=
  p.modBat fun b =>
    { b with frac := (p.wpu.rtcSet.get 0 0).setWidth 16, secs := p.wpu.rtcSet.get 0 2 ++ p.wpu.rtcSet.get 0 1 }

/-- A read of WPU_RTC_FRAC: the fraction, with the seconds latched (R618). -/
def rtcFrac (p : Part) : Word × Part :=
  (p.bat.frac.setWidth 32, p.modWpu fun w => { w with latchLo := p.bat.secs.setWidth 32, latchHi := fld p.bat.secs 32 32 })

/-- PLL_LOCK (R502, R614, R615): the PLL has locked, to XIN1 or, with CLK_SRC_LOST, to the FIO. -/
def pllLock (xin1 : Bool) (p : Part) : Part :=
  let p := p.modWpu fun w => { w with pllLocked := true, clkSrcLost := !xin1, xin1Present := xin1 }
  let p := p.post 0x0012#16 (if xin1 then 0 else 1) 0
  if xin1 then p else (p.wpuEvent 0x001 0).condition .clkSource 0 true 0

/-! ### Power domains (R619 to R626) -/

def dom (p : Part) (d : Nat) : Dom := p.wpu.doms.get {} d

def modDom (d : Nat) (g : Dom → Dom) (p : Part) : Part := p.modWpu fun w => { w with doms := w.doms.upd {} d g }

/-- State codes of R620. -/
def domCode : DomState → BitVec 2
  | .run => 0 | .sleep => 1 | .deepSleep => 2 | .off => 3

/-- The island of a domain: VI0 and VI1 eight pans each, VI2 to VI5 twelve rakes each, VI6 the grainers, VI7 the rest. -/
def islandOf (d : Nat) : Nat := if d < 16 then d / 8 else if d < 64 then 2 + (d - 16) / 12 else if d < 72 then 6 else 7

/-- The engine domains of an island (R626, R636). -/
def engineDoms (i : Nat) : List Nat := (List.range 72).filter fun d => islandOf d == i

/-- Nothing of domain `d` is in flight (R623). -/
def domIdle (p : Part) (d : Nat) : Bool :=
  if d < 16 then
    (p.pan.pans.get {} d).streams.isEmpty && (p.seq.threads.all fun t => t.1 / 32 != d || !t.2.busy)
      && (p.dsp.ctxs.all fun c => match c.2.unit with
          | some (.thread q _) => q != d
          | some (.pan n) => n != d
          | _ => true)
  else if d < 72 then (Engine.held (p.eng (d - 16))).isEmpty
  else if 116 ≤ d ∧ d < 120 then true
  else if d = 124 ∨ d = 125 then p.mir.link = 0
  else true

/-- MIRC without power (R620): the block at its reset values, both lines released; a session of the gate's holder is undone. -/
def mirLost : Part → Part :=
  pairWatch fun p => p.undoSession.modMir fun m => { out := m.out, pairEvent := true }

/-- NVM without power: its registers and the commands that wait; what the start has settled stays (R495, R512). -/
def nvmLost (p : Part) : Part :=
  p.modNvm fun n =>
    { n with normal := {}, secure := {}, queue := [], ownerProg := [], blSrc := 0, blLen := 0, blDst := 0, blTarget := 0, blHash := 0
             blBusy := false, blDone := false, blResult := 0 }

/-- DBG without power: its registers, the grant among them, which ends as under REVOKE (log entry 193); the TAP keeps its state. -/
def dbgLost (p : Part) : Part :=
  (p.endGrant 1).modDbg fun d =>
    { attached := d.attached, tapIr := d.tapIr, tapDr := d.tapDr, boundary := d.boundary, outputsOff := d.outputsOff
      boundReg := d.boundReg, scanOn := d.scanOn, scanActive := d.scanActive }

/-- What a domain loses when its power goes (R620, R624, R278, R314, R375, R611): `lost` says that operations end with
ENGINE_LOST, as in a trip. -/
def domLoses (d : Nat) (p : Part) : Part :=
  if d < 16 then
    let p := p.erasePan d 0x30 1
    let p := p.endHarvests (fun k => k / 32 == d) 0x30 1
    p.failUnits (fun u => match u with | .thread q _ => q == d | .pan n => n == d | _ => false) 0x30 1
  else if d < 72 then
    let e := d - 16
    (p.eraseEngine 0x30 (lostDetail e) e).failUnits
      (fun u => match u with | .rake n => n == e | .grainer n => n + 48 == e | _ => false) 0x30 (lostDetail e)
  else if d < 104 then
    p.bankLoses (d - 72)
  else if d < 112 then { p with opBuf := Mem.clear p.opBuf ((d - 104) * 0x400000) 0x400000 }
  else if 116 ≤ d ∧ d < 120 then p.ccHold (d - 116)
  else if d = 121 then p.entLost
  else if d = 124 then p.mirLost
  else if d = 126 then p.nvmLost
  else if d = 127 then p.dbgLost
  else if d = 128 then p.modEvr fun _ => { storeLost := true }
  else p

/-- A domain enters a state; entering OFF or returning from it is recorded. -/
def setDom (d : Nat) (st : DomState) (p : Part) : Part :=
  let old := (p.dom d).state
  if old = st then p
  else
    let p := p.modDom d fun m => { m with state := st }
    p.when (old == .off || st == .off)
      (wpuEvent 0x010 (at' (BitVec.ofNat 8 d) 0 ||| at' (domCode old) 8 ||| at' (domCode st) 10))

/-- The recorder's restart after its domain has lost power (R611, R620): everything at its reset value but STORE_LOST. -/
def evrRestart (p : Part) : Part := (p.modEvr fun _ => { storeLost := true }).post 0xE001#16 0 0

/-- An engine that has become usable takes the ENGX operations that wait in their threads (R293). -/
def engineBack (d : Nat) (p : Part) : Part := p.when (decide (16 ≤ d ∧ d < 72)) refill

/-- A demand wakes the domain (R620, R621, R626): its enables or its lease keep it in run and no trip holds it off. -/
def domWake (d : Nat) (p : Part) : Part :=
  let m := p.dom d
  if (m.en.run || m.lease) && !m.tripT && !m.tripV then
    let lost := m.state == .off
    ((p.setDom d .run).when (lost && d == 128) evrRestart).engineBack d
  else p

/-- The detail word of a request (R705). -/
def reqDetail (d : Nat) (e : Enables) : Word :=
  at' (BitVec.ofNat 8 d) 0 ||| bit' e.run 8 ||| bit' e.sleep 9 ||| bit' e.dsleep 10

/-- The enables of a domain that a value of the given kind may take (R622): RUN_EN 0, SLEEP_EN, DSLEEP_EN. -/
def domAccepts (p : Part) (d : Nat) : Enables :=
  let all : Enables := { run := true, sleep := true, dsleep := true }
  if d < 72 then all
  else if d < 112 then { all with run := false }
  else if d < 116 ∨ d = 126 then { run := false, sleep := true, dsleep := false }
  else if d < 120 then { run := true, sleep := true, dsleep := false }
  else if d = 121 then { run := true, sleep := false, dsleep := false }
  else if d = 124 ∨ d = 125 then { all with run := !p.mir.linkEn }
  else if d = 127 then all
  else { run := false, sleep := false, dsleep := false }

/-- A request has been deferred: GATE_DEFERRED in WMB_NOTICE, and the record (R430). -/
def deferred (d : Nat) (req : Enables) (p : Part) : Part :=
  (p.modSys fun s => { s with notice := s.notice ||| 0x20#7 }).wpuEvent 0x011 (reqDetail d req)

/-- A write of WPU_DOMd's enables (R611, R622, R625, R430, R431). -/
def domWrite (w : World) (d : Nat) (req : Enables) (p : Part) : Part :=
  let m := p.dom d
  let a := p.domAccepts d
  let badRun := !req.run && m.en.run && !a.run
  let badS := req.sleep && !a.sleep
  let badD := req.dsleep && !a.dsleep
  let got : Enables :=
    { run := if badRun then m.en.run else req.run, sleep := if badS then m.en.sleep else req.sleep
      dsleep := if badD then m.en.dsleep else req.dsleep }
  let p := p.when (badRun || badS || badD) (modDom d fun m => { m with refused := true })
  let p := p.when (badRun && d == 128) (post 0xE007#16 (bit' w.bit 0) 0)
  let p := p.when ((badRun && d != 128) || badS || badD) (wpuEvent 0x013 (reqDetail d req))
  let out := (!got.run && m.en.run) || (got.sleep && !m.en.sleep) || (got.dsleep && !m.en.dsleep)
  if w = .normal ∧ m.lease ∧ (out ∨ m.held.isSome) then
    if got.run && !got.sleep && !got.dsleep then p.modDom d fun m => { m with held := none, en := got }
    else
      (p.modDom d fun m => { m with held := some got }).deferred d got
  else (p.modDom d fun m => { m with en := got, secGate := w.bit && !got.run }).engineBack d

/-- A domain without SRAM arrays that DEEP_SLEEP keeps: it loses its logic state there (R620, R624). -/
def logicOnly (d : Nat) : Bool := decide (d < 72) || d == 124 || d == 127

/-- An idle domain that its enables let sleep enters SLEEP or DEEP_SLEEP; a leased domain stays in RUN (R621, R624, R625). -/
def domSleep (d : Nat) (deep : Bool) (p : Part) : Part :=
  let m := p.dom d
  let awake := m.state == .run || (deep && m.state == .sleep)
  let dozes := !(decide (116 ≤ d ∧ d < 120)) || (p.core (d - 116)).run == .doze
  if awake && m.en.run && m.en.sleep && (!deep || m.en.dsleep) && !m.lease && p.domIdle d && dozes then
    if deep then (p.when (logicOnly d) (domLoses d)).setDom d .deepSleep else p.setDom d .sleep
  else p

/-- A domain with RUN_EN 0 reaches its idle boundary (R621, R623, R624): it erases and goes OFF, unless a lease that the secure
world's own request does not lift keeps it in RUN. -/
def domBoundary (d : Nat) (p : Part) : Part :=
  let m := p.dom d
  if !m.en.run && (!m.lease || m.secGate) && m.state != .off && p.domIdle d then (p.domLoses d).setDom d .off else p

/-- A lease taken (R429, R651): a request that is carrying the domain towards an idle boundary is held as deferred. -/
def leaseTake (d : Nat) (p : Part) : Part :=
  let m := p.dom d
  if 130 < d ∨ m.lease then p
  else
    let pending := !m.en.run && m.state != .off
    let p := p.modDom d fun m =>
      { m with lease := true, secGate := false
               held := if pending then some m.en else m.held
               en := if pending then { run := true, sleep := false, dsleep := false } else m.en }
    (p.when pending (deferred d m.en)).domWake d

/-- A lease released: SEC's stays; a held request is written as if it had just arrived (R429, R431, R650). -/
def leaseGive (d : Nat) (p : Part) : Part :=
  let m := p.dom d
  if 130 < d ∨ d = 120 ∨ !m.lease then p
  else
    let p := p.modDom d fun m => { m with lease := false, held := none }
    match m.held with
    | some e => (p.domWrite .normal d e).wpuEvent 0x012 (reqDetail d e)
    | none => p

/-- The domains that a word of a domain bitmap names. -/
def domsOf (k : Nat) (v : Word) : List Nat := ((List.range 32).filter fun j => bitAt v j).map (32 * k + ·)

/-- A trip fires on a domain (R432, R626). -/
def tripDom (thermal : Bool) (d : Nat) (p : Part) : Part :=
  let p := p.modDom d fun m => if thermal then { m with tripT := true } else { m with tripV := true }
  (p.domLoses d).setDom d .off

/-- LEASE_BROKEN in WMB_NOTICE when a leased domain has tripped. -/
def leaseBroken (ds : List Nat) (p : Part) : Part :=
  p.when (ds.any fun d => (p.dom d).lease) (modSys fun s => { s with notice := s.notice ||| 0x40#7 })

/-- THERMAL_TRIP of an engine island (R626, R705). -/
def thermalTrip (i : Nat) (p : Part) : Part :=
  let ds := engineDoms i
  let p := ds.foldl (fun p d => p.tripDom true d) p
  (p.wpuEvent 0x014 (at' 0xFF#8 0 ||| at' (BitVec.ofNat 3 i) 16)).leaseBroken ds

/-- A domain with a voltage trip: all but SEC, HIFC, HIFP, FABN and FABS (R622). -/
def tripsVoltage (d : Nat) : Bool := decide (d ≤ 130) && !([120, 122, 123, 129, 130].contains d)

def voltageTrip (d : Nat) (p : Part) : Part :=
  if !tripsVoltage d then p
  else ((p.tripDom false d).wpuEvent 0x014 (at' (BitVec.ofNat 8 d) 0 ||| bit' true 8)).leaseBroken [d]

/-- A trip clears: the domain returns to RUN if it is leased or its RUN_EN is 1 (R626). -/
def untrip (thermal : Bool) (d : Nat) (p : Part) : Part :=
  (p.modDom d fun m => if thermal then { m with tripT := false } else { m with tripV := false }).domWake d

def thermalClear (i : Nat) (p : Part) : Part :=
  let ds := engineDoms i
  if ds.any fun d => (p.dom d).tripT then
    (ds.foldl (fun p d => p.untrip true d) p).wpuEvent 0x015 (at' 0xFF#8 0 ||| at' (BitVec.ofNat 3 i) 16)
  else p

def voltageClear (d : Nat) (p : Part) : Part :=
  if (p.dom d).tripV then (p.untrip false d).wpuEvent 0x015 (at' (BitVec.ofNat 8 d) 0 ||| bit' true 8) else p

/-! ### The control tick (R627 to R634) -/

def island (p : Part) (i : Nat) : Island := p.wpu.islands.get {} i

def modIsland (i : Nat) (g : Island → Island) (p : Part) : Part :=
  p.modWpu fun w => { w with islands := w.islands.upd {} i g }

/-- The temperature band of R631 with its hysteresis. -/
def bandOf (old : BitVec 2) (t : Int) : BitVec 2 :=
  let up := fun (q : Int) => if 4 * 105 ≤ q then 3 else if 4 * 95 ≤ q then 2 else if 4 * 85 ≤ q then 1 else 0
  let rise : Nat := up t
  let fall : Nat := up (t + 11)
  BitVec.ofNat 2 (if old.toNat ≤ rise then rise else min old.toNat fall)

/-- The thermal step of R632: it rises at its thresholds and falls one step after 10 ms (1,000 ticks) HYST below. -/
def thermalStep (c : WpuCfg) (t : Int) (m : Island) : Island :=
  let s1 : Int := 4 * c.step1.toNat
  let s2 : Int := 4 * c.step2.toNat
  let h : Int := 4 * c.hyst.toNat
  let want : Nat := if s2 ≤ t then 2 else if s1 ≤ t then 1 else 0
  if m.thermStep.toNat ≤ want then { m with thermStep := BitVec.ofNat 2 want, coolTicks := 0 }
  else
    let edge := if m.thermStep = 2 then s2 else s1
    if edge - h < t then { m with coolTicks := 0 }
    else if m.coolTicks + 1 < 1000 then { m with coolTicks := m.coolTicks + 1 }
    else { m with thermStep := m.thermStep - 1, coolTicks := 0 }

/-- The floor of an island (R636). -/
def floorOf (i : Nat) (m : Island) : Nat := Config.trimFloor i m.step + m.ageOffset.toNat

/-- The voltage loop of R629 on the smallest slack: the island after it, and whether it has reached its limit anew. -/
def slackLoop (c : WpuCfg) (i slack : Nat) (m : Island) : Island × Bool :=
  let fl := floorOf i m
  let m := { m with floor := BitVec.ofNat 10 fl, target := BitVec.ofNat 10 (min 830 (max m.target.toNat fl)) }
  if slack < c.slackLo.toNat then
    if 830 ≤ m.target.toNat then
      ({ m with cprLimit := true, cprStep := if m.cprStep = 2 then 2 else m.cprStep + 1, slackTicks := 0 }, true)
    else ({ m with target := BitVec.ofNat 10 (min 830 (m.target.toNat + 5)), slackTicks := 0 }, false)
  else if c.slackHi.toNat < slack then
    if m.slackTicks + 1 < 100 then ({ m with slackTicks := m.slackTicks + 1 }, false)
    else ({ m with target := BitVec.ofNat 10 (max fl (m.target.toNat - 5)), slackTicks := 0 }, false)
  else ({ m with slackTicks := 0 }, false)

/-- One island read at a tick: its three sensors, its band and thermal step, its voltage loop. -/
def tickIsland (slack : List Byte) (i : Nat) (p : Part) : Part :=
  let t := [0, 1, 2].foldl (fun (m : BitVec 12) k => let x := p.wpu.temps.get 0 (3 * i + k)
                                                     if m.toInt < x.toInt then x else m) (p.wpu.temps.get 0 (3 * i))
  let m := p.island i
  let c := p.wpu.st.eff
  let m := { m with temp := t, band := bandOf m.band t.toInt }
  let m := if i < 7 then thermalStep c t.toInt m else m
  let (m, lim) := slackLoop c i (slack.getD i 0).toNat m
  let p := p.modIsland i fun _ => m
  p.when lim (wpuEvent 0x022 (at' (BitVec.ofNat 3 i) 0))

/-- The engine island whose power step rises next: the highest-numbered at the fastest step (R633). -/
def fastest (p : Part) : Option Nat :=
  let low := (List.range 7).foldl (fun m i => min m (p.island i).step.toNat) 2
  if low = 2 then none else ((List.range 7).filter fun i => (p.island i).step.toNat == low).getLast?

/-- The power estimate of a tick (R633), in tenths of a watt. -/
def tickPower (power : BitVec 12) (p : Part) : Part :=
  let w := p.wpu
  let sum := w.pwrSum + power.toNat
  let full := w.pwrTicks + 1 == 100
  let mean := if full then sum / 100 else w.power.toNat
  let cap := 10 * w.st.eff.cap.toNat
  let low := if mean + 10 * w.st.eff.margin.toNat < cap then min 1000 (w.pwrLow + 1) else 0
  let p := p.modWpu fun w =>
    { w with power := BitVec.ofNat 12 mean, pwrSum := if full then 0 else sum, pwrTicks := if full then 0 else w.pwrTicks + 1
             pwrLow := low }
  if cap < mean then
    match p.fastest with
    | some i => p.modIsland i fun m => { m with powerStep := if m.powerStep = 2 then 2 else m.powerStep + 1 }
    | none => p
  else if low = 1000 then
    match (List.range 7).find? fun i => (p.island i).powerStep != 0 with
    | some i => p.modIsland i fun m => { m with powerStep := m.powerStep - 1 }
    | none => p
  else p

/-- The step of an engine island and the cause code of R705 (R634). -/
def decideStep (p : Part) (i : Nat) : BitVec 2 × BitVec 3 :=
  let m := p.island i
  let terms : List (BitVec 2) := [m.thermStep, m.powerStep, p.wpu.st.eff.caps.get 0 i, m.ageStep, m.cprStep]
  let forced := p.tmp.throttled || p.wpu.avsFault
  let top := terms.foldl (fun a b => if a.toNat < b.toNat then b else a) 0
  let s : BitVec 2 := if forced then 2 else if 2 < top.toNat then 2 else top
  let cause : Nat :=
    if s = 0 then 7
    else
      match (terms.zipIdx.find? fun x => decide (s.toNat ≤ x.1.toNat)) with
      | some x => x.2
      | none => if p.tmp.throttled then 5 else 6
  (s, BitVec.ofNat 3 cause)

/-- The command of VDD_CORE (R627): the highest island target plus 20 mV, up to a multiple of 5, within 550 to 850. -/
def vddWanted (p : Part) : Nat :=
  let top := (List.range 8).foldl (fun m i => max m (p.island i).target.toNat) 0
  max 550 (min 850 ((top + 20 + 4) / 5 * 5))

/-- The regulator has settled at the command that the targets ask for (R627, R628), or has passed it. -/
def vddSettled (p : Part) : Bool := !p.wpu.avsPending && decide (p.vddWanted ≤ p.wpu.avsGood.toNat)

/-- A step change (R630, R634): a step down takes effect at once; to step up, the target is raised to the new step's floor first, and
the divider changes at the first tick that finds the regulator settled. -/
def tickStep (i : Nat) (p : Part) : Part :=
  let m := p.island i
  let (s, cause) := p.decideStep i
  let fl := floorOf i { m with step := s }
  let q := p.when (decide (s.toNat < m.step.toNat))
    (modIsland i fun m => { m with target := BitVec.ofNat 10 (min 830 (max m.target.toNat fl)) })
  if s = m.step ∨ (s.toNat < m.step.toNat ∧ !q.vddSettled) then q
  else
    (q.modIsland i fun m => { m with step := s, floor := BitVec.ofNat 10 fl }).wpuEvent 0x020
      (at' (BitVec.ofNat 3 i) 0 ||| at' m.step 4 ||| at' s 6 ||| at' cause 8)

/-- VI7's ageing offset moves by 5 mV towards its plan at each tick (R636). -/
def tickAge7 (p : Part) : Part :=
  match (p.island 7).planned with
  | some (_, off, loss) =>
    let cur := (p.island 7).ageOffset
    if cur = off then
      (p.modIsland 7 fun m => { m with planned := none }).wpuEvent 0x030
        (7 ||| at' off 8 ||| at' loss 16)
    else
      p.modIsland 7 fun m =>
        { m with ageOffset := if cur.toNat < off.toNat then BitVec.ofNat 6 (min off.toNat (cur.toNat + 5))
                              else BitVec.ofNat 6 (max off.toNat (cur.toNat - 5)) }
  | none => p

/-- A command goes out over AVSBus where the last one that succeeded is another (R628), never before the PLL has locked (R501) nor
during AVS_FAULT. -/
def tickVdd (p : Part) : Part :=
  let v := p.vddWanted
  if p.wpu.avsFault || p.wpu.avsPending || !p.wpu.pllLocked || (p.wpu.command.toNat == v && p.wpu.avsGood.toNat == v) then p
  else p.modWpu fun w =>
    { w with command := BitVec.ofNat 10 v, avsPending := true, avsTries := 0, covered := (w.command, 5) :: w.covered }

/-- The commands before the present one that the window and band of R566 still cover: each for five ticks, 50 µs, once no command
is under way (log entry 192). -/
def tickCovered (w : Wpu) : List (BitVec 10 × Nat) :=
  if w.avsPending then w.covered else (w.covered.map fun c => (c.1, c.2 - 1)).filter fun c => c.2 != 0

/-- WPU_TICK: an accepted set takes effect (R638); then temperatures, slack, power, steps and the regulator command. -/
def wpuTick (temps : List (BitVec 12)) (slack : List Byte) (power : BitVec 12) (p : Part) : Part :=
  let p := p.modWpu fun w =>
    { w with st := w.st.apply, covered := tickCovered w
             temps := (List.range 24).foldl (fun t k => t.set 0 k (temps.getD k 0)) w.temps }
  let p := (List.range 8).foldl (fun p i => p.tickIsland slack i) p
  let p := p.tickPower power
  let p := (List.range 7).foldl (fun p i => p.tickStep i) p
  p.tickAge7.tickVdd

/-- AVS_READBACK (R628). -/
def avsReadback (answered : Bool) (mv : BitVec 10) (p : Part) : Part :=
  let w := p.wpu
  if !w.avsPending || w.avsFault then p
  else
    let near := decide (mv.toNat ≤ w.command.toNat + 15 ∧ w.command.toNat ≤ mv.toNat + 15)
    let p := p.when answered (modWpu fun w => { w with readback := mv })
    if answered && near then p.modWpu fun w => { w with avsGood := w.command, avsPending := false, avsTries := 0 }
    else if w.avsTries + 1 < 3 then p.modWpu fun w => { w with avsTries := w.avsTries + 1 }
    else
      (p.modWpu fun w => { w with avsFault := true, avsPending := false, avsTries := 0 }).wpuEvent 0x021
        (at' w.command 0 ||| (if answered then at' mv 10 else 0) ||| bit' (!answered) 20)

/-! ### Ageing (R636) -/

/-- Millivolts rounded up to a multiple of 5, of `num / den`. -/
def roundup5 (num den : Nat) : Nat := (num + 5 * den - 1) / (5 * den) * 5

/-- The offset a loss needs at a step. -/
def ageNeed (loss s : Nat) : Nat :=
  if s = 0 then roundup5 loss 1 else if s = 1 then roundup5 (3 * loss) 4 else roundup5 loss 2

/-- The plan of an island from its loss: step, offset, and whether the need passes 60 mV. -/
def agePlan (i : Nat) (m : Island) (loss : Nat) : Nat × Nat × Bool :=
  let s0 := m.ageStep.toNat
  let up := fun (s : Nat) => if 60 < ageNeed loss s ∧ i ≤ 6 ∧ s < 2 then s + 1 else s
  let s := up (up s0)
  let need := ageNeed loss s
  let off := min need 60
  (s, if s = s0 then max off m.ageOffset.toNat else off, decide (60 < need))

def ageDetail (i s off loss : Nat) : Word :=
  at' (BitVec.ofNat 3 i) 0 ||| at' (BitVec.ofNat 2 s) 4 ||| at' (BitVec.ofNat 6 off) 8 ||| at' (BitVec.ofNat 8 (min 255 loss)) 16

/-- One island's plan after a measurement. -/
def ageIsland (i : Nat) (p : Part) : Part :=
  let m := p.island i
  let raw := (List.range 8).foldl (fun a k => max a (p.wpu.hyd.get 0 (8 * i + k)).toNat) 0
  let loss := roundup5 raw 1
  let (s, off, limit) := agePlan i m loss
  let p :=
    if s = m.ageStep.toNat ∧ off = m.ageOffset.toNat then p
    else
      p.modIsland i fun m =>
        { m with planned := some (BitVec.ofNat 2 s, BitVec.ofNat 6 off, BitVec.ofNat 8 (min 255 loss)), drain := decide (i < 7) }
  p.when limit (wpuEvent 0x031 (ageDetail i s off loss))

/-- AGE_MEASURE: the 64 hydrometers read. -/
def ageMeasure (hyd : List (BitVec 12)) (p : Part) : Part :=
  let p := p.modWpu fun w => { w with hyd := (List.range 64).foldl (fun t k => t.set 0 k (hyd.getD k 0)) w.hyd }
  (List.range 8).foldl (fun p i => p.ageIsland i) p

/-- AGE_DRAIN_END: every domain of the island is at its idle boundary and the plan takes effect. -/
def ageDrainEnd (i : Nat) (p : Part) : Part :=
  match (p.island i).planned with
  | some (s, off, loss) =>
    if (p.island i).drain && (engineDoms i).all fun d => p.domIdle d then
      (p.modIsland i fun m => { m with ageStep := s, ageOffset := off, drain := false, planned := none }).wpuEvent 0x030
        (at' (BitVec.ofNat 3 i) 0 ||| at' s 4 ||| at' off 8 ||| at' loss 16)
    else p
  | none => p

/-- The check of R638. -/
def wpuConsistent (c : WpuCfg) : Bool :=
  decide (c.step1.toNat < c.step2.toNat ∧ c.step2.toNat ≤ 125 ∧ 40 ≤ c.cap.toNat ∧ c.cap.toNat ≤ 125)
    && decide (0 < c.margin.toNat ∧ c.margin.toNat < c.cap.toNat ∧ c.slackLo.toNat < c.slackHi.toNat)

/-- WPU_COMMIT (R638, R640). -/
def wpuCommit (p : Part) : Part :=
  p.modWpu fun w =>
    let ok := wpuConsistent w.st.stage
    { w with cfgMismatch := w.cfgMismatch || !ok, st := w.st.commit ok false }

end Part

/-! ### The meanings -/

/-- PLL_LOCK (R502). -/
def execPllLock (xin1 : Bool) (s : State) : Host.Outcome State Fault Refusal := onPart (Part.pllLock xin1) s
/-- XIN1_LOST (R615). -/
def execXin1Lost (s : State) : Host.Outcome State Fault Refusal := onPart Part.xin1Lost s
/-- XIN1_PRESENT (R616). -/
def execXin1Present (s : State) : Host.Outcome State Fault Refusal := onPart Part.xin1Present s
/-- RELOCK (R616). -/
def execRelock (s : State) : Host.Outcome State Fault Refusal := onPart Part.relock s
/-- RELOCK_END (R616). -/
def execRelockEnd (s : State) : Host.Outcome State Fault Refusal := onPart Part.relockEnd s
/-- XIN2_LOST (R617). -/
def execXin2Lost (s : State) : Host.Outcome State Fault Refusal := onPart Part.xin2Lost s
/-- XIN2_RETURN (R617). -/
def execXin2Return (s : State) : Host.Outcome State Fault Refusal := onPart Part.xin2Return s
/-- RTC_APPLY (R618). -/
def execRtcApply (s : State) : Host.Outcome State Fault Refusal := onPart Part.rtcApply s
/-- RTC_FRAC_READ (R618). -/
def execRtcFracRead (s : State) : Host.Outcome State Fault Refusal := onPart (fun p => Part.answer p.rtcFrac) s
/-- WPU_TICK (R629, R631 to R634): the 24 temperatures, the smallest slack of each island, the estimated power. -/
def execWpuTick (temps : List (BitVec 12)) (slack : List Byte) (power : BitVec 12) (s : State) :
    Host.Outcome State Fault Refusal := onPart (Part.wpuTick temps slack power) s
/-- AVS_READBACK (R628). -/
def execAvsReadback (answered : Bool) (mv : BitVec 10) (s : State) : Host.Outcome State Fault Refusal :=
  onPart (Part.avsReadback answered mv) s
/-- DOMAIN_ENABLE_WRITE (R622, R625). -/
def execDomainEnableWrite (w : World) (d : Fin 131) (run sleep dsleep : Bool) (s : State) :
    Host.Outcome State Fault Refusal := onPart (Part.domWrite w d.val { run := run, sleep := sleep, dsleep := dsleep }) s
/-- DOMAIN_IDLE_TIMEOUT (R621): IDLE_NS, or with `deep` DSLEEP_US, of idleness have passed. -/
def execDomainIdleTimeout (d : Fin 131) (deep : Bool) (s : State) : Host.Outcome State Fault Refusal :=
  onPart (Part.domSleep d.val deep) s
/-- DOMAIN_IDLE_BOUNDARY (R623, R624). -/
def execDomainIdleBoundary (d : Fin 131) (s : State) : Host.Outcome State Fault Refusal := onPart (Part.domBoundary d.val) s
/-- DOMAIN_WAKE (R620, R621). -/
def execDomainWake (d : Fin 131) (s : State) : Host.Outcome State Fault Refusal := onPart (Part.domWake d.val) s
/-- AGE_MEASURE (R636). -/
def execAgeMeasure (hyd : List (BitVec 12)) (s : State) : Host.Outcome State Fault Refusal := onPart (Part.ageMeasure hyd) s
/-- AGE_DRAIN_END (R636). -/
def execAgeDrainEnd (i : Fin 7) (s : State) : Host.Outcome State Fault Refusal := onPart (Part.ageDrainEnd i.val) s
/-- WPU_COMMIT (R638). -/
def execWpuCommit (s : State) : Host.Outcome State Fault Refusal := onPart Part.wpuCommit s
/-- LEASE_SET (R429, R625): word `k` of WPU_LEASE_SET. -/
def execLeaseSet (k : Fin 5) (v : Word) (s : State) : Host.Outcome State Fault Refusal :=
  onPart (fun p => (Part.domsOf k.val v).foldl (fun p d => p.leaseTake d) p) s
/-- LEASE_CLR (R429, R431, R650). -/
def execLeaseClr (k : Fin 5) (v : Word) (s : State) : Host.Outcome State Fault Refusal :=
  onPart (fun p => (Part.domsOf k.val v).foldl (fun p d => p.leaseGive d) p) s
/-- THERMAL_TRIP (R626). -/
def execThermalTrip (i : Fin 7) (s : State) : Host.Outcome State Fault Refusal := onPart (Part.thermalTrip i.val) s
/-- VOLTAGE_TRIP (R626). -/
def execVoltageTrip (d : Fin 131) (s : State) : Host.Outcome State Fault Refusal := onPart (Part.voltageTrip d.val) s
/-- TRIP_CLEAR (R626): the thermal trip of island `i`, or the voltage trip of domain `i`. -/
def execTripClear (thermal : Bool) (i : Fin 131) (s : State) : Host.Outcome State Fault Refusal :=
  onPart (if thermal then Part.thermalClear i.val else Part.voltageClear i.val) s

end Sys2Proof.Machine
end

