-- ==== Sys2Proof/Machine/Rakes.lean ====
section
/-! DEFINITION. Rakes and grainers (08_rakes_and_grainers.md): the operations of R286, their queues, starts and ends, release
checks, secure jobs, known-answer tests and retirement. Engine e is rake e below 48 and grainer e − 48 from 48 to 55. What an
operation computes is given by outside standards: RSA, ECDSA, ECDH and EdDSA stand in PublicKey.lean (log entry 145), ML-DSA, ML-KEM and
SLH-DSA in Config (log entry 4). -/

namespace Sys2Proof.Machine

/-! ### The op codes (R284, R286, R322, R323) -/

namespace Pk

abbrev rsaSign : Nat := 0x000
abbrev rsaVerify : Nat := 0x001
abbrev oaepDec : Nat := 0x002
abbrev ecSign : Nat := 0x040
abbrev ecVerify : Nat := 0x041
abbrev ecDh : Nat := 0x042
abbrev edSign : Nat := 0x048
abbrev edVerify : Nat := 0x049
abbrev mldsaSign : Nat := 0x080
abbrev mldsaVerify : Nat := 0x081
abbrev mlkemEnc : Nat := 0x088
abbrev mlkemDec : Nat := 0x089
abbrev slhFors : Nat := 0x090
abbrev slhLayer : Nat := 0x091
abbrev slhVerify : Nat := 0x092

/-- The op codes of R286. -/
def isOp (m : Nat) : Bool :=
  [rsaSign, rsaVerify, oaepDec, ecSign, ecVerify, ecDh, edSign, edVerify, mldsaSign, mldsaVerify, mlkemEnc, mlkemDec, slhFors,
    slhLayer, slhVerify].contains m

/-- A grainer runs it: mode [8:6] is 0b010. -/
def grainer (m : Nat) : Bool := m / 64 == 2

def verifies (m : Nat) : Bool := [rsaVerify, ecVerify, edVerify, mldsaVerify, slhVerify].contains m
/-- Operations whose public output passes a release check (R308). -/
def signs (m : Nat) : Bool := [rsaSign, ecSign, edSign, mldsaSign, slhFors, slhLayer].contains m

/-- The handle class of K (R286). -/
def hclass (m : Nat) : BitVec 4 :=
  if [rsaSign, oaepDec, ecSign, ecDh, edSign].contains m then 2
  else if [mldsaSign, mlkemDec, slhFors, slhLayer].contains m then 4
  else 3

/-- The usage bit that the operation needs (R323). -/
def usage (m : Nat) : BitVec 16 :=
  if verifies m then 0x0100
  else if m = oaepDec then 0x0020
  else if [ecDh, mlkemEnc, mlkemDec].contains m then 0x0200
  else 0x0080

/-- The key algorithms of the operation's family (R284, R292, R322). -/
def family (m alg : Nat) : Bool :=
  if m ≤ 2 then alg == 0x20
  else if m = ecSign ∨ m = ecVerify then within alg 0x30 0x33
  else if m = ecDh then within alg 0x30 0x33 || alg == 0x3A || alg == 0x3B
  else if m = edSign ∨ m = edVerify then alg == 0x38 || alg == 0x39
  else if m = mldsaSign ∨ m = mldsaVerify then within alg 0x40 0x43
  else if m = mlkemEnc ∨ m = mlkemDec then within alg 0x48 0x4B
  else within alg 0x50 0x56

/-- The bit of CURVE_EN of an algorithm: P-256, P-384, P-521, Ed25519, Ed448, X25519, X448. -/
def curveBit (alg : Nat) : Nat := if alg < 0x38 then alg - 0x30 else alg - 0x38 + 3
/-- The bit of SET_EN. -/
def setBit (alg : Nat) : Nat := if alg < 0x48 then alg - 0x40 else if alg < 0x50 then alg - 0x48 + 3 else alg - 0x50 + 6

/-- n, the octets of a hash in the SLH-DSA sets 128s, 128f, 192s, 192f, 256s, 256f (FIPS 205), with the trees k, the height a,
the layers d and the layer height h'. -/
def slh (alg : Nat) : Nat × Nat × Nat × Nat × Nat :=
  match alg with
  | 0x50 => (16, 14, 12, 7, 9) | 0x51 => (16, 33, 6, 22, 3) | 0x52 => (24, 17, 14, 7, 9) | 0x53 => (24, 33, 8, 22, 3)
  | 0x54 => (32, 22, 14, 8, 8) | _ => (32, 35, 9, 17, 4)

/-- The octets of an ECDSA signature: r then s (R285). -/
def ecSig (alg : Nat) : Nat := if alg = 0x30 then 64 else if alg = 0x31 then 96 else 132

/-- The octets of the public output (R285, R286). -/
def outLen (m alg limbs : Nat) : Nat :=
  if m = rsaSign then 8 * limbs
  else if m = ecSign then ecSig alg
  else if m = edSign then (if alg = 0x38 then 64 else 114)
  else if m = mldsaSign then (if alg = 0x40 then 2420 else if alg = 0x41 then 3309 else 4627)
  else if m = mlkemEnc then (if alg = 0x48 then 768 else if alg = 0x49 then 1088 else 1568)
  else if m = slhFors then (let (n, k, a, _, _) := slh alg; n + k * (a + 1) * n)
  else if m = slhLayer then (let (n, _, _, _, h) := slh alg; (2 * n + 3 + h) * n)
  else 0

/-- The octets of the shared secret or root (R286, R287). -/
def secretLen (m alg : Nat) : Nat :=
  if m = ecDh then
    (if alg = 0x30 then 32 else if alg = 0x31 then 48 else if alg = 0x32 then 66 else if alg = 0x3A then 32 else 56)
  else if m = mlkemEnc ∨ m = mlkemDec then 32
  else if m = slhFors ∨ m = slhLayer then (slh alg).1
  else 0

/-- The digest octets of DIGEST in word 3. -/
def digestLen (w3 : Word) : Nat := if fld w3 6 2 = 0 then 32 else if fld w3 6 2 = 1 then 48 else 64

/-- The fresh octets that an operation draws (R302): nonces, the PSS salt, rnd, m, the SLH-DSA randomiser. Secure jobs
(0x1C0 + KIND) draw 64. -/
def freshLen (m alg : Nat) (w3 : Word) : Nat :=
  if m = rsaSign then (if fld w3 4 2 = 1 then digestLen w3 else 0)
  else if [ecSign, edSign, mldsaSign, mlkemEnc].contains m then 32
  else if m = slhFors then (slh alg).1
  else if 0x1C0 ≤ m ∧ m ≠ 0x1C3 then 64
  else 0

/-- Octets cut or zero-extended to a length. -/
def fit (n : Nat) (bs : List Byte) : List Byte := (Crypto.padR n bs).take n

/-! ### What an operation computes (R285, R303, R305, R335)

The arguments are the op code, ALG and MOD_LIMBS of the key, its octets and the two inputs, and word 3 of the operand map. -/

/-- A modulus and public exponent that R305 admits. -/
def rsaOk (e n : Nat) : Bool := n % 2 == 1 && e % 2 == 1 && decide (3 ≤ e)

/-- The octets of a signature of an algorithm (R285). -/
def sigLen (alg : Nat) : Nat :=
  if alg < 0x38 then ecSig alg
  else if alg < 0x40 then outLen edSign alg 0
  else if alg < 0x48 then outLen mldsaSign alg 0
  else outLen slhFors alg 0 + (slh alg).2.2.2.1 * outLen slhLayer alg 0

/-- The octets of an ML-KEM encapsulation key. -/
def kemKeyLen (alg : Nat) : Nat := if alg = 0x48 then 800 else if alg = 0x49 then 1184 else 1568

/-- The validation of R305; an operand the operation takes may not be empty. -/
def valid (m alg limbs : Nat) (ins : List (List Byte)) (w : Nat) : Bool :=
  let mat := ins.getD 0 []
  let in1 := ins.getD 1 []
  let in2 := ins.getD 2 []
  let k := 8 * limbs
  let r := Standard.rsaPrivate limbs mat
  let u := Standard.rsaPublic mat
  let dig := (Standard.digestCode (w / 64 % 4)).2
  let c := Standard.curveOf alg
  let ed := Standard.edOf alg
  match m with
  | 0x000 => rsaOk r.e (r.p * r.q) && in1.length == dig
  | 0x001 => rsaOk u.1 u.2 && in1.length == dig && in2.length == k && decide (ofBe in2 < u.2)
  | 0x002 => rsaOk r.e (r.p * r.q) && in1.length == k && decide (ofBe in1 < r.p * r.q)
  | 0x040 => within in1.length 20 65
  | 0x041 => within in1.length 20 65 && Standard.ecSigOk c in2
  | 0x042 =>
    if alg < 0x38 then (Standard.decodePoint c in1).isSome
    else if alg = 0x3A then in1.length == 32 && (Standard.x25519 (mat.take 32) in1).any (· != 0)
    else in1.length == 56 && (Standard.x448 (mat.take 56) in1).any (· != 0)
  | 0x048 => in1 != []
  | 0x049 => in1 != [] && Standard.edSigOk ed (mat.take ed.len) in2
  | 0x080 => in1.length == 64
  | 0x081 => in1.length == 64 && in2.length == sigLen alg
  | 0x088 => Standard.kemModulusOk (mat.take (kemKeyLen alg))
  | 0x089 => in1.length == outLen mlkemEnc alg 0
  | 0x091 => in1.length == (slh alg).1
  | 0x092 => in1 != [] && in2.length == sigLen alg
  | _ => in1 != []

/-- The verdict of a verifying operation. -/
def verdict (m alg limbs : Nat) (ins : List (List Byte)) (w : Nat) : Bool :=
  let mat := ins.getD 0 []
  let in1 := ins.getD 1 []
  let in2 := ins.getD 2 []
  let c := Standard.curveOf alg
  let ed := Standard.edOf alg
  if m = rsaVerify then Standard.rsaVerify limbs (w / 16 % 4) (w / 64 % 4) mat in1 in2
  else if m = ecVerify then
    match Standard.decodeXY c (mat.take (2 * c.len)) with
    | some Q => Standard.ecVerify c Q in1 in2
    | none => false
  else if m = edVerify then Standard.edVerify ed (mat.take ed.len) in1 in2
  else Config.pkVerify m alg limbs ins w

/-- The public output of an operation, with the fresh octets drawn. Where a modulus is too short for its padding and digest, the
output is free. -/
def output (m alg limbs : Nat) (ins : List (List Byte)) (w : Nat) (rnd : List Byte) : List Byte :=
  let mat := ins.getD 0 []
  let in1 := ins.getD 1 []
  let c := Standard.curveOf alg
  let ed := Standard.edOf alg
  if m = rsaSign then
    let k := Standard.rsaPrivate limbs mat
    let bits := (k.p * k.q).log2
    if Standard.rsaRoom (8 * limbs) bits (w / 16 % 4) (w / 64 % 4) then
      beBytes (8 * limbs) (Standard.rsaCrt k (ofBe (Standard.rsaEncode (8 * limbs) bits (w / 16 % 4) (w / 64 % 4) in1 rnd)))
    else Config.pkOut m alg limbs ins w rnd
  else if m = ecSign then Standard.ecSign c (ofBe (mat.take c.len)) in1 rnd
  else if m = edSign then Standard.edSign ed (mat.take ed.len) rnd in1
  else Config.pkOut m alg limbs ins w rnd

/-- The shared secret, the recovered key (empty where OAEP decoding fails), or the root of an operation. -/
def secret (m alg limbs : Nat) (ins : List (List Byte)) (w : Nat) (rnd : List Byte) : List Byte :=
  let mat := ins.getD 0 []
  let in1 := ins.getD 1 []
  let c := Standard.curveOf alg
  if m = oaepDec then
    (Standard.oaep (w / 64 % 4) (beBytes (8 * limbs) (Standard.rsaCrt (Standard.rsaPrivate limbs mat) (ofBe in1)))).getD []
  else if m = ecDh then
    if alg = 0x3A then Standard.x25519 (mat.take 32) in1
    else if alg = 0x3B then Standard.x448 (mat.take 56) in1
    else
      match Standard.decodePoint c in1 with
      | some Q => Standard.ecdh c (ofBe (mat.take c.len)) Q
      | none => []
  else Config.pkSecret m alg limbs ins w rnd

/-- A part of a chain, zero-filled to whole slots (R335). -/
def slotted (bs : List Byte) : List Byte := fit (32 * ((bs.length + 31) / 32)) bs

/-- The octets of an ML-DSA or ML-KEM public key. -/
def latticeLen (alg : Nat) : Nat :=
  match alg with | 0x40 => 1312 | 0x41 => 1952 | 0x42 => 2592 | 0x48 => 800 | 0x49 => 1184 | _ => 1568

/-- The public key of an ML-DSA or ML-KEM private seed. -/
def latticeKey (alg : Nat) (seed : List Byte) : List Byte := fit (latticeLen alg) (Config.latticePublic alg seed)

/-- A generated key pair in the layout of R335, the material of the private chain and then of the public one, 32 octets a slot (R311):
KIND, PARAM, fresh octets. How the primes and the private octets come from the random octets is not in the spec. -/
def keygen (kind param : Nat) (rnd : List Byte) : List Byte :=
  let free := Config.keygen kind param rnd
  if kind = 1 then
    let ps := Config.rsaPrimes param rnd
    let k := Standard.rsaPair param ps.1 ps.2
    k.1 ++ k.2
  else if kind = 2 then
    if param < 3 then
      let c := Standard.curveOf (0x30 + param)
      let d := 1 + ofBe free % (c.n - 1)
      slotted (beBytes c.len d) ++ slotted (Standard.ecPublic c d)
    else if param < 5 then
      let c := Standard.edOf (0x35 + param)
      slotted (fit c.len free) ++ slotted (Standard.edPublic c (fit c.len free))
    else if param = 5 then fit 32 free ++ Standard.x25519 (fit 32 free) (9 :: List.replicate 31 0)
    else slotted (fit 56 free) ++ slotted (Standard.x448 (fit 56 free) (5 :: List.replicate 55 0))
  else if kind = 4 then
    let seed := fit 32 rnd
    let pk := latticeKey (0x40 + param) seed
    seed ++ pk ++ Crypto.digest 9 64 pk ++ pk
  else
    let seed := fit 64 rnd
    let ek := latticeKey (0x48 + param) seed
    seed ++ ek ++ Crypto.digest 5 32 ek ++ ek

/-- A release check fails: the comparison of R308, or for an ML-DSA signature the public key of the chain that is not the one its seed
gives (R335). -/
def releaseFails (m alg : Nat) (mat : List Byte) (check : Bool) : Bool :=
  check || (m == mldsaSign && (mat.drop 32).take (latticeLen alg) != latticeKey alg (mat.take 32))

end Pk

namespace Part

/-! ### Queues (R127, R293, R297) -/

/-- The class of an engine is a grainer. -/
def isGrainer (e : Nat) : Bool := decide (48 ≤ e)

/-- DEPTH_MAX in effect of an engine's block. -/
def depthMax (p : Part) (e : Nat) : Nat := if isGrainer e then p.rke.grn.st.eff.toNat else p.rke.rke.st.eff.toNat

/-- The operation an engine takes next from its queue under R113 (R297), with the rest and the order it leaves: the oldest of the
class and tenant whose turn it is. -/
def takeNext (c : DspCfg) (share : Nat → Nat) (a : Arb) (q : List EngOp) : Option (EngOp × List EngOp × Arb) :=
  (a.pick (q.map fun o => (o.cls.toNat, o.fn)) (classWeight c) share).bind fun ((k, f), a) =>
    (q.find? fun o => o.cls.toNat == k && o.fn == f).map fun o => (o, q.erase o, a)

/-- What engine `e` takes next. -/
def engNext (p : Part) (e : Nat) : Option (EngOp × List EngOp × Arb) :=
  takeNext (p.dspOf (engKey e)) p.shareOf (p.eng e).arb (p.eng e).queue

/-! ### The request of a harvest that an operation answers (R126) -/

def thread (p : Part) (k : Nat) : Thread := p.seq.threads.get {} k

def modThread (k : Nat) (g : Thread → Thread) (p : Part) : Part :=
  p.modSeq fun s => { s with threads := s.threads.upd {} k g }

/-- Request `id` of thread `k` changed. -/
def modReq (k id : Nat) (g : EngReq → EngReq) (p : Part) : Part :=
  p.modThread k fun t => { t with reqs := t.reqs.map fun r => if r.id = id then g r else r }

/-! ### The end of an operation -/

/-- The data area of a context in the operation buffer (R92). -/
def dataArea (n : Nat) : Nat := 512 * n + 128

/-- Octets of a context's data area. -/
def ctxData (p : Part) (n off len : Nat) : List Byte := p.opBuf.read ram (dataArea n + off) len

/-- Octets written into a context's data area. -/
def putData (n off : Nat) (bs : List Byte) (p : Part) : Part := p.writeOb (dataArea n + off) bs

/-- Octets at an offset of a scatter-gather list: the host addresses they go to, piece by piece (R94, R96). -/
def listWrites : List (BitVec 64 × Nat) → Nat → List Byte → List (BitVec 64 × List Byte)
  | [], _, _ => []
  | (a, len) :: es, off, bs =>
    if bs = [] then []
    else if len ≤ off then listWrites es (off - len) bs
    else
      let m := min (len - off) bs.length
      (a + BitVec.ofNat 64 off, bs.take m) :: listWrites es 0 (bs.drop m)

/-- Octets written to the output list of a context, counted in OUT_COUNT. -/
def putList (n off : Nat) (bs : List Byte) (p : Part) : Part :=
  let c := p.ctx n
  let ms := match c.lists with | some (_, o) => listWrites o off bs | none => []
  (ms.foldl (fun p m => p.issueWrite c.fn m.1 m.2) p).modCtx n fun c => { c with outList := c.outList + bs.length }

/-- A single primitive ends with public output: inline in RESULT, in the data area for OUT_ADDR, or in the output list
(R92, R98, R246). -/
def finishOut (n : Nat) (bs : List Byte) (p : Part) : Part :=
  let c := p.ctx n
  if c.outPtr.isSome then (p.putData n 0 (bs.take 384)).finish n 0 0 [] (BitVec.ofNat 32 bs.length)
  else if c.sglOut.2 ≠ 0 then (p.putList n 0 bs).finish n 0 0 [] (BitVec.ofNat 32 bs.length)
  else p.finish n 0 0 (bs.take 16) 0

/-- The tags of the sealed registers that receive `bs` from sd on (R286, R287): 16 octets each. -/
def landTags (sd : Nat) (colour : BitVec 12) (cls : BitVec 3) (release : Bool) (ksrc : BitVec 3) (bs : List Byte) :
    List (Nat × SReg) :=
  (Crypto.pieces 16 bs).zipIdx.map fun x =>
    (sd + x.2, { val := BitVec.ofNat 128 (ofBe (Crypto.padR 16 x.1)), colour := colour, cls := cls, release := release
                 len := BitVec.ofNat 5 x.1.length, ksrc := ksrc })

/-- What an operation that has ended well leaves in a harvest's request. -/
def reqResult (r : Running) (out secret : List Byte) (q : EngReq) : EngReq :=
  let o := r.op
  let m := o.mode.toNat
  let kd : BitVec 3 := 0b100#3 ||| BitVec.ofNat 3 o.field
  let regs :=
    if Pk.verifies m then []
    else if m = Pk.oaepDec then
      if secret = [] then landTags o.sd o.colour 2 false 0 (List.replicate 16 0) else landTags o.sd o.colour 2 false kd secret
    else if m = Pk.slhFors ∨ m = Pk.slhLayer then landTags o.sd o.colour 0 false 0 secret
    else if Pk.signs m then landTags o.sd o.colour 0 true 0 (out.take 16)
    else landTags o.sd o.colour 2 false kd secret
  { q with
    ready := true, dest := regs
    window := match o.outPos with | some off => if bitAt o.word3 2 then [] else [(off, out)] | none => []
    listOut := match o.outPos with | some off => if bitAt o.word3 2 then some (off, out) else none | none => none }

/-- An operation ends with a verdict. -/
def endVerdict (r : Running) (v : Bool) (p : Part) : Part :=
  match r.op.owner with
  | .ctx n => p.finish n (if v then 0 else 1) 0 [] 0
  | .thread k id => p.modReq k id fun q => { q with ready := true, verdict := some (v, 0) }
  | .job _ | .gone => p

/-- An operation ends with its output. -/
def endOutput (r : Running) (out secret : List Byte) (p : Part) : Part :=
  match r.op.owner with
  | .ctx n => p.finishOut n out
  | .thread k id => p.modReq k id (reqResult r out secret)
  | .job _ | .gone => p

/-- An operation ends without result: `det` is the detail a single primitive carries, `hdet` that of a harvest. -/
def endFail (o : EngOp) (status det hdet : Byte) (p : Part) : Part :=
  match o.owner with
  | .ctx n => p.fail n status det
  | .thread k id => p.modReq k id fun q => { q with ready := true, fail := some (status, hdet) }
  | .gone => p
  | .job j =>
    p.modRke fun r =>
      { r with jobs := r.jobs.upd {} j fun x => if x.busy then { x with busy := false, done := true, result := status } else x }

/-- The engine clears its working state and counts the operation (R295). -/
def engineFree (e : Nat) (p : Part) : Part :=
  (p.modEng e fun x => { x with cur := none, ops := x.ops + 1 }).refill

/-- A grainer's event counters stop at 0x3FF, a rake's at 0xFFFF. -/
def satTo (e : Nat) (v : BitVec 16) : BitVec 16 := if isGrainer e && v == 0x3FF#16 then v else satInc v

/-! ### Starts (R294, R297, R304, R321) -/

/-- The algorithm and limits checks of a key for an operation (R283, R284, R292). -/
def pkAlgOk (p : Part) (m : Nat) (s : Slot) : Bool :=
  let alg := s.alg.toNat
  let c := p.nvm.charter
  Pk.family m alg
    && (if alg = 0x20 then decide (max 8 c.minModLimbs.toNat ≤ s.modLimbs.toNat ∧ s.modLimbs.toNat ≤ 256)
        else if alg < 0x40 then bitAt c.curveEn (Pk.curveBit alg) else bitAt c.setEn (Pk.setBit alg))

/-- The key read and attribute checks of an operation: what ends it, or the slots of its chain. -/
def opKey (o : EngOp) (p : Part) : Except (Byte × Byte) (List Slot) × Part :=
  let m := o.mode.toNat
  let job := decide (0x1C0 ≤ m)
  let colour := if job then (p.slot (hIndex o.handle)).colour else o.colour
  match p.slotRead o.handle colour (if job then [2] else [Pk.hclass m]) with
  | (.error e, p) => (.error e, p)
  | (.ok ss, p) =>
    match ss.head? with
    | some s =>
      match p.useCheck s (if job then p.pkAlgOk Pk.rsaSign s else p.pkAlgOk m s) (if job then 0 else Pk.usage m) with
      | some e => (.error e, p)
      | none => (.ok ss, p)
    | none => (.error (0x11, 1), p)

/-- The operation needs a key read: every op of R286 and the RSA check (R294, R312). -/
def readsKey (o : EngOp) : Bool := decide (o.mode.toNat < 0x1C0) || o.mode == 0x1C3#9

/-- The detail octet of a failure on a handle field. -/
def keyDetail (reason : Byte) (field : Nat) : Byte := (reason <<< 4) ||| BitVec.ofNat 8 field

/-- An operation taken from the queue: its key read and checked, its fresh octets drawn, or parked to wait for them. From here on
the context of a single primitive is running (R69). -/
def beginOp (e : Nat) (o : EngOp) (p : Part) : Part :=
  let go := fun (ss : List Slot) (p : Part) =>
    let p := match o.owner with | .ctx n => p.modCtx n fun c => { c with state := .running } | _ => p
    let s := ss.head?.getD (Slc.emptySlot 0)
    let r : Running := { op := o, mat := ss.flatMap Slot.mat, w0 := s.w0, w1 := s.w1, w3 := s.w3 }
    let n := Pk.freshLen o.mode.toNat s.alg.toNat o.word3
    if n = 0 then p.modEng e fun x => { x with cur := some r }
    else
      match (p.modEnt (Ent.dropOwn (16 + e))).entDrawOn (16 + e) .fresh 32 n with
      | (some bs, p) => p.modEng e fun x => { x with cur := some { r with rnd := bs } }
      | (none, p) => p.modEng e fun x => { x with parked := some r }
  if readsKey o then
    match p.opKey o with
    | (.ok ss, p) => go ss p
    | (.error (st, why), p) =>
      let d := keyDetail why o.field
      (p.endFail o st d d).engineFree e
  else go [] p

/-- ENGINE_OP_START: a parked operation whose randomness has come runs first; else the next operation of the queue, one that
needs no fresh randomness while another is parked (R304). A read that the Cellar holds back starts nothing (R334, R337). -/
def opStart (e : Nat) (p : Part) : Part :=
  let x := p.eng e
  if x.cur.isSome || !p.engineUp e then p
  else
    match x.parked with
    | some r =>
      match p.entDrawOn (16 + e) .fresh 32 (Pk.freshLen r.op.mode.toNat (fld r.w0 24 8).toNat r.op.word3) with
      | (some bs, p) => p.modEng e fun x => { x with cur := some { r with rnd := bs }, parked := none }
      | (none, p) =>
        let plain : EngOp → Bool := fun o =>
          Pk.freshLen o.mode.toNat (p.slot (hIndex o.handle)).alg.toNat o.word3 == 0
        match p.engNext e with
        | some (o, rest, a) =>
          if !plain o || (readsKey o && p.cellarWaits o.handle) then p
          else ((p.modEng e fun x => { x with queue := rest, arb := a }).beginOp e o).refill
        | none => p
    | none =>
      match p.engNext e with
      | some (o, rest, a) =>
        if readsKey o && p.cellarWaits o.handle then p
        else ((p.modEng e fun x => { x with queue := rest, arb := a }).beginOp e o).refill
      | none => p

/-- ENGINE_OP_END: the operation running on an engine ends (R305 to R309). `releaseFail` says that a release check failed,
which in program 0x0130 ends with the engine's own detail (R248); `rejected` that the 64 attempts of an ML-DSA signature in a harvest were all rejected (R299). -/
def opEnd (e : Nat) (releaseFail rejected : Bool) (p : Part) : Part :=
  match (p.eng e).cur with
  | none => p
  | some r =>
    let o := r.op
    let m := o.mode.toNat
    let alg := (fld r.w0 24 8).toNat
    let limbs := (fld r.w3 16 9).toNat
    let w := o.word3.toNat
    let ins := [r.mat, o.in1, o.in2]
    let harvest : Bool := match o.owner with | .thread _ _ => true | _ => false
    let hybrid : Bool := match o.owner with | .thread k _ => (p.thread k).program == 0x0130 | _ => false
    if 0x1C0 ≤ m then p
    else if !Pk.valid m alg limbs ins w then
      ((p.modEng e fun x => { x with bnInvalid := satTo e x.bnInvalid }).endFail o 0x20 0 0).engineFree e
    else if Pk.verifies m then (p.endVerdict r (Pk.verdict m alg limbs ins w)).engineFree e
    else if m == Pk.mldsaSign && rejected && harvest then
      ((p.modEng e fun x => { x with attemptCap := satInc x.attemptCap }).endFail o 0x30 3 3).engineFree e
    else if Pk.signs m && Pk.releaseFails m alg r.mat releaseFail then
      let p := (p.endFail o 0x30 (lostDetail e) (if hybrid then lostDetail e else 4)).engineFree e
      let p := p.modEng e fun x => { x with releaseFail := satTo e x.releaseFail, katRun := true }
      if isGrainer e then p.post 0x7001#16 (BitVec.ofNat 32 (e - 48)) 0 else p.post 0x6001#16 (BitVec.ofNat 32 e) 0
    else
      let out := Pk.fit (Pk.outLen m alg limbs) (Pk.output m alg limbs ins w r.rnd)
      let sec := Pk.secret m alg limbs ins w r.rnd
      let sec := if m = Pk.oaepDec then (if sec = [] then [] else Pk.fit (if sec.length ≤ 16 then 16 else 32) sec)
                 else Pk.fit (Pk.secretLen m alg) sec
      (p.endOutput r out sec).engineFree e

/-! ### Secure jobs (R311, R312) -/

/-- PARAM is one that R312 lists, and what it names is enabled and large enough. -/
def jobParamOk (p : Part) (kind param : Nat) : Bool :=
  let c := p.nvm.charter
  match kind with
  | 1 => decide (8 ≤ param ∧ param ≤ 256 ∧ param % 2 = 0 ∧ c.minModLimbs.toNat ≤ param)
  | 2 => decide (param ≤ 6) && bitAt c.curveEn param
  | 3 => param == 0
  | 4 => decide (param ≤ 2) && bitAt c.setEn param
  | 5 => decide (param ≤ 2) && bitAt c.setEn (param + 3)
  | _ => false

/-- GO of a job slot: ignored while BUSY; ended at once with BAD_DESCRIPTOR under R312; else queued on its engine. Slot j is
0 to 3 of RKE or 4 to 7 of GRN. A named engine that has no power or is retired ends it with ENGINE_LOST. -/
def jobGo (j : Nat) (engine : BitVec 6) (kind : BitVec 4) (param : BitVec 16) (p : Part) : Part :=
  let x := p.rke.jobs.get {} j
  if x.busy then p
  else
    let grn := decide (4 ≤ j)
    let e := if grn then 48 + engine.toNat % 8 else engine.toNat
    let p := p.modRke fun r =>
      { r with jobs := r.jobs.upd {} j fun x => { x with engine := engine, kind := kind, param := param } }
    let stop := fun (st : Byte) (p : Part) =>
      p.modRke fun r => { r with jobs := r.jobs.upd {} j fun x => { x with done := true, result := st } }
    let kindOk := if grn then kind == 4 || kind == 5 else kind == 1 || kind == 2 || kind == 3
    if !kindOk || !p.jobParamOk kind.toNat param.toNat || (!grn && decide (48 ≤ e)) then stop 0x10 p
    else if !p.engineUp e then stop 0x30 p
    else
      (p.modRke fun r => { r with jobs := r.jobs.upd {} j fun x => { x with busy := true } }).enqueue e
        { owner := .job j, cls := 0, mode := 0x1C0#9 + kind.setWidth 9, param := param, handle := x.addr, colour := 0xFFF }

/-- The engine that runs secure job `j`. -/
def jobEngine (p : Part) (j : Nat) : Option (Nat × Running) :=
  (List.range 56).findSome? fun e =>
    match (p.eng e).cur with
    | some r => if r.op.owner = .job j then some (e, r) else none
    | none => none

/-- SJOB_DONE: the job running on its engine ends, writes its result at the short address that GO found in ADDR and sets DONE. The
engine holds the job's operands, which later writes of the slot's registers do not change. -/
def jobDone (j : Nat) (p : Part) : Part :=
  match p.jobEngine j with
  | none => p
  | some (e, r) =>
    let kind := r.op.mode.toNat - 0x1C0
    let st : Byte := if kind = 3 then (if Standard.rsaConsistent (fld r.w3 16 9).toNat r.mat then 0 else 1) else 0
    let p :=
      if kind = 3 then p
      else p.writePriv (r.op.handle.toNat % 0x200000) (Pk.keygen kind r.op.param.toNat r.rnd)
    (p.modRke fun r =>
      { r with jobs := r.jobs.upd {} j fun x => { x with busy := false, done := true, result := st } }).engineFree e

/-! ### Known-answer tests and retirement (R309, R314, R513) -/

/-- The KAT record of the start-up log (R519), while the start runs. -/
def katRecord (block index : Nat) (failed : Bool) (p : Part) : Part :=
  p.when (p.sys.mode == .wake || p.sys.mode == .assay)
    (post 0x001A#16 (at' (BitVec.ofNat 4 block) 0 ||| at' (BitVec.ofNat 8 index) 8 ||| bit' failed 16) 0)

/-- A queued operation of a retired engine is placed again (R112, R314): a single primitive goes back to its context, an ENGX
to another engine; a secure job names its engine and ends. -/
def replaceOp (o : EngOp) (p : Part) : Part :=
  match o.owner with
  | .ctx n => p.modCtx n fun c => { c with state := .held, unit := none }
  | .thread _ _ | .gone => p.sendOp o
  | .job _ => p.endFail o 0x30 0 0

/-- An engine retired (R314): `cause` is 0 for a failed test, 1 for a write of RETIRE. -/
def engineRetire (cause : BitVec 2) (e : Nat) (p : Part) : Part :=
  if (p.eng e).retired then p
  else
    let x := p.eng e
    let started := (x.cur.map Running.op).toList ++ (x.parked.map Running.op).toList
    let p := p.modEng e fun x =>
      { x with retired := true, cur := none, parked := none, queue := [], ops := x.ops + BitVec.ofNat 32 started.length }
    let p := started.foldl (fun p o => p.endFail o 0x30 (lostDetail e) (lostDetail e)) p
    let p := x.queue.foldl (fun p o => p.replaceOp o) p
    if isGrainer e then p.post 0x7002#16 (BitVec.ofNat 32 (e - 48) ||| at' cause 8) 0
    else p.post 0x6002#16 (BitVec.ofNat 32 e ||| at' cause 8) 0

def engineKat (e : Nat) (p : Part) : Part := p.modEng e fun x => { x with katRun := true }

/-- ENGINE_KAT_END. -/
def engineKatEnd (e : Nat) (failed : Bool) (p : Part) : Part :=
  if !(p.eng e).katRun then p
  else
    let p := p.modEng e fun x => { x with katRun := false, katDone := true, katFail := failed }
    let p := p.katRecord (if isGrainer e then 3 else 2) (if isGrainer e then e - 48 else e) failed
    p.when failed (engineRetire 0 e)

/-- RKE_COMMIT of the RKE block, or with `grn` of the GRN block: 0 or more than 32 is refused. The set governs what the Sluice
places from then on (R315). -/
def rkeCommit (grn : Bool) (p : Part) : Part :=
  let g : EngBlock → EngBlock := fun b =>
    let ok := decide (1 ≤ b.st.stage.toNat ∧ b.st.stage.toNat ≤ 32)
    { b with cfgMismatch := b.cfgMismatch || !ok, st := b.st.commit ok true }
  p.modRke fun r => if grn then { r with grn := g r.grn } else { r with rke := g r.rke }

end Part

/-! ### The meanings -/

/-- ENGINE_OP_START (R294, R297, R304). -/
def execEngineOpStart (e : Fin 56) (s : State) : Host.Outcome State Fault Refusal := onPart (Part.opStart e.val) s
/-- ENGINE_OP_END (R295, R305 to R309). -/
def execEngineOpEnd (e : Fin 56) (releaseFail rejected : Bool) (s : State) : Host.Outcome State Fault Refusal :=
  onPart (Part.opEnd e.val releaseFail rejected) s
/-- RKE_COMMIT (R315, R316). -/
def execRkeCommit (grn : Bool) (s : State) : Host.Outcome State Fault Refusal := onPart (Part.rkeCommit grn) s
/-- ENGINE_KAT (R309). -/
def execEngineKat (e : Fin 56) (s : State) : Host.Outcome State Fault Refusal := onPart (Part.engineKat e.val) s
/-- ENGINE_KAT_END (R314). -/
def execEngineKatEnd (e : Fin 56) (failed : Bool) (s : State) : Host.Outcome State Fault Refusal :=
  onPart (Part.engineKatEnd e.val failed) s
/-- ENGINE_RETIRE (R314). -/
def execEngineRetire (e : Fin 56) (s : State) : Host.Outcome State Fault Refusal := onPart (Part.engineRetire 1 e.val) s
/-- SJOB_RSA_KEYGEN (R311, R312), KIND 0x1. -/
def execSjobRsaKeygen (j : Fin 4) (engine : BitVec 6) (param : BitVec 16) (s : State) : Host.Outcome State Fault Refusal :=
  onPart (Part.jobGo j.val engine 1 param) s
/-- SJOB_EC_KEYGEN, KIND 0x2. -/
def execSjobEcKeygen (j : Fin 4) (engine : BitVec 6) (param : BitVec 16) (s : State) : Host.Outcome State Fault Refusal :=
  onPart (Part.jobGo j.val engine 2 param) s
/-- SJOB_RSA_CHECK, KIND 0x3. -/
def execSjobRsaCheck (j : Fin 4) (engine : BitVec 6) (param : BitVec 16) (s : State) : Host.Outcome State Fault Refusal :=
  onPart (Part.jobGo j.val engine 3 param) s
/-- SJOB_MLDSA_KEYGEN, KIND 0x4. -/
def execSjobMldsaKeygen (j : Fin 4) (engine : BitVec 6) (param : BitVec 16) (s : State) : Host.Outcome State Fault Refusal :=
  onPart (Part.jobGo (4 + j.val) engine 4 param) s
/-- SJOB_MLKEM_KEYGEN, KIND 0x5. -/
def execSjobMlkemKeygen (j : Fin 4) (engine : BitVec 6) (param : BitVec 16) (s : State) : Host.Outcome State Fault Refusal :=
  onPart (Part.jobGo (4 + j.val) engine 5 param) s
/-- SJOB_DONE (R311): slots 0 to 3 of RKE, 4 to 7 of GRN. -/
def execSjobDone (j : Fin 8) (s : State) : Host.Outcome State Fault Refusal := onPart (Part.jobDone j.val) s

end Sys2Proof.Machine
end

