-- ==== Sys2Proof/Machine/Library.lean ====
section
/-! DEFINITION. The program tables (06_payment_harvests.md, R134 to R136, R269): which library numbers are assigned, the handles
each program takes, its declared output, and the input checks of R217 that a library program makes before it uses a key. -/

namespace Sys2Proof.Machine

/-- What the lane and the Sluice use of a program (R135, R210, R246). -/
structure ProgEntry where
  handles : List (List (BitVec 4))    -- accepted handle classes, field by field
  minOut  : Nat := 0
  admin   : Bool := false
  single  : Option Nat := none        -- SINGLE_PRIMITIVE: its op code of R286
  commits : Bool := false             -- a committing program (R152)
  deriving DecidableEq, Repr

namespace Library

abbrev sym : List (BitVec 4) := [1]
abbrev priv : List (BitVec 4) := [2]
abbrev pub : List (BitVec 4) := [3]
abbrev lat : List (BitVec 4) := [4]
abbrev landing : List (BitVec 4) := [5]

/-- The declared output of a PIN block: 16 octets for format 4, else 8 (R214). -/
def pinOut (param : Word) : Nat := if fld param 4 3 = 4 then 16 else 8

/-- MAC length, PARAM [12:8]. -/
def macLen (param : Word) : Nat := (fld param 8 5).toNat

/-- The library's table (R221, R227, R231, R233, R236, R238, R243, R246). -/
def entry (num : Nat) (param : Word) : Option ProgEntry :=
  match num with
  | 0x0000 => some { handles := [] }
  | 0x0010 => some { handles := [sym, sym], minOut := pinOut param }
  | 0x0011 | 0x0012 => some { handles := [sym, sym], minOut := 16 }
  | 0x0018 | 0x0019 => some { handles := [sym, sym] }
  | 0x0040 | 0x0048 => some { handles := [sym, sym], minOut := pinOut param }
  | 0x0041 | 0x0049 | 0x0042 | 0x004A => some { handles := [sym] }
  | 0x0043 | 0x004B | 0x0060 => some { handles := [sym], minOut := macLen param }
  | 0x0061 | 0x0080 => some { handles := [sym] }
  | 0x0081 | 0x0083 => some { handles := [sym], minOut := 8 }
  | 0x0082 => some { handles := [sym], minOut := 4 }
  | 0x0084 => some { handles := [sym], minOut := macLen param }
  | 0x00A0 => some { handles := [sym] }
  | 0x00A1 => some { handles := [sym], minOut := 8 }
  | 0x00B0 => some { handles := [sym, landing], commits := true }
  | 0x00B1 | 0x00B2 => some { handles := [sym, sym] }
  | 0x00D0 => some { handles := [sym, landing], admin := true, commits := true }
  | 0x00D1 => some { handles := [sym], minOut := 3 }
  | 0x0100 => some { handles := [priv], single := some Pk.rsaSign }
  | 0x0101 => some { handles := [pub], single := some Pk.rsaVerify }
  | 0x0102 => some { handles := [priv, landing], commits := true }
  | 0x0110 => some { handles := [priv], single := some Pk.ecSign }
  | 0x0111 => some { handles := [pub], single := some Pk.ecVerify }
  | 0x0112 => some { handles := [priv] }
  | 0x0113 => some { handles := [pub] }
  | 0x0114 => some { handles := [priv, sym] }
  | 0x0120 => some { handles := [lat], single := some Pk.mldsaSign }
  | 0x0121 => some { handles := [pub], single := some Pk.mldsaVerify }
  | 0x0122 => some { handles := [pub, sym] }
  | 0x0123 => some { handles := [lat, sym] }
  | 0x0124 => some { handles := [pub, landing], commits := true }
  | 0x0125 => some { handles := [lat, landing], commits := true }
  | 0x0128 => some { handles := [lat] }
  | 0x0129 => some { handles := [pub] }
  | 0x0130 => some { handles := [priv, lat] }
  | 0x0131 => some { handles := [pub, pub] }
  | _ => none

/-- The bulk programs (R269): GCM, CTR, CBC, XTS, CFB, OFB, TDES-CBC, hash, HMAC, CMAC. -/
def bulkEntry (num : Nat) : Option ProgEntry :=
  if num = 0x0830 ∨ num = 0x0831 then some { handles := [sym, sym] }
  else if num = 0x0860 then some { handles := [] }
  else if [0x0800, 0x0801, 0x0810, 0x0820, 0x0821, 0x0840, 0x0841, 0x0848, 0x0850, 0x0851, 0x0861, 0x0868].contains num then
    some { handles := [sym] }
  else none

/-! ### Field checks (R214 to R217, R222 to R236) -/

/-- The nibbles of octets, high nibble first. -/
def nibbles (bs : List Byte) : List Nat := bs.flatMap fun b => [b.toNat / 16, b.toNat % 16]

/-- The number of leading decimal digits, when only 0xF nibbles follow them. -/
def digitRun (ns : List Nat) : Option Nat :=
  let d := (ns.takeWhile fun v => v < 10).length
  if (ns.drop d).all fun v => v == 15 then some d else none

/-- A PAN field of 10 octets holds 12 to `max` digits (R215, R232). -/
def panOk (max : Nat) (bs : List Byte) : Bool :=
  match digitRun (nibbles bs) with
  | some d => decide (12 ≤ d ∧ d ≤ max)
  | none => false

/-- A PIN block field of a format (R214). -/
def pinFieldOk (fmt : Nat) (bs : List Byte) : Bool := fmt == 4 || (bs.drop 8).all fun b => b == 0

/-- The translations of R223; DUKPT programs refuse input format 1 (R228). -/
def translates (i o : Nat) : Bool :=
  match i with
  | 0 | 3 => [0, 3, 4].contains o
  | 1 => [0, 1, 3, 4].contains o
  | 4 => o == 4
  | _ => false

/-- Only the PARAM bits of `mask` are set. -/
def only (mask param : Word) : Bool := param &&& ~~~mask == 0

/-- The number of bits set. -/
def ones (v n : Nat) : Nat := ((List.range n).filter fun i => v.testBit i).length

/-- The counter of a KSN is acceptable (R229). -/
def ksnOk (aes : Bool) (ksn : List Byte) : Bool :=
  let v := ofBe ksn % 2 ^ (if aes then 32 else 21)
  let n := ones v 32
  decide (1 ≤ n ∧ n ≤ if aes then 16 else 10)

/-- The number of input octets that a public-key or lattice program states, under R217 and R246: a digest of the padding's own length
or of 20 to 64 octets (R285), a ciphertext, point, μ, message and signatures of lengths that some key of its kind has. -/
def lengthOk (num : Nat) (param : Word) (len : Nat) : Bool :=
  let dig := Pk.digestLen (at' (fld param 4 2) 6)
  let modulus := fun (n : Nat) => n % 8 == 0 && within n 64 2049
  let kem := [768, 1088, 1568].contains len
  match num with
  | 0x0100 => len == dig
  | 0x0101 => decide (dig ≤ len) && modulus (len - dig)
  | 0x0102 => modulus len
  | 0x0110 => within len 20 65
  | 0x0111 => [64, 96, 132].any fun n => within len (20 + n) (65 + n)
  | 0x0112 => decide (len ≤ 384)
  | 0x0113 => decide (64 ≤ len)
  | 0x0114 => [32, 56, 65, 97, 133].contains len
  | 0x0120 => len == 64
  | 0x0121 => [2420, 3309, 4627].any fun n => len == 64 + n
  | 0x0122 | 0x0124 => len == 0
  | 0x0123 | 0x0125 => kem
  | 0x0128 => decide (len ≤ 0x4000)
  | 0x0129 => decide (Pk.sigLen 0x50 ≤ len)
  | 0x0130 => decide (len ≤ 0x10000)
  | 0x0131 => within len (96 + Pk.sigLen 0x42) (0x10001 + 96 + Pk.sigLen 0x42)
  | _ => true

/-- PARAM of a single primitive and the number of its input octets, inline, at IN_ADDR or in its input list. -/
def singleOk (num : Nat) (param : Word) (len : Nat) : Bool :=
  lengthOk num param len
    && if num = 0x0100 ∨ num = 0x0101 then only 0x33 param && decide ((fld param 0 2).toNat ≤ 1 ∧ (fld param 4 2).toNat ≤ 2)
       else param == 0

/-- PARAM and the public input of a library program, under R217: `data` holds its IN_LEN input octets and its input list. -/
def inputOk (num : Nat) (param : Word) (data : List Byte) : Bool :=
  let len := data.length
  let at_ := fun (o n : Nat) => (data.drop o).take n
  let lo := (fld param 0 3).toNat
  let hi := (fld param 4 3).toNat
  let ml := macLen param
  let dukpt := fun (aes : Bool) (o : Nat) => ksnOk aes (at_ o (if aes then 12 else 10))
  let keyType := (fld param 16 3).toNat
  let ksn := fun (aes : Bool) => if aes then 12 else 10
  let emv := decide (40 ≤ len ∧ len ≤ 384) && panOk 16 (at_ 0 10) && (nibbles (at_ 10 1)).all (· < 10)
    && ((at_ 11 1 ++ at_ 14 2 ++ at_ 29 3).all fun b => b == 0) && decide ((data.getD 28 0).toNat ≤ 8)
    && ((at_ 32 8).drop (data.getD 28 0).toNat).all fun b => b == 0
  match num with
  | 0x0000 => param == 0 && decide (len ≤ 16)
  | 0x0010 => only 0x77 param && len == 26 && translates lo hi && pinFieldOk lo (at_ 0 16) && panOk 19 (at_ 16 10)
  | 0x0011 => param == 0 && len == 26 && pinFieldOk 0 (at_ 0 16) && panOk 19 (at_ 16 10)
  | 0x0012 => param == 0 && len == 26 && panOk 19 (at_ 16 10)
  | 0x0018 =>
    let n := (fld param 4 4).toNat
    let off := nibbles (at_ 34 6)
    let tab := nibbles (at_ 40 8)
    only 0xF7 param && len == 48 && [0, 1, 3, 4].contains lo && decide (4 ≤ n ∧ n ≤ 12) && pinFieldOk lo (at_ 0 16)
      && panOk 19 (at_ 16 10) && digitRun off == some n
      && (List.range 16).all fun i => if i < 10 then tab.getD i 16 == i else decide (tab.getD i 16 < 10)
  | 0x0019 =>
    only 0xF07 param && len == 28 && [0, 1, 3, 4].contains lo && decide ((fld param 8 4).toNat ≤ 9)
      && pinFieldOk lo (at_ 0 16) && panOk 19 (at_ 16 10) && (nibbles (at_ 26 2)).all (· < 10)
  | 0x0040 =>
    only 0x77 param && len == 36 && lo != 1 && translates lo hi && pinFieldOk lo (at_ 0 16) && panOk 19 (at_ 16 10)
      && dukpt false 26
  | 0x0048 =>
    only 0x70077 param && len == 38 && lo != 1 && translates lo hi && pinFieldOk lo (at_ 0 16) && panOk 19 (at_ 16 10)
      && dukpt true 26 && decide (keyType ≤ 4)
  | 0x0041 => only 0x101F08 param && decide (4 ≤ ml ∧ ml ≤ 8 ∧ 10 + ml ≤ len) && dukpt false 0
  | 0x0049 =>
    only 0x71F08 param && decide (4 ≤ ml ∧ ml ≤ (if 3 ≤ keyType then 8 else 16) ∧ 12 + ml ≤ len ∧ keyType ≤ 4) && dukpt true 0
  | 0x0042 => only 0x8 param && decide (26 ≤ len ∧ (len - 26) % 8 = 0) && dukpt false 0
  | 0x004A =>
    only 0x70008 param && decide (28 ≤ len ∧ (len - 28) % (if 3 ≤ keyType then 8 else 16) = 0 ∧ keyType ≤ 4) && dukpt true 0
  | 0x0043 => only 0x101F00 param && decide (4 ≤ ml ∧ ml ≤ 8 ∧ ksn false ≤ len) && dukpt false 0
  | 0x004B =>
    only 0x71F00 param && decide (4 ≤ ml ∧ ml ≤ (if 3 ≤ keyType then 8 else 16) ∧ ksn true ≤ len ∧ keyType ≤ 4) && dukpt true 0
  | 0x0060 | 0x0061 =>
    let n := if num = 0x0060 then len else len - ml
    only 0x1F1F param && decide (lo ≤ 5 ∧ (fld param 3 2).toNat ≤ (if lo ≤ 1 then 1 else 0))
      && decide (4 ≤ ml ∧ ml ≤ (if lo ≤ 1 then 8 else 16)) && (num == 0x0060 || decide (ml ≤ len)) && decide (2 ≤ lo ∨ 0 < n)
  | 0x0080 | 0x0081 | 0x0082 => only 0x3 param && emv
  | 0x0083 => only 0x3 param && emv && (at_ 16 8).all fun b => b == 0
  | 0x0084 => only 0x1F07 param && emv && decide (4 ≤ ml ∧ ml ≤ 8) && (bitAt param 2 || (at_ 16 8).all fun b => b == 0)
  | 0x00A0 =>
    let sc := nibbles (at_ 12 2)
    only 0x7 param && len == 17 && decide (3 ≤ lo ∧ lo ≤ 5) && panOk 19 (at_ 0 10) && (nibbles (at_ 10 2)).all (· < 10)
      && digitRun sc == some 3 && digitRun (nibbles (at_ 14 3)) == some lo
  | 0x00A1 =>
    only 0x7 param && len == 14 && decide (3 ≤ lo ∧ lo ≤ 5) && panOk 19 (at_ 0 10) && (nibbles (at_ 10 2)).all (· < 10)
      && digitRun (nibbles (at_ 12 2)) == some 3
  | 0x00B1 => only 0x3 param && len == 0
  | 0x00D0 => param == 0 && (len == 32 || len == 64)
  | 0x00D1 => param == 0 && len == 0
  | 0x0114 => only 0x1 param && lengthOk num param len
  | _ => param == 0 && lengthOk num param len

end Library

namespace Part

/-- The octets of a key of an algorithm (R322). -/
def keyLen (alg : Byte) : Nat :=
  match alg.toNat with
  | 0x01 | 0x10 | 0x18 => 16 | 0x02 | 0x11 => 24 | 0x12 | 0x19 => 32 | _ => 0

def isAes (alg : Byte) : Bool := [0x10#8, 0x11#8, 0x12#8].contains alg
def isTdes (alg : Byte) : Bool := [0x01#8, 0x02#8].contains alg
def isHmac (alg : Byte) : Bool := [0x18#8, 0x19#8].contains alg

/-- The key octets of a slot. -/
def keyOf (s : Slot) : List Byte := s.mat.take (keyLen s.alg)

/-- The octets that a library program of variable output writes, from PARAM, its input octets and the attributes of its keys; 0 where
its table declares them (R94, R246). -/
def libraryOut (num : Nat) (param : Word) (len : Nat) (h0 h1 : Slot) : Nat :=
  let alg := h0.alg.toNat
  let wrapped := fun (n : Nat) => n + 8
  match num with
  | 0x0000 => len
  | 0x0042 => len - 26
  | 0x004A => len - 28
  | 0x00B1 =>
    (KeyBlock.build (isTdes h1.alg) (List.replicate (keyLen h1.alg) 0)
      (KeyBlock.header (isTdes h1.alg) (List.replicate (keyLen h1.alg) 0) (List.replicate (keyLen h0.alg) 0) param
        [h0.w0, h0.w1] 0)
      (List.replicate (keyLen h0.alg) 0) []).length
  | 0x0112 => Pk.outLen Pk.edSign alg 0
  | 0x0114 => wrapped (if bitAt param 0 then Config.hkdfLen else Pk.secretLen Pk.ecDh alg)
  | 0x0122 => Pk.outLen Pk.mlkemEnc alg 0 + wrapped 32
  | 0x0123 => wrapped 32
  | 0x0124 => Pk.outLen Pk.mlkemEnc alg 0
  | 0x0128 => Pk.sigLen alg
  | 0x0130 => 96 + Pk.sigLen 0x42
  | _ => 0

/-- The owner program of a number, when it is loaded (R136). -/
def ownerProgram (p : Part) (num : Nat) : Option Program := p.seq.programs.find? fun x => x.number.toNat == num

/-- The handle classes an owner program's field accepts: any of R154's. -/
abbrev anyKey : List (BitVec 4) := [1, 2, 3, 4, 5]

/-- The program's entry for the lane: a library number, a bulk program, or a loaded owner program, whose handle mask names the
fields (R135, R211). -/
def programEntry (p : Part) (bulk : Bool) (num : Nat) (param : Word) : Option (ProgEntry × List Bool) :=
  if bulk then (Library.bulkEntry num).map fun e => (e, (List.range 4).map fun k => decide (k < e.handles.length))
  else if num < 0x1000 then
    (Library.entry num param).map fun e => (e, (List.range 4).map fun k => decide (k < e.handles.length))
  else
    (p.ownerProgram num).map fun x =>
      ({ handles := List.replicate 4 anyKey, minOut := x.minOut, admin := x.admin },
       (List.range 4).map fun k => bitAt x.mask k)

end Part
end Sys2Proof.Machine
end

