-- ==== Sys2Proof/Machine/Sluice.lean ====
section
/-! DEFINITION. The Sluice (03_work_queues.md): queue pairs and doorbells, fetching, the checks of a descriptor, scatter-gather
lists, placement, and the completion stage with its interrupts. A context is named by its number, a queue pair by its function
and local number; lanes name it by its global number. -/

namespace Sys2Proof.Machine
namespace Part

/-! ### Queue pairs (R79 to R83, R52) -/

def qp (p : Part) (g : Nat) : Qp := p.dsp.qps.get {} g

def modQp (g : Nat) (f : Qp → Qp) (p : Part) : Part := p.modDsp fun d => { d with qps := d.qps.upd {} g f }

/-- The global number of local queue pair `q` of a function, when it is assigned (R52). -/
def qpGlobal (p : Part) (n q : Nat) : Option Nat :=
  let (b, k) := p.qpsOf n
  if q < k then some (b + q) else none

/-- The function that holds global queue pair `g`. -/
def qpOwner (p : Part) (g : Nat) : Option Nat :=
  (p.tnt.t.find? fun t =>
    let c := t.2.st.eff
    decide (c.qpBase.toNat ≤ g ∧ g < c.qpBase.toNat + c.qpCount.toNat)).map Prod.fst

/-- A change to queue pair `q` of function `n`; nothing where it is unassigned. -/
def onQp (n q : Nat) (f : Nat → Part → Part) (p : Part) : Part :=
  match p.qpGlobal n q with
  | some g => f g p
  | none => p

/-- IDLE: no operation of the queue pair is in flight (R83). -/
def qpIdle (p : Part) (g : Nat) : Bool := p.dsp.ctxs.all fun c => c.2.qp != g || c.2.state == .free

/-- A vector that R57 assigns to completion queues. -/
def cqVector (n v : Nat) : Bool := if n = 0 then decide (4 ≤ v) else decide (1 ≤ v ∧ v ≤ 7)

/-- The values of a COMMIT hold under R80 and R57. -/
def qpCfgOk (n : Nat) (c : QpCfg) : Bool :=
  decide (6 ≤ c.sqLog.toNat ∧ c.sqLog.toNat ≤ c.cqLog.toNat ∧ c.cqLog.toNat ≤ 16) && fld c.sqBase 0 12 == 0
    && fld c.cqBase 0 12 == 0 && cqVector n c.vector.toNat

/-- The set in effect with the QP_IRQ fields of another. -/
def withIrq (c i : QpCfg) : QpCfg :=
  { c with vector := i.vector, coalCnt := i.coalCnt, coalTime := i.coalTime, authImm := i.authImm }

/-- QP_COMMIT (R82): a set that changes only QP_IRQ waits for the next descriptor fetched. -/
def qpCommit (n g : Nat) (p : Part) : Part :=
  let q := p.qp g
  let c := q.st.stage
  let irqOnly := withIrq q.st.eff c == c
  let ok := qpCfgOk n c && (irqOnly || (!q.enable && p.qpIdle g))
  p.modQp g fun q => { q with cfgMismatch := q.cfgMismatch || !ok, st := q.st.commit ok (!irqOnly) }

/-- QP_ENABLE_SET (R83): on an idle queue pair both ring indices return to 0 and the phase to 1. Nothing else changes: the count of
completions not yet signalled stands (R120). -/
def qpEnable (g : Nat) (p : Part) : Part :=
  let idle := p.qpIdle g
  p.modQp g fun q =>
    if q.enable then q
    else if idle then { q with enable := true, sqTail := 0, cqHead := 0, sqHead := 0, cqWrite := 0, phase := true }
    else { q with enable := true }

def qpDisable (g : Nat) (p : Part) : Part := p.modQp g fun q => { q with enable := false }

/-! ### Doorbells (R71, R74, R85 to R88) -/

/-- A doorbell write is heard: its function exists and is neither draining nor WEDGED. -/
def doorbell (p : Part) (n : Nat) : Bool := p.fnExists n && !(p.fn n).draining && !(p.fn n).wedged

/-- A doorbell write ignored with DB_ERROR (R86). -/
def dbError (n g : Nat) (p : Part) : Part := (p.modQp g fun q => { q with dbError := true }).signal n 0

def sqTailWrite (n : Nat) (v : BitVec 16) (g : Nat) (p : Part) : Part :=
  let q := p.qp g
  if !p.doorbell n then p
  else if !q.enable || decide (2 ^ q.st.eff.sqLog.toNat ≤ v.toNat) then p.dbError n g
  else p.modQp g fun q => { q with sqTail := v }

def cqHeadWrite (n : Nat) (v : BitVec 16) (g : Nat) (p : Part) : Part :=
  let q := p.qp g
  if !p.doorbell n then p
  else if !q.enable || decide (2 ^ q.st.eff.cqLog.toNat ≤ v.toNat) then p.dbError n g
  else p.modQp g fun q => { q with cqHead := v }

/-! ### The block's staged fields (R121, R122) -/

/-- The keys of the lanes and units, which take an accepted set each at its own boundary. -/
def dspKeys : List Nat := List.range 92

/-- DSP_COMMIT: an accepted set is the block's from then on; a lane or unit runs under the earlier one until its own boundary, and
at once where no operation is in progress (R121, R642). -/
def dspCommit (p : Part) : Part :=
  let idle := p.dsp.ctxs.all fun c => c.2.state == .free
  p.modDsp fun d =>
    let c := d.st.stage
    let ok := decide (1 ≤ c.wBack.toNat ∧ c.wBack.toNat ≤ c.wBulk.toNat ∧ c.wBulk.toNat ≤ c.wStandard.toNat
      ∧ c.reserve.toNat ≤ 16)
    { d with
      cfgMismatch := d.cfgMismatch || !ok, st := d.st.commit ok true
      late := if !ok then d.late else if idle then []
              else dspKeys.foldl (fun t k => t.set none k (some ((d.late.get none k).getD d.st.eff))) d.late }

/-- The accepted set governs every lane and unit. -/
def dspApply (p : Part) : Part := p.modDsp fun d => { d with st := d.st.apply, late := [] }

/-! ### Fetching (R104 to R108) -/

/-- The colour of a function's tenant (R380). -/
def colourOf (n : Nat) : BitVec 12 := if n = 0 then 0xFFE else BitVec.ofNat 12 n

/-- The contexts of a function that are free: in its granules, and carrying its colour (R106, R434). -/
def freeCtxs (p : Part) (n : Nat) : List Nat :=
  let c := (p.tnt.t.get {} n).st.eff
  (List.range (8 * c.grans.toNat)).filterMap fun k =>
    let i := 8 * c.granBase.toNat + k
    if (p.ctx i).state == .free && p.acu.tagOb.get 0 (i / 8) == colourOf n then some i else none

/-- The lanes may fetch for a function: ENABLE and readiness (R105), no freeze of the part (R448), a tenant (R381), Bus Master
Enable (R73), no drain, not WEDGED (R71, R74). -/
def lanesRun (p : Part) (n : Nat) : Bool :=
  p.dsp.enable && !p.dsp.entHold && !p.sys.freezing
    && !(p.sys.mode == .backup || p.sys.mode == .wake || p.sys.mode == .assay || p.sys.mode == .frozen)
    && (n == 0 || !(p.tnt.states.get 0 n == 0 || p.tnt.states.get 0 n == 5))
    && p.mayPost n && !(p.fn n).draining && !(p.fn n).wedged

/-- Entries of the submission ring not yet fetched. -/
def sqPending (q : Qp) : Nat :=
  let s := 2 ^ q.st.eff.sqLog.toNat
  (q.sqTail.toNat + s - q.sqHead.toNat) % s

/-- The fetch point moved by `k` entries. -/
def sqAdvance (k : Nat) (q : Qp) : Qp :=
  { q with sqHead := BitVec.ofNat 16 ((q.sqHead.toNat + k) % 2 ^ q.st.eff.sqLog.toNat) }

/-- The boundary of a tenant's staged set: the next descriptor fetched for it (R642). -/
def tntApply (n : Nat) (p : Part) : Part :=
  p.modTnt fun t => { t with t := t.t.upd {} n fun x => { x with st := x.st.apply } }

/-- The effective class of R110 of a descriptor that asks for class `cls` on queue pair `g` of a function. An administrative RUN has
no queue pair, and so no QCLASS. -/
def effClassOf (p : Part) (f g cls : Nat) : BitVec 2 :=
  let fl := (p.tnt.t.get {} f).st.eff.floor.toNat
  BitVec.ofNat 2 (max cls (max (if 4096 ≤ g then 0 else (p.qp g).st.eff.qclass.toNat) fl))

/-- The in-flight quota of a function's tenant in effect (R108). -/
def quotaOf (p : Part) (f : Nat) : Nat := (p.tnt.t.get {} f).st.eff.inflight.toNat

/-- The lane that serves queue pair `g` could fetch an entry of it now for function `f`. -/
def mayFetch (p : Part) (f g : Nat) : Bool :=
  (p.qp g).enable && decide (0 < sqPending (p.qp g)) && p.lanesRun f && decide ((p.ctxsOf f).length < p.quotaOf f)
    && !(p.freeCtxs f).isEmpty

/-- The queue pairs of lane `l` that it could fetch from now, each with its function. -/
def laneReady (p : Part) (l : Nat) : List (Nat × Nat) :=
  p.dsp.qps.filterMap fun x =>
    if x.1 % 4 == l then
      match p.qpOwner x.1 with
      | some f => if p.mayFetch f x.1 then some (x.1, f) else none
      | none => none
    else none

/-- The order of R109 for queue pair `g` of function `f`: none while another goes first, else where the lane's order stands once it
is served. A queue pair of QCLASS AUTH is served first; then comes the tenant whose turn it is, and the next of its queue pairs. -/
def laneTurn (p : Part) (f g : Nat) : Option Lane :=
  let l := g % 4
  let ready := p.laneReady l
  let lane := p.dsp.lanes.get {} l
  let auth : Nat → Bool := fun i => (p.qp i).st.eff.qclass == 0
  let rest := ready.filter fun x => !auth x.1
  if auth g then some lane
  else if ready.any fun x => auth x.1 then none
  else
    (lane.fns.pick (rest.map Prod.snd) p.shareOf).bind fun (t, turn) =>
      let next := nextAfter (lane.qps.get 0 t - 1) ((rest.filter fun x => x.2 == t).map Prod.fst)
      let first := ((rest.filter fun x => x.2 == t).map Prod.fst).min?
      if t == f && (if lane.qps.get 0 t = 0 then first else next) == some g then
        some { fns := turn, qps := lane.qps.set 0 f (g + 1) }
      else none

/-- LANE_FETCH: up to eight entries of one queue pair, a context reserved for each, and the read issued (R106). Global queue pair
`g` is served by lane `g` mod 4 (R79), which fetches nothing without power (R432), in its turn under R109. A context carries
from here on the class of its queue pair and tenant, which its descriptor can only lower (R110). -/
def laneFetch (g : Nat) (n : Nat) (p : Part) : Part :=
  match p.qpOwner g with
  | none => p
  | some f =>
    let old := p
    let p := p.tntApply f
    let q := p.qp g
    let free := p.freeCtxs f
    let toEnd := 2 ^ q.st.eff.sqLog.toNat - q.sqHead.toNat
    if n = 0 ∨ 8 < n ∨ toEnd < n ∨ sqPending q < n ∨ !p.lanesRun f ∨ !p.powered (112 + g % 4) ∨ !q.enable ∨ free.length < n
        ∨ p.quotaOf f < (p.ctxsOf f).length + n then old
    else
      match p.laneTurn f g with
      | none => old
      | some lane =>
        let p := (p.dspNow (laneKey (g % 4))).modDsp fun d => { d with lanes := d.lanes.set {} (g % 4) lane }
        let p := p.modQp g fun q => { q with st := q.st.apply }
        let p := p.issueRead f (q.st.eff.sqBase + BitVec.ofNat 64 (64 * q.sqHead.toNat)) (64 * n)
        let cls := p.effClassOf f g 0
        let p := (free.take n).foldl
          (fun p i =>
            (p.modCtx i fun _ => { state := .fetched, fn := f, qp := g, order := p.dsp.nextOrder, effClass := cls }).modDsp fun d =>
              { d with nextOrder := d.nextOrder + 1 })
          p
        p.modQp g (sqAdvance n)

/-! ### Decoding (R90 to R95, R100, R110) -/

/-- A field of a descriptor as a number: `n` octets at `o`. -/
def dNum (d : List Byte) (o n : Nat) : Nat := ofLe ((d.drop o).take n)

/-- The octets of a descriptor. -/
def dBytes (d : List Byte) (o n : Nat) : List Byte := (d.drop o).take n

/-- The fields of a descriptor's first word. -/
structure Head where
  program : Nat
  kind    : Nat
  long    : Bool
  cls     : Nat
  fence   : Bool
  noIrq   : Bool
  inPtr   : Bool
  outPtr  : Bool
  resv    : Nat

def headOf (d : List Byte) : Head :=
  let w := BitVec.ofNat 32 (dNum d 0 4)
  { program := (fld w 0 16).toNat, kind := (fld w 16 2).toNat, long := bitAt w 18, cls := (fld w 19 2).toNat
    fence := bitAt w 21, noIrq := bitAt w 22, inPtr := bitAt w 23, outPtr := bitAt w 24, resv := (fld w 25 7).toNat }

/-- The inline area (R91). -/
def inlineOf (h : Head) (d : List Byte) : List Byte :=
  (if h.inPtr then [] else dBytes d 24 8) ++ (if h.outPtr then [] else dBytes d 32 8) ++ dBytes d 40 24
    ++ (if h.long then dBytes d 100 28 else [])

/-- The four handles of a descriptor. -/
def handlesOf (h : Head) (d : List Byte) : List (BitVec 32) :=
  [8, 12].map (fun o => BitVec.ofNat 32 (dNum d o 4))
    ++ [64, 68].map fun o => if h.long then BitVec.ofNat 32 (dNum d o 4) else 0

/-- Output octets that a bulk program writes to its list (R269). -/
def bulkOutput (num : Nat) (param param2 : Word) (len : Nat) : Nat :=
  if num = 0x0800 ∨ num = 0x0801 then len - param2.toNat
  else if num = 0x0860 then
    let n := match (fld param 0 4).toNat with
      | 0 => 20 | 1 => 28 | 2 | 5 => 32 | 3 | 6 => 48 | 4 | 7 => 64 | _ => param2.toNat
    if n ≤ 16 then 0 else n
  else if num = 0x0861 then
    match (fld param 0 4).toNat with | 1 => 28 | 2 | 5 => 32 | 3 | 6 => 48 | _ => 64
  else if num = 0x0868 then 0
  else len

/-- PARAM, PARAM2 and INLINE2 of a bulk program (R269). -/
def bulkParamOk (num : Nat) (param param2 : Word) (len : Nat) (inl : List Byte) : Bool :=
  let low := (fld param 0 5).toNat
  let zeroFrom := fun (o : Nat) => (inl.drop o).all fun b => b == 0
  if num = 0x0800 then param &&& ~~~0x1F#32 == 0 && decide (12 ≤ low ∧ low ≤ 16 ∧ param2.toNat ≤ len) && zeroFrom 12
  else if num = 0x0801 then
    param &&& ~~~0x1F#32 == 0 && decide (12 ≤ low ∧ low ≤ 16 ∧ param2.toNat ≤ len) && zeroFrom (12 + low)
  else if num = 0x0810 then (param == 32 || param == 64 || param == 128) && param2 == 0 && zeroFrom 16
  else if num = 0x0830 ∨ num = 0x0831 then
    param &&& ~~~0x1F#32 == 0 && decide (9 ≤ low ∧ low ≤ 16) && param2 == 0 && zeroFrom 16
  else if num = 0x0850 ∨ num = 0x0851 then param == 0 && param2 == 0 && zeroFrom 8
  else if num = 0x0860 then
    param &&& ~~~0xF#32 == 0 && decide ((fld param 0 4).toNat ≤ 9) && zeroFrom 0
      && (if (fld param 0 4).toNat ≤ 7 then param2 == 0 else decide (1 ≤ param2.toNat ∧ param2.toNat ≤ 4096))
  else if num = 0x0861 then
    param &&& ~~~0xF#32 == 0 && decide (1 ≤ (fld param 0 4).toNat ∧ (fld param 0 4).toNat ≤ 7) && param2 == 0 && zeroFrom 0
  else if num = 0x0868 then param &&& ~~~0x1F#32 == 0 && decide (4 ≤ low ∧ low ≤ 16) && param2 == 0 && zeroFrom 0
  else param == 0 && param2 == 0 && zeroFrom 16

/-- The checks of a descriptor against R90 to R95 and R135, in the order of R100's details: the failing status and detail. An
administrative RUN admits ADMIN_ONLY programs. A list address that is not 16-byte aligned, and a count above 1,024, get detail
0x07 beside R94's cases: R100 names no detail for them (log entry 168). -/
def descFault (p : Part) (adm : Bool) (h : Head) (d : List Byte) : Option (Byte × Byte) :=
  let bulk := h.kind == 1
  let inLen := dNum d 16 2
  let outLen := dNum d 18 2
  let param := BitVec.ofNat 32 (dNum d 20 4)
  let param2 := BitVec.ofNat 32 (if h.long then dNum d 92 4 else 0)
  let sglIn := if h.long then dNum d 88 2 else 0
  let sglOut := if h.long then dNum d 90 2 else 0
  let stream := if h.long then dNum d 96 4 else 0
  let owner := !bulk && decide (0x1000 ≤ h.program)
  let hs := handlesOf h d
  if h.resv ≠ 0 then some (0x10, 0x01)
  else if 2 ≤ h.kind then some (0x10, 0x02)
  else if bulk && !h.long then some (0x10, 0x03)
  else if bulk != decide (0x0800 ≤ h.program ∧ h.program < 0x0900) then some (0x14, 0)
  else
    match p.programEntry bulk h.program param with
    | none => some (0x14, 0)
    | some (e, mask) =>
      if (h.inPtr && sglIn != 0) || (h.outPtr && sglOut != 0) then some (0x10, 0x04)
      else if (if h.inPtr then 384 else (inlineOf h d).length) < inLen ∨ (if h.outPtr then 384 else 16) < outLen then
        some (0x10, 0x05)
      else if sglOut == 0 && decide (outLen < e.minOut) then some (0x10, 0x06)
      else if h.long && (1024 < sglIn || 1024 < sglOut || dNum d 72 8 % 16 != 0 || dNum d 80 8 % 16 != 0) then
        some (0x10, 0x07)
      else if (bulk || sglIn != 0) && (stream == 0 || decide (0x10000000 < stream)) then some (0x10, 0x08)
      else if (hs.zip mask).any fun x => (x.1 != 0) != x.2 then some (0x10, 0x09)
      else if (owner && (sglIn != 0 || sglOut != 0)) || (bulk && !bulkParamOk h.program param param2 stream (dBytes d 100 28))
          || (e.single.isSome && !Library.singleOk h.program param (inLen + if sglIn = 0 then 0 else stream)) then
        some (0x10, 0x0A)
      else if e.admin && !adm then some (0x10, 0x0B)
      else none

/-- The lookups of R110, handle by handle. -/
def handleCheck (colour : BitVec 12) : List (BitVec 32 × List (BitVec 4)) → Nat → Part → Option (Byte × Byte) × Part
  | [], _, p => (none, p)
  | (h, acc) :: l, k, p =>
    if h = 0 then handleCheck colour l (k + 1) p
    else
      match p.headCheck h colour acc with
      | (some (st, why), p) => (some (st, keyDetail why k), p)
      | (none, p) => handleCheck colour l (k + 1) p

/-- A single primitive's output fits OUT_LEN (R100, detail 0x06): its length follows from the key's head slot. -/
def primitiveFits (p : Part) (m : Nat) (h : BitVec 32) (outLen : Nat) : Bool :=
  let s := p.slot (hIndex h)
  !Pk.family m s.alg.toNat || decide (Pk.outLen m s.alg.toNat s.modLimbs.toNat ≤ outLen)

/-- The context as the lane writes it: the descriptor in 128 octets, the input, and zero in every octet after it (R129, R704). -/
def writeContext (n : Nat) (d input : List Byte) (p : Part) : Part :=
  p.writeOb (512 * n) (Pk.fit 128 d ++ Pk.fit 384 input)

/-- The context that holds the second half of a long descriptor as fetched with the first: the next fetched one of the queue pair
(R93, R106). -/
def secondHalf (p : Part) (n : Nat) : Option (Nat × Ctx) :=
  let c := p.ctx n
  let later := p.dsp.ctxs.filter fun x => x.2.qp == c.qp && x.2.state == .fetched && decide (c.order < x.2.order)
  later.foldl (fun b x => match b with
    | none => some x
    | some y => if x.2.order < y.2.order then some x else some y) none

/-- The second half of a long descriptor is at hand: fetched with the first; or SQ_TAIL covers it and the function may fetch it
(R73). Until then the decoding waits, a case on which the spec is silent (log entry 167). -/
def secondReady (p : Part) (n : Nat) : Bool :=
  let c := p.ctx n
  decide (4096 ≤ c.qp) || (p.secondHalf n).isSome || (decide (0 < sqPending (p.qp c.qp)) && p.mayPost c.fn)

/-- The second half taken: the context fetched for it is given back, or else its entry is read. -/
def takeSecond (n : Nat) (p : Part) : Part :=
  let c := p.ctx n
  match p.secondHalf n with
  | some x => p.modDsp fun d => { d with ctxs := d.ctxs.set {} x.1 {} }
  | none =>
    let q := p.qp c.qp
    p.when (decide (c.qp < 4096)) fun p =>
      (p.issueRead c.fn (q.st.eff.sqBase + BitVec.ofNat 64 (64 * q.sqHead.toNat)) 64).modQp c.qp (sqAdvance 1)

/-- An entry of the queue pair fetched earlier awaits its decoding (R115). -/
def earlierFetched (p : Part) (n : Nat) : Bool :=
  let c := p.ctx n
  p.dsp.ctxs.any fun x => x.2.qp == c.qp && x.2.state == .fetched && decide (x.2.order < c.order)

/-- The fields of a context taken from its descriptor. -/
def loadCtx (h : Head) (d : List Byte) (cls : BitVec 2) (c : Ctx) : Ctx :=
  { c with
    tag := BitVec.ofNat 32 (dNum d 4 4), program := BitVec.ofNat 16 h.program, bulk := h.kind == 1, noIrq := h.noIrq
    fence := h.fence, effClass := cls, demoted := cls.toNat != h.cls, inLen := dNum d 16 2, outLen := dNum d 18 2
    outPtr := if h.outPtr then some (BitVec.ofNat 64 (dNum d 32 8)) else none
    sglIn := if h.long then (BitVec.ofNat 64 (dNum d 72 8), dNum d 88 2) else (0, 0)
    sglOut := if h.long then (BitVec.ofNat 64 (dNum d 80 8), dNum d 90 2) else (0, 0)
    streamLen := if h.long then dNum d 96 4 else 0, handles := handlesOf h d
    param := BitVec.ofNat 32 (dNum d 20 4), param2 := BitVec.ofNat 32 (if h.long then dNum d 92 4 else 0) }

/-- The lane reads the input at IN_ADDR: what its descriptor alone can break holds (R90, R92). -/
def readsInput (h : Head) (fault : Option (Byte × Byte)) : Bool :=
  h.inPtr && match fault with
    | none => true
    | some (st, d) => st == 0x10 && decide (0x0A ≤ d.toNat)

/-- DESCRIPTOR_DECODE of context `n`: `desc` is the entry as read (64 octets, or 128 of a long descriptor), `input` the octets
that the read issued at IN_ADDR returns; none is a read that ended with an error completion. A lookup waits until the Cellar is
READY (R334); an open chain does not hold it (R337). -/
def descriptorDecode (n : Nat) (desc input : Option (List Byte)) (p : Part) : Part :=
  let c := p.ctx n
  if c.state ≠ .fetched ∨ p.earlierFetched n then p
  else
    match desc with
    | none => p.fail n 0x10 0x0C
    | some raw =>
      let d := Pk.fit 128 raw
      let h := headOf d
      let d := if h.long then d else Pk.fit 128 (d.take 64)
      if h.long && !p.secondReady n then p
      else if !p.slc.ready && (handlesOf h d).any (· != 0) then p
      else
      let inLen := dNum d 16 2
      let given : List Byte := if h.inPtr then Pk.fit inLen (input.getD []) else (inlineOf h d).take inLen
      let p := p.when h.long (takeSecond n)
      let p := p.modCtx n (loadCtx h d (p.effClassOf c.fn c.qp h.cls))
      let st := p.tnt.states.get 0 c.fn
      if p.sys.mode = .quarantine then p.fail n 0x51 0
      else if p.sys.mode = .standby then p.fail n 0x40 0
      else if st = 2 ∨ st = 3 ∨ st = 4 then p.fail n 0x50 0
      else
        let fault := p.descFault (decide (4096 ≤ c.qp)) h d
        let p := p.when (readsInput h fault) (issueRead c.fn (BitVec.ofNat 64 (dNum d 24 8)) inLen)
        match fault with
        | some (a, b) => p.fail n a b
        | none =>
          if h.inPtr && input.isNone then p.fail n 0x10 0x0C
          else
            let hs := handlesOf h d
            if !p.gateOpen && hs.any fun x => hClass x == 5 then p.fail n 0x41 0
            else
              match p.programEntry (h.kind == 1) h.program (BitVec.ofNat 32 (dNum d 20 4)) with
              | none => p.fail n 0x14 0
              | some (e, _) =>
                match handleCheck (colourOf c.fn) (hs.zip (e.handles ++ List.replicate 4 [])) 0 p with
                | (some (a, b), p) => p.fail n a b
                | (none, p) =>
                  let fits : Bool :=
                    match e.single with
                    | some m => dNum d 90 2 != 0 && h.long || p.primitiveFits m (hs.headD 0) (dNum d 18 2)
                    | none => true
                  if !fits then p.fail n 0x10 0x06
                  else (p.writeContext n d given).modCtx n fun c => { c with state := .decoded }

/-! ### Scatter-gather lists (R94, R95) -/

/-- The entries of a list as read. -/
def listOf (bs : List Byte) : List (BitVec 64 × Nat) :=
  (Crypto.pieces 16 bs).map fun e => (BitVec.ofNat 64 (dNum e 0 8), dNum e 8 4)

/-- Every entry holds under R94. -/
def entriesOk (bs : List Byte) : Bool :=
  (Crypto.pieces 16 bs).all fun e =>
    decide (1 ≤ dNum e 8 4 ∧ dNum e 8 4 ≤ 0x1000000 ∧ dNum e 0 8 + dNum e 8 4 ≤ 2 ^ 64) && dNum e 12 4 == 0

/-- The octets of a list. -/
def listLen (l : List (BitVec 64 × Nat)) : Nat := (l.map Prod.snd).sum

/-- The reads of both lists at their host addresses (R93, R95). -/
def issueLists (c : Ctx) (p : Part) : Part :=
  (p.issueRead c.fn c.sglIn.1 (16 * c.sglIn.2)).issueRead c.fn c.sglOut.1 (16 * c.sglOut.2)

/-- Octets of a scatter-gather list read from host memory, from an offset. -/
def issueListRead (fn : Nat) : List (BitVec 64 × Nat) → Nat → Nat → Part → Part
  | [], _, _, p => p
  | (a, len) :: es, off, n, p =>
    if n = 0 then p
    else if len ≤ off then issueListRead fn es (off - len) n p
    else
      let m := min (len - off) n
      issueListRead fn es 0 (n - m) (p.issueRead fn (a + BitVec.ofNat 64 off) m)

/-- SGL_READ: both lists are read and checked whole; `lists` is what their reads return, or none where one ended with an error
completion. -/
def sglRead (n : Nat) (lists : Option (List Byte × List Byte)) (p : Part) : Part :=
  let c := p.ctx n
  if c.state ≠ .decoded ∨ c.lists.isSome ∨ (c.sglIn.2 = 0 ∧ c.sglOut.2 = 0 ∧ !c.bulk) then p
  else
    let p := issueLists c p
    match lists with
    | none => p.fail n 0x10 0x0C
    | some (i, o) =>
      let i := Pk.fit (16 * c.sglIn.2) i
      let o := Pk.fit (16 * c.sglOut.2) o
      let need : Nat :=
        if c.bulk then bulkOutput c.program.toNat c.param c.param2 c.streamLen
        else
          match (Library.entry c.program.toNat c.param).bind ProgEntry.single with
          | some m =>
            let s := p.slot (hIndex (c.handles.headD 0))
            if Pk.family m s.alg.toNat then Pk.outLen m s.alg.toNat s.modLimbs.toNat else 0
          | none =>
            let slot := fun (i : Nat) => p.slot (hIndex (c.handles.getD i 0))
            max (((Library.entry c.program.toNat c.param).map ProgEntry.minOut).getD 0)
              (libraryOut c.program.toNat c.param (c.inLen + if c.sglIn.2 = 0 then 0 else c.streamLen) (slot 0) (slot 1))
      let inOk := (c.sglIn.2 == 0 && !c.bulk) || listLen (listOf i) == c.streamLen
      let outOk := (c.sglOut.2 == 0 && !c.bulk) || decide (need ≤ listLen (listOf o))
      if entriesOk i && entriesOk o && inOk && outOk then p.modCtx n fun c => { c with lists := some (listOf i, listOf o) }
      else p.fail n 0x10 0x07

/-! ### Placement (R111 to R118) -/

/-- The kinds of unit: sequencers, rakes, grainers, pans. -/
inductive UnitKind where
  | seq | rake | grainer | pan
  deriving DecidableEq, Repr

/-- What a context's operation is placed on. -/
def kindOf (c : Ctx) : UnitKind :=
  if c.bulk then .pan
  else
    match (Library.entry c.program.toNat c.param).bind ProgEntry.single with
    | some m => if Pk.grainer m then .grainer else .rake
    | none => .seq

/-- Contexts placed on a unit and not yet ended. -/
def placedOn (p : Part) (sel : UnitRef → Bool) : Nat :=
  (p.dsp.ctxs.filter fun c => match c.2.unit with | some u => sel u | none => false).length

/-- The threads of sequencer `q` that hold no harvest and are not promised to one. -/
def freeThreads (p : Part) (q : Nat) : List Nat :=
  (List.range 32).filter fun t =>
    !(p.thread (32 * q + t)).busy && p.placedOn (fun u => u == .thread q t) == 0

/-- A unit that is a thread of sequencer `q`, or its queue for an AUTH harvest that found none free. -/
def onSeq (q : Nat) (u : UnitRef) : Bool := match u with | .thread i _ => i == q | _ => false

/-- A unit may receive an operation of this class (R111, R253, R279, R293). Only an operation that is not AUTH needs free threads. -/
def candidate (p : Part) (k : UnitKind) (auth : Bool) (i : Nat) : Bool :=
  let d := match k with | .rake => 16 + i | .grainer => 64 + i | _ => i
  let up := p.powered d && !(p.island (islandOf d)).drain
  match k with
  | .seq =>
    let n := (p.freeThreads i).length
    up && !(p.pan.pans.get {} i).retired && p.seq.run && (auth || decide (p.dsp.st.eff.reserve.toNat < n))
  | .pan => up && !(p.pan.pans.get {} i).retired && decide (p.placedOn (fun u => u == .pan i) < 8)
  | .rake => up && p.engineUp i && decide ((p.eng i).queue.length < p.depthMax i)
  | .grainer => up && p.engineUp (48 + i) && decide ((p.eng (48 + i)).queue.length < p.depthMax (48 + i))

/-- The units of a kind. -/
def unitsOf : UnitKind → List Nat
  | .rake => List.range 48
  | .grainer => List.range 8
  | _ => List.range 16

/-- The score of R111, under the set that would govern the operation on the unit (R121). -/
def score (p : Part) (k : UnitKind) (i : Nat) : Nat :=
  let w := p.dsp.st.eff
  let (depth, d) := match k with
    | .seq => (p.placedOn (onSeq i), i)
    | .pan => (p.placedOn fun u => u == .pan i, i)
    | .rake => (p.depthOf i, 16 + i)
    | .grainer => (p.depthOf (48 + i), 64 + i)
  let m := p.island (islandOf d)
  w.wDepth.toNat * depth + w.wThermal.toNat * m.band.toNat + w.wStep.toNat * m.step.toNat

/-- The unit that receives an operation (R111): the lowest score, then the lowest index. -/
def choose (p : Part) (k : UnitKind) (auth : Bool) : Option Nat :=
  ((unitsOf k).filter (p.candidate k auth)).foldl
    (fun b i =>
      match b with
      | none => some i
      | some j => if p.score k i < p.score k j then some i else some j)
    none

/-- A fence keeps a context from its unit (R116): its own, while an earlier descriptor of the queue pair has no completion
written; or that of an earlier one not yet placed. -/
def fenced (p : Part) (n : Nat) : Bool :=
  let c := p.ctx n
  p.dsp.ctxs.any fun x =>
    x.2.qp == c.qp && x.2.state != .free && decide (x.2.order < c.order)
      && (c.fence || (x.2.fence && !x.2.placed && x.2.state != .finished))

/-- An older operation of the same class waits for the same kind of unit (R111). -/
def olderHeld (p : Part) (n : Nat) : Bool :=
  let c := p.ctx n
  p.dsp.ctxs.any fun x =>
    x.1 != n && x.2.state == .held && x.2.effClass == c.effClass && kindOf x.2 == kindOf c && decide (x.2.order < c.order)
      && !p.fenced x.1

/-- The two inputs of a single primitive (R246, R247): the digest, message or μ, and the signature. -/
def splitInput (p : Part) (m : Nat) (w3 : Word) (h : BitVec 32) (bs : List Byte) : List Byte × List Byte :=
  let cut : Nat :=
    if m = Pk.rsaVerify then Pk.digestLen w3
    else if m = Pk.ecVerify then bs.length - Pk.ecSig (p.slot (hIndex h)).alg.toNat
    else if m = Pk.mldsaVerify then 64
    else bs.length
  (bs.take cut, bs.drop cut)

/-- Word 3 of the operand map from PARAM: the padding and digest of R247. -/
def primitiveW3 (param : Word) : Word := at' (fld param 0 2) 4 ||| at' (fld param 4 2) 6

/-- A single primitive handed to engine `e`. -/
def givePrimitive (n m e : Nat) (data : List Byte) (p : Part) : Part :=
  let c := p.ctx n
  let h := c.handles.headD 0
  let w3 := primitiveW3 c.param
  let (a, b) := p.splitInput m w3 h (p.ctxData n 0 c.inLen ++ data)
  p.enqueue e
    { owner := .ctx n, cls := c.effClass, fn := c.fn, mode := BitVec.ofNat 9 m, handle := h, colour := colourOf c.fn, in1 := a
      in2 := b, word3 := w3, depth := p.depthMax e }

/-- The key of the unit of a kind (R121). -/
def unitKey : UnitKind → Nat → Nat
  | .seq, i => i
  | .pan, i => panKey' i
  | .rake, i => engKey i
  | .grainer, i => engKey (48 + i)

/-- The AES core a stream is bound to (R253): the one with fewer streams, core A on a tie. -/
def coreFor (x : Pan) : Bool :=
  decide ((x.streams.filter fun s => s.coreB).length < (x.streams.filter fun s => !s.coreB).length)

/-- A stream bound to pan `k` at its placement. -/
def placeStream (n k : Nat) (p : Part) : Part :=
  p.modPan fun b =>
    { b with pans := b.pans.upd {} k fun x => { x with streams := x.streams ++ [{ ctx := n, coreB := coreFor x }] } }

/-- OPERATION_PLACE: the operation of a decoded or held context goes to its unit, or is held; `data` is what the reads of its
input list return, for a program that is not a bulk stream. A harvest goes to the sequencer's lowest-numbered free thread
(R125); an AUTH harvest that finds none free waits for one there, as thread 32. -/
def operationPlace (n : Nat) (data : List Byte) (p : Part) : Part :=
  let c := p.ctx n
  let needs := c.bulk || c.sglIn.2 != 0 || c.sglOut.2 != 0
  if !(c.state == .decoded || c.state == .held) || (needs && c.lists.isNone) || p.fenced n || p.olderHeld n then p
  else
    let k := kindOf c
    match p.choose k (c.effClass == 0) with
    | none => p.modCtx n fun c => { c with state := .held }
    | some i =>
      let len := if c.bulk ∨ c.sglIn.2 = 0 then 0 else c.streamLen
      let data := Pk.fit len data
      let p := (issueListRead c.fn ((c.lists.getD ([], [])).1) 0 len p).dspNow (unitKey k i)
      let u : UnitRef := match k with
        | .seq => .thread i ((p.freeThreads i).headD 32)
        | .pan => .pan i
        | .rake => .rake i
        | .grainer => .grainer i
      let dR := p.depthMax 0
      let dG := p.depthMax 48
      let p := p.modCtx n fun c =>
        { c with state := .queued, placed := true, unit := some u, inData := data, depthR := dR, depthG := dG }
      match k, (Library.entry c.program.toNat c.param).bind ProgEntry.single with
      | .rake, some m => p.givePrimitive n m i data
      | .grainer, some m => p.givePrimitive n m (48 + i) data
      | .pan, _ => p.placeStream n i
      | _, _ => p

/-! ### The completion stage (R84, R89, R98, R99, R119, R120, R544) -/

/-- The unread entries of a completion ring leave no room (R88). -/
def cqFull (q : Qp) : Bool := (q.cqWrite.toNat + 1) % 2 ^ q.st.eff.cqLog.toNat == q.cqHead.toNat

/-- The status, detail, RESULT and output that the completion stage posts (R544): of an operation that ran and is not Class A, a
part that may not answer posts NOT_CLAIMANT. DEVICE_QUARANTINED stands whatever the mode (R104). -/
def postedOf (p : Part) (c : Ctx) : Byte × Byte × List Byte × Bool :=
  let serve := p.sys.mode == .service || p.sys.mode == .ceremony
  let ok := c.classA || !c.placed || c.status == 0x51
    || (serve && (!p.paired || decide (p.mir.peerClaim.toNat < p.mir.ownClaim.toNat)))
  if ok then (c.status, c.detail, c.result, true) else (0x40, 0, [], false)

/-- The 32 octets of a completion (R98). -/
def completion (c : Ctx) (q : Qp) (status detail : Byte) (result : List Byte) (latency : BitVec 16) (out : Word) : List Byte :=
  let flags : Byte := (if q.phase then 1 else 0) ||| (if c.demoted then 2 else 0) ||| (if c.wait then 4 else 0)
  leBytes 4 c.tag.toNat ++ [status, detail, flags, BitVec.ofNat 8 result.length] ++ leBytes 2 q.sqHead.toNat
    ++ leBytes 2 latency.toNat ++ leBytes 4 out.toNat ++ Pk.fit 16 result

/-- A completion counted towards an interrupt, and the message when R120 sends one. -/
def countCompletion (g fn : Nat) (auth noIrq : Bool) (p : Part) : Part :=
  if noIrq then p
  else
    let c := (p.qp g).st.eff
    let n := (p.qp g).unsignalled + 1
    if max 1 c.coalCnt.toNat ≤ n ∨ (auth ∧ c.authImm) then
      (p.modQp g fun q => { q with unsignalled := 0 }).signal fn c.vector.toNat
    else p.modQp g fun q => { q with unsignalled := n }

/-- A completion of the queue pair that waited and finished earlier is written first (R89). -/
def earlierWaits (p : Part) (n : Nat) : Bool :=
  let c := p.ctx n
  c.wait && p.dsp.ctxs.any fun x => x.2.qp == c.qp && x.2.wait && decide (x.2.finOrder < c.finOrder)

/-- COMPLETION_WRITE of a context whose operation has ended and whose ledger step is over: held while R73 or R89 holds it, else
output octets, completion and message are issued and the context is freed (R107, R119). -/
def completionWrite (n : Nat) (p : Part) : Part :=
  let c := p.ctx n
  if c.state ≠ .finished ∨ 4096 ≤ c.qp ∨ p.waits n ∨ p.earlierWaits n then p
  else if c.discard || (p.fn c.fn).draining then p.freeCtx n
  else if !p.mayPost c.fn || cqFull (p.qp c.qp) then p.modCtx n fun c => { c with wait := true }
  else
    let q := p.qp c.qp
    let (st, det, res, ran) := p.postedOf c
    let good := st == 0 || st == 1
    let out : Word := if ran then c.outCount else BitVec.ofNat 32 c.outList
    let (k, p) := p.draw
    let p :=
      match c.outPtr with
      | some a => p.when (good && out != 0) (issueWrite c.fn a (p.ctxData n 0 out.toNat))
      | none => p
    let p := p.issueWrite c.fn (q.st.eff.cqBase + BitVec.ofNat 64 (32 * q.cqWrite.toNat))
      (completion c q st det (if good then res.take 16 else []) ((Config.freeWord k).setWidth 16) out)
    let size := 2 ^ q.st.eff.cqLog.toNat
    let p := p.modQp c.qp fun q =>
      { q with cqWrite := BitVec.ofNat 16 ((q.cqWrite.toNat + 1) % size)
               phase := if q.cqWrite.toNat + 1 = size then !q.phase else q.phase }
    (p.countCompletion c.qp c.fn (c.effClass == 0) c.noIrq).freeCtx n

/-- COAL_TIME_EXPIRY (R120). -/
def coalExpiry (g : Nat) (p : Part) : Part :=
  match p.qpOwner g with
  | none => p
  | some f =>
    let q := p.qp g
    if q.unsignalled = 0 ∨ q.st.eff.coalTime = 0 then p
    else (p.modQp g fun q => { q with unsignalled := 0 }).signal f q.st.eff.vector.toNat

end Part

/-! ### The meanings. A queue pair is named by its function and local number. -/

/-- QP_COMMIT (R82). -/
def execQpCommit (n : Fin 1025) (q : Fin 64) (s : State) : Host.Outcome State Fault Refusal :=
  onPart (Part.onQp n.val q.val (Part.qpCommit n.val)) s
/-- QP_ENABLE_SET (R83). -/
def execQpEnableSet (n : Fin 1025) (q : Fin 64) (s : State) : Host.Outcome State Fault Refusal :=
  onPart (Part.onQp n.val q.val Part.qpEnable) s
/-- QP_ENABLE_CLEAR (R83). -/
def execQpEnableClear (n : Fin 1025) (q : Fin 64) (s : State) : Host.Outcome State Fault Refusal :=
  onPart (Part.onQp n.val q.val Part.qpDisable) s
/-- SQ_TAIL_WRITE (R85, R86). -/
def execSqTailWrite (n : Fin 1025) (q : Fin 64) (v : BitVec 16) (s : State) : Host.Outcome State Fault Refusal :=
  onPart (Part.onQp n.val q.val (Part.sqTailWrite n.val v)) s
/-- CQ_HEAD_WRITE (R86, R88). -/
def execCqHeadWrite (n : Fin 1025) (q : Fin 64) (v : BitVec 16) (s : State) : Host.Outcome State Fault Refusal :=
  onPart (Part.onQp n.val q.val (Part.cqHeadWrite n.val v)) s
/-- DSP_ENABLE_WRITE (R105). -/
def execDspEnableWrite (on : Bool) (s : State) : Host.Outcome State Fault Refusal :=
  onPart (Part.modDsp fun d => { d with enable := on }) s
/-- DSP_COMMIT (R121, R122). -/
def execDspCommit (s : State) : Host.Outcome State Fault Refusal := onPart Part.dspCommit s
/-- LANE_FETCH (R105, R106, R108): global queue pair `g`, `n` entries. -/
def execLaneFetch (g : BitVec 12) (n : Fin 9) (s : State) : Host.Outcome State Fault Refusal :=
  onPart (Part.laneFetch g.toNat n.val) s
/-- DESCRIPTOR_DECODE (R110). -/
def execDescriptorDecode (c : BitVec 16) (desc input : Option (List Byte)) (s : State) : Host.Outcome State Fault Refusal :=
  onPart (Part.descriptorDecode c.toNat desc input) s
/-- SGL_READ (R95). -/
def execSglRead (c : BitVec 16) (lists : Option (List Byte × List Byte)) (s : State) : Host.Outcome State Fault Refusal :=
  onPart (Part.sglRead c.toNat lists) s
/-- OPERATION_PLACE (R111). -/
def execOperationPlace (c : BitVec 16) (data : List Byte) (s : State) : Host.Outcome State Fault Refusal :=
  onPart (Part.operationPlace c.toNat data) s
/-- COMPLETION_WRITE (R98, R544). -/
def execCompletionWrite (c : BitVec 16) (s : State) : Host.Outcome State Fault Refusal :=
  onPart (Part.completionWrite c.toNat) s
/-- COAL_TIME_EXPIRY (R120). -/
def execCoalTimeExpiry (g : BitVec 12) (s : State) : Host.Outcome State Fault Refusal := onPart (Part.coalExpiry g.toNat) s

end Sys2Proof.Machine
end

