-- ==== Sys2Proof/Machine/Pans.lean ====
section
/-! DEFINITION. The pans (07_pans.md): bulk streams, mask reseeds, known-answer tests, retirement and the block's staged fields. A
chunk's blocks are counted together. -/

namespace Sys2Proof.Machine
namespace Part

def onePan (p : Part) (n : Nat) : Pan := p.pan.pans.get {} n

def modOnePan (n : Nat) (g : Pan → Pan) (p : Part) : Part := p.modPan fun b => { b with pans := b.pans.upd {} n g }

/-! ### Masking (R275, R276) -/

/-- INTERVAL and LIMIT in effect, in blocks. -/
def maskInterval (p : Part) : Nat := 2 ^ p.pan.st.eff.interval.toNat
def maskLimit (p : Part) : Nat := 2 ^ p.pan.st.eff.limit.toNat

/-- A pan accepts blocks: powered, not retired, its masks fresh enough. -/
def panReady (p : Part) (n : Nat) : Bool :=
  let x := p.onePan n
  p.powered n && !x.retired && !x.stall && decide (x.maskCount < p.maskLimit)

/-- `k` blocks masked and processed. -/
def panBlocks (n k : Nat) (p : Part) : Part :=
  p.modOnePan n fun x =>
    { x with blocks := x.blocks + BitVec.ofNat 32 k, maskCount := min (2 ^ 28) (x.maskCount + k) }

/-- MASK_RESEED_REQUEST: a pan without a usable state, or with INTERVAL blocks masked, draws 32 octets of class MASK over its
wire, once. -/
def maskRequest (n : Nat) (p : Part) : Part :=
  let x := p.onePan n
  let sent := p.ent.waiting.any (fun d => d.wire == n) || p.ent.wires.get [] n != []
  if sent || x.retired || !p.powered n || !(x.stall || decide (p.maskInterval ≤ x.maskCount)) then p
  else p.entRequest n .mask 32

/-- MASK_LIMIT_STALL. -/
def maskStall (n : Nat) (p : Part) : Part :=
  p.when (decide (p.maskLimit ≤ (p.onePan n).maskCount)) (modOnePan n fun x => { x with stall := true })

/-- MASK_RESEED_ARRIVE: the value delivered on the pan's wire. -/
def maskArrive (n : Nat) (p : Part) : Part :=
  let bs := p.ent.wires.get [] n
  if bs = [] then p
  else
    (p.modEnt fun e => { e with wires := e.wires.set [] n [] }).modOnePan n fun x =>
      { x with mask := bs, maskCount := 0, stall := false }

/-! ### Staged fields (R281) -/

/-- No block is in progress on any pan. -/
def pansIdle (p : Part) : Bool :=
  (p.pan.pans.all fun x => x.2.streams.all fun s => !s.started) && p.seq.threads.all fun t => t.2.reqs.all fun r =>
    match r.unit with | .pan _ => false | _ => true

def panCommit (p : Part) : Part :=
  let c := p.pan.st.stage
  let ok := decide (16 ≤ c.interval.toNat ∧ c.interval.toNat ≤ c.limit.toNat ∧ c.limit.toNat ≤ 28)
  let idle := p.pansIdle
  p.modPan fun b => { b with cfgMismatch := b.cfgMismatch || !ok, st := b.st.commit ok idle }

def panApply (p : Part) : Part := p.modPan fun b => { b with st := b.st.apply }

/-! ### Known-answer tests and retirement (R279, R280) -/

/-- A pan is retired: erased, its harvests and streams lost; `cause` 0 for a failed test, 1 for PAN_RETIRE. -/
def panRetire (cause : BitVec 2) (n : Nat) (p : Part) : Part :=
  if (p.onePan n).retired then p
  else
    let p := p.modOnePan n fun x => { x with retired := true }
    (p.domLoses n).post 0x5001#16 (BitVec.ofNat 32 n ||| at' cause 8) 0

/-- A write of RETIRE: at once on a pan that processes nothing, else at its next block boundary, which the model takes as
reached with the write, since a step processes whole blocks. -/
def panRetireWrite (n : Nat) (p : Part) : Part := p.panRetire 1 n

def panKat (n : Nat) (p : Part) : Part := p.modOnePan n fun x => { x with katRun := true }

def panKatEnd (n : Nat) (failed : Bool) (p : Part) : Part :=
  if !(p.onePan n).katRun then p
  else
    let p := p.modOnePan n fun x => { x with katRun := false, katDone := true, katFail := failed }
    (p.katRecord 1 n failed).when failed (panRetire 0 n)

/-! ### Bulk streams (R253, R269 to R272) -/

/-- A bulk decryption (R271). -/
def bulkDecrypts (num : Nat) : Bool := [0x0801, 0x0821, 0x0831, 0x0841, 0x0851].contains num

/-- The usage bits a bulk program needs (R323). -/
def bulkUsage (num : Nat) : BitVec 16 :=
  0x2000 ||| (if num = 0x0861 ∨ num = 0x0868 then 0x0004 else if bulkDecrypts num then 0x0002 else 0x0001)

/-- The algorithms a bulk program accepts. -/
def bulkAlg (num : Nat) (alg : Byte) : Bool :=
  if num = 0x0850 ∨ num = 0x0851 then isTdes alg else if num = 0x0861 then isHmac alg else isAes alg

/-- Octet `o` on of INLINE2 of a context's descriptor. -/
def inline2 (p : Part) (n o len : Nat) : List Byte := p.opBuf.read ram (512 * n + 100 + o) len

/-- The length and counter rules of R270, without the keys. -/
def bulkLengthOk (p : Part) (n : Nat) : Bool :=
  let c := p.ctx n
  let num := c.program.toNat
  let len := c.streamLen
  if num = 0x0820 ∨ num = 0x0821 then len % 16 == 0
  else if num = 0x0850 ∨ num = 0x0851 then len % 8 == 0
  else if num = 0x0830 ∨ num = 0x0831 then len % 2 ^ (fld c.param 0 5).toNat == 0
  else if num = 0x0810 then
    let w := c.param.toNat
    decide (ofBe (p.inline2 n 0 16) % 2 ^ w + (len + 15) / 16 ≤ 2 ^ w)
  else true

/-- One key of a bulk stream read and checked: what ends the stream, or its octets. -/
def bulkKey (num : Nat) (fn : Nat) (h : BitVec 32) (field : Nat) (p : Part) : Except (Byte × Byte) (List Byte) × Part :=
  match p.slotRead h (colourOf fn) [1] with
  | (.error (st, why), p) => (.error (st, keyDetail why field), p)
  | (.ok ss, p) =>
    let s := ss.headD (Slc.emptySlot 0)
    match p.useCheck s (bulkAlg num s.alg) (bulkUsage num) with
    | some (st, why) => (.error (st, keyDetail why field), p)
    | none =>
      if bulkDecrypts num && s.decryptClass != 0 then (.error (0x12, keyDetail 0 field), p) else (.ok (keyOf s), p)
/-- The pan that a context's stream is placed on. -/
def panOf (p : Part) (n : Nat) : Option Nat :=
  match (p.ctx n).unit with | some (.pan k) => some k | _ => none

/-- A bound stream given its keys and start value. -/
def bindStream (n k : Nat) (key key2 : List Byte) (p : Part) : Part :=
  let num := (p.ctx n).program.toNat
  let iv : List Byte :=
    if num = 0x0800 ∨ num = 0x0801 then p.inline2 n 0 12
    else if num = 0x0850 ∨ num = 0x0851 then p.inline2 n 0 8
    else if num = 0x0860 ∨ num = 0x0861 ∨ num = 0x0868 then [] else p.inline2 n 0 16
  (p.modOnePan k fun x =>
    { x with streams := x.streams.map fun s =>
        if s.ctx = n then { s with started := true, key := key, key2 := key2, chain := iv } else s }).modCtx n
    fun c => { c with state := .running }

/-- BULK_STREAM_START of a context placed on a pan: the checks of R270 and R271, the keys read, the stream bound. -/
def bulkStart (n : Nat) (p : Part) : Part :=
  let c := p.ctx n
  let num := c.program.toNat
  match p.panOf n with
  | none => p
  | some k =>
    let hs := c.handles.take (if num = 0x0860 then 0 else if num = 0x0830 ∨ num = 0x0831 then 2 else 1)
    if c.state ≠ .queued ∨ !c.bulk ∨ hs.any (fun h => p.cellarWaits h) then p
    else if !p.bulkLengthOk n then p.fail n 0x10 0x0A
    else
      match hs with
      | [] => p.bindStream n k [] []
      | h0 :: l =>
        match p.bulkKey num c.fn h0 0 with
        | (.error (st, d), p) => p.fail n st d
        | (.ok k0, p) =>
          match l with
          | [] => p.bindStream n k k0 []
          | h1 :: _ =>
            match p.bulkKey num c.fn h1 1 with
            | (.error (st, d), p) => p.fail n st d
            | (.ok k1, p) =>
              if k0.length ≠ k1.length then p.fail n 0x10 0x0A
              else if k0 = k1 then p.fail n 0x12 (keyDetail 1 1)
              else p.bindStream n k k0 k1

/-- One chunk through a stream: the output octets and the stream after it; `aad` octets lead the stream under GCM. -/
def bulkStep (num : Nat) (param : Word) (aad : Nat) (bs : List Byte) (s : Stream) : List Byte × Stream :=
  let c := Crypto.cipherOf (num == 0x0850 || num == 0x0851) s.key
  let keep := fun (r : List Byte × List Byte) => (r.1, { s with chain := r.2 })
  let (out, s') : List Byte × Stream :=
    match num with
    | 0x0800 | 0x0801 =>
      let a := bs.take (aad - s.pos)
      let d := bs.drop (aad - s.pos)
      let y := Crypto.gcmCrypt s.key s.chain (s.pos + a.length - aad) d
      (y, { s with acc := s.acc ++ a ++ (if num = 0x0800 then y else d) })
    | 0x0810 => (Crypto.ctrAt c param.toNat s.chain s.pos bs, s)
    | 0x0820 | 0x0850 => keep (Crypto.cbcEnc c s.chain bs)
    | 0x0821 | 0x0851 => keep (Crypto.cbcDec c s.chain bs)
    | 0x0830 => (Crypto.xts true s.key s.key2 (2 ^ (fld param 0 5).toNat) (ofLe s.chain) s.pos bs, s)
    | 0x0831 => (Crypto.xts false s.key s.key2 (2 ^ (fld param 0 5).toNat) (ofLe s.chain) s.pos bs, s)
    | 0x0840 => keep (Crypto.cfb true c s.chain bs)
    | 0x0841 => keep (Crypto.cfb false c s.chain bs)
    | 0x0848 => keep (Crypto.ofb c s.chain bs)
    | _ => ([], { s with acc := s.acc ++ bs })
  (out, { s' with pos := s.pos + bs.length, written := s.written + out.length })

/-- The compressions of a hash over `n` octets so far, or with `final` of the whole padded message. -/
def hashBlocks (code n : Nat) (final : Bool) : Nat :=
  let b := Crypto.hashBlock code
  if !final then n / b else if code ≤ 4 then (n + 1 + b / 8 + (b - 1)) / b else n / b + 1

/-- The blocks of HMAC over `n` octets: the two pads of the key, the message, and at the end the outer compression. -/
def hmacBlocks (code n : Nat) (final : Bool) : Nat :=
  let b := Crypto.hashBlock code
  if final then hashBlocks code (b + n) true + 2 else 2 + n / b

/-- The blocks of CMAC over `n` octets with blocks of `b`: the subkey, and the message, whose last block waits for the end. -/
def cmacBlocks (b n : Nat) (final : Bool) : Nat := 1 + if final then max 1 ((n + b - 1) / b) else (n - 1) / b

/-- The blocks that a bulk program has made its pan process after `n` octets of its input, or with `final` in all (R252): with the
two of GCM that give the hash key and the tag mask, and one of XTS for each data unit (log entry 172). -/
def bulkBlocks (c : Ctx) (n : Nat) (final : Bool) : Nat :=
  let num := c.program.toNat
  let code := (fld c.param 0 4).toNat
  let aes := (n + 15) / 16
  if n = 0 then 0
  else
    match num with
    | 0x0800 | 0x0801 => 2 + (n - c.param2.toNat + 15) / 16
    | 0x0830 | 0x0831 => let u := 2 ^ (fld c.param 0 5).toNat; aes + (n + u - 1) / u
    | 0x0850 | 0x0851 => (n + 7) / 8
    | 0x0860 =>
      let b := Crypto.hashBlock code
      hashBlocks code n final + if final && decide (8 ≤ code) then (c.param2.toNat - 1) / b else 0
    | 0x0861 => hmacBlocks code n final
    | 0x0868 => cmacBlocks 16 n final
    | _ => aes

/-- The started stream of a context on its pan. -/
def streamOf (p : Part) (n : Nat) : Option (Nat × Stream) :=
  (p.panOf n).bind fun k => ((p.onePan k).streams.find? fun s => s.ctx == n && s.started).map fun s => (k, s)

/-- The most octets, up to `len`, of a stream's next chunk whose blocks LIMIT lets the pan process (R275). -/
def chunkRoom (p : Part) (c : Ctx) (k : Nat) (s : Stream) (len : Nat) : Nat :=
  let room := p.maskLimit - (p.onePan k).maskCount
  let fits := fun (l : Nat) => decide (bulkBlocks c (s.pos + l) false ≤ bulkBlocks c s.pos false + room)
  ((List.range (len + 1)).reverse.find? fits).getD 0

/-- BULK_CHUNK: the next 512 octets of the input list, what is left of it, or what LIMIT lets the pan process. A drain discards what
the host's data gives. -/
def bulkChunk (n : Nat) (data : List Byte) (p : Part) : Part :=
  match p.streamOf n with
  | none => p
  | some (k, s) =>
    let c := p.ctx n
    let pan := p.panApply
    let len := pan.chunkRoom c k s (min 512 (c.streamLen - s.pos))
    if len = 0 ∨ !pan.panReady k then p
    else
      let p := pan
      let p := issueListRead c.fn ((c.lists.getD ([], [])).1) s.pos len p
      let bs := Pk.fit len data
      let (out, s') := bulkStep c.program.toNat c.param c.param2.toNat bs s
      let p := (p.modOnePan k fun x => { x with streams := x.streams.map fun y => if y.ctx = n then s' else y }).panBlocks k
        (bulkBlocks c s'.pos false - bulkBlocks c s.pos false)
      if (p.fn c.fn).draining then p.modCtx n fun c => { c with outList := c.outList + out.length }
      else p.putList n s.written out

/-- The end of a stream: its status, RESULT, and octets for the output list; `k` names a free draw. -/
def bulkResult (c : Ctx) (s : Stream) (expect : List Byte) (k : Nat) : Byte × List Byte × List Byte :=
  let num := c.program.toNat
  let low := (fld c.param 0 5).toNat
  let code := (fld c.param 0 4).toNat
  let put := fun (d : List Byte) => if d.length ≤ 16 then (0x00#8, d, []) else (0x00#8, [], d)
  match num with
  | 0x0800 => (0, (Crypto.gcmTag s.key s.chain (s.acc.take c.param2.toNat) (s.acc.drop c.param2.toNat)).take low, [])
  | 0x0801 =>
    let t := (Crypto.gcmTag s.key s.chain (s.acc.take c.param2.toNat) (s.acc.drop c.param2.toNat)).take low
    (if t = expect.take low then 0 else 1, [], [])
  | 0x0810 => (0, Crypto.ctrAdd c.param.toNat s.chain ((c.streamLen + 15) / 16), [])
  | 0x0820 | 0x0821 | 0x0850 | 0x0851 => (0, s.chain, [])
  | 0x0840 | 0x0841 => (0, if c.streamLen % 16 = 0 then s.chain else drawBytes k 16, [])
  | 0x0860 => put (Crypto.digest code c.param2.toNat s.acc)
  | 0x0861 => put (Crypto.hmac code s.key s.acc)
  | 0x0868 => (0, (Crypto.cmac (Crypto.aes s.key) s.acc).take low, [])
  | _ => (0, [], [])

/-- BULK_STREAM_END once every octet has passed (R96, R272). -/
def bulkEnd (n : Nat) (p : Part) : Part :=
  match p.streamOf n with
  | none => p
  | some (k, s) =>
    let c := p.ctx n
    if s.pos < c.streamLen ∨ !p.panReady k then p
    else
      let (free, p) := p.draw
      let (st, res, lst) := bulkResult c s (p.inline2 n 12 16) free
      let p := p.panBlocks k (bulkBlocks c s.pos true - bulkBlocks c s.pos false)
      let p := if (p.fn c.fn).draining then p else p.putList n s.written lst
      p.finish n st 0 res (BitVec.ofNat 32 (s.written + lst.length))

end Part

/-! ### The meanings. A stream is named by its context. -/

/-- BULK_STREAM_START (R97, R253, R270, R271). -/
def execBulkStreamStart (c : BitVec 16) (s : State) : Host.Outcome State Fault Refusal := onPart (Part.bulkStart c.toNat) s
/-- BULK_CHUNK (R96, R253). -/
def execBulkChunk (c : BitVec 16) (data : List Byte) (s : State) : Host.Outcome State Fault Refusal :=
  onPart (Part.bulkChunk c.toNat data) s
/-- BULK_STREAM_END (R96, R272). -/
def execBulkStreamEnd (c : BitVec 16) (s : State) : Host.Outcome State Fault Refusal := onPart (Part.bulkEnd c.toNat) s
/-- PAN_COMMIT (R281). -/
def execPanCommit (s : State) : Host.Outcome State Fault Refusal := onPart Part.panCommit s
/-- PAN_KAT (R280). -/
def execPanKat (n : Fin 16) (s : State) : Host.Outcome State Fault Refusal := onPart (Part.panKat n.val) s
/-- PAN_KAT_END (R279, R280). -/
def execPanKatEnd (n : Fin 16) (failed : Bool) (s : State) : Host.Outcome State Fault Refusal :=
  onPart (Part.panKatEnd n.val failed) s
/-- PAN_RETIRE (R279). -/
def execPanRetire (n : Fin 16) (s : State) : Host.Outcome State Fault Refusal := onPart (Part.panRetireWrite n.val) s
/-- MASK_RESEED_REQUEST (R275). -/
def execMaskReseedRequest (n : Fin 16) (s : State) : Host.Outcome State Fault Refusal := onPart (Part.maskRequest n.val) s
/-- MASK_LIMIT_STALL (R275). -/
def execMaskLimitStall (n : Fin 16) (s : State) : Host.Outcome State Fault Refusal := onPart (Part.maskStall n.val) s
/-- MASK_RESEED_ARRIVE (R275). -/
def execMaskReseedArrive (n : Fin 16) (s : State) : Host.Outcome State Fault Refusal := onPart (Part.maskArrive n.val) s

end Sys2Proof.Machine
end

