-- ==== Sys2Proof/Machine/Threads.lean ====
section
/-! DEFINITION. Sequencer threads (04_sealed_dataflow.md, R204 to R207): how a harvest starts, issues, faults and ends, how engine
results land, and program memory. Thread t of sequencer q is thread 32 × q + t. A command for a thread names the instruction that
its fetch delivers; the code of the library ROM is not in the spec (log entry 22). -/

namespace Sys2Proof.Machine
namespace Part

/-! ### Start (R125, R129, R130, R217, R276) -/

/-- The sealed registers at the start of a harvest: zero, with the tenant's colour (R129). -/
def startSregs (colour : BitVec 12) : Tab SReg := (List.range 16).foldl (fun t i => t.set {} i { colour := colour }) []

/-- The general registers at the start of a harvest (R129). -/
def startRegs (n : Nat) (c : Ctx) : Tab Word :=
  let vs : List Word :=
    [0, c.handles.getD 0 0, c.handles.getD 1 0, c.handles.getD 2 0, c.handles.getD 3 0, c.param, c.param2
     , BitVec.ofNat 32 c.inLen, BitVec.ofNat 32 c.outLen, 0x20000080#32 + BitVec.ofNat 32 (512 * n)
     , at' c.effClass 0 ||| at' (colourOf c.fn) 16]
  vs.zipIdx.foldl (fun t x => t.set 0 x.2 x.1) []

/-- The instruction budget of a program: a library program's own, an owner program's bounded by SEQ_BUDGET (R128, R135, R212). -/
def budgetOf (p : Part) (num : BitVec 16) : Nat :=
  match p.ownerProgram num.toNat with
  | some x => if x.budget = 0 then p.seq.st.eff.1.toNat else min x.budget.toNat p.seq.st.eff.2.toNat
  | none => Config.libraryBudget num

/-- The thread of a harvest as it starts. -/
def startThread (p : Part) (n : Nat) (c : Ctx) : Thread :=
  let o := p.ownerProgram c.program.toNat
  { busy := true, ctx := n, program := c.program, library := o.isNone
    segLen := match o with | some x => x.len | none => Config.libraryLen c.program
    admin := match o with
      | some x => x.admin
      | none => ((Library.entry c.program.toNat c.param).map ProgEntry.admin).getD false
    pc := match o with | some x => x.entry | none => Config.libraryEntry c.program
    budget := p.budgetOf c.program, regs := startRegs n c, sregs := startSregs (colourOf c.fn), colour := colourOf c.fn
    cls := c.effClass, outLen := c.outLen }

/-- The accepted budget set takes effect between two instructions (R128). -/
def seqApply (p : Part) : Part := p.modSeq fun s => { s with st := s.st.apply }

/-- The thread that a harvest placed on sequencer `q` starts on: its own, or the lowest-numbered free one where it waits for one
as thread 32. -/
def startsOn (p : Part) (q t : Nat) : Option Nat :=
  if t < 32 then (if (p.thread (32 * q + t)).busy then none else some t) else (p.freeThreads q).head?

/-- PARAM [1] of an EMV program is set for an issuer master key of AES (R233); the algorithm is in the attributes that R110 has looked up. -/
def emvPadded (p : Part) (c : Ctx) : Bool :=
  within c.program.toNat 0x0080 0x0085 && bitAt c.param 1 && isAes (p.slot (hIndex (c.handles.headD 0))).alg

/-- HARVEST_START of a context placed on a thread. A library program whose input or PARAM is malformed ends at once with
BAD_DESCRIPTOR (R217). A pan without a fresh mask holds it (R276). -/
def harvestStart (n : Nat) (p : Part) : Part :=
  let c := p.ctx n
  match c.unit with
  | some (.thread q t₀) =>
    if c.state ≠ .queued ∨ !p.seq.run ∨ !p.panReady q then p
    else
      match p.startsOn q t₀ with
      | none => p
      | some t =>
      let k := 32 * q + t
      let p := (p.seqApply.dspNow q).modCtx n fun c => { c with unit := some (.thread q t) }
      let p := p.modOnePan q fun x => { x with maskCount := min (2 ^ 28) (x.maskCount + 1) }
      let th := p.startThread n c
      let p := (p.modThread k fun _ => th).modCtx n fun c => { c with state := .running }
      if th.library && (!Library.inputOk c.program.toNat c.param (p.ctxData n 0 c.inLen ++ c.inData) || p.emvPadded c) then
        p.endHarvest k 0x10 0x0A [] 0
      else p
  | _ => p

/-! ### Ends and faults (R159, R163, R205, R206) -/

/-- The statuses of R163. -/
abbrev internalFault : Byte := 0x7F
abbrev emitDenied : Byte := 0x60

/-- A harvest that breaks a rule, or whose release is refused: recorded in SEQ_FAULT, SEQ_FAULT_PC and the Tally Book, then
ended (R163). -/
def harvestFault (k : Nat) (cause : BitVec 3) (status detail : Byte) (p : Part) : Part :=
  let t := p.thread k
  let word : Word := at' t.program 0 ||| at' (BitVec.ofNat 5 (k % 32)) 16 ||| at' cause 21 ||| at' status 24
  let p := p.modSeq fun s =>
    { s with units := s.units.upd {} (k / 32) fun u => { u with fault := word, faultPc := t.pc } }
  let p := p.post 0x4001#16
    (at' t.program 0 ||| at' (BitVec.ofNat 4 (k / 32)) 16 ||| at' (BitVec.ofNat 5 (k % 32)) 20 ||| at' cause 25
      ||| bit' (status == emitDenied) 28) t.pc
  p.endHarvest k status detail [] 0

/-- INTERNAL_FAULT with a cause. -/
def threadFault (k : Nat) (cause : BitVec 3) (p : Part) : Part := p.harvestFault k cause internalFault 0

abbrev cBudget : BitVec 3 := 0
abbrev cIllegal : BitVec 3 := 1
abbrev cBounds : BitVec 3 := 2
abbrev cFetch : BitVec 3 := 3
abbrev cColour : BitVec 3 := 4
abbrev cHend : BitVec 3 := 5
abbrev cEmit : BitVec 3 := 6

/-- A fault in a datapath's colour: the harvest ends and SEALED_COLOUR is raised (R144). -/
def colourFault (k : Nat) (p : Part) : Part := (p.threadFault k cColour).raiseOne .sealedColour (k / 32) 0

/-- Where the order of a sequencer stands once thread `k` issues, or none while another ready thread goes first (R113, R124): class
AUTH before any other, classes by weight, tenants by share, and threads of equal standing in turn by index. Whether a thread
that awaits a result is ready only its next instruction tells, so those that await none count as ready beside `k` (log entry
169). -/
def threadTurn (p : Part) (k : Nat) : Option Arb :=
  let q := k / 32
  let ready := p.seq.threads.filter fun x =>
    x.1 / 32 == q && x.2.busy && (x.1 == k || (x.2.reqs.isEmpty && x.2.landing.isNone))
  let standing : Thread → Nat × Nat := fun t => (t.cls.toNat, (p.ctx t.ctx).fn)
  ((p.seq.units.get {} q).arb.pick (ready.map fun x => standing x.2) (classWeight (p.dspOf q)) p.shareOf).bind fun (s, arb) =>
    let equals := (ready.filter fun x => standing x.2 == s).map fun x => x.1 % 32 + 1
    if nextAfter arb.last equals == some (k % 32 + 1) then some { arb with last := k % 32 + 1 } else none

/-- One instruction of a thread: nothing where it holds no harvest or another thread goes first; the end under R205 where its budget is spent, then under
R206 where its fetch is misaligned or outside its segment; nothing yet while it waits under R126 or R204; else counted, and
`body` done. -/
def threadStep (k : Nat) (wait : Thread → Part → Bool) (body : Thread → Part → Part) (p : Part) : Part :=
  let t := p.thread k
  if !t.busy then p
  else
    match p.threadTurn k with
    | none => p
    | some arb =>
      if t.budget = 0 then p.threadFault k cBudget
      else if t.pc.toNat % 4 ≠ 0 ∨ t.segLen < t.pc.toNat + 4 then p.threadFault k cFetch
      else if wait t p then p
      else
        body t ((p.modThread k fun t => { t with budget := t.budget - 1, issued := t.issued + 1 }).modSeq fun s =>
          { s with units := s.units.upd {} (k / 32) fun u => { u with arb := arb } })

/-- The program counter of a thread moved. -/
def threadGo (k : Nat) (pc : Word) (p : Part) : Part := p.modThread k fun t => { t with pc := pc }

/-- BUDGET_EXHAUSTED. -/
def budgetExhausted (k : Nat) (p : Part) : Part :=
  p.when ((p.thread k).busy && (p.thread k).budget == 0) (threadFault k cBudget)

/-! ### General and sealed registers of a thread -/

def threadReg (t : Thread) (r : Nat) : Word := if r = 0 then 0 else t.regs.get 0 r

/-- A write of a general register; g0 discards it (R166). -/
def setThreadReg (k r : Nat) (v : Word) (p : Part) : Part :=
  if r = 0 then p else p.modThread k fun t => { t with regs := t.regs.set 0 r v }

def sreg (t : Thread) (i : Nat) : SReg := t.sregs.get {} i

def setSreg (k i : Nat) (v : SReg) (p : Part) : Part := p.modThread k fun t => { t with sregs := t.sregs.set {} i v }

/-- Octets of a sealed register, octet 0 first, and a register's value from octets. -/
def SReg.octets (s : SReg) : List Byte := beBytes 16 s.val.toNat
def SReg.bytes (s : SReg) : List Byte := (beBytes 16 s.val.toNat).take s.len.toNat
def blockOf (bs : List Byte) : Block := BitVec.ofNat 128 (ofBe (Pk.fit 16 bs))

/-- Registers whose engine result is pending (R204). -/
def pendingRegs (t : Thread) : List Nat := t.reqs.flatMap EngReq.pendDest

/-- An instruction that touches these registers waits (R204). -/
def mustWait (t : Thread) (rs : List Nat) : Bool := rs.any fun r => (pendingRegs t).contains r

/-! ### Joins (R143) -/

/-- The join of two data classes. -/
def join (a b : BitVec 3) : BitVec 3 :=
  let key := fun (c : BitVec 3) => c == 2 || c == 3
  if a = 7 ∨ b = 7 then 7
  else if (a = 4 && key b) || (b = 4 && key a) then 7
  else if a.toNat < b.toNat then b else a

/-! ### Requests and their results (R126, R204, R299) -/

/-- A request put on a thread's list. -/
def addReq (k : Nat) (r : EngReq) (p : Part) : Part :=
  p.modThread k fun t => { t with reqs := t.reqs ++ [{ r with id := t.nextReq, pc := t.pc }], nextReq := t.nextReq + 1 }

/-- A request's results landed: registers, octets of the data area or the output list, and the verdict (R126, R286). An engine's
result of 17 to 32 octets ends the harvest where sd is odd (R260), at the instruction that asked for it (R163). -/
def landReq (k : Nat) (r : EngReq) (p : Part) : Part :=
  let p := p.modThread k fun t => { t with reqs := t.reqs.filter fun x => x.id != r.id }
  let odd : Bool := match r.dest with | [a, _] => a.1 % 2 == 1 | _ => false
  let engine : Bool := match r.unit with | .pan _ => false | _ => true
  match r.fail with
  | some (st, d) => p.endHarvest k st d [] 0
  | none =>
    if odd && engine then (p.threadGo k r.pc).threadFault k cIllegal
    else
    let n := (p.thread k).ctx
    let p := r.dest.foldl (fun p x => p.setSreg k x.1 x.2) p
    let p := r.window.foldl (fun p x => p.putData n x.1 (x.2.take (384 - x.1))) p
    let p := match r.listOut with | some (o, bs) => p.putList n o bs | none => p
    match r.verdict with
    | some (v, c) => p.modThread k fun t => { t with v := t.v && v, vclass := join t.vclass c }
    | none => p

/-- The pan of request `r` of thread `k` processes its blocks, as many as LIMIT lets it (R275); with none left the result lands. -/
def panRun (k : Nat) (r : EngReq) (p : Part) : Part :=
  match r.unit with
  | .pan n =>
    if r.blocks = 0 then p.landReq k r
    else if !p.panReady n then p
    else
      let p := p.panApply
      let room := p.maskLimit - (p.onePan n).maskCount
      if r.blocks ≤ room then (p.panBlocks n r.blocks).landReq k r
      else (p.panBlocks n room).modReq k r.id fun q => { q with blocks := q.blocks - room }
  | _ => p.landReq k r

/-- ENGINE_RESULT of request `i` of a thread, or with `fixed` MLDSA_FIXED_DELIVERY. -/
def engineResult (fixed : Bool) (k i : Nat) (p : Part) : Part :=
  match (p.thread k).reqs[i]? with
  | some r =>
    if r.ready && r.fixed == fixed then p.panRun k r else p
  | none => p

/-! ### Program memory (R137 to R139) -/

/-- SEQ_PMEM_DATA: a word written in ASSAY while LOAD_OPEN is 1, WORD advanced; once closed, ignored with WRITE_LOCKED. -/
def pmemWrite (v : Word) (p : Part) : Part :=
  if !p.seq.loadOpen then p.modSeq fun s => { s with writeLocked := true }
  else if p.sys.mode ≠ .assay then p
  else p.modSeq fun s => { s with pmem := s.pmem.set 0 s.pmemWord.toNat v, pmemWord := s.pmemWord + 1 }

/-- The program table as warden firmware has written it in the top 16 KiB: 16 octets for each program (R137). Its layout is the
model's (log entry 23): number, handle mask and marks, minimum output, budget, entry, segment start, segment length. -/
def programTable (pmem : Tab Word) : List Program :=
  (List.range 1024).filterMap fun i =>
    let w := fun (j : Nat) => pmem.get 0 (0xF000 + 4 * i + j)
    let num : BitVec 16 := fld (w 0) 0 16
    if num.toNat < 0x1000 then none
    else
      some { number := num, mask := fld (w 0) 16 4, minOut := (fld (w 0) 21 10).toNat, budget := fld (w 1) 0 16
             admin := bitAt (w 0) 20, entry := fld (w 2) 0 18 |>.setWidth 32, offset := 4 * (fld (w 1) 16 16).toNat
             len := (fld (w 3) 0 18).toNat }

/-- Octets of sequencer program memory. -/
def pmemOctets (pmem : Tab Word) (o n : Nat) : List Byte := (List.range n).map fun i => fld (pmem.get 0 ((o + i) / 4)) (8 * ((o + i) % 4)) 8

/-- The code segment of an owner program as its charter slot holds it in the flash (R478, R484). -/
def charterSegment (p : Part) (e : CharterProg) : List Byte :=
  p.nvm.flash.read erased ((if p.nvm.charter.slotB then 0x300000 else 0x100000) + e.offset) e.len

/-- The charter's program of a table entry is loaded (R134, R138): its segment in the slot has the hash the charter gives, and stands in
program memory where the table puts it. Its items are the charter's. -/
def loadedProgram (p : Part) (x : Program) : Option Program :=
  (p.nvm.charter.programs.find? fun e => e.number == x.number).bind fun e =>
    if e.hash == BitVec.ofNat 384 (ofBe (Standard.hash 3 (p.charterSegment e)))
        && pmemOctets p.seq.pmem x.offset e.len == p.charterSegment e then
      some { x with mask := e.mask, minOut := e.minOut, budget := e.budget, admin := e.admin, entry := e.entry, len := e.len }
    else none

/-- LOAD_OPEN cleared: program memory closes, and the loaded programs are those of its table that the charter lists. -/
def loadClose (p : Part) : Part :=
  p.when p.seq.loadOpen (modSeq fun s =>
    { s with loadOpen := false, loaded := true, programs := (programTable s.pmem).filterMap p.loadedProgram })

/-- RUN set: ignored while LOAD_OPEN is 1. -/
def seqRun (p : Part) : Part := p.when (!p.seq.loadOpen) (modSeq fun s => { s with run := true })

/-- SEQ_COMMIT (R128). -/
def seqCommit (p : Part) : Part :=
  p.modSeq fun s =>
    let (d, m) := s.st.stage
    let ok := decide (d.toNat ≤ m.toNat) && d != 0 && m != 0
    { s with cfgMismatch := s.cfgMismatch || !ok, st := s.st.commit ok (s.threads.all fun t => !t.2.busy) }

/-! ### Landing slots (R152, R268, R341) -/

/-- The key a landing slot takes when its write matches: octets into the slot with the attributes of its template. -/
def landSlot (h : BitVec 32) (t : Template) (key : List Byte) (p : Part) : Part :=
  let i := hIndex h
  let s := p.slot i
  p.modSlc fun c => c.putChain i s.colour t s.notAfter 0 [key]

/-- A committing operation of the same queue pair that was fetched earlier has not yet taken effect (R117): one with a landing slot
is committing. -/
def commitsEarlier (p : Part) (n : Nat) : Bool :=
  let c := p.ctx n
  decide (c.qp < 4096) && p.dsp.ctxs.any fun x =>
    x.2.qp == c.qp && x.2.state != .free && x.2.state != .finished && decide (x.2.order < c.order)
      && x.2.handles.any fun h => hClass h == 5

/-- LANDING_SLOT_WRITE: the bank checks that the slot is open and matches, writes it, tags it and closes it, and the harvest
becomes a committing one. A handle already used finds the advanced generation (R268). -/
def landingWrite (k : Nat) (p : Part) : Part :=
  let t := p.thread k
  match t.landing with
  | none => p
  | some (f, tpl, key) =>
    let h := (p.ctx t.ctx).handles.getD f 0
    if p.cellarWaits h || p.commitsEarlier t.ctx then p
    else
      let p := p.modThread k fun t => { t with landing := none }
      match p.headCheck h t.colour [5] with
      | (some (st, why), p) => p.endHarvest k st (keyDetail why f) [] 0
      | (none, p) =>
        let s := p.slot (hIndex h)
        let want := Template.ofEntry tpl
        let opened := p.slc.template s.child.toNat
        if s.state ≠ Slot.landing ∨ !want.agrees opened then p.endHarvest k 0x12 (keyDetail 1 f) [] 0
        else
          let p := (p.landSlot h opened key).modThread k fun t =>
            { t with swr := true, swrSlots := t.swrSlots ++ [hIndex h] }
          p.modCtx t.ctx fun c => { c with classA := true }

end Part

/-! ### The meanings -/

/-- HARVEST_START (R125, R129). -/
def execHarvestStart (c : BitVec 16) (s : State) : Host.Outcome State Fault Refusal := onPart (Part.harvestStart c.toNat) s
/-- ENGINE_RESULT (R126, R204). -/
def execEngineResult (q : Fin 16) (t : Fin 32) (i : Fin 4) (s : State) : Host.Outcome State Fault Refusal :=
  onPart (Part.engineResult false (32 * q.val + t.val) i.val) s
/-- BUDGET_EXHAUSTED (R205). -/
def execBudgetExhausted (q : Fin 16) (t : Fin 32) (s : State) : Host.Outcome State Fault Refusal :=
  onPart (Part.budgetExhausted (32 * q.val + t.val)) s
/-- MLDSA_FIXED_DELIVERY (R299). -/
def execMldsaFixedDelivery (q : Fin 16) (t : Fin 32) (i : Fin 4) (s : State) : Host.Outcome State Fault Refusal :=
  onPart (Part.engineResult true (32 * q.val + t.val) i.val) s
/-- SEQ_PMEM_DATA_WRITE (R138, R139). -/
def execSeqPmemDataWrite (v : Word) (s : State) : Host.Outcome State Fault Refusal := onPart (Part.pmemWrite v) s
/-- LOAD_OPEN_CLEAR (R139). -/
def execLoadOpenClear (s : State) : Host.Outcome State Fault Refusal := onPart Part.loadClose s
/-- SEQ_RUN_SET (R139). -/
def execSeqRunSet (s : State) : Host.Outcome State Fault Refusal := onPart Part.seqRun s
/-- SEQ_COMMIT (R128). -/
def execSeqCommit (s : State) : Host.Outcome State Fault Refusal := onPart Part.seqCommit s
/-- LANDING_SLOT_WRITE (R268, R341). -/
def execLandingSlotWrite (q : Fin 16) (t : Fin 32) (s : State) : Host.Outcome State Fault Refusal :=
  onPart (Part.landingWrite (32 * q.val + t.val)) s

end Sys2Proof.Machine
end

