-- ==== Sys2Proof/Machine/Cores.lean ====
section
/-! DEFINITION. The Dibry processors (05_dibry_isa.md): taking an exception and returning from one (R190 to R193), the fetch that
each instruction passes (R181, R191), interrupts (R194, R195), and one instruction on whichever processor runs it. A command for a
core names the instruction that its fetch delivers (log entry 22). Cores 0 to 3 are the control complex, 4 is the secure core. -/

namespace Sys2Proof.Machine

/-- The exception causes of R190. -/
abbrev xIllegal : BitVec 5 := 0x01
abbrev xPrivileged : BitVec 5 := 0x02
abbrev xFetchMis : BitVec 5 := 0x03
abbrev xFetchAccess : BitVec 5 := 0x04
abbrev xFetchBus : BitVec 5 := 0x05
abbrev xLoadMis : BitVec 5 := 0x06
abbrev xLoadAccess : BitVec 5 := 0x07
abbrev xLoadBus : BitVec 5 := 0x08
abbrev xStoreMis : BitVec 5 := 0x09
abbrev xStoreAccess : BitVec 5 := 0x0A
abbrev xStoreBus : BitVec 5 := 0x0B
abbrev xTrapUser : BitVec 5 := 0x0C
abbrev xTrapPriv : BitVec 5 := 0x0D
abbrev xBrk : BitVec 5 := 0x0E
abbrev xInterrupt : BitVec 5 := 0x0F

/-- What an exception reports: its cause, EPC, EADDR, the bank of the address in EADDR (none where EADDR holds no address: FBK is
then a free value), and the fields of ECAUSE. -/
structure Trap where
  cause  : BitVec 5
  epc    : Word
  addr   : Word := 0
  bank   : Option Byte := none
  atomic : Bool := false
  size   : BitVec 2 := 0
  info   : BitVec 12 := 0
  deriving DecidableEq, Repr

namespace Part

/-! ### Registers of a core -/

def coreReg (m : Core) (r : Nat) : Word := if r = 0 then 0 else m.regs.get 0 r

/-- A write of a general register; g0 discards it (R166). -/
def setCoreReg (c r : Nat) (v : Word) (p : Part) : Part :=
  if r = 0 then p else p.modCore c fun m => { m with regs := m.regs.set 0 r v }

/-- CORE_ID (R168). -/
def coreId (c : Nat) : Word := if c = 4 then 0x10 else BitVec.ofNat 32 c

/-! ### Exceptions (R190 to R193) -/

/-- LOCKUP (R193, R428): the core stops with its state frozen, its EPC and ECAUSE recorded. -/
def lockup (c : Nat) (p : Part) : Part :=
  let m := p.core c
  let p := (p.modCore c fun m => { m with run := .lockup, fence := false }).post 0x0020#16 (coreId c) m.epc
  if c < 4 then
    p.modSys fun s =>
      { s with notice := s.notice ||| BitVec.ofNat 7 (2 ^ (1 + c)), lockEpc := s.lockEpc.set 0 c m.epc
               lockCause := s.lockCause.set 0 c m.ecause }
  else p.raiseOne .coreLockup 0 0

/-- Taking an exception (R192), or LOCKUP while EXL is 1 (R193). -/
def takeTrap (c : Nat) (x : Trap) (p : Part) : Part :=
  if (p.core c).exl then p.lockup c
  else
    let (k, p) := if x.bank.isNone then p.draw else (0, p)
    p.modCore c fun m =>
      { m with
        run := .running, fence := false, epc := x.epc
        ecause := at' x.cause 0 ||| bit' x.atomic 5 ||| at' x.size 6 ||| at' x.info 8
        eaddr := x.addr, fbk := x.bank.getD (Config.freeByte k 0), edbk := m.dbk, eibk := m.ibk, pendIbk := none
        ppriv := m.priv, pie := m.ie, priv := true, ie := false, exl := true
        dbk := m.evec.setWidth 8, ibk := m.evec.setWidth 8, resv := none
        pc := (m.evec &&& 0xFFFFFC00#32) + at' x.cause 6 }

/-- Returning from an exception (R192). -/
def returnTrap (c : Nat) (p : Part) : Part :=
  p.modCore c fun m =>
    { m with pc := m.epc, priv := m.ppriv, ie := m.pie, exl := false, dbk := m.edbk, ibk := m.eibk, resv := none }

/-! ### Checkpoints of a core -/

/-- A bank and a short address as one address (R170). -/
def bankAddr (bank : Byte) (a : Word) : Nat := bank.toNat * 2 ^ 32 + a.toNat

/-- An access of a core at its checkpoint (R181, R438): none where it is admitted, else whether it went to no region; a refusal is
recorded. The checkpoint checks every access whatever its target and its refusal comes before a bus error (R191). An address of no
region stands in no row of the default map, so DEFAULT_DENY (4) is no refusal there: the access meets the bus error (log
entry 183). -/
def coreCheck (c : Nat) (kind : BitVec 3) (a n : Nat) (p : Part) : Option Bool × Part :=
  let noRegion := decide ((spaceOf p.sys.handed (c == 4) a n).1 = .none)
  match p.regionCheck c (c == 4) (p.core c).priv kind a n with
  | none => (if noRegion then some true else none, p)
  | some d =>
    if noRegion && d.cause == 4 then (some true, p)
    else (some false, p.refuse (denialRec d a n ((coreId c).setWidth 8) kind (p.core c).priv (c == 4) 0) (decide (c < 4)))

/-! ### One instruction -/

/-- The interrupt request may be taken (R194). -/
def mayInterrupt (p : Part) (c : Nat) : Bool := p.irqLine c && (p.core c).ie && !(p.core c).exl

/-- A core that the debugger steps halts once its instruction is done (R661). -/
def stepStop (c : Nat) (p : Part) : Part :=
  if (p.core c).stepOne then
    p.modCore c fun m => { m with stepOne := false, run := if m.run = .running ∨ m.run = .doze then .halted else m.run }
  else p

/-- What comes before an instruction of a core: nothing where the core does not run, or where an interrupt comes first (R191); then
the checks of its fetch. True where the instruction is then executed. -/
def coreEnter (c : Nat) (p : Part) : Bool × Part :=
  let m := p.core c
  if m.run ≠ .running ∨ m.fence ∨ p.mayInterrupt c ∨ p.sys.scanStopped then (false, p)
  else if m.pc.toNat % 4 ≠ 0 then
    (false, (p.takeTrap c { cause := xFetchMis, epc := m.pc, addr := m.pc, bank := some m.ibk }).stepStop c)
  else
    match p.coreCheck c kFetch (bankAddr m.ibk m.pc) 4 with
    | (some bus, p) =>
      let x : Trap := { cause := if bus then xFetchBus else xFetchAccess, epc := m.pc, addr := m.pc, bank := some m.ibk }
      (false, (p.takeTrap c x).stepStop c)
    | (none, p) => (true, p)

/-- One instruction of a core. -/
def coreStep (c : Nat) (body : Core → Part → Part) (p : Part) : Part :=
  let (go, q) := p.coreEnter c
  if go then (body (q.core c) q).stepStop c else q

/-- ILLEGAL with the instruction's word. -/
def coreIllegal (c : Nat) (word : Word) (p : Part) : Part :=
  p.takeTrap c { cause := xIllegal, epc := (p.core c).pc, addr := word }

/-- PRIVILEGED with the instruction's word. -/
def corePrivileged (c : Nat) (word : Word) (p : Part) : Part :=
  p.takeTrap c { cause := xPrivileged, epc := (p.core c).pc, addr := word }

/-- The program counter of a core moved within its bank. -/
def coreGo (c : Nat) (pc : Word) (p : Part) : Part := p.modCore c fun m => { m with pc := pc }

/-- A taken jump of a core: the pending bank takes effect (R172). -/
def coreJump (c : Nat) (pc : Word) (p : Part) : Part :=
  p.modCore c fun m => { m with pc := pc, ibk := m.pendIbk.getD m.ibk, pendIbk := none }

/-- The thread's number. -/
def threadNo (q : Fin 16) (t : Fin 32) : Nat := 32 * q.val + t.val

/-- One instruction on a processor: what it does on a core, and on a thread. -/
def onProc (x : Proc) (core : Nat → Core → Part → Part) (thread : Nat → Thread → Part → Part) (p : Part) : Part :=
  match x with
  | .core c => p.coreStep c.val (core c.val)
  | .thread q t => if p.sys.scanStopped then p else p.threadStep (threadNo q t) (fun _ _ => false) (thread (threadNo q t))

/-- An instruction that computes one general register and goes on: `f` computes it from the registers. -/
def regOp (x : Proc) (rd : BitVec 5) (f : (BitVec 5 → Word) → Word) (p : Part) : Part :=
  p.onProc x
    (fun c m p => (p.setCoreReg c rd.toNat (f fun r => coreReg m r.toNat)).coreGo c (m.pc + 4))
    (fun k t p => (p.setThreadReg k rd.toNat (f fun r => threadReg t r.toNat)).threadGo k (t.pc + 4))

/-- An instruction that exists only on threads (R165, R176): ILLEGAL on a core; on a thread it may have to wait. -/
def threadOnly (x : Proc) (word : Word) (wait : Thread → Part → Bool) (thread : Nat → Thread → Part → Part) (p : Part) :
    Part :=
  match x with
  | .core c => p.coreStep c.val fun _ p => p.coreIllegal c.val word
  | .thread q t =>
    if p.sys.scanStopped then p else p.threadStep (threadNo q t) wait (thread (threadNo q t))

/-- An instruction that exists only on cores (R176, R179): it ends a harvest with cause 0b001. -/
def coreOnly (x : Proc) (core : Nat → Core → Part → Part) (p : Part) : Part :=
  p.onProc x core (fun k _ p => p.threadFault k cIllegal)

/-! ### Interrupts (R194, R195, R198) -/

/-- INTERRUPT_TAKE: taken between instructions; from DOZE and from a waiting FENCE.RULE as well, in DOZE with EPC after it. A
request that may not be taken still ends DOZE. -/
def interruptTake (c : Nat) (p : Part) : Part :=
  let m := p.core c
  let epc := if m.run = .doze then m.pc + 4 else m.pc
  if p.sys.scanStopped || !(m.run == .running || m.run == .doze) || !p.irqLine c then p
  else if m.ie && !m.exl then p.takeTrap c { cause := xInterrupt, epc := epc }
  else if m.run = .doze then p.modCore c fun m => { m with run := .running, pc := m.pc + 4 }
  else p

end Part

/-- INTERRUPT_TAKE (R194, R195, R198). -/
def execInterruptTake (c : Fin 5) (s : State) : Host.Outcome State Fault Refusal := onPart (Part.interruptTake c.val) s

end Sys2Proof.Machine
end

