-- ==== Sys2Proof/Machine/Operands.lean ====
section
/-! DEFINITION. What the Dibry instructions compute from their operands (05_dibry_isa.md, R176 to R178): extensions, comparisons,
products and the saturating division. Dibry has no condition flags, so no file of flag computations stands beside this one. -/

namespace Sys2Proof.Dibry

/-- sext(imm16) and zext(imm16). -/
def sext16 (i : BitVec 16) : Word := i.signExtend 32
def zext16 (i : BitVec 16) : Word := i.setWidth 32

/-- Four times an offset of a branch or jump, sign-extended. -/
def branchOff (i : BitVec 16) : Word := (i.signExtend 32) <<< 2
def jumpOff (i : BitVec 26) : Word := (i.signExtend 32) <<< 2

/-- 1 where a comparison holds, else 0. -/
def flag (b : Bool) : Word := if b then 1 else 0

/-- The high words of the products (R177). -/
def mulhi (a b : Word) : Word := BitVec.ofInt 32 ((a.toInt * b.toInt) / 2 ^ 32)
def mulhiu (a b : Word) : Word := BitVec.ofNat 32 ((a.toNat * b.toNat) / 2 ^ 32)

/-- DIV: rounded toward zero, saturating (R178). -/
def div (a b : Word) : Word :=
  if b = 0 then (if a.toInt < 0 then 0x80000000 else 0x7FFFFFFF)
  else if a = 0x80000000#32 ∧ b = 0xFFFFFFFF#32 then 0x7FFFFFFF
  else BitVec.ofInt 32 (a.toInt.tdiv b.toInt)

/-- MOD: the remainder of DIV, with the sign of ra; 0 on division by zero and on overflow (R177, R178). -/
def mod (a b : Word) : Word :=
  if b = 0 ∨ (a = 0x80000000#32 ∧ b = 0xFFFFFFFF#32) then 0 else BitVec.ofInt 32 (a.toInt.tmod b.toInt)

/-- DIVU and MODU (R178). -/
def divu (a b : Word) : Word := if b = 0 then 0xFFFFFFFF else BitVec.ofNat 32 (a.toNat / b.toNat)
def modu (a b : Word) : Word := if b = 0 then 0 else BitVec.ofNat 32 (a.toNat % b.toNat)

/-- A loaded value: the octets read, sign-extended or zero-extended (R176). -/
def loaded (signed : Bool) (bs : List Byte) : Word :=
  let v := ofLe bs
  if signed && decide (2 ^ (8 * bs.length - 1) ≤ v) then BitVec.ofInt 32 ((v : Int) - 2 ^ (8 * bs.length)) else BitVec.ofNat 32 v

end Sys2Proof.Dibry
end

