-- ==== Sys2Proof/Machine/Alu.lean ====
section
/-! DEFINITION. The Dibry instructions that compute one register from registers and an immediate (R176 to R178), on cores and on
threads. -/

namespace Sys2Proof.Machine

/-- ADD (R177). -/
def execAdd (x : Proc) (rd ra rb : BitVec 5) (s : State) : Host.Outcome State Fault Refusal :=
  onPart (Part.regOp x rd fun r => r ra + r rb) s
/-- SUB (R177). -/
def execSub (x : Proc) (rd ra rb : BitVec 5) (s : State) : Host.Outcome State Fault Refusal :=
  onPart (Part.regOp x rd fun r => r ra - r rb) s
/-- AND (R177). -/
def execAnd (x : Proc) (rd ra rb : BitVec 5) (s : State) : Host.Outcome State Fault Refusal :=
  onPart (Part.regOp x rd fun r => r ra &&& r rb) s
/-- OR (R177). -/
def execOr (x : Proc) (rd ra rb : BitVec 5) (s : State) : Host.Outcome State Fault Refusal :=
  onPart (Part.regOp x rd fun r => r ra ||| r rb) s
/-- XOR (R177). -/
def execXor (x : Proc) (rd ra rb : BitVec 5) (s : State) : Host.Outcome State Fault Refusal :=
  onPart (Part.regOp x rd fun r => r ra ^^^ r rb) s
/-- SLT (R177). -/
def execSlt (x : Proc) (rd ra rb : BitVec 5) (s : State) : Host.Outcome State Fault Refusal :=
  onPart (Part.regOp x rd fun r => Dibry.flag ((r ra).slt (r rb))) s
/-- SLTU (R177). -/
def execSltu (x : Proc) (rd ra rb : BitVec 5) (s : State) : Host.Outcome State Fault Refusal :=
  onPart (Part.regOp x rd fun r => Dibry.flag ((r ra).ult (r rb))) s
/-- SLL (R177). -/
def execSll (x : Proc) (rd ra rb : BitVec 5) (s : State) : Host.Outcome State Fault Refusal :=
  onPart (Part.regOp x rd fun r => r ra <<< ((r rb).toNat % 32)) s
/-- SRL (R177). -/
def execSrl (x : Proc) (rd ra rb : BitVec 5) (s : State) : Host.Outcome State Fault Refusal :=
  onPart (Part.regOp x rd fun r => r ra >>> ((r rb).toNat % 32)) s
/-- SRA (R177). -/
def execSra (x : Proc) (rd ra rb : BitVec 5) (s : State) : Host.Outcome State Fault Refusal :=
  onPart (Part.regOp x rd fun r => (r ra).sshiftRight ((r rb).toNat % 32)) s
/-- SLLI (R177). -/
def execSlli (x : Proc) (rd ra rb : BitVec 5) (s : State) : Host.Outcome State Fault Refusal :=
  onPart (Part.regOp x rd fun r => r ra <<< rb.toNat) s
/-- SRLI (R177). -/
def execSrli (x : Proc) (rd ra rb : BitVec 5) (s : State) : Host.Outcome State Fault Refusal :=
  onPart (Part.regOp x rd fun r => r ra >>> rb.toNat) s
/-- SRAI (R177). -/
def execSrai (x : Proc) (rd ra rb : BitVec 5) (s : State) : Host.Outcome State Fault Refusal :=
  onPart (Part.regOp x rd fun r => (r ra).sshiftRight rb.toNat) s
/-- MUL (R177). -/
def execMul (x : Proc) (rd ra rb : BitVec 5) (s : State) : Host.Outcome State Fault Refusal :=
  onPart (Part.regOp x rd fun r => r ra * r rb) s
/-- MULHI (R177). -/
def execMulhi (x : Proc) (rd ra rb : BitVec 5) (s : State) : Host.Outcome State Fault Refusal :=
  onPart (Part.regOp x rd fun r => Dibry.mulhi (r ra) (r rb)) s
/-- MULHIU (R177). -/
def execMulhiu (x : Proc) (rd ra rb : BitVec 5) (s : State) : Host.Outcome State Fault Refusal :=
  onPart (Part.regOp x rd fun r => Dibry.mulhiu (r ra) (r rb)) s
/-- DIV (R177, R178). -/
def execDiv (x : Proc) (rd ra rb : BitVec 5) (s : State) : Host.Outcome State Fault Refusal :=
  onPart (Part.regOp x rd fun r => Dibry.div (r ra) (r rb)) s
/-- DIVU (R177, R178). -/
def execDivu (x : Proc) (rd ra rb : BitVec 5) (s : State) : Host.Outcome State Fault Refusal :=
  onPart (Part.regOp x rd fun r => Dibry.divu (r ra) (r rb)) s
/-- MOD (R177, R178). -/
def execMod (x : Proc) (rd ra rb : BitVec 5) (s : State) : Host.Outcome State Fault Refusal :=
  onPart (Part.regOp x rd fun r => Dibry.mod (r ra) (r rb)) s
/-- MODU (R177, R178). -/
def execModu (x : Proc) (rd ra rb : BitVec 5) (s : State) : Host.Outcome State Fault Refusal :=
  onPart (Part.regOp x rd fun r => Dibry.modu (r ra) (r rb)) s
/-- ADDI (R176). -/
def execAddi (x : Proc) (rd ra : BitVec 5) (imm : BitVec 16) (s : State) : Host.Outcome State Fault Refusal :=
  onPart (Part.regOp x rd fun r => r ra + Dibry.sext16 imm) s
/-- ANDI (R176). -/
def execAndi (x : Proc) (rd ra : BitVec 5) (imm : BitVec 16) (s : State) : Host.Outcome State Fault Refusal :=
  onPart (Part.regOp x rd fun r => r ra &&& Dibry.zext16 imm) s
/-- ORI (R176). -/
def execOri (x : Proc) (rd ra : BitVec 5) (imm : BitVec 16) (s : State) : Host.Outcome State Fault Refusal :=
  onPart (Part.regOp x rd fun r => r ra ||| Dibry.zext16 imm) s
/-- XORI (R176). -/
def execXori (x : Proc) (rd ra : BitVec 5) (imm : BitVec 16) (s : State) : Host.Outcome State Fault Refusal :=
  onPart (Part.regOp x rd fun r => r ra ^^^ Dibry.zext16 imm) s
/-- SLTI (R176). -/
def execSlti (x : Proc) (rd ra : BitVec 5) (imm : BitVec 16) (s : State) : Host.Outcome State Fault Refusal :=
  onPart (Part.regOp x rd fun r => Dibry.flag ((r ra).slt (Dibry.sext16 imm))) s
/-- SLTIU (R176). -/
def execSltiu (x : Proc) (rd ra : BitVec 5) (imm : BitVec 16) (s : State) : Host.Outcome State Fault Refusal :=
  onPart (Part.regOp x rd fun r => Dibry.flag ((r ra).ult (Dibry.sext16 imm))) s
/-- LIH (R176). -/
def execLih (x : Proc) (rd : BitVec 5) (imm : BitVec 16) (s : State) : Host.Outcome State Fault Refusal :=
  onPart (Part.regOp x rd fun _ => Dibry.zext16 imm <<< 16) s

end Sys2Proof.Machine
end

