-- ==== Sys2Proof/Machine/Sealed.lean ====
section
/-! DEFINITION. The sealed register and sealed general groups (R143 to R160, R200 to R203, R703): their effect on values and tags. -/

namespace Sys2Proof.Machine
namespace Part

/-! ### Values -/

/-- Nibble `j` of a value: 2i the high and 2i + 1 the low nibble of octet i. -/
def nib (v : Block) (j : Nat) : BitVec 4 := if j < 32 then fld v (124 - 4 * j) 4 else 0

/-- The value of 32 nibbles. -/
def ofNibs (f : Nat → BitVec 4) : Block := (List.range 32).foldl (fun v j => (v <<< 4) ||| (f j).setWidth 128) 0

/-- A value with the octets beyond `len` zero (R201). -/
def masked (len : Nat) (v : Block) : Block := blockOf ((beBytes 16 v.toNat).take len)

/-- A register's value as an operand. -/
def SReg.operand (s : SReg) : Block := masked s.len.toNat s.val

/-- A result with no RELEASE, FORM or KSRC (R145). -/
def plain (t : Thread) (v : Block) (len : BitVec 5) (cls : BitVec 3) : SReg :=
  { val := masked len.toNat v, colour := t.colour, cls := cls, len := len }

/-- The greater LEN. -/
def maxLen (a b : BitVec 5) : BitVec 5 := if a.toNat < b.toNat then b else a

/-- A verifying ENGX of the thread is outstanding (R291). -/
def verdictPending (t : Thread) : Bool := t.reqs.any EngReq.verifies

/-- The end of an ordinary instruction of a thread: the next one. -/
def threadNext (k : Nat) (t : Thread) (p : Part) : Part := p.threadGo k (t.pc + 4)

/-- A sealed instruction over operands `rs` that writes `ws`: it waits for them (R204), ends the harvest where an operand's colour
differs (R144), else does `body`. -/
def sealedOp (x : Proc) (word : Word) (rs ws : List Nat) (verdict : Bool) (body : Nat → Thread → Part → Part) (p : Part) : Part :=
  p.threadOnly x word (fun t _ => mustWait t (rs ++ ws) || (verdict && verdictPending t)) fun k t p =>
    if rs.any fun r => (sreg t r).colour != t.colour then p.colourFault k else body k t p

/-- A sealed instruction that writes one register from others and goes on. -/
def sealedReg (x : Proc) (word : Word) (sd : BitVec 4) (rs : List (BitVec 4)) (f : Thread → SReg) (p : Part) : Part :=
  p.sealedOp x word (rs.map BitVec.toNat) [sd.toNat] false fun k t p => (p.setSreg k sd.toNat (f t)).threadNext k t

/-- Bitwise logic of two registers (R145, R201). -/
def logic (x : Proc) (fn : BitVec 5) (g : Block → Block → Block) (sd sa sb : BitVec 4) (p : Part) : Part :=
  p.sealedReg x (Dibry.fmtSA fn sd sa sb 0) sd [sa, sb] fun t =>
    let a := sreg t sa.toNat
    let b := sreg t sb.toNat
    plain t (g (SReg.operand a) (SReg.operand b)) (maxLen a.len b.len) (join a.cls b.cls)

def sclr (x : Proc) (sd : BitVec 4) (p : Part) : Part :=
  p.sealedReg x (Dibry.fmtSA 0x00 sd 0 0 0) sd [] fun t => plain t 0 0 0

def smov (x : Proc) (sd sa : BitVec 4) (p : Part) : Part :=
  p.sealedReg x (Dibry.fmtSA 0x01 sd sa 0 0) sd [sa] fun t => sreg t sa.toNat

/-- SSHF: nibble j of the result is nibble j + k of the operand. A shift outside −31 to 31 is ILLEGAL. -/
def sshf (x : Proc) (sd sa : BitVec 4) (k : BitVec 6) (p : Part) : Part :=
  p.sealedOp x (Dibry.fmtSA 0x05 sd sa 0 (k.setWidth 9)) [sa.toNat] [sd.toNat] false fun th t p =>
    if k = 32 then p.threadFault th cIllegal
    else
      let a := sreg t sa.toNat
      let v := SReg.operand a
      let f := fun (j : Nat) => let i : Int := j + k.toInt; if 0 ≤ i then nib v i.toNat else 0
      (p.setSreg th sd.toNat (plain t (ofNibs f) a.len a.cls)).threadNext th t

/-- SPERM: nibbles of half `h` permuted by the nibbles of sb; the other half copied. -/
def sperm (x : Proc) (sd sa sb : BitVec 4) (h : Bool) (p : Part) : Part :=
  p.sealedReg x (Dibry.fmtSA 0x06 sd sa sb (if h then 1 else 0)) sd [sa, sb] fun t =>
    let a := sreg t sa.toNat
    let b := sreg t sb.toNat
    let o := if h then 16 else 0
    let v := SReg.operand a
    let f := fun (j : Nat) => if j / 16 * 16 = o then nib v (o + (nib (SReg.operand b) (j - o)).toNat) else nib v j
    plain t (ofNibs f) a.len (join a.cls b.cls)

/-- SDEC: each nibble of sa, of value v, becomes nibble v of sb. -/
def sdec (x : Proc) (sd sa sb : BitVec 4) (p : Part) : Part :=
  p.sealedReg x (Dibry.fmtSA 0x07 sd sa sb 0) sd [sa, sb] fun t =>
    let a := sreg t sa.toNat
    let b := sreg t sb.toNat
    plain t (ofNibs fun j => nib (SReg.operand b) (nib (SReg.operand a) j).toNat) a.len (join a.cls b.cls)

/-- SSEL: the choice carries the class of the verdict (R145, R158). -/
def ssel (x : Proc) (sd sa sb : BitVec 4) (p : Part) : Part :=
  p.sealedOp x (Dibry.fmtSA 0x08 sd sa sb 0) [sa.toNat, sb.toNat] [sd.toNat] true fun k t p =>
    let a := sreg t sa.toNat
    let b := sreg t sb.toNat
    let c := if t.v then a else b
    (p.setSreg k sd.toNat (plain t (SReg.operand c) c.len (join (join a.cls b.cls) t.vclass))).threadNext k t

/-- SCMP, and with `acc` SCMP.A (R157): n from 1 to 16. -/
def scmp (acc : Bool) (x : Proc) (sa sb : BitVec 4) (n : BitVec 5) (p : Part) : Part :=
  p.sealedOp x (Dibry.fmtSA (if acc then 0x0A else 0x09) 0 sa sb (n.setWidth 9)) [sa.toNat, sb.toNat] [] true fun k t p =>
    if n = 0 ∨ 16 < n.toNat then p.threadFault k cIllegal
    else
      let a := sreg t sa.toNat
      let b := sreg t sb.toNat
      let eq := (beBytes 16 (SReg.operand a).toNat).take n.toNat == (beBytes 16 (SReg.operand b).toNat).take n.toNat
      (p.modThread k fun t =>
        { t with v := if acc then t.v && eq else eq, vclass := join t.vclass (join a.cls b.cls) }).threadNext k t

/-- SCOMB (R150). -/
def scomb (x : Proc) (sd sa sb : BitVec 4) (p : Part) : Part :=
  p.sealedOp x (Dibry.fmtSA 0x0B sd sa sb 0) [sa.toNat, sb.toNat] [sd.toNat] false fun k t p =>
    let a := sreg t sa.toNat
    let b := sreg t sb.toNat
    if !t.library || !t.admin || a.cls != 3 || b.cls != 3 || a.dec.isNone || b.dec.isNone || a.dec == b.dec
        || !bitAt a.ksrc 2 || a.ksrc != b.ksrc then p.threadFault k cIllegal
    else
      (p.setSreg k sd.toNat
        { plain t (SReg.operand a ^^^ SReg.operand b) (maxLen a.len b.len) 3 with ksrc := a.ksrc, tpl := a.tpl }).threadNext k t

/-! ### PIN blocks (R147, R148, R201, R703) -/

/-- The formats of fmt. -/
def pinFmt (f : BitVec 3) : Bool := f == 0 || f == 1 || f == 3 || f == 4 || f == 7

/-- The format reads the PAN operand (R703). -/
def readsPan (f : BitVec 3) : Bool := f == 0 || f == 3 || f == 4

/-- The PAN digits of an operand of LEN 10 or 16; none where it is malformed (R703). -/
def panDigits (s : SReg) : Option (List (BitVec 4)) :=
  let v := SReg.operand s
  if s.len = 10 then
    if Library.panOk 19 ((beBytes 16 v.toNat).take 10) then
      some (((List.range 20).map (nib v)).takeWhile fun d => decide (d.toNat < 10))
    else none
  else
    let n := 12 + (nib v 0).toNat
    let ds := (List.range n).map fun j => nib v (1 + j)
    let rest := (List.range (31 - n)).map fun j => nib v (1 + n + j)
    if (nib v 0).toNat ≤ 7 && (ds.all fun d => decide (d.toNat < 10)) && rest.all fun d => d == 0 then some ds else none

/-- The rightmost 12 PAN digits excluding the check digit, after four zero nibbles (formats 0 and 3). -/
def panPart (ds : List (BitVec 4)) : List (BitVec 4) :=
  List.replicate 4 0 ++ (ds.drop (ds.length - 13)).take 12

/-- The format 4 plaintext PAN field. -/
def panField4 (ds : List (BitVec 4)) : Block :=
  ofNibs fun j => if j = 0 then BitVec.ofNat 4 (ds.length - 12) else ds.getD (j - 1) 0

/-- The PIN digits of a clear block, when the block is valid for its format. -/
def pinOf (f : BitVec 3) (s : SReg) (pan : List (BitVec 4)) : Option (List (BitVec 4)) :=
  let raw := fun j => nib (SReg.operand s) j
  let b := fun (j : Nat) => if f = 0 ∨ f = 3 then raw j ^^^ (panPart pan).getD j 0 else raw j
  let n := (b 1).toNat
  let ds := (List.range n).map fun j => b (2 + j)
  let rest := (List.range (14 - n)).map fun j => b (2 + n + j)
  let head := decide (4 ≤ n ∧ n ≤ 12) && ds.all fun d => decide (d.toNat < 10)
  match f.toNat with
  | 0 => if s.len = 8 ∧ b 0 = 0 ∧ head ∧ rest.all (· == 0xF) then some ds else none
  | 1 => if s.len = 8 ∧ b 0 = 1 ∧ head then some ds else none
  | 3 => if s.len = 8 ∧ b 0 = 3 ∧ head ∧ rest.all (fun d => decide (10 ≤ d.toNat)) then some ds else none
  | 4 => if s.len = 16 ∧ b 0 = 4 ∧ head ∧ rest.all (· == 0xA) then some ds else none
  | _ =>
    let all := (List.range 16).map raw
    let ds := all.takeWhile fun d => decide (d.toNat < 10)
    if s.len = 8 ∧ 4 ≤ ds.length ∧ ds.length ≤ 12 ∧ (all.drop ds.length).all (· == 0xF) then some ds else none

/-- The canonical PIN: its length, its digits, and 0xF nibbles (R201). -/
def canonical (ds : List (BitVec 4)) : Block :=
  masked 8 (ofNibs fun j => if j = 0 then BitVec.ofNat 4 ds.length else ds.getD (j - 1) 0xF)

/-- A PIN block operand that its format reads has LEN 10 or 16 (R703). -/
def panLenOk (f : BitVec 3) (s : SReg) : Bool := !readsPan f || s.len == 10 || s.len == 16

/-- SPIN.UNPK. -/
def spinUnpk (x : Proc) (sd sa sb : BitVec 4) (f : BitVec 3) (p : Part) : Part :=
  let rs := sa.toNat :: if readsPan f then [sb.toNat] else []
  p.sealedOp x (Dibry.fmtSA 0x0C sd sa sb (f.setWidth 9)) rs [sd.toNat] true fun k t p =>
    let a := sreg t sa.toNat
    let b := sreg t sb.toNat
    if !pinFmt f || !panLenOk f b then p.threadFault k cIllegal
    else
      let pan := if readsPan f then panDigits b else some []
      let got := pan.bind (pinOf f a)
      let cls := join 4 (if readsPan f then join a.cls b.cls else a.cls)
      let form : BitVec 2 := if got.isSome && (a.form == 0 || a.form == 2) then 1 else 0
      let r : SReg :=
        { plain t (match got with | some ds => canonical ds | none => 0) 8 cls with form := if cls = 4 then form else 0 }
      ((p.setSreg k sd.toNat r).modThread k fun t =>
        { t with v := t.v && got.isSome, vclass := join t.vclass a.cls }).threadNext k t

/-- The block a format builds from a canonical PIN, `rnd` the random fill (R148, R201). -/
def pinBlock (f : BitVec 3) (pin : Block) (pan : List (BitVec 4)) (rnd : List Byte) : Block :=
  let n := (nib pin 0).toNat
  let d := fun (j : Nat) => nib pin (1 + j)
  let r := fun (j : Nat) => nib (blockOf rnd) j
  let body := fun (head : BitVec 4) (fill : Nat → BitVec 4) (j : Nat) =>
    if j = 0 then head else if j = 1 then nib pin 0 else if j < 2 + n then d (j - 2) else fill j
  match f.toNat with
  | 0 => masked 8 (ofNibs fun j => body 0 (fun _ => 0xF) j ^^^ (panPart pan).getD j 0)
  | 1 => masked 8 (ofNibs (body 1 fun j => r (j - 2)))
  | 3 => masked 8 (ofNibs fun j =>
      body 3 (fun j => 0xA + BitVec.ofNat 4 ((r (j - 2)).toNat % 6)) j ^^^ (panPart pan).getD j 0)
  | 4 => ofNibs fun j => if j < 16 then body 4 (fun _ => 0xA) j else r (j - 16)
  | _ => masked 8 (ofNibs fun j => if j < n then d j else 0xF)

/-- SPIN.PACK: formats 1, 3 and 4 draw their fill from the Brine Wells and wait while it cannot be served or a MASK draw waits ahead (R148, R366). The result's
class joins that of sb in every format, as R145's table has it, so sb is waited for where its value is not read too (log entry
175). A fmt 4 whose PAN operand is malformed builds no field, and the one latched before it stays (log entry 176). -/
def spinPack (x : Proc) (sd sa sb : BitVec 4) (f : BitVec 3) (p : Part) : Part :=
  let rs := [sa.toNat, sb.toNat]
  let fill := f == 1 || f == 3 || f == 4
  p.threadOnly x (Dibry.fmtSA 0x0D sd sa sb (f.setWidth 9))
    (fun t p => mustWait t (sd.toNat :: rs) || (fill && (p.entDraw .mask 8).1.isNone)) fun k t p =>
      let a := sreg t sa.toNat
      let b := sreg t sb.toNat
      if rs.any fun r => (sreg t r).colour != t.colour then p.colourFault k
      else if !pinFmt f || !panLenOk f b then p.threadFault k cIllegal
      else
        let (rnd, p) := if fill then p.entDraw .mask 8 else (some [], p)
        let pan := if readsPan f then panDigits b else some []
        let cls := join a.cls b.cls
        let len : BitVec 5 := if f = 4 then 16 else 8
        let r : SReg :=
          match pan with
          | some ds =>
            { plain t (pinBlock f (SReg.operand a) ds (rnd.getD [])) len cls with
              form := if a.form = 1 ∧ cls = 4 then 2 else 0 }
          | none => plain t 0 len cls
        let p := p.setSreg k sd.toNat r
        let p := match pan with
          | some ds => p.when (f == 4) (modThread k fun t => { t with panField := some (panField4 ds, b.cls) })
          | none => p
        p.threadNext k t

/-! ### The sealed general group (R132, R151, R152, R159 to R162, R202) -/

/-- An access of a thread lies in its context, in the operation buffer (R132): the offset in the buffer. -/
def inContext (t : Thread) (a : Word) (n : Nat) : Option Nat :=
  let lo := 0x20000000 + 512 * t.ctx
  if lo ≤ a.toNat ∧ a.toNat + n ≤ lo + 512 then some (a.toNat - 0x20000000) else none

/-- A thread's access at its checkpoint, by colour (R132, R434): a refusal is recorded. -/
def threadCheck (k : Nat) (t : Thread) (kind : BitVec 3) (a : Word) (n : Nat) (p : Part) : Option Nat × Part :=
  match inContext t a n with
  | none => (none, p)
  | some o =>
    match p.colourCheck .ob o n t.colour false with
    | none => (some o, p)
    | some d =>
      let r := denialRec d a.toNat n (0x40#8 + BitVec.ofNat 8 (k / 32)) kind false false t.colour
      (none, p.refuse { r with thread := BitVec.ofNat 8 (k % 32) } true)

/-- SLD: n octets of the context, PUBLIC. -/
def sld (x : Proc) (sd : BitVec 4) (ga : BitVec 5) (n : BitVec 5) (off : BitVec 7) (p : Part) : Part :=
  p.sealedOp x (Dibry.fmtSG 0x00 sd ga (n ++ off)) [] [sd.toNat] false fun k t p =>
    if n = 0 ∨ 16 < n.toNat then p.threadFault k cIllegal
    else
      match p.threadCheck k t kRead (threadReg t ga.toNat + off.setWidth 32) n.toNat with
      | (none, p) => p.threadFault k cBounds
      | (some o, p) =>
        (p.setSreg k sd.toNat (plain t (blockOf (p.opBuf.read ram o n.toNat)) n 0)).threadNext k t

/-- SINS: word w of a register replaced. -/
def sins (x : Proc) (sd : BitVec 4) (gs : BitVec 5) (w : BitVec 2) (p : Part) : Part :=
  p.sealedReg x (Dibry.fmtSG 0x01 sd gs (w.setWidth 12)) sd [sd] fun t =>
    let s := sreg t sd.toNat
    let bs := beBytes 16 (SReg.operand s).toNat
    let v := bs.take (4 * w.toNat) ++ leBytes 4 (threadReg t gs.toNat).toNat ++ bs.drop (4 * w.toNat + 4)
    plain t (blockOf v) (maxLen s.len (BitVec.ofNat 5 (4 * w.toNat + 4))) s.cls

/-- SEXT: a word of a PUBLIC register, else EMIT_DENIED (R151). -/
def sext (x : Proc) (gd : BitVec 5) (ss : BitVec 4) (w : BitVec 2) (p : Part) : Part :=
  p.sealedOp x (Dibry.fmtSG 0x02 ss gd (w.setWidth 12)) [ss.toNat] [] false fun k t p =>
    let s := sreg t ss.toNat
    if s.cls ≠ 0 then p.harvestFault k cEmit emitDenied (s.cls.setWidth 8)
    else
      let v := ofLe (((beBytes 16 (SReg.operand s).toNat).drop (4 * w.toNat)).take 4)
      (p.setThreadReg k gd.toNat (BitVec.ofNat 32 v)).threadNext k t

/-- EMIT (R160, R161). -/
def emit (x : Proc) (ss : BitVec 4) (go : BitVec 5) (p : Part) : Part :=
  p.sealedOp x (Dibry.fmtSG 0x03 ss go 0) [ss.toNat] [] false fun k t p =>
    let r := sreg t ss.toNat
    let o := (threadReg t go.toNat).toNat
    if t.outLen < o + r.len.toNat then p.harvestFault k cEmit emitDenied (8 ||| r.cls.setWidth 8)
    else if r.cls = 0 ∨ r.release then (p.putData t.ctx o (SReg.bytes r)).threadNext k t
    else p.harvestFault k cEmit emitDenied (r.cls.setWidth 8)

/-- HEND (R159): it waits for every result, and for a landing write on its way (R126). -/
def hend (x : Proc) (gs gl : BitVec 5) (p : Part) : Part :=
  p.threadOnly x (Dibry.fmtSG 0x04 0 gs (gl.setWidth 12)) (fun t _ => !t.reqs.isEmpty || t.landing.isSome) fun k t p =>
    let len := (threadReg t gl.toNat).toNat
    let sel := (threadReg t gs.toNat).toNat
    let c := p.ctx t.ctx
    if 3 < sel ∨ t.outLen < len then p.threadFault k cHend
    else if sel = 3 then p.endHarvest k 0x10 0x0A [] 0
    else
      let st : Byte := if sel = 1 ∨ (sel = 2 ∧ !t.v) then 1 else 0
      if c.outPtr.isSome then p.endHarvest k st 0 [] (BitVec.ofNat 32 len)
      else p.endHarvest k st 0 (p.ctxData t.ctx 0 len) (BitVec.ofNat 32 c.outList)

/-! ### Keys in sealed registers (R145, R149, R260) -/

/-- The template of a sealed key register: what KB.PARSE mapped, else the CHILD template of the slot that KSRC names (R145,
R326). -/
def templateOf (p : Part) (t : Thread) (s : SReg) : Template :=
  match s.tpl with
  | some e => Template.ofEntry e
  | none => p.slc.template (p.slot (hIndex ((p.ctx t.ctx).handles.getD (s.ksrc.toNat % 4) 0))).child.toNat

/-- The tag of a register without its LEN. -/
def tagOnly (s : SReg) : SReg := { s with val := 0, len := 0, dec := none }

/-- The octets of a key of `n` octets in a register, or in the pair when it is longer than 16 (R260); none where the pair does not
hold. -/
def keyOctets (t : Thread) (j n : Nat) : Option (List Byte) :=
  let a := sreg t j
  if n ≤ 16 then some ((beBytes 16 (SReg.operand a).toNat).take n)
  else
    let b := sreg t (j + 1)
    if j % 2 = 0 ∧ tagOnly a = tagOnly b ∧ a.len = 16 ∧ b.len.toNat = n - 16 then
      some (beBytes 16 a.val.toNat ++ (beBytes 16 b.val.toNat).take (n - 16))
    else none

/-- Both registers of a key of `n` octets in register `j` carry the thread's colour (R144). -/
def pairColour (t : Thread) (j n : Nat) : Bool :=
  decide (n ≤ 16) || j % 2 == 1 || (sreg t (j + 1)).colour == t.colour

/-- The registers that a key field names: both of a pair (R204). -/
def keyRegs (j : Nat) : List Nat := if j % 2 = 0 then [j, j + 1] else [j]

/-- A register is usable as a key (R149). -/
def isKeyReg (s : SReg) : Bool := (s.cls == 2 || s.cls == 3) && bitAt s.ksrc 2

/-- SWR (R152): the write goes to the bank (R268). -/
def swr (x : Proc) (ss : BitVec 4) (f : BitVec 2) (p : Part) : Part :=
  p.threadOnly x (Dibry.fmtSG 0x05 ss 0 (f.setWidth 12))
    (fun t _ => mustWait t (keyRegs ss.toNat) || t.landing.isSome || decide (4 ≤ t.reqs.length)) fun k t p =>
      let s := sreg t ss.toNat
      let h := (p.ctx t.ctx).handles.getD f.toNat 0
      if s.colour ≠ t.colour then p.colourFault k
      else if hClass h ≠ 5 ∨ !isKeyReg s then p.endHarvest k 0x12 (keyDetail 1 f.toNat) [] 0
      else
        let tpl := p.templateOf t s
        match keyOctets t ss.toNat (keyLen tpl.alg) with
        | none => if pairColour t ss.toNat (keyLen tpl.alg) then p.threadFault k cIllegal else p.colourFault k
        | some key =>
          (p.modThread k fun t => { t with landing := some (f.toNat, KeyBlock.entryOf tpl, key) }).threadNext k t

end Part

/-! ### The meanings -/

/-- SCLR (R145, R201). -/
def execSclr (x : Proc) (sd : BitVec 4) (s : State) : Host.Outcome State Fault Refusal := onPart (Part.sclr x sd) s
/-- SMOV. -/
def execSmov (x : Proc) (sd sa : BitVec 4) (s : State) : Host.Outcome State Fault Refusal := onPart (Part.smov x sd sa) s
/-- SXOR. -/
def execSxor (x : Proc) (sd sa sb : BitVec 4) (s : State) : Host.Outcome State Fault Refusal :=
  onPart (Part.logic x 0x02 (· ^^^ ·) sd sa sb) s
/-- SAND. -/
def execSand (x : Proc) (sd sa sb : BitVec 4) (s : State) : Host.Outcome State Fault Refusal :=
  onPart (Part.logic x 0x03 (· &&& ·) sd sa sb) s
/-- SOR. -/
def execSor (x : Proc) (sd sa sb : BitVec 4) (s : State) : Host.Outcome State Fault Refusal :=
  onPart (Part.logic x 0x04 (· ||| ·) sd sa sb) s
/-- SSHF. -/
def execSshf (x : Proc) (sd sa : BitVec 4) (k : BitVec 6) (s : State) : Host.Outcome State Fault Refusal :=
  onPart (Part.sshf x sd sa k) s
/-- SPERM. -/
def execSperm (x : Proc) (sd sa sb : BitVec 4) (h : Bool) (s : State) : Host.Outcome State Fault Refusal :=
  onPart (Part.sperm x sd sa sb h) s
/-- SDEC. -/
def execSdec (x : Proc) (sd sa sb : BitVec 4) (s : State) : Host.Outcome State Fault Refusal := onPart (Part.sdec x sd sa sb) s
/-- SSEL (R158). -/
def execSsel (x : Proc) (sd sa sb : BitVec 4) (s : State) : Host.Outcome State Fault Refusal := onPart (Part.ssel x sd sa sb) s
/-- SCMP (R157). -/
def execScmp (x : Proc) (sa sb : BitVec 4) (n : BitVec 5) (s : State) : Host.Outcome State Fault Refusal :=
  onPart (Part.scmp false x sa sb n) s
/-- SCMP.A (R157). -/
def execScmpA (x : Proc) (sa sb : BitVec 4) (n : BitVec 5) (s : State) : Host.Outcome State Fault Refusal :=
  onPart (Part.scmp true x sa sb n) s
/-- SCOMB (R150). -/
def execScomb (x : Proc) (sd sa sb : BitVec 4) (s : State) : Host.Outcome State Fault Refusal := onPart (Part.scomb x sd sa sb) s
/-- SPIN.UNPK (R147, R703). -/
def execSpinUnpk (x : Proc) (sd sa sb : BitVec 4) (f : BitVec 3) (s : State) : Host.Outcome State Fault Refusal :=
  onPart (Part.spinUnpk x sd sa sb f) s
/-- SPIN.PACK (R148, R703). -/
def execSpinPack (x : Proc) (sd sa sb : BitVec 4) (f : BitVec 3) (s : State) : Host.Outcome State Fault Refusal :=
  onPart (Part.spinPack x sd sa sb f) s
/-- SLD (R132, R202). -/
def execSld (x : Proc) (sd : BitVec 4) (ga n : BitVec 5) (off : BitVec 7) (s : State) : Host.Outcome State Fault Refusal :=
  onPart (Part.sld x sd ga n off) s
/-- SINS (R202). -/
def execSins (x : Proc) (sd : BitVec 4) (gs : BitVec 5) (w : BitVec 2) (s : State) : Host.Outcome State Fault Refusal :=
  onPart (Part.sins x sd gs w) s
/-- SEXT (R151). -/
def execSext (x : Proc) (gd : BitVec 5) (ss : BitVec 4) (w : BitVec 2) (s : State) : Host.Outcome State Fault Refusal :=
  onPart (Part.sext x gd ss w) s
/-- EMIT (R160). -/
def execEmit (x : Proc) (ss : BitVec 4) (go : BitVec 5) (s : State) : Host.Outcome State Fault Refusal :=
  onPart (Part.emit x ss go) s
/-- SWR (R152). -/
def execSwr (x : Proc) (ss : BitVec 4) (f : BitVec 2) (s : State) : Host.Outcome State Fault Refusal :=
  onPart (Part.swr x ss f) s

end Sys2Proof.Machine
end

