-- ==== Sys2Proof/Machine/Engines.lean ====
section
/-! DEFINITION. The sealed engine group: ENC, DEC, MAC, HASH and KDER on the thread's pan (R145, R146, R149, R254 to R268, R708,
R709), and ENGX on a rake or grainer (R286 to R293). A pan computes as its instruction issues; ENGINE_RESULT lands the result. -/

namespace Sys2Proof.Machine
namespace Part

/-! ### Keys (R145, R149, R321) -/

/-- A key as a pan holds it for one instruction: the attributes R145 gives it, its octets, and the tag fields a result takes. -/
structure PanKey where
  alg   : Byte
  mask  : Byte
  dec   : BitVec 3
  expo  : BitVec 3
  usage : BitVec 16
  child : Template
  cls   : BitVec 3
  ksrc  : BitVec 3
  key   : List Byte
  words : List Word := []
  deriving DecidableEq, Repr

/-- A named key: how the harvest ends where it may not be used, or the key. -/
abbrev KeyRes := Except (Part → Part) PanKey

/-- The handle field that a K field names (R203). -/
def keyField (kf : BitVec 5) : Option Nat := if 0x10 ≤ kf.toNat ∧ kf.toNat ≤ 0x13 then some (kf.toNat - 0x10) else none

/-- The handle in a handle field of a thread's descriptor. -/
def fieldHandle (p : Part) (t : Thread) (f : Nat) : BitVec 32 := (p.ctx t.ctx).handles.getD f 0

/-- KEY_USAGE_DENIED with a reason on a handle field. -/
def denyKey (k : Nat) (reason : Byte) (f : Nat) (p : Part) : Part := p.endHarvest k 0x12 (keyDetail reason f) [] 0

/-- A slot read that fails ends the harvest when the read ends: until then the instruction is a request of its thread with its
registers pending, and the thread goes on (R155). -/
def lateFail (k : Nat) (t : Thread) (ws : List Nat) (status detail : Byte) (p : Part) : Part :=
  (p.addReq k
    { dest := [], window := [], verdict := none, fail := some (status, detail), unit := .pan (k / 32), pendDest := ws }).threadNext k t

/-- A key in a slot, read by handle over the pan's private wire for an instruction that writes registers `ws`. -/
def slotKey (k f : Nat) (t : Thread) (ws : List Nat) (algOk : Byte → Bool) (need : BitVec 16 → Bool) (p : Part) : KeyRes × Part :=
  let stop := fun (st why : Byte) => lateFail k t ws st (keyDetail why f)
  match p.slotRead (p.fieldHandle t f) t.colour [1] with
  | (.error (st, why), p) => (.error (stop st why), p)
  | (.ok ss, p) =>
    let s := ss.headD (Slc.emptySlot 0)
    match p.useCheck s (algOk s.alg) 0 with
    | some (st, why) => (.error (stop st why), p)
    | none =>
      if need s.usage then
        (.ok { alg := s.alg, mask := s.releaseMask, dec := s.decryptClass, expo := s.exportClass, usage := s.usage
               child := p.slc.template s.child.toNat, cls := 0, ksrc := 0b100#3 ||| BitVec.ofNat 3 f, key := keyOf s
               words := [s.w0, s.w1, s.w2, s.w3] }, p)
      else (.error (stop 0x12 0), p)

/-- A key in a sealed register or pair, with the attributes of its template (R145, R260). -/
def regKey (k : Nat) (t : Thread) (j : Nat) (algOk : Byte → Bool) (need : BitVec 16 → Bool) (p : Part) : KeyRes :=
  let s := sreg t j
  let f := s.ksrc.toNat % 4
  if s.colour ≠ t.colour then .error (colourFault k)
  else if !isKeyReg s then .error (endHarvest k 0x12 0 [] 0)
  else
    let m := p.templateOf t s
    if !algOk m.alg then .error (denyKey k 1 f)
    else if !need m.usage then .error (denyKey k 0 f)
    else
      match keyOctets t j (keyLen m.alg) with
      | none => .error (if pairColour t j (keyLen m.alg) then threadFault k cIllegal else colourFault k)
      | some key =>
        .ok { alg := m.alg, mask := m.mask, dec := m.dec, expo := m.expo, usage := m.usage
              child := p.slc.template m.child.toNat, cls := s.cls, ksrc := s.ksrc, key := key
              words := [Slot.word0 t.colour m.hclass 0 m.alg, Slot.word1 m.usage m.mask m.dec m.expo Slot.key
                        , Slot.word2 0 1 m.child false, 0] }

/-- The key that a K field names, for an instruction that writes registers `ws`. -/
def panKey (k : Nat) (t : Thread) (ws : List Nat) (kf : BitVec 5) (algOk : Byte → Bool) (need : BitVec 16 → Bool) (p : Part) : KeyRes × Part :=
  if kf.toNat < 0x10 then (p.regKey k t kf.toNat algOk need, p)
  else
    match keyField kf with
    | some f => p.slotKey k f t ws algOk need
    | none => (.error (threadFault k cIllegal), p)

/-- A usage bit. -/
def has (b : Nat) (u : BitVec 16) : Bool := bitAt u b

/-! ### The mode field (R255, R256) -/

/-- Family, function and phase. -/
abbrev fam (m : BitVec 9) : Nat := (fld m 6 3).toNat
abbrev fun' (m : BitVec 9) : Nat := (fld m 2 4).toNat
abbrev phase (m : BitVec 9) : Nat := (fld m 0 2).toNat

abbrev pOne : Nat := 0
abbrev pLoad : Nat := 1
abbrev pNext : Nat := 2
abbrev pLast : Nat := 3

/-- The algorithms a family takes; key transport takes the ciphers, KW and KWP only AES. -/
def famAlg (m : BitVec 9) (alg : Byte) : Bool :=
  match fam m with
  | 0 => isAes alg
  | 1 => isTdes alg
  | 2 => isHmac alg
  | _ => isAes alg || (decide (fun' m ≤ 1) && isTdes alg)

/-! ### Results -/

/-- The pan of a sequencer accepts blocks; a core has none. -/
def procPan (x : Proc) (p : Part) : Bool := match x with | .thread q _ => p.panReady q.val | .core _ => true

/-- The Cellar holds the read of a K field's slot back (R334, R337). -/
def keyWaits (t : Thread) (kf : BitVec 5) (p : Part) : Bool :=
  match keyField kf with | some f => p.cellarWaits (p.fieldHandle t f) | none => false

/-- An instruction of the engine group over ss and K that reads and writes registers `rs` beside K: it waits for them, for both
registers of an even K, for a free request and for its pan (R126, R204, R275), ends the harvest on a colour that differs, else
does `body`. -/
def panOp (x : Proc) (fn sd ss : BitVec 4) (kf : BitVec 5) (m : BitVec 9) (rs : Thread → Part → List Nat)
    (body : Nat → Thread → SReg → Part → Part) (p : Part) : Part :=
  p.threadOnly x (Dibry.fmtSE fn sd ss kf m)
    (fun t p => mustWait t (rs t p ++ if kf.toNat < 0x10 then keyRegs kf.toNat else []) || decide (4 ≤ t.reqs.length)
      || keyWaits t kf p || !procPan x p) fun k t p =>
      if (sreg t ss.toNat).colour ≠ t.colour then p.colourFault k else body k t (sreg t ss.toNat) p

/-- A pan's request: registers to land, the blocks it processes; the thread goes on. -/
def panReq (k : Nat) (t : Thread) (dest : List (Nat × SReg)) (blocks : Nat) (p : Part) : Part :=
  (p.addReq k
    { dest := dest, window := [], verdict := none, fail := none, unit := .pan (k / 32), pendDest := dest.map Prod.fst
      blocks := blocks }).threadNext k t

/-- A piece taken without result: the chain kept, its blocks a request that lands nothing. -/
def panTake (k : Nat) (t : Thread) (c : Option Chain) (blocks : Nat) (p : Part) : Part :=
  (p.modThread k fun t => { t with chain := c }).panReq k t [] blocks

/-- A result register. -/
def resReg (t : Thread) (bs : List Byte) (cls : BitVec 3) : SReg :=
  { val := blockOf bs, colour := t.colour, cls := cls, len := BitVec.ofNat 5 bs.length }

/-! ### Intactness and release (R146, R258) -/

/-- The value is intact for its class (R146). -/
def intact (s : SReg) : Bool :=
  if s.cls = 0 ∨ s.cls = 1 then true
  else if s.cls = 4 then s.form == 2
  else if s.cls = 2 ∨ s.cls = 3 then bitAt s.ksrc 2
  else false

/-- Class PUBLIC or INTERMEDIATE. -/
def low (s : SReg) : Bool := s.cls == 0 || s.cls == 1

/-- A data piece joined into a chain (R258). -/
def chainData (s : SReg) (c : Chain) : Chain :=
  { c with
    cls := join c.cls s.cls, lowOnly := c.lowOnly && low s
    nData := if s.len = 0 then c.nData else c.nData + 1
    dataOk := if s.len ≠ 0 ∧ c.nData = 0 then intact s else c.dataOk }

/-- A chain as a whole is intact (R258). -/
def chainIntact (c : Chain) : Bool := c.lowOnly || (decide (c.nData = 1) && c.dataOk && c.ivPub)

/-- A release under a key: its RELEASE_MASK has the class, and the input is intact (R146). -/
def mayRelease (key : PanKey) (cls : BitVec 3) (ok : Bool) : Bool := bitAt key.mask cls.toNat && ok

/-- The chain that a LOAD starts, before its first piece. -/
def newChain (t : Thread) (fn : BitVec 4) (kf : BitVec 5) (m : BitVec 9) : Chain :=
  { ins := fn, k := kf, mode := m, cls := 0, lowOnly := true, ivPub := true, nData := 0, dataOk := true, colour := t.colour
    state := [], total := 0 }

/-- The thread's chain continued by NEXT or LAST of an instruction, K field and mode (R256); none where it may not. -/
def chainFor (t : Thread) (fn : BitVec 4) (kf : BitVec 5) (m : BitVec 9) : Option Chain :=
  t.chain.filter fun c => c.ins == fn && c.k == kf && fld c.mode 2 7 == fld m 2 7

/-! ### Ciphers (R255, R708) -/

/-- The block of a family. -/
def famBlock (f : Nat) : Nat := if f = 1 then 8 else 16

/-- The lengths a cipher piece may have in a phase (R708). -/
def pieceOk (f fn ph n : Nat) : Bool :=
  let whole := n == 16 || (f == 1 && n == 8)
  if fn = 5 then n == 16
  else if fn ≤ 1 then whole
  else decide (1 ≤ n ∧ n ≤ 16) && (whole || ph == pOne || ph == pLast)

/-- A mode field that ENC and DEC take, key transport apart (R255, R256). -/
def cipherOk (m : BitVec 9) : Bool :=
  if fam m = 0 then decide (fun' m ≤ 5) && (phase m == pOne || !(fun' m == 0 || fun' m == 5))
  else fam m == 1 && decide (fun' m ≤ 3) && (phase m == pOne || fun' m != 0)

/-- One piece through a cipher: the output and the chaining register after it. -/
def cipherRun (enc : Bool) (m : BitVec 9) (key st bs : List Byte) : List Byte × List Byte :=
  let c := Crypto.cipherOf (fam m == 1) key
  match fun' m with
  | 0 => (Crypto.ecb (if enc then c.enc else c.dec) c.size bs, st)
  | 1 => if enc then Crypto.cbcEnc c st bs else Crypto.cbcDec c st bs
  | 2 => Crypto.cfb enc c st bs
  | 3 => Crypto.ofb c st bs
  | _ => (Crypto.ctrAt c 128 st 0 bs, Crypto.ctrAdd 128 st ((bs.length + 15) / 16))

/-- Format 4 encipherment and its inverse (R259). -/
def f4Run (enc : Bool) (key : List Byte) (field : Block) (bs : List Byte) : List Byte :=
  let c := Crypto.aes key
  let f := beBytes 16 field.toNat
  if enc then c.enc (Crypto.xorB (c.enc bs) f) else c.dec (Crypto.xorB (c.dec bs) f)

/-- The usage that a cipher needs of its key (R323). -/
def cipherNeed (enc f4 : Bool) (u : BitVec 16) : Bool := has (if enc then 0 else 1) u && (!f4 || has 10 u)

/-- The register that ENC or DEC writes: an input of class `cls` and intactness `ok`. -/
def cipherReg (enc : Bool) (t : Thread) (key : PanKey) (cls : BitVec 3) (ok : Bool) (bs : List Byte) : SReg :=
  if enc then { resReg t bs (join cls 1) with release := mayRelease key cls ok }
  else
    let c := join cls key.dec
    { resReg t bs c with ksrc := if c = 3 then key.ksrc else 0, dec := some t.issued }

/-- ENC and DEC in the AES and TDES families. -/
def cipher (enc : Bool) (fn sd : BitVec 4) (kf : BitVec 5) (m : BitVec 9) (k : Nat) (t : Thread) (s : SReg) (p : Part) : Part :=
  let f4 := fun' m == 5
  let ph := phase m
  let bs := SReg.bytes s
  let size := famBlock (fam m)
  let blocks := (if f4 then 2 else 1) * ((bs.length + size - 1) / size)
  if !cipherOk m || (f4 && t.panField.isNone) || (ph == pLoad && (sd != 0 || bs.length != size))
      || (ph != pLoad && !pieceOk (fam m) (fun' m) ph bs.length)
      || ((ph == pNext || ph == pLast) && (chainFor t fn kf m).isNone) then p.threadFault k cIllegal
  else
    match p.panKey k t (if ph = pLoad then [] else [sd.toNat]) kf (famAlg m) (cipherNeed enc f4) with
    | (.error stop, p) => stop p
    | (.ok key, p) =>
      if ph = pLoad then
        p.panTake k t (some { newChain t fn kf m with
          cls := s.cls, lowOnly := low s, ivPub := s.cls == 0, state := bs }) 0
      else if ph = pOne then
        if f4 then
          let (f, fc) := t.panField.getD (0, 0)
          let cls := join s.cls fc
          p.panReq k t [(sd.toNat, cipherReg enc t key cls (intact { s with cls := cls }) (f4Run enc key.key f bs))] blocks
        else
          let (out, _) := cipherRun enc m key.key (List.replicate size 0) bs
          p.panReq k t [(sd.toNat, cipherReg enc t key s.cls (intact s) out)] blocks
      else
        let c := chainData s ((chainFor t fn kf m).getD (newChain t fn kf m))
        let (out, st) := cipherRun enc m key.key c.state bs
        let next := if ph = pLast then none else some { c with state := st }
        (p.modThread k fun t => { t with chain := next }).panReq k t [(sd.toNat, cipherReg enc t key c.cls (chainIntact c) out)] blocks

/-! ### Key transport (R265 to R267) -/

/-- The destination registers of a key of CLEAR_KEY class: one, or the pair for more than 16 octets (R260). -/
def keyDest (t : Thread) (sd : Nat) (ksrc : BitVec 3) (tpl : Option (BitVec 64)) (key : List Byte) : List (Nat × SReg) :=
  (Crypto.pieces 16 key).zipIdx.map fun x =>
    (sd + x.2, { resReg t x.1 3 with ksrc := ksrc, tpl := tpl, dec := some t.issued })

/-- A recovered key written; `key` is none where its check failed, and the value is then free. -/
def writeKey (k : Nat) (t : Thread) (sd : Nat) (ksrc : BitVec 3) (key : Option (List Byte × Option (BitVec 64))) (blocks : Nat)
    (p : Part) : Part :=
  match key with
  | some (bs, tpl) =>
    if 16 < bs.length ∧ sd % 2 = 1 then p.threadFault k cIllegal else p.panReq k t (keyDest t sd ksrc tpl bs) blocks
  | none =>
    let (n, p) := p.draw
    p.panReq k t (keyDest t sd 0 none (drawBytes n 16)) blocks

/-- The octets of a harvest's input: the data area, or the input list. -/
def harvestInput (p : Part) (n : Nat) : List Byte :=
  let c := p.ctx n
  if c.sglIn.2 = 0 then p.ctxData n 0 c.inLen else c.inData

/-- KB.PARSE (R265). -/
def kbParse (sd : BitVec 4) (kf : BitVec 5) (m : BitVec 9) (k : Nat) (t : Thread) (p : Part) : Part :=
  match p.panKey k t (keyRegs sd.toNat) kf (famAlg m) (has 15) with
  | (.error stop, p) => stop p
  | (.ok key, p) =>
    let blk := p.harvestInput t.ctx
    let got := (KeyBlock.parse (isTdes key.alg) key.key blk).map fun x => (x.1, some (KeyBlock.entryOf x.2))
    p.writeKey k t sd.toNat key.ksrc got ((blk.length + 15) / 16)

/-- The next 16 octets of what a chain puts out, as INTERMEDIATE (R266, R267). -/
def putPiece (k : Nat) (t : Thread) (sd : BitVec 4) (last : Bool) (c : Chain) (p : Part) : Part :=
  let bs := (c.state.drop c.total).take 16
  (p.modThread k fun t => { t with chain := if last then none else some { c with total := c.total + bs.length } }).panReq k t
    [(sd.toNat, { resReg t bs 1 with release := c.relOk })] 1

/-- The export class allows a key block under a protection key (R324). -/
def exportOk (expo : BitVec 3) (tdesKey aesProt : Bool) : Bool := expo == 3 || (expo == 2 && (aesProt || tdesKey))

/-- KB.BUILD (R266). -/
def kbBuild (sd : BitVec 4) (kf : BitVec 5) (m : BitVec 9) (k : Nat) (t : Thread) (p : Part) : Part :=
  let ph := phase m
  let refuse : Part → Part := endHarvest k 0x12 0x20 [] 0
  if ph = pLoad then
    if sd ≠ 0 then p.threadFault k cIllegal
    else
      match p.panKey k t [] kf (fun a => isAes a || isTdes a) (fun _ => true) with
      | (.error stop, p) => stop p
      | (.ok key, p) =>
        if key.expo = 2 ∨ key.expo = 3 then
          p.panTake k t (some { newChain t 0 kf m with key := key.key, attr := key.words }) 0
        else refuse p
  else
    match t.chain.filter fun c => c.ins == 0 && fld c.mode 2 7 == fld m 2 7 && (c.state == [] || c.k == kf) with
    | none => p.threadFault k cIllegal
    | some c =>
      if c.state = [] ∧ ph ≠ pNext then p.threadFault k cIllegal
      else
        match p.panKey k t [sd.toNat] kf (famAlg m) (fun _ => true) with
        | (.error stop, p) => stop p
        | (.ok key, p) =>
          if c.state ≠ [] then p.putPiece k t sd (ph == pLast) c
          else
          let expo := fld (c.attr.getD 1 0) 27 3
          let tdesKey := isTdes (fld (c.attr.getD 0 0) 24 8)
          if !(has 15 key.usage && has 4 key.usage) || !exportOk expo tdesKey (isAes key.alg) then refuse p
          else
            let (n, p) := p.draw
            let head := KeyBlock.header (isTdes key.alg) key.key c.key (p.ctx t.ctx).param c.attr n
            let blk := KeyBlock.build (isTdes key.alg) key.key head c.key (drawBytes n 16)
            p.putPiece k t sd false { c with k := kf, state := blk, relOk := true }

/-- The octets that KW or KWP wraps: ss, or its pair where it is a key of more than 16 octets (R260, R267). -/
def wrapInput (p : Part) (t : Thread) (ss : Nat) : Option (List Byte) :=
  let s := sreg t ss
  if isKeyReg s then keyOctets t ss (max s.len.toNat (keyLen (p.templateOf t s).alg)) else some (SReg.bytes s)

/-- A sealed key register that may not leave under an AES protection key: the EXPORT of its template is neither TRUSTED nor
SENSITIVE (R324, log entry 184). -/
def keepsIn (p : Part) (t : Thread) (s : SReg) : Bool :=
  isKeyReg s && !exportOk (p.templateOf t s).expo (isTdes (p.templateOf t s).alg) true

/-- KW and KWP ENC (R267). A wrapped key that R324 keeps in the part ends the harvest with reason 2 on the field of its KSRC (log entry
184). -/
def wrap (kwp : Bool) (sd ss : BitVec 4) (kf : BitVec 5) (m : BitVec 9) (k : Nat) (t : Thread) (s : SReg) (p : Part) : Part :=
  let ph := phase m
  if ph = pLoad then
    match p.wrapInput t ss.toNat with
    | none => if (sreg t (ss.toNat + 1)).colour = t.colour then p.threadFault k cIllegal else p.colourFault k
    | some bs =>
      if sd ≠ 0 ∨ bs = [] ∨ (!kwp && (bs.length < 16 || bs.length % 8 != 0)) then p.threadFault k cIllegal
      else
        match p.panKey k t [] kf (famAlg m) (has 4) with
        | (.error stop, p) => stop p
        | (.ok key, p) =>
          if p.keepsIn t s then denyKey k 2 (s.ksrc.toNat % 4) p
          else
          let c := Crypto.aes key.key
          let w := if kwp then KeyBlock.kwpWrap c bs else Crypto.keyWrap c bs
          p.panTake k t (some { newChain t 0 kf m with state := w, relOk := mayRelease key s.cls (intact s) }) 0
  else
    match chainFor t 0 kf m with
    | none => p.threadFault k cIllegal
    | some c =>
      match p.panKey k t [sd.toNat] kf (famAlg m) (has 4) with
      | (.error stop, p) => stop p
      | (.ok _, p) => p.putPiece k t sd (ph == pLast) c

/-- KW and KWP DEC (R267). -/
def unwrap (kwp : Bool) (sd : BitVec 4) (kf : BitVec 5) (m : BitVec 9) (k : Nat) (t : Thread) (s : SReg) (p : Part) : Part :=
  let ph := phase m
  let c0 := if ph = pLoad then some (newChain t 1 kf m) else chainFor t 1 kf m
  if ph ≠ pLast ∧ sd ≠ 0 then p.threadFault k cIllegal
  else
    match c0 with
    | none => p.threadFault k cIllegal
    | some c =>
      match p.panKey k t (if ph = pLast then keyRegs sd.toNat else []) kf (famAlg m) (has 5) with
      | (.error stop, p) => stop p
      | (.ok key, p) =>
        let c := { c with state := c.state ++ SReg.bytes s }
        if ph ≠ pLast then p.panTake k t (some c) 1
        else
          let a := Crypto.aes key.key
          let ok := c.state.length % 8 == 0 && decide ((if kwp then 16 else 24) ≤ c.state.length ∧ c.state.length ≤ 40)
          let got := if !ok then none else if kwp then KeyBlock.kwpUnwrap a c.state else Crypto.keyUnwrap a c.state
          (p.modThread k fun t => { t with chain := none }).writeKey k t sd.toNat key.ksrc (got.map fun x => (x, none)) 1

/-- A key-transport function: only from a library segment (R255). KB.PARSE is taken in phase ONE, and KB.BUILD, KW and KWP in the
other phases, each other phase ending the harvest with cause 0b001: the spec gives the phase of KB.PARSE nowhere (log entry
177). -/
def transport (enc : Bool) (sd ss : BitVec 4) (kf : BitVec 5) (m : BitVec 9) (k : Nat) (t : Thread) (s : SReg) (p : Part) :
    Part :=
  if !t.library then p.threadFault k cIllegal
  else
    match enc, fun' m, phase m with
    | false, 0, 0 => p.kbParse sd kf m k t
    | _, _, 0 => p.threadFault k cIllegal
    | true, 1, _ => p.kbBuild sd kf m k t
    | true, 2, _ => p.wrap false sd ss kf m k t s
    | true, 3, _ => p.wrap true sd ss kf m k t s
    | false, 2, _ => p.unwrap false sd kf m k t s
    | false, 3, _ => p.unwrap true sd kf m k t s
    | _, _, _ => p.threadFault k cIllegal

def encDec (enc : Bool) (x : Proc) (sd ss : BitVec 4) (kf : BitVec 5) (m : BitVec 9) (p : Part) : Part :=
  let fn : BitVec 4 := if enc then 0 else 1
  let rs := fun (t : Thread) (p : Part) =>
    let ends := phase m == pOne || phase m == pLast
    if fam m ≠ 4 then ss.toNat :: if phase m = pLoad then [] else [sd.toNat]
    else if enc then
      (if phase m ≠ pLoad then [sd.toNat]
       else if 2 ≤ fun' m && isKeyReg (sreg t ss.toNat) && decide (16 < keyLen (p.templateOf t (sreg t ss.toNat)).alg) then
         keyRegs ss.toNat
       else [ss.toNat])
    else (if fun' m = 0 then [] else [ss.toNat]) ++ if ends then keyRegs sd.toNat else []
  p.panOp x fn sd ss kf m rs fun k t s p =>
    if fam m = 4 then p.transport enc sd ss kf m k t s else p.cipher enc fn sd kf m k t s

/-! ### MAC and HASH (R257, R258, R261, R709) -/

/-- A mode field that MAC takes. -/
def macOk (m : BitVec 9) : Bool :=
  (fam m == 0 && fun' m == 0xA) || (fam m == 1 && (fun' m == 8 || fun' m == 9 || fun' m == 0xA))
    || (fam m == 2 && decide (1 ≤ fun' m ∧ fun' m ≤ 7))

/-- Octets padded with zeros to whole blocks of 8, one at least (padding method 1). -/
def padZero (bs : List Byte) : List Byte := Crypto.padR (8 * max 1 ((bs.length + 7) / 8)) bs

/-- The MAC of a whole message: 16 octets, 8 under TDES. -/
def macOf (m : BitVec 9) (key bs : List Byte) : List Byte :=
  match fam m, fun' m with
  | 0, _ => Crypto.cmac (Crypto.aes key) bs
  | 1, 8 => Crypto.cbcMac (Crypto.tdes key) (List.replicate 8 0) (padZero bs)
  | 1, 9 => Crypto.retail key (Crypto.cbcMac (Crypto.des (key.take 8)) (List.replicate 8 0) (padZero bs))
  | 1, _ => Crypto.cmac (Crypto.tdes key) bs
  | _, h => (Crypto.hmac h key bs).take 16

/-- A piece joined to the message so far: the chain with it, or none where the phase may not continue one (R256). -/
def gather (fn : BitVec 4) (kf : BitVec 5) (m : BitVec 9) (t : Thread) (s : SReg) : Option Chain :=
  let c0 := if phase m = pOne ∨ phase m = pLoad then some (newChain t fn kf m) else chainFor t fn kf m
  c0.map fun c => { chainData s c with state := c.state ++ SReg.bytes s }

/-- The blocks of a MAC over `n` octets so far, or with `final` of the whole; algorithm 3 ends in two more (R257, R264). -/
def macBlocks (m : BitVec 9) (n : Nat) (final : Bool) : Nat :=
  let b := famBlock (fam m)
  if fam m = 2 then hmacBlocks (fun' m) n final
  else if fun' m = 0xA then cmacBlocks b n final
  else if final then max 1 ((n + b - 1) / b) + (if fun' m = 9 then 2 else 0)
  else n / b

/-- The blocks that one piece of `len` octets, the last of `n`, makes its pan process. -/
def pieceBlocks (count : Nat → Bool → Nat) (m : BitVec 9) (n len : Nat) : Nat :=
  count n (phase m == pOne || phase m == pLast) - if phase m = pOne ∨ phase m = pLoad then 0 else count (n - len) false

/-- MAC. Its pieces are gathered and computed at the last one under the key that K names then; a sealed register K rewritten
between two pieces, on which the spec is silent, so decides the whole (log entry 178). -/
def mac (x : Proc) (sd ss : BitVec 4) (kf : BitVec 5) (m : BitVec 9) (p : Part) : Part :=
  p.panOp x 2 sd ss kf m (fun _ _ => ss.toNat :: if phase m = pOne ∨ phase m = pLast then [sd.toNat] else []) fun k t s p =>
    let ends := phase m == pOne || phase m == pLast
    match gather 2 kf m t s with
    | none => p.threadFault k cIllegal
    | some c =>
      if !macOk m || (!ends && sd != 0) then p.threadFault k cIllegal
      else
        match p.panKey k t (if ends then [sd.toNat] else []) kf (famAlg m) (fun u => has 2 u || has 3 u) with
        | (.error stop, p) => stop p
        | (.ok key, p) =>
          let blocks := pieceBlocks (macBlocks m) m c.state.length s.len.toNat
          if !ends then p.panTake k t (some c) blocks
          else
            let rel := mayRelease key c.cls (chainIntact c) && has 2 key.usage
            (p.when (phase m == pLast) (modThread k fun t => { t with chain := none })).panReq k t
              [(sd.toNat, { resReg t (macOf m key.key c.state) (join c.cls 1) with release := rel })] blocks

/-- HASH: K is 0x1F (R203). -/
def hash (x : Proc) (sd ss : BitVec 4) (kf : BitVec 5) (m : BitVec 9) (p : Part) : Part :=
  let regs := fun (t : Thread) =>
    ((if fun' m < 8 then Crypto.digestLen (fun' m) else 8 * (sreg t sd.toNat).len.toNat) + 15) / 16
  let rs := fun (t : Thread) (_ : Part) =>
    ss.toNat :: if phase m = pOne ∨ phase m = pLast then sd.toNat :: (List.range (regs t)).map (sd.toNat + ·) else []
  p.panOp x 3 sd ss kf m rs fun k t s p =>
    let code := fun' m
    let ends := phase m == pOne || phase m == pLast
    match gather 3 kf m t s with
    | none => p.threadFault k cIllegal
    | some c =>
      let n := if code < 8 then Crypto.digestLen code else 8 * (sreg t sd.toNat).len.toNat
      let blocks := pieceBlocks (hashBlocks code) m c.state.length s.len.toNat
      if fam m ≠ 3 ∨ 9 < code ∨ kf ≠ 0x1F ∨ (!ends && sd != 0) then p.threadFault k cIllegal
      else if !ends then p.panTake k t (some c) blocks
      else if n < 16 ∨ 64 < n ∨ 16 < sd.toNat + (n + 15) / 16 then p.threadFault k cIllegal
      else
        let regs := (Crypto.pieces 16 (Crypto.digest code n c.state)).zipIdx.map fun y => (sd.toNat + y.2, resReg t y.1 c.cls)
        (p.when (phase m == pLast) (modThread k fun t => { t with chain := none })).panReq k t regs blocks

/-! ### KDER (R263) -/

/-- The constant of the DUKPT key masks, once for each half. -/
def dukptMask : List Byte := [0xC0, 0xC0, 0xC0, 0xC0, 0, 0, 0, 0]

/-- The non-reversible key generation step of X9.24-1 for one half. -/
def dukptHalf (key reg : List Byte) : List Byte :=
  let r := key.drop 8
  Crypto.xorB (Crypto.desE (key.take 8) (Crypto.xorB reg r)) r

/-- An octet with odd parity. -/
def oddParity (b : Byte) : Byte :=
  let ones := ((List.range 7).filter fun i => bitAt b (i + 1)).length
  (b &&& 0xFE) ||| (if ones % 2 = 0 then 1 else 0)

/-- Octet `i` replaced. -/
def setOctet (bs : List Byte) (i : Nat) (b : Byte) : List Byte := bs.set i b

/-- The algorithms a method takes. -/
def kderAlg (code : Nat) (alg : Byte) : Bool :=
  match code with
  | 0x001 | 0x002 => alg == 0x01
  | 0x003 => isAes alg || isTdes alg || isHmac alg
  | 0x020 | 0x021 => isTdes alg || isAes alg
  | _ => isAes alg

/-- The derived key and the blocks it takes. Where ss has another length than its method takes it is cut or filled with zeros; a
mask shorter than K in 0x003 leaves K's later octets; 0x030 gives 16 octets for a template of 24: the spec states none of these
(log entry 179). -/
def kderRun (code : Nat) (key : PanKey) (ss : List Byte) : List Byte × Nat :=
  let c := Crypto.cipherOf (isTdes key.alg) key.key
  let s8 := Pk.fit 8 ss
  let two := dukptMask ++ dukptMask
  match code with
  | 0x001 => (c.enc s8 ++ (Crypto.tdes (Crypto.xorB key.key two)).enc s8, 2)
  | 0x002 => (dukptHalf (Crypto.xorB key.key two) s8 ++ dukptHalf key.key s8, 2)
  | 0x003 => (Crypto.xorB key.key ss, 0)
  | 0x010 | 0x011 =>
    let d := Pk.fit 16 ss
    let bits := ofBe ((d.drop 6).take 2)
    let n := if bits = 192 then 24 else if bits = 256 then 32 else 16
    let blk := fun (i : Nat) => c.enc (setOctet d 1 (BitVec.ofNat 8 i))
    (((blk 1) ++ (if 16 < n then blk 2 else [])).take n, (n + 15) / 16)
  | 0x020 =>
    if isAes key.alg then (Pk.fit 16 (Config.emvAes code key.key ss), 2)
    else ((c.enc s8 ++ c.enc (s8.map fun b => b ^^^ 0xFF)).map oddParity, 2)
  | 0x021 =>
    if isAes key.alg then (if key.key.length = 16 then (c.enc (Pk.fit 16 ss), 1) else (Pk.fit 16 (Config.emvAes code key.key ss), 2))
    else (c.enc (setOctet s8 2 0xF0) ++ c.enc (setOctet s8 2 0x0F), 2)
  | _ =>
    let n := if keyLen key.child.alg = 32 then 32 else 16
    let blk := fun (i : Nat) => Crypto.cmac c (Config.kdfCounter i ++ ss)
    ((blk 1 ++ (if n = 32 then blk 2 else [])), n / 16)

def kder (x : Proc) (sd ss : BitVec 4) (kf : BitVec 5) (m : BitVec 9) (p : Part) : Part :=
  p.panOp x 4 sd ss kf m (fun _ _ => ss.toNat :: keyRegs sd.toNat) fun k t s p =>
    let code := m.toNat
    if !([0x001, 0x002, 0x003, 0x010, 0x011, 0x020, 0x021, 0x030].contains code) || (code == 0x003 && s.cls != 0) then
      p.threadFault k cIllegal
    else
      match p.panKey k t (keyRegs sd.toNat) kf (kderAlg code) (has 6) with
      | (.error stop, p) => stop p
      | (.ok key, p) =>
        let (bs, blocks) := kderRun code key (SReg.bytes s)
        if 16 < bs.length ∧ sd.toNat % 2 = 1 then p.threadFault k cIllegal
        else
          let cls := join 2 (join s.cls key.cls)
          let regs := (Crypto.pieces 16 bs).zipIdx.map fun y =>
            (sd.toNat + y.2, { resReg t y.1 cls with ksrc := key.ksrc })
          p.panReq k t regs blocks

/-! ### ENGX (R286 to R293) -/

/-- Word `i` of the operand map (R288). -/
def mapWord (s : SReg) (i : Nat) : Word := BitVec.ofNat 32 (ofLe (((SReg.octets s).drop (4 * i)).take 4))

/-- The octets that an input range names: in the data area, in the input list, or in sealed registers from sd; none where the
range passes its source (R289). -/
def mapInput (p : Part) (t : Thread) (src off len sd : Nat) : Option (List Byte) :=
  let c := p.ctx t.ctx
  if src = 0 then (if off + len ≤ 384 then some (p.ctxData t.ctx off len) else none)
  else if src = 1 then
    (if c.sglIn.2 ≠ 0 ∧ off + len ≤ c.inData.length then some ((c.inData.drop off).take len) else none)
  else some (((List.range ((len + 15) / 16)).flatMap fun i => SReg.octets (sreg t (sd + i))).take len)

/-- The octets of the output list of a context. -/
def outListLen (c : Ctx) : Nat := match c.lists with | some (_, o) => o.foldl (fun n e => n + e.2) 0 | none => 0

/-- The reserved fields and values of an operand map, and its sealed registers (R288, R289). -/
def mapIllegal (op : Nat) (t : Thread) (s : SReg) (sd : Nat) (alg : Nat) : Bool :=
  let w3 := mapWord s 3
  let len := (fld (mapWord s 0) 16 16).toNat
  let pad := fld w3 4 2
  let layer := (fld w3 8 5).toNat
  let (_, _, _, d, _) := Pk.slh alg
  s.cls != 0 || fld w3 13 19 != 0 || fld w3 0 2 == 3 || fld w3 6 2 == 3
    || (if op = Pk.rsaSign ∨ op = Pk.rsaVerify then bitAt pad 1 else pad != 0)
    || (if op = Pk.slhLayer then decide (d ≤ layer) else layer != 0)
    || (fld w3 0 2 == 2 && (decide (64 < len ∨ 16 < sd + (len + 15) / 16)
        || (List.range ((len + 15) / 16)).any fun i => (sreg t (sd + i)).cls != 0))
    || (op == Pk.edSign && decide (384 < len))

/-- The registers from sd that an operation's result fills. A key recovered by RSA.OAEP.DEC may fill a pair, which only an even sd
can be. -/
def engxRegs (op alg sd : Nat) : Nat :=
  if Pk.verifies op then 0
  else if op = Pk.oaepDec then (if sd % 2 = 0 then 2 else 1)
  else if Pk.signs op && !(op == Pk.slhFors || op == Pk.slhLayer) then 1
  else (Pk.secretLen op alg + 15) / 16

/-- The sealed registers that an operand map reads its first input from (R288). -/
def mapInRegs (s : SReg) (sd : Nat) : List Nat :=
  if fld (mapWord s 3) 0 2 = 2 then
    (List.range (min 4 (((fld (mapWord s 0) 16 16).toNat + 15) / 16))).map (sd + ·)
  else []

/-- The sealed registers that an ENGX reads or writes; where K names a register, which ends the harvest, that one too (R204). -/
def engxTouches (p : Part) (op : Nat) (t : Thread) (sd ss : Nat) (kf : BitVec 5) : List Nat :=
  let alg : Nat := match keyField kf with | some f => (p.slot (hIndex (p.fieldHandle t f))).alg.toNat | none => 0
  ss :: mapInRegs (sreg t ss) sd ++ (List.range (engxRegs op alg sd)).map (sd + ·)
    ++ if kf.toNat < 0x10 then keyRegs kf.toNat else []

/-- ENGX of op code `op`. K 0x1F, which R203 admits to the field and R292 does not, ends the harvest with cause 0b001 (log entry
174). -/
def engx (op : BitVec 9) (x : Proc) (sd ss : BitVec 4) (kf : BitVec 5) (p : Part) : Part :=
  let o := op.toNat
  p.threadOnly x (Dibry.fmtSE 8 sd ss kf op)
    (fun t p => mustWait t (p.engxTouches o t sd.toNat ss.toNat kf) || decide (4 ≤ t.reqs.length)) fun k t p =>
    let s := sreg t ss.toNat
    if s.colour ≠ t.colour ∨ (mapInRegs s sd.toNat).any (fun i => (sreg t i).colour != t.colour) then p.colourFault k
    else if kf.toNat < 0x10 then p.endHarvest k 0x12 0x10 [] 0
    else
      match keyField kf with
      | none => p.threadFault k cIllegal
      | some f =>
        let h := p.fieldHandle t f
        let slot := p.slot (hIndex h)
        let alg := slot.alg.toNat
        let w3 := mapWord s 3
        let src := (fld w3 0 2).toNat
        let regs := engxRegs o alg sd.toNat
        let out := Pk.outLen o alg slot.modLimbs.toNat
        let outOff := (fld (mapWord s 2) 0 16).toNat
        let outLen := (fld (mapWord s 2) 16 16).toNat
        let room := if bitAt w3 2 then outListLen (p.ctx t.ctx) else 384
        if mapIllegal o t s sd.toNat alg || (Pk.verifies o && sd != 0) || decide (16 < sd.toNat + regs)
            || (regs == 2 && decide (sd.toNat % 2 = 1)) then p.threadFault k cIllegal
        else
          let in1 := p.mapInput t src (fld (mapWord s 0) 0 16).toNat (fld (mapWord s 0) 16 16).toNat sd.toNat
          let in2 := p.mapInput t (if bitAt w3 3 then 1 else 0) (fld (mapWord s 1) 0 16).toNat (fld (mapWord s 1) 16 16).toNat 0
          let outs := Pk.signs o || o == Pk.mlkemEnc
          let noList := bitAt w3 2 && (p.ctx t.ctx).sglOut.2 == 0
          match in1, in2 with
          | some in1, some in2 =>
            if decide (room < outOff + outLen) || noList || (outs && decide (outLen < out)) then p.threadFault k cBounds
            else
              let unit : UnitRef := if Pk.grainer o then .grainer 0 else .rake 0
              let id := t.nextReq
              let p := p.addReq k
                { ready := false, fixed := o == Pk.mldsaSign, dest := [], window := [], verifies := Pk.verifies o
                  verdict := none, fail := none, unit := unit, pendDest := (List.range regs).map (sd.toNat + ·) }
              let c := p.ctx t.ctx
              (p.sendOp
                { owner := .thread k id, cls := t.cls, fn := c.fn, mode := op, handle := h, field := f, colour := t.colour
                  in1 := if o = Pk.mlkemEnc then [] else in1, in2 := if Pk.verifies o then in2 else [], outLen := outLen, outPos := if outs then some outOff else none, sd := sd.toNat
                  word3 := w3, depth := if Pk.grainer o then c.depthG else c.depthR }).threadNext k t
          | _, _ => p.threadFault k cBounds

end Part

/-! ### The meanings -/

/-- ENC (R145, R146, R256 to R260, R266, R267, R708). -/
def execEnc (x : Proc) (sd ss : BitVec 4) (k : BitVec 5) (m : BitVec 9) (s : State) : Host.Outcome State Fault Refusal :=
  onPart (Part.encDec true x sd ss k m) s
/-- DEC (R145, R256, R258, R259, R265, R267, R708). -/
def execDec (x : Proc) (sd ss : BitVec 4) (k : BitVec 5) (m : BitVec 9) (s : State) : Host.Outcome State Fault Refusal :=
  onPart (Part.encDec false x sd ss k m) s
/-- MAC (R146, R257, R258, R708, R709). -/
def execMac (x : Proc) (sd ss : BitVec 4) (k : BitVec 5) (m : BitVec 9) (s : State) : Host.Outcome State Fault Refusal :=
  onPart (Part.mac x sd ss k m) s
/-- HASH (R254, R261). -/
def execHash (x : Proc) (sd ss : BitVec 4) (k : BitVec 5) (m : BitVec 9) (s : State) : Host.Outcome State Fault Refusal :=
  onPart (Part.hash x sd ss k m) s
/-- KDER (R263). -/
def execKder (x : Proc) (sd ss : BitVec 4) (k : BitVec 5) (m : BitVec 9) (s : State) : Host.Outcome State Fault Refusal :=
  onPart (Part.kder x sd ss k m) s
/-- ENGX RSA.SIGN (R286, R288 to R293). -/
def execRsaSign (x : Proc) (sd ss : BitVec 4) (k : BitVec 5) (s : State) : Host.Outcome State Fault Refusal :=
  onPart (Part.engx 0x000 x sd ss k) s
/-- ENGX RSA.VERIFY (R286, R288 to R293). -/
def execRsaVerify (x : Proc) (sd ss : BitVec 4) (k : BitVec 5) (s : State) : Host.Outcome State Fault Refusal :=
  onPart (Part.engx 0x001 x sd ss k) s
/-- ENGX RSA.OAEP.DEC (R286, R288 to R293). -/
def execRsaOaepDec (x : Proc) (sd ss : BitVec 4) (k : BitVec 5) (s : State) : Host.Outcome State Fault Refusal :=
  onPart (Part.engx 0x002 x sd ss k) s
/-- ENGX EC.SIGN (R286, R288 to R293). -/
def execEcSign (x : Proc) (sd ss : BitVec 4) (k : BitVec 5) (s : State) : Host.Outcome State Fault Refusal :=
  onPart (Part.engx 0x040 x sd ss k) s
/-- ENGX EC.VERIFY (R286, R288 to R293). -/
def execEcVerify (x : Proc) (sd ss : BitVec 4) (k : BitVec 5) (s : State) : Host.Outcome State Fault Refusal :=
  onPart (Part.engx 0x041 x sd ss k) s
/-- ENGX EC.DH (R286, R288 to R293). -/
def execEcDh (x : Proc) (sd ss : BitVec 4) (k : BitVec 5) (s : State) : Host.Outcome State Fault Refusal :=
  onPart (Part.engx 0x042 x sd ss k) s
/-- ENGX ED.SIGN (R286, R288 to R293). -/
def execEdSign (x : Proc) (sd ss : BitVec 4) (k : BitVec 5) (s : State) : Host.Outcome State Fault Refusal :=
  onPart (Part.engx 0x048 x sd ss k) s
/-- ENGX ED.VERIFY (R286, R288 to R293). -/
def execEdVerify (x : Proc) (sd ss : BitVec 4) (k : BitVec 5) (s : State) : Host.Outcome State Fault Refusal :=
  onPart (Part.engx 0x049 x sd ss k) s
/-- ENGX MLDSA.SIGN (R299, R288 to R293). -/
def execMldsaSign (x : Proc) (sd ss : BitVec 4) (k : BitVec 5) (s : State) : Host.Outcome State Fault Refusal :=
  onPart (Part.engx 0x080 x sd ss k) s
/-- ENGX MLDSA.VERIFY (R286, R288 to R293). -/
def execMldsaVerify (x : Proc) (sd ss : BitVec 4) (k : BitVec 5) (s : State) : Host.Outcome State Fault Refusal :=
  onPart (Part.engx 0x081 x sd ss k) s
/-- ENGX MLKEM.ENC (R286, R288 to R293). -/
def execMlkemEnc (x : Proc) (sd ss : BitVec 4) (k : BitVec 5) (s : State) : Host.Outcome State Fault Refusal :=
  onPart (Part.engx 0x088 x sd ss k) s
/-- ENGX MLKEM.DEC (R286, R288 to R293). -/
def execMlkemDec (x : Proc) (sd ss : BitVec 4) (k : BitVec 5) (s : State) : Host.Outcome State Fault Refusal :=
  onPart (Part.engx 0x089 x sd ss k) s
/-- ENGX SLH.FORS (R286, R288 to R293). -/
def execSlhFors (x : Proc) (sd ss : BitVec 4) (k : BitVec 5) (s : State) : Host.Outcome State Fault Refusal :=
  onPart (Part.engx 0x090 x sd ss k) s
/-- ENGX SLH.LAYER (R310, R288 to R293). -/
def execSlhLayer (x : Proc) (sd ss : BitVec 4) (k : BitVec 5) (s : State) : Host.Outcome State Fault Refusal :=
  onPart (Part.engx 0x091 x sd ss k) s
/-- ENGX SLH.VERIFY (R286, R288 to R293). -/
def execSlhVerify (x : Proc) (sd ss : BitVec 4) (k : BitVec 5) (s : State) : Host.Outcome State Fault Refusal :=
  onPart (Part.engx 0x092 x sd ss k) s

end Sys2Proof.Machine
end

