-- ==== Sys2Proof/Machine/Entropy.lean ====
section
/-! DEFINITION. The commands of the Brine Wells (10_brine_wells.md): the release of ENT's reset, raw bits and their health tests,
conditioning, promotion, requests, software ports and known-answer tests. -/

namespace Sys2Proof.Machine
namespace Part

def entSrc (p : Part) (k : Nat) : Source := p.ent.srcs.get {} k

def modSrc (k : Nat) (g : Source → Source) (p : Part) : Part := p.modEnt fun e => { e with srcs := e.srcs.upd {} k g }

/-! ### Entropy that does not return (R652) -/

/-- The detail of ENGINE_LOST for the class of unit an operation would have been placed on. -/
def kindDetail (k : UnitKind) : Byte := match k with | .rake => 2 | .grainer => 3 | _ => 1

/-- READY has fallen until the next full reset: operations that no unit has started end, and secure-port commands that wait for a
draw. -/
def entropyGone (p : Part) : Part :=
  let held := p.dsp.ctxs.filter fun x =>
    x.2.state == .decoded || x.2.state == .held || (x.2.state == .queued && x.2.unit != some .secure)
  let p := held.foldl (fun p x => p.fail x.1 0x30 (kindDetail (kindOf x.2))) p
  let mine : EngOp → Bool := fun o => match o.owner with | .ctx n => held.any (fun x => x.1 == n) | _ => false
  let p := p.modRke fun r =>
    { r with engines := r.engines.mapV {} fun _ e => { e with queue := e.queue.filter fun o => !mine o } }
  p.modSlc fun c => if c.spWait.isSome then { c with op := some (0x01, c.gen), spWait := none } else c

/-! ### Known-answer tests (R361, R376, R377) -/

/-- The conditioner's key (R361). -/
def condKey : List Byte := KeyBlock.ascii "HX6400 Brine Wells conditioner K"

/-- The conditioner: AES-256 CBC-MAC over 64 octets. -/
def conditionBlock (bs : List Byte) : List Byte := Crypto.cbcMac (Crypto.aes condKey) (List.replicate 16 0) bs

/-- Octets n, n + 1 and so on. -/
def countUp (n len : Nat) : List Byte := (List.range len).map fun i => BitVec.ofNat 8 (n + i)

/-- What the conditioner test shows. -/
def condKatOut : List Byte := conditionBlock (countUp 0 64)

/-- What the expander test shows: octets 0 to 15 of the second generate. -/
def drbgKatOut : List Byte :=
  let (k0, v0) := Crypto.drbgUpdate (List.replicate 32 0) 0 (countUp 0x00 48)
  let (_, k1, v1) := Crypto.drbgGen k0 v0 64
  let (k2, v2) := Crypto.drbgUpdate k1 v1 (countUp 0x30 48)
  (Crypto.drbgGen k2 v2 64).1.take 16

/-- ENT_KAT_OUT holds a test's output. -/
def katWords (bs : List Byte) : Tab Word :=
  (Crypto.pieces 4 bs).zipIdx.foldl (fun t x => t.set 0 x.2 (BitVec.ofNat 32 (ofLe x.1))) []

/-- A known-answer test starts. -/
def entKat (drbg : Bool) (p : Part) : Part :=
  p.when p.ent.running (modEnt fun e => if drbg then { e with katDrbg := true } else { e with katCond := true })

/-- A known-answer test ends, ENT_KAT_OUT showing its result: a wrong one is a free value (log entry 188). A failure clears READY
until the next full reset and raises ENT_KAT. -/
def entKatEnd (drbg failed : Bool) (p : Part) : Part :=
  if !(if drbg then p.ent.katDrbg else p.ent.katCond) then p
  else
    let (d, p) := p.draw
    let out := katWords (if failed then drawBytes d 16 else if drbg then drbgKatOut else condKatOut)
    let p := p.modEnt fun e =>
      { e with katDone := true, katOut := out, katFailed := e.katFailed || failed
               katDrbg := e.katDrbg && !drbg, drbgFail := if drbg then failed else e.drbgFail
               katCond := e.katCond && drbg, condFail := if drbg then e.condFail else failed }
    if failed then (((p.modEnt fun e => { e with dead := true }).entUnready).raiseOne .entKat 0 0).entropyGone
    else p.entPump

/-! ### Release of reset (R356, R369 to R371, R375) -/

/-- The two sources active at a release (R375), when two are sound. -/
def chooseActive (iso : BitVec 16) : Nat × Nat :=
  let a := if Ent.sound iso 0 then 0 else (Ent.spare iso [] 0).getD 0
  let b := if Ent.sound iso 8 && a != 8 then 8 else (Ent.spare iso [a] 8).getD a
  (a, b)

/-- ENT_RESET_RELEASE: sources start, the two active ones are chosen, and the known-answer tests run; `condFail` and `drbgFail`
say that a test's result is wrong. -/
def entRelease (condFail drbgFail : Bool) (p : Part) : Part :=
  if p.ent.running || !p.powered 121 then p
  else
    let (a, b) := chooseActive p.aon.isolated
    let (d, p) := p.draw
    let bad := condFail || drbgFail
    p.modEnt fun e =>
      { e with running := true, actA := a, actB := b, katDone := true, condFail := condFail, drbgFail := drbgFail
               katFailed := e.katFailed || bad, katOut := katWords (if drbgFail then drawBytes d 16 else drbgKatOut)
               startFail := e.startFail || bad || decide (Ent.soundCount p.aon.isolated < 2) }

/-! ### Isolation and promotion (R358 to R360, R371) -/

/-- A spare put in the place of `actA` or `actB`, its promotion begun. -/
def promote (slotA : Bool) (k : Nat) (p : Part) : Part :=
  let p := p.modSrc k fun s => { s with promo := 0, promoBlk := false, blk := 0, fill := 0 }
  p.modEnt fun e => if slotA then { e with actA := k, promoA := true } else { e with actB := k, promoting := true }

/-- The place of an isolated active source is filled: the other active source stays first, a spare is promoted in second place;
with no spare the other stays alone (R359, R360). -/
def replaceActive (k : Nat) (spare : Option Nat) (p : Part) : Part :=
  let e := p.ent
  match spare with
  | some s =>
    if e.actB = k then p.promote false s
    else if e.promoting then p.promote true s
    else (p.modEnt fun e => { e with actA := e.actB }).promote false s
  | none =>
    p.modEnt fun e =>
      if e.actB = k then { e with actB := e.actA, promoting := false }
      else if e.promoting then { e with actA := e.actB, promoA := e.promoting, promoting := false }
      else { e with actA := e.actB, promoA := false }

/-- A source isolated for a cause of ENT_SRC_CAUSE (R358 to R360, R371). -/
def isolate (k : Nat) (cause : BitVec 2) (p : Part) : Part :=
  let iso := p.aon.isolated ||| BitVec.ofNat 16 (2 ^ k)
  let active := p.ent.actA == k || p.ent.actB == k
  let spare := if active then Ent.spare iso [p.ent.actA, p.ent.actB] k else none
  let p := p.modAon fun a => { a with isolated := iso, isoCause := a.isoCause.set 0 k cause }
  let p := (p.modSrc k fun s => { s with blk := 0, fill := 0, half := none }).modEnt fun e =>
    { e with seeds := e.seeds.filter fun x => x.1 != k }
  let p := p.when active (replaceActive k spare)
  let p := p.post 0x9001#16
    (BitVec.ofNat 32 k ||| at' cause 4 ||| at' (match spare with | some s => BitVec.ofNat 4 s | none => 0xF#4) 8) 0
  let n := Ent.soundCount iso
  let p := p.when (!p.ent.wasReady && decide (n < 2)) (modEnt fun e => { e with startFail := true })
  if n = 1 then p.raiseOne .entDegraded k 0
  else if n = 0 then (((p.modEnt fun e => { e with dead := true }).entUnready).raiseOne .entExhausted k 0).entropyGone
  else p

/-- A promotion is complete: 512 passing bits and a block since it began, and before READY the start-up requirement (R357, R359,
R371, R374). -/
def promoted (p : Part) (k : Nat) : Bool :=
  let s := p.entSrc k
  decide (512 ≤ s.promo) && s.promoBlk && (p.ent.wasReady || decide (1024 ≤ s.passed))

/-- Promotions that are complete end. -/
def endPromotions (p : Part) : Part :=
  let p := p.when (p.ent.promoting && p.promoted p.ent.actB) (modEnt fun e =>
    if e.promoA then { e with promoting := true, promoA := false, actA := e.actB, actB := e.actA }
    else { e with promoting := false })
  p.when (p.ent.promoA && p.promoted p.ent.actA) (modEnt fun e => { e with promoA := false })

/-! ### Raw bits (R354, R355, R357, R361, R362) -/

/-- A debiased bit enters the conditioner of an active source; the 512th completes a block. -/
def conditionBit (k : Nat) (b : Bool) (p : Part) : Part :=
  if !(p.ent.actA == k || p.ent.actB == k) then p
  else
    let s := p.entSrc k
    let blk := (s.blk <<< 1) ||| (if b then 1 else 0)
    if s.fill < 511 then p.modSrc k fun s => { s with blk := blk, fill := s.fill + 1 }
    else
      let out : Block := BitVec.ofNat 128 (ofBe (conditionBlock (beBytes 64 blk.toNat)))
      (p.modSrc k fun s => { s with blk := 0, fill := 0, promoBlk := true }).modEnt fun e =>
        { e with seeds := (if 8 ≤ e.seeds.length then e.seeds.drop 1 else e.seeds) ++ [(k, out)] }

/-- The health tests of a debiased bit: the source after it, and the cause of its failing. -/
def testBit (b : Bool) (s : Source) : Source × Option (BitVec 2) :=
  let run := if 0 < s.run ∧ s.last = b then s.run + 1 else 1
  let first := if s.pos = 0 then b else s.first
  let same := if s.pos = 0 then 1 else if b = s.first then s.same + 1 else s.same
  let s' : Source :=
    { s with starve := 0, last := b, run := run, first := first, same := same, pos := (s.pos + 1) % 1024
             passed := min 1024 (s.passed + 1), promo := min 512 (s.promo + 1) }
  (s', if 61 ≤ run then some 1 else if 813 ≤ same then some 2 else none)

/-- SOURCE_BIT: one raw bit of source `k`. -/
def sourceBit (k : Nat) (bit : Bool) (p : Part) : Part :=
  let s := p.entSrc k
  if !p.ent.running || !Ent.sound p.aon.isolated k then p
  else
    match s.half with
    | none => p.modSrc k fun s => { s with half := some bit }
    | some a =>
      if a = bit then
        let p := p.modSrc k fun s => { s with half := none, starve := s.starve + 1 }
        p.when (decide (256 ≤ s.starve + 1)) (isolate k 3)
      else
        let (s', fail) := testBit a { s with half := none }
        let p := p.modSrc k fun _ => s'
        match fail with
        | some c => p.isolate k c
        | none => ((p.conditionBit k a).endPromotions).entTryReady.entPump

/-! ### Requests (R365, R366, R378, R379) -/

/-- The draws of R365 on a wire. -/
def wireDraw (w : Nat) (cls : EntClass) (n : Nat) : Bool :=
  if w < 16 then cls == .mask && (n == 32 || n == 8)
  else if w < 72 then (cls == .mask && decide (8 ≤ n ∧ n ≤ 32)) || (cls == .fresh && n == 32)
  else if w = 72 then cls == .fresh && n == 64
  else if w = 73 then (cls == .fresh && n == 16) || (cls == .predict && n == 32)
  else w == 74 && cls == .mask && n == 8

/-- ENTROPY_REQUEST: a draw of `n` octets over a private wire; a wire with a request outstanding sends no second one. -/
def entropyRequest (w : Nat) (cls : EntClass) (n : Nat) (p : Part) : Part :=
  if !wireDraw w cls n || p.ent.waiting.any (fun d => d.wire == w) then p else p.entRequest w cls n

/-- The class of a code of R364. -/
def entClass (c : BitVec 2) : Option EntClass :=
  if c = 0 then some .mask else if c = 1 then some .fresh else if c = 2 then some .predict else none

/-- ENT_SW_REQ with GO: ignored while BUSY; a reserved class, or PREDICT on port 0, sets REQ_ERR. -/
def swReq (port : Nat) (words : BitVec 4) (cls : BitVec 2) (p : Part) : Part :=
  let s := p.ent.ports.get {} port
  let upd := fun (g : SwPort → SwPort) (p : Part) => p.modEnt fun e => { e with ports := e.ports.upd {} port g }
  if s.busy then p
  else
    match entClass cls with
    | none => upd (fun s => { s with reqErr := true }) p
    | some c =>
      if c = .predict ∧ port = 0 then upd (fun s => { s with reqErr := true }) p
      else
        let p := upd (fun s => { s with words := words, cls := cls, data := [], valid := false }) p
        if !p.ent.ready then upd (fun s => { s with status := 0x21 }) p
        else (upd (fun s => { s with busy := true }) p).entRequest (75 + port) c (4 * (words.toNat + 1))

/-- A read of a DATA word: answered once, then zero. -/
def swData (port k : Nat) (p : Part) : Word × Part :=
  ((p.ent.ports.get {} port).data.get 0 k,
    p.modEnt fun e => { e with ports := e.ports.upd {} port fun s => { s with data := s.data.set 0 k 0 } })

/-- ENT_COMMIT (R368): the boundary between two requests is at hand at once. -/
def entCommit (p : Part) : Part :=
  let (i, l) := p.ent.st.stage
  let ok := decide (16 ≤ i.toNat ∧ i.toNat ≤ l.toNat ∧ l.toNat ≤ 32)
  (p.modEnt fun e => { e with cfgMismatch := e.cfgMismatch || !ok, st := e.st.commit ok true }).entPump

end Part

/-! ### The meanings -/

/-- ENT_RESET_RELEASE (R356, R370, R371, R375). -/
def execEntResetRelease (condFail drbgFail : Bool) (s : State) : Host.Outcome State Fault Refusal :=
  onPart (Part.entRelease condFail drbgFail) s
/-- SOURCE_BIT (R354, R355, R357 to R362). -/
def execSourceBit (k : Fin 16) (bit : Bool) (s : State) : Host.Outcome State Fault Refusal := onPart (Part.sourceBit k.val bit) s
/-- ENTROPY_REQUEST (R365, R366). -/
def execEntropyRequest (w : Fin 75) (cls : BitVec 2) (n : Fin 65) (s : State) : Host.Outcome State Fault Refusal :=
  onPart (fun p => match Part.entClass cls with | some c => p.entropyRequest w.val c n.val | none => p) s
/-- ENT_SW_REQ (R378, R379). -/
def execEntSwReq (port : Fin 2) (words : BitVec 4) (cls : BitVec 2) (s : State) : Host.Outcome State Fault Refusal :=
  onPart (Part.swReq port.val words cls) s
/-- ENT_SW_DATA_READ (R379). -/
def execEntSwDataRead (port : Fin 2) (k : Fin 16) (s : State) : Host.Outcome State Fault Refusal :=
  onPart (fun p => Part.answer (p.swData port.val k.val)) s
/-- ENT_KAT_COND (R377). -/
def execEntKatCond (s : State) : Host.Outcome State Fault Refusal := onPart (Part.entKat false) s
/-- ENT_KAT_DRBG (R377). -/
def execEntKatDrbg (s : State) : Host.Outcome State Fault Refusal := onPart (Part.entKat true) s
/-- ENT_KAT_END (R377). -/
def execEntKatEnd (drbg failed : Bool) (s : State) : Host.Outcome State Fault Refusal := onPart (Part.entKatEnd drbg failed) s
/-- ENT_COMMIT (R368). -/
def execEntCommit (s : State) : Host.Outcome State Fault Refusal := onPart Part.entCommit s

end Sys2Proof.Machine
end

