-- ==== Sys2Proof/Machine/Port.lean ====
section
/-! DEFINITION. The secure port, the Ladle and the Vault (09_salt_cellar.md, R334, R336 to R352, R676): the commands of R338, their
ends, clearing, scrubbing, bank rewrites and the Vault's window. -/

namespace Sys2Proof.Machine
namespace Part

/-! ### Results (R339, R340) -/

abbrev rDone : Byte := 0x00
abbrev rNotReady : Byte := 0x01
abbrev rRange : Byte := 0x02
abbrev rNotEmpty : Byte := 0x03
abbrev rState : Byte := 0x04
abbrev rBlobAuth : Byte := 0x05
abbrev rBlobFormat : Byte := 0x06
abbrev rBlobKey : Byte := 0x07
abbrev rExport : Byte := 0x08
abbrev rTimeout : Byte := 0x09
abbrev rVault : Byte := 0x0A

abbrev spWrite : Byte := 0x01
abbrev spLanding : Byte := 0x02
abbrev spBlobOpen : Byte := 0x10
abbrev spBlobSeal : Byte := 0x11
abbrev spVaultInit : Byte := 0x13
abbrev spNewSkey : Byte := 0x14

/-- A tenant's or the manager's colour. -/
def ownerColour (c : BitVec 12) : Bool := c == 0xFFE || decide (1 ≤ c.toNat ∧ c.toNat ≤ 0x400)

/-- The colour a slot index admits (R340). -/
def colourFits (i : Nat) (c : BitVec 12) : Bool := if i < 1024 then c == 0xFFF else ownerColour c

/-- The running command's outcome, which SP_COMMAND_END publishes. -/
def spEnd (res : Byte) (gen : Option Byte) (p : Part) : Part :=
  p.modSlc fun c => { c with op := some (res, gen.getD c.gen), spWait := none }

/-- A command written: ignored while BUSY; NOT_READY before READY; a Ladle command of a retired Ladle ends with STATE (R334, R338,
R676). -/
def spStart (cmd : Byte) (go : Part → Part) (p : Part) : Part :=
  if p.slc.busy then p
  else
    let p := p.modSlc fun c => { c with busy := true, op := none, spWait := none }
    if !p.slc.ready then p.spEnd rNotReady none
    else if p.slc.ladleRetired && decide (0x10 ≤ cmd.toNat ∧ cmd.toNat ≤ 0x14) then p.spEnd rState none
    else go p

/-- The indices of a range. -/
def rangeOf (i n : Nat) : List Nat := (List.range n).map (i + ·)

/-- Every bank of a range is up (R352). -/
def banksUp (p : Part) (is : List Nat) : Bool := is.all fun i => p.bankUp (i % 32)

/-- On a paired unit that is not HOLDING, no command changes a slot of a colour other than 0xFFF (R542). -/
def portGated (p : Part) (i : Nat) : Bool := p.paired && p.mir.gate != 2 && decide (1024 ≤ i)

/-- A change of slots through the port: its entry on a pair (R541, R546). -/
def portLedger (is : List Nat) (p : Part) : Part :=
  let l := is.filter fun i => decide (1024 ≤ i)
  p.when (l != []) (ledger (l.flatMap p.slotItem) none none)

def spIndex (p : Part) : Nat := p.slc.spIndex.toNat
def spColour (p : Part) : BitVec 12 := fld (p.slc.spAttr.get 0 0) 0 12
/-- The octets of DATA0 to DATA7. -/
def spMaterial (p : Part) : List Byte := (List.range 8).flatMap fun k => leBytes 4 (p.slc.spData.get 0 k).toNat
/-- The offset in private memory that SLC_SP_ADDR names. -/
def spOffset (p : Part) : Nat := p.slc.spAddr.toNat % 0x200000

/-! ### Storage keys (R346 to R348) -/

/-- The root secret may be used: set, sound and its read path not disabled. -/
def rootUsable (p : Part) : Bool := p.sys.fuses.rootSet && p.sys.fuses.rootOk && !p.sys.fuses.rootDisable

/-- A derivation from the root secret (R346). -/
def rootDerive (p : Part) (label : String) (n : Nat) : List Byte :=
  Crypto.kdf (leBytes 32 p.sys.fuses.rootBits.toNat) (KeyBlock.ascii label) n

def vaultRead (p : Part) (o n : Nat) : List Byte := p.bat.vault.read ram o n
def vaultWrite (o : Nat) (bs : List Byte) (p : Part) : Part := p.modBat fun b => { b with vault := b.vault.write ram o bs }

/-- FORMAT is in use. -/
def vaultInUse (p : Part) : Bool := p.vaultRead 0 1 == [0x01]

/-- The storage root, unwrapped; a retired Ladle reaches no key (R676). -/
def storageRoot (p : Part) : Option (List Byte) :=
  if p.vaultInUse && p.rootUsable && !p.slc.ladleRetired then
    Crypto.keyUnwrap (Crypto.aes (p.rootDerive "HX6400 vault wrap" 32)) (p.vaultRead 0x40 40)
  else none

/-- The offset of an owner's storage-key entry: tenant t's is t, the manager's 1,024. -/
def skeyOffset (colour : BitVec 12) : Nat := 0x0900 + 48 * (if colour = 0xFFE then 1024 else colour.toNat - 1)

/-- An owner's current KEY_ID and storage key. -/
def storageKey (p : Part) (colour : BitVec 12) : Option (Nat × List Byte) :=
  let e := p.vaultRead (skeyOffset colour) 48
  match p.storageRoot with
  | some root =>
    if e.getD 4 0 = 1 then (Crypto.keyUnwrap (Crypto.aes root) (e.drop 8)).map fun k => (ofLe (e.take 4), k) else none
  | none => none

/-- The Ladle has used an owner's key (R345). -/
def cacheOwner (colour : BitVec 12) (p : Part) : Part :=
  p.modSlc fun c => { c with cache := (colour.toNat :: c.cache.filter (· != colour.toNat)).take 16 }

/-! ### Device blobs (R343, R344) -/

/-- The octets 0 to 35 of a blob. -/
def blobHead (s : Slot) (keyId : Nat) (colour : BitVec 12) : List Byte :=
  KeyBlock.ascii "HXSB" ++ [1, s.hclass.setWidth 8, s.alg, s.chainLen] ++ leBytes 2 s.usage.toNat
    ++ [s.releaseMask, s.decryptClass.setWidth 8 ||| (s.exportClass.setWidth 8 <<< 3), s.child] ++ leBytes 2 s.modLimbs.toNat ++ [0]
    ++ leBytes 2 s.notAfter.toNat ++ [0, 0] ++ leBytes 4 keyId ++ leBytes 4 colour.toNat ++ List.replicate 8 0

/-- The codes of R322. -/
def knownAlg (a : Byte) : Bool :=
  isAes a || isTdes a || isHmac a || a == 0x20
    || [(0x30, 0x32), (0x38, 0x3B), (0x40, 0x42), (0x48, 0x4A), (0x50, 0x55)].any fun r => decide (r.1 ≤ a.toNat ∧ a.toNat ≤ r.2)

/-- The header's fields are valid (R343 step 1). -/
def blobFormatOk (h : List Byte) : Bool :=
  let z := fun (i : Nat) => h.getD i 0 == 0
  h.take 4 == KeyBlock.ascii "HXSB" && h.getD 4 0 == 1 && decide (1 ≤ (h.getD 5 0).toNat ∧ (h.getD 5 0).toNat ≤ 4)
    && knownAlg (h.getD 6 0) && h.getD 7 0 != 0 && (h.getD 10 0) &&& 0x60 == 0 && (h.getD 11 0) &&& 0xC0 == 0
    && (h.getD 14 0) &&& 0xFE == 0 && z 15 && z 18 && z 19 && (h.getD 25 0) &&& 0xF0 == 0 && z 26 && z 27
    && (rangeOf 28 8).all z

/-- The blob at ADDR: header, nonce, and ciphertext with tag. -/
def blobParts (p : Part) : List Byte × List Byte × List Byte :=
  let h := p.priv.read ram p.spOffset 36
  (h, p.priv.read ram (p.spOffset + 36) 12, p.priv.read ram (p.spOffset + 48) (32 * (h.getD 7 0).toNat + 16))

/-- The material of the blob at ADDR, when its tag holds. -/
def blobOpen (p : Part) : Option (List Byte) :=
  let (h, nonce, ct) := p.blobParts
  (p.storageKey p.spColour).bind fun k => Crypto.sivOpen k.2 nonce h ct

/-- The attributes that a blob's header gives its chain. -/
def blobTemplate (h : List Byte) : Template :=
  { hclass := (h.getD 5 0).setWidth 4, alg := h.getD 6 0, usage := BitVec.ofNat 16 (ofLe ((h.drop 8).take 2)), mask := h.getD 10 0
    dec := fld (h.getD 11 0) 0 3, expo := fld (h.getD 11 0) 3 3, child := h.getD 12 0 }

/-- An opened blob written at slot `i` as one chain. -/
def blobLand (i : Nat) (colour : BitVec 12) (h mat : List Byte) (p : Part) : Part :=
  p.modSlc fun c =>
    c.putChain i colour (blobTemplate h) (BitVec.ofNat 16 (ofLe ((h.drop 16).take 2))) (BitVec.ofNat 9 (ofLe ((h.drop 13).take 2)))
      ((Crypto.pieces 32 mat).take (h.getD 7 0).toNat)

/-! ### The commands that are key-usage grants (R338, R343, R569) -/

/-- Every check of WRITE, OPEN_LANDING or BLOB_OPEN, in order: its RESULT. -/
def portCheck (p : Part) (cmd : Byte) : Byte :=
  let i := p.spIndex
  if cmd = spBlobOpen then
    let (h, _, _) := p.blobParts
    let n := (h.getD 7 0).toNat
    if !p.vaultInUse then rVault
    else if !blobFormatOk h then rBlobFormat
    else if ofLe ((h.drop 24).take 4) ≠ p.spColour.toNat
        ∨ (p.storageKey p.spColour).map Prod.fst ≠ some (ofLe ((h.drop 20).take 4)) then rBlobKey
    else if 0x100000 < i + n ∨ !(rangeOf i n).all (fun j => colourFits j p.spColour) then rRange
    else if !p.banksUp (rangeOf i n) then rNotReady
    else if p.portGated i then rState
    else if (rangeOf i n).any fun j => (p.slot j).state != Slot.empty then rNotEmpty
    else if p.blobOpen.isNone then rBlobAuth
    else rDone
  else if !p.bankUp (i % 32) then rNotReady
  else if !colourFits i p.spColour then rRange
  else if p.portGated i then rState
  else if cmd = spLanding ∧ (p.slot i).state ≠ Slot.empty then rNotEmpty
  else rDone

/-- The slot that WRITE writes: ATTR0 to ATTR3 with STATE KEY, the GEN of R328 and the zero bits of R320. -/
def writtenSlot (p : Part) (gen : Byte) : Slot :=
  let a := fun (k : Nat) => p.slc.spAttr.get 0 k
  { mat := p.spMaterial, w0 := (a 0 &&& 0xFF00FFFF) ||| at' gen 16, w1 := (a 1 &&& 0x3F9FFFFF) ||| at' Slot.key 30
    w2 := a 2 &&& 0x01FFFFFF, w3 := a 3 &&& 0x01FFFFFF, tag := [] }

/-- What the granted command does. -/
def portAct (cmd : Byte) (p : Part) : Part :=
  let i := p.spIndex
  if cmd = spWrite then
    let inChain := p.slc.chain.filter fun o => decide (o.head ≤ i ∧ i < o.head + o.len)
    let gen := match inChain with | some o => o.gen | none => (p.slot i).gen + 1
    let s := p.writtenSlot gen
    let p := p.modSlc fun c =>
      { c.put i s with
        bad := c.bad.set false i false
        chain := c.chain.map fun o => if inChain.isSome then { o with written := i :: o.written.filter (· != i) } else o }
    (p.portLedger [i]).spEnd rDone (some gen)
  else if cmd = spLanding then
    let gen := (p.slot i).gen + 1
    let s : Slot :=
      { mat := List.replicate 32 0, w0 := Slot.word0 p.spColour 5 gen 0, w1 := Slot.word1 0 0 0 0 Slot.landing
        w2 := Slot.word2 0 1 (fld (p.slc.spAttr.get 0 2) 16 8) false, w3 := Slot.word3 (fld (p.slc.spAttr.get 0 3) 0 16) 0
        tag := [] }
    ((p.modSlc fun c => c.put i s).portLedger [i]).spEnd rDone (some gen)
  else
    let (h, _, _) := p.blobParts
    let gen := (p.slot i).gen + 1
    let p := (p.blobLand i p.spColour h ((p.blobOpen).getD [])).modSlc fun c =>
      { c with chain := c.chain.filter fun o => o.head != i }
    ((p.cacheOwner p.spColour).portLedger (rangeOf i (h.getD 7 0).toNat)).spEnd rDone (some gen)

/-- The slots that WRITE, OPEN_LANDING or BLOB_OPEN reads before it writes them. -/
def portSpan (p : Part) (cmd : Byte) : List Nat :=
  rangeOf p.spIndex (if cmd = spBlobOpen then (p.blobParts.1.getD 7 0).toNat else 1)

/-- WRITE, OPEN_LANDING or BLOB_OPEN: its slots' tags, and the first evaluation of its grant. -/
def spGrant (cmd : Byte) (p : Part) : Part :=
  p.spStart cmd fun p =>
    let p := p.checkTags (p.portSpan cmd)
    p.openDecision (.securePort cmd (p.portCheck cmd))

/-! ### The other commands -/

/-- A range or chain destroyed, with its entry on a pair. -/
def portDestroy (is : List Nat) (p : Part) : Part := (p.modSlc fun c => is.foldl Slc.destroy1 c).portLedger is

/-- DESTROY. -/
def spDestroy (p : Part) : Part :=
  p.spStart 0x03 fun p =>
    let i := p.spIndex
    let is := match p.slc.chain with
      | some o => if o.head = i then rangeOf i o.len else p.slc.chainOf i
      | none => p.slc.chainOf i
    let p := p.checkTags is
    if !p.banksUp is then p.spEnd rNotReady none
    else if p.portGated i then p.spEnd rState none
    else
      let gen := (p.slot i).gen + 1
      ((p.portDestroy is).modSlc fun c => { c with chain := c.chain.filter fun o => o.head != i }).spEnd rDone (some gen)

/-- CHAIN_OPEN. -/
def chainOpen (p : Part) : Part :=
  p.spStart 0x04 fun p =>
    let i := p.spIndex
    let n := (fld (p.slc.spAttr.get 0 2) 8 8).toNat
    if p.slc.chain.isSome then p.spEnd rState none
    else if n = 0 ∨ 0x100000 < i + n ∨ (i < 1024 ∧ 1024 < i + n) then p.spEnd rRange none
    else if !p.banksUp (rangeOf i n) then p.spEnd rNotReady none
    else (p.modSlc fun c => { c with chain := some { head := i, len := n, gen := (c.slot i).gen + 1 } }).spEnd rDone none

/-- CHAIN_CLOSE. A range in a bank being rewritten stays open (R339, R352). -/
def chainClose (p : Part) : Part :=
  p.spStart 0x05 fun p =>
    match p.slc.chain with
    | none => p.spEnd rState none
    | some o =>
      let is := rangeOf o.head o.len
      if !p.banksUp is then p.spEnd rNotReady none
      else
      let p := p.modSlc fun c => { c with chain := none }
      if is.all fun i => o.written.contains i then p.spEnd rDone none else (p.portDestroy is).spEnd rState none

/-- CHAIN_OPEN_TIMEOUT (R337). -/
def chainTimeout (p : Part) : Part :=
  match p.slc.chain with
  | none => p
  | some o => (p.portDestroy (rangeOf o.head o.len)).modSlc fun c => { c with chain := none, result := rTimeout }

/-- SWEEP. -/
def spSweep (p : Part) : Part :=
  p.spStart 0x06 fun p =>
    if !p.banksUp (List.range 32) then p.spEnd rNotReady none
    else if p.paired && p.mir.gate != 2 && p.spColour != 0xFFF then p.spEnd rState none
    else
      let is := p.slc.ownedBy p.spColour
      (p.portDestroy is).spEnd rDone none

/-- READ_ATTR: the tag checked, then the attribute block and the bad mark. -/
def readAttr (p : Part) : Part :=
  p.spStart 0x07 fun p =>
    let i := p.spIndex
    let p := p.checkTags [i]
    let s := p.slot i
    if !p.bankUp (i % 32) then p.spEnd rNotReady none
    else
      (p.modSlc fun c =>
        { c with spAttr := (((c.spAttr.set 0 0 s.w0).set 0 1 s.w1).set 0 2 s.w2).set 0 3 s.w3, spBad := c.isBad i }).spEnd
        rDone none

/-- NARROW. A chain with a slot marked bad, or whose tag fails, is in no state for it, and is not tagged again (R330, R331, log entry
186). -/
def narrow (p : Part) : Part :=
  p.spStart 0x08 fun p =>
    let i := p.spIndex
    let s := p.slot i
    let is := p.slc.chainOf i
    let a := fun (k : Nat) => p.slc.spAttr.get 0 k
    let lim : BitVec 16 := fld (a 3) 0 16
    let p := p.checkTags is
    if !p.banksUp is then p.spEnd rNotReady none
    else if p.portGated i || p.anyBad is || s.state != Slot.key || (lim != 0 && s.notAfter != 0 && decide (s.notAfter.toNat < lim.toNat)) then
      p.spEnd rState none
    else
      let g : Slot → Slot := fun t =>
        { t with
          w1 := t.w1 &&& (0xFFFF0000 ||| at' (fld (a 1) 0 16) 0), w2 := (t.w2 &&& 0xFEFFFFFF) ||| bit' (bitAt (a 2) 24) 24
          w3 := if lim = 0 then t.w3 else (t.w3 &&& 0xFFFF0000) ||| at' lim 0 }
      ((p.modSlc fun c => is.foldl (fun c j => c.put j (g (c.slot j))) c).portLedger is).spEnd rDone none

/-- A draw of the Ladle's: the command goes on with it, or waits for it. -/
def ladleDraw (cmd : Byte) (cls : EntClass) (n : Nat) (go : List Byte → Part → Part) (p : Part) : Part :=
  let p := p.when p.slc.spWait.isNone (modEnt (Ent.dropOwn 73))
  match p.entDrawOn 73 cls n n with
  | (some bs, p) => go bs p
  | (none, p) => p.modSlc fun c => { c with spWait := some cmd }

/-- BLOB_SEAL (R344). Its read of a chain that lies in the open range is held, and the command with it (R337); a chain with a slot in a
bank being rewritten ends it with NOT_READY (R339, R352). -/
def blobSealGo (p : Part) : Part :=
  let i := p.spIndex
  let s := p.slot i
  let is := rangeOf i (max 1 s.chainLen.toNat)
  if is.any p.slc.heldRange then p.modSlc fun c => { c with spWait := some spBlobSeal }
  else if !p.banksUp is then p.spEnd rNotReady none
  else
  match p.slotRead (mkHandle s.hclass s.gen i) p.spColour [1, 2, 3, 4] with
  | (.error _, p) => p.spEnd rState none
  | (.ok ss, p) =>
    if s.exportClass = 0 ∨ 4 ≤ s.exportClass.toNat then p.spEnd rExport none
    else if !p.vaultInUse then p.spEnd rVault none
    else
      match p.storageKey p.spColour with
      | none => p.spEnd rBlobKey none
      | some (id, key) =>
        p.ladleDraw spBlobSeal .fresh 16 fun bs p =>
          let nonce := bs.take 12
          let h := blobHead s id p.spColour
          let out := h ++ nonce ++ Crypto.sivSeal key nonce h (ss.flatMap Slot.mat)
          ((p.writePriv p.spOffset out).cacheOwner p.spColour).spEnd rDone none

/-- The order n of P-384. -/
def p384Order : Nat :=
  0xFFFFFFFFFFFFFFFFFFFFFFFFFFFFFFFFFFFFFFFFFFFFFFFFC7634D81F4372DDF581A0DB248B0A77AECEC196ACCC52973

/-- DERIVE_ID (R346): the scalar in 48 octets, then the seed. -/
def deriveId (p : Part) : Part :=
  p.spStart 0x12 fun p =>
    if !p.rootUsable then p.spEnd rState none
    else
      let d := 1 + ofBe (p.rootDerive "HX6400 identity P-384" 64) % (p384Order - 1)
      let out := beBytes 48 d ++ p.rootDerive "HX6400 identity ML-DSA-87" 32
      (p.writePriv p.spOffset out).spEnd rDone none

/-- VAULT_INIT (R348). -/
def vaultInitGo (p : Part) : Part :=
  if p.vaultInUse then p.spEnd rVault none
  else if !p.rootUsable then p.spEnd rState none
  else
    p.ladleDraw spVaultInit .predict 32 fun root p =>
      let w := Crypto.keyWrap (Crypto.aes (p.rootDerive "HX6400 vault wrap" 32)) root
      ((p.vaultWrite 0x40 (Pk.fit 48 w)).vaultWrite 0 [0x01]).spEnd rDone none

/-- NEW_SKEY (R348). -/
def newSkeyGo (p : Part) : Part :=
  if !ownerColour p.spColour then p.spEnd rRange none
  else
    match p.storageRoot with
    | none => p.spEnd rVault none
    | some root =>
      p.ladleDraw spNewSkey .predict 32 fun key p =>
        let o := skeyOffset p.spColour
        let id := ofLe (p.vaultRead o 4) + 1
        let e := leBytes 4 id ++ [1, 0, 0, 0] ++ Crypto.keyWrap (Crypto.aes root) key
        ((p.vaultWrite o e).ladleClear).spEnd rDone none

/-- A command that waits for a draw tries again. -/
def spRetry (p : Part) : Part :=
  match p.slc.spWait with
  | some c => if c = spBlobSeal then p.blobSealGo else if c = spVaultInit then p.vaultInitGo else p.newSkeyGo
  | none => p

/-- SP_COMMAND_END: the outcome published, the data registers cleared, DONE set. -/
def spCommandEnd (p : Part) : Part :=
  if !p.slc.busy then p
  else
    let p := p.spRetry
    p.modSlc fun c =>
      match c.op with
      | some (r, g) => { c with busy := false, done := true, result := r, gen := g, op := none, spData := [] }
      | none => c

/-- A CMD value not in R338: it ends at once. -/
def spUnknown (p : Part) : Part :=
  if p.slc.busy then p
  else (p.modSlc fun c => { c with busy := true, op := some (rState, c.gen), spWait := none }).spCommandEnd

/-! ### Clearing, scrubbing, bank rewrites (R331 to R334, R352) -/

/-- CELLAR_CLEAR_START: new keys drawn, every bank rewritten. -/
def clearStart (p : Part) : Part :=
  if p.slc.ready || p.slc.clearing || !(p.sys.mode == .assay || p.sys.mode == .quarantine) then p
  else
    match p.entDrawOn 72 .fresh 64 64 with
    | (some bs, p) =>
      let (k, p) := p.draw
      p.modSlc fun c =>
        { c with clearing := true, keys := some (bs.take 48), slots := [], bankGen := [], genDraw := k, bad := [], bankLost := 0
                 bankDue := 0, restoring := 0, chain := none }
    | (none, p) => p

/-- CELLAR_CLEAR_END: READY, and the record of the start-up log. -/
def clearEnd (p : Part) : Part :=
  if p.slc.clearing && p.slc.keys.isSome then
    (p.modSlc fun c => { c with clearing := false, ready := true }).when (p.sys.mode == .assay) (post 0x0019 0 0)
  else p

/-- SCRUB_STRIPE: the next stripe of 1,024 slots; `upset` lists those of it whose stored bits have changed. -/
def scrubStripe (upset : List (Fin 1024)) (p : Part) : Part :=
  let p := p.modSlc fun c => { c with st := c.st.apply }
  if !p.slc.st.eff.1 || !p.slc.ready then p
  else
    let base := 1024 * p.slc.stripe
    let failing := (List.range 1024).filter fun i =>
      p.bankUp (i % 32) && (upset.any (fun u => u.val == i) || !p.slc.tagOk (base + i))
    (failing.foldl (fun p i => p.markBad (base + i) true) p).modSlc fun c => { c with stripe := (c.stripe + 1) % 1024 }

/-- BANK_RESTORE_START: power is back, the bank rewritten with each GEN advanced, its loss recorded. -/
def restoreStart (b : Nat) (p : Part) : Part :=
  if !bitAt p.slc.bankDue b || !p.powered (72 + b) then p
  else
    let m := BitVec.ofNat 32 (2 ^ b)
    (p.modSlc fun c =>
      { c with
        slots := c.slots.map fun s =>
          if s.1 % 32 = b then (s.1, s.2.map fun x => c.sealed s.1 (Slc.emptySlot (x.gen + 1))) else s
        bankGen := c.bankGen.upd 0 b (· + 1), bad := c.bad.filter fun s => s.1 % 32 != b, bankDue := c.bankDue &&& ~~~m
        restoring := c.restoring ||| m, bankLost := c.bankLost ||| m }).post 0x8002 (BitVec.ofNat 32 b) 0

def restoreEnd (b : Nat) (p : Part) : Part :=
  p.modSlc fun c => { c with restoring := c.restoring &&& ~~~ BitVec.ofNat 32 (2 ^ b) }

/-- SLC_COMMIT: pending until the next stripe, or in effect at once where no stripe runs (R332, R642). -/
def slcCommit (p : Part) : Part :=
  let n := p.slc.st.stage.2.toNat
  let ok := decide (1 ≤ n ∧ n ≤ 3600)
  p.modSlc fun c => { c with cfgMismatch := c.cfgMismatch || !ok, st := c.st.commit ok (!c.st.eff.1 || !c.ready) }

/-! ### The Vault's window (R347, R348) -/

/-- The header, and the regions the window reaches. -/
def vaultWindow (o : Nat) : Bool := decide ((0x100 ≤ o ∧ o < 0x900) ∨ 0xC930 ≤ o)

/-- VAULT_DATA_ACCESS: a read, or a write of `v`. -/
def vaultAccess (v : Option Word) (p : Part) : Word × Part :=
  let o := 4 * p.slc.vaultWord.toNat
  let next := p.modSlc fun c => { c with vaultWord := c.vaultWord + 1 }
  if o < 0x40 then ((if o = 0 then BitVec.ofNat 32 (ofLe (p.vaultRead 0 1)) else 0), next)
  else if !vaultWindow o then (0, next.modSlc fun c => { c with vaultDenied := true })
  else
    match v with
    | some w => (0, next.vaultWrite o (leBytes 4 w.toNat))
    | none => (BitVec.ofNat 32 (ofLe (p.vaultRead o 4)), next)

/-! ### The Ladle's test (R676) -/

def ladleKatEnd (failed : Bool) (p : Part) : Part :=
  if !p.slc.ladleRun then p
  else
    (p.modSlc fun c =>
      { c with ladleRun := false, ladleDone := true, ladleFail := failed, ladleRetired := c.ladleRetired || failed }).katRecord
      4 0 failed

end Part

/-! ### The meanings -/

/-- WRITE (R338, R569). -/
def execWrite (s : State) : Host.Outcome State Fault Refusal := onPart (Part.spGrant Part.spWrite) s
/-- OPEN_LANDING (R338, R341, R569). -/
def execOpenLanding (s : State) : Host.Outcome State Fault Refusal := onPart (Part.spGrant Part.spLanding) s
/-- DESTROY (R338, R351). -/
def execDestroy (s : State) : Host.Outcome State Fault Refusal := onPart Part.spDestroy s
/-- CHAIN_OPEN (R337, R338). -/
def execChainOpen (s : State) : Host.Outcome State Fault Refusal := onPart Part.chainOpen s
/-- CHAIN_CLOSE (R337, R338). -/
def execChainClose (s : State) : Host.Outcome State Fault Refusal := onPart Part.chainClose s
/-- SWEEP (R338, R351). -/
def execSweep (s : State) : Host.Outcome State Fault Refusal := onPart Part.spSweep s
/-- READ_ATTR (R338). -/
def execReadAttr (s : State) : Host.Outcome State Fault Refusal := onPart Part.readAttr s
/-- NARROW (R338). -/
def execNarrow (s : State) : Host.Outcome State Fault Refusal := onPart Part.narrow s
/-- BLOB_OPEN (R343, R569). -/
def execBlobOpen (s : State) : Host.Outcome State Fault Refusal := onPart (Part.spGrant Part.spBlobOpen) s
/-- BLOB_SEAL (R344). -/
def execBlobSeal (s : State) : Host.Outcome State Fault Refusal := onPart (Part.spStart Part.spBlobSeal Part.blobSealGo) s
/-- DERIVE_ID (R346). -/
def execDeriveId (s : State) : Host.Outcome State Fault Refusal := onPart Part.deriveId s
/-- VAULT_INIT (R348). -/
def execVaultInit (s : State) : Host.Outcome State Fault Refusal := onPart (Part.spStart Part.spVaultInit Part.vaultInitGo) s
/-- NEW_SKEY (R348). -/
def execNewSkey (s : State) : Host.Outcome State Fault Refusal := onPart (Part.spStart Part.spNewSkey Part.newSkeyGo) s
/-- SP_CMD_UNKNOWN (R338). -/
def execSpCmdUnknown (s : State) : Host.Outcome State Fault Refusal := onPart Part.spUnknown s
/-- SP_COMMAND_END (R338). -/
def execSpCommandEnd (s : State) : Host.Outcome State Fault Refusal := onPart Part.spCommandEnd s
/-- CHAIN_OPEN_TIMEOUT (R337). -/
def execChainOpenTimeout (s : State) : Host.Outcome State Fault Refusal := onPart Part.chainTimeout s
/-- CELLAR_CLEAR_START (R329, R333, R334). -/
def execCellarClearStart (s : State) : Host.Outcome State Fault Refusal := onPart Part.clearStart s
/-- CELLAR_CLEAR_END (R334). -/
def execCellarClearEnd (s : State) : Host.Outcome State Fault Refusal := onPart Part.clearEnd s
/-- SCRUB_STRIPE (R331, R332). -/
def execScrubStripe (upset : List (Fin 1024)) (s : State) : Host.Outcome State Fault Refusal := onPart (Part.scrubStripe upset) s
/-- BANK_RESTORE_START (R352). -/
def execBankRestoreStart (b : Fin 32) (s : State) : Host.Outcome State Fault Refusal := onPart (Part.restoreStart b.val) s
/-- BANK_RESTORE_END (R352). -/
def execBankRestoreEnd (b : Fin 32) (s : State) : Host.Outcome State Fault Refusal := onPart (Part.restoreEnd b.val) s
/-- TPL_LOCK (R325). -/
def execTplLock (s : State) : Host.Outcome State Fault Refusal := onPart (Part.modSlc fun c => { c with tplLocked := true }) s
/-- SLC_COMMIT (R332). -/
def execSlcCommit (s : State) : Host.Outcome State Fault Refusal := onPart Part.slcCommit s
/-- VAULT_DATA_ACCESS (R348). -/
def execVaultDataAccess (v : Option Word) (s : State) : Host.Outcome State Fault Refusal :=
  onPart (fun p => Part.answer (p.vaultAccess v)) s
/-- QUARANTINE_ZERO_END (R576). -/
def execQuarantineZeroEnd (s : State) : Host.Outcome State Fault Refusal :=
  onPart (fun p => p.when (p.slc.clearing && p.slc.keys.isNone) (Part.modSlc fun c => { c with clearing := false })) s
/-- VAULT_CLEAR_END (R351, R649). -/
def execVaultClearEnd (s : State) : Host.Outcome State Fault Refusal :=
  onPart (Part.modBat fun b => { b with vaultClearing := false }) s
/-- LADLE_KAT (R676). -/
def execLadleKat (s : State) : Host.Outcome State Fault Refusal := onPart (Part.modSlc fun c => { c with ladleRun := true }) s
/-- LADLE_KAT_END (R676). -/
def execLadleKatEnd (failed : Bool) (s : State) : Host.Outcome State Fault Refusal := onPart (Part.ladleKatEnd failed) s

end Sys2Proof.Machine
end

