-- ==== Sys2Proof/Machine/Admin.lean ====
section
/-! DEFINITION. The administrative channel (11_tenants.md, R384 to R392) and the commands that act on keys, counters and
usage. A command's row brings the command block, what its buffer holds, and the slots that warden firmware chooses; it runs
as one step, and ADM_COMMAND_END publishes its result. A command that must wait (for a context, for randomness, for Bus Master Enable, or
for a mode that serves) leaves its channel BUSY and is tried again by its row. -/

namespace Sys2Proof.Machine
namespace Part

/-! ### The channel (R386 to R391) -/

def adm (p : Part) (n : Nat) : Adm := p.tnt.adm.get {} n
def modAdm (n : Nat) (g : Adm → Adm) (p : Part) : Part := p.modTnt fun t => { t with adm := t.adm.upd {} n g }

/-- What the channel knows of a command: opcode, whether only the manager may give it, Class A, the octets of ARGS that it defines,
the octets it reads from its buffer, and the octets it writes there. -/
structure AdmKind where
  op     : Nat
  mgr    : Bool := false
  classA : Bool := false
  used   : List Nat := []
  reads  : Nat := 0
  writes : Nat := 0

/-- The 128 octets of ADM_CMD (R387). -/
def admBlock (op : Nat) (c : AdmCmd) : Mem :=
  Mem.write ram []
    0 (leBytes 2 op ++ leBytes 2 c.head.target.toNat ++ leBytes 4 c.head.tag.toNat ++ leBytes 8 c.head.buf.toNat
      ++ leBytes 4 c.head.len.toNat ++ leBytes 4 c.a0.toNat ++ leBytes 4 c.a1.toNat ++ leBytes 4 c.a2.toNat ++ Pk.fit 96 c.args)

/-- The cases of R390 that every command shares. -/
def admFault (k : AdmKind) (c : AdmCmd) : Option (Byte × Byte) :=
  let len := c.head.len.toNat
  if k.mgr && c.fn.val != 0 then some (0x10, 0x0A)
  else if ((Pk.fit 96 c.args).zipIdx.any fun x => x.1 != 0 && !k.used.contains x.2) || (c.fn.val != 0 && c.head.target != 0) then
    some (0x10, 0x01)
  else if len % 4096 ≠ 0 ∨ 0x1000000 < len ∨ c.head.buf.toNat % 4096 ≠ 0 ∨ len < k.reads then some (0x10, 0x0A)
  else if len < k.writes then some (0x10, 0x06)
  else if 0 < k.reads ∧ c.buf.isNone then some (0x10, 0x0C)
  else none

/-- Warden firmware starts no administrative command: before service, and in a freeze of the part (R448). -/
def admHeld (p : Part) : Bool :=
  p.sys.freezing || p.sys.mode == .frozen || p.sys.mode == .backup || p.sys.mode == .wake || p.sys.mode == .assay

/-- A command on its context `i`: refused under R390, R542 or R543, or run; where its body must wait, it has not begun. -/
def admRun (k : AdmKind) (c : AdmCmd) (body : Nat → Part → Option Part) (i : Nat) (old p : Part) : Part :=
  let st := p.tnt.states.get 0 c.fn.val
  if p.sys.mode == .standby && !(k.op == 0x40 || k.op == 0x20) then p.fail i (if k.classA then 0x41 else 0x40) 0
  else
    match admFault k c with
    | some (a, b) => p.fail i a b
    | none =>
      if k.classA && !p.gateOpen then p.fail i 0x41 0
      else if c.fn.val ≠ 0 ∧ st ≠ 1 then p.fail i 0x50 0
      else (body i p).getD old

/-- A channel made busy takes a context of its function, which counts against INFLIGHT until the result is written (R391). With none
to take, the command waits without one (log entry 189). -/
def admTake (n : Nat) (p : Part) : Part :=
  if (p.adm n).held then p
  else
    match p.freeCtxs n with
    | [] => p
    | i :: _ =>
      if (p.tnt.t.get {} n).st.eff.inflight.toNat ≤ (p.ctxsOf n).length then p
      else
        ((p.modCtx i fun _ =>
          { state := .queued, fn := n, qp := 4096 + n, order := p.dsp.nextOrder, tag := (p.adm n).tag, unit := some .secure
            placed := true }).modDsp fun d => { d with nextOrder := d.nextOrder + 1 }).modAdm n fun a =>
          { a with held := true, ctx := i }

/-- A command of the channel has begun, or has an outcome. -/
def admBegun (p : Part) (n : Nat) : Bool :=
  let a := p.adm n
  a.started || a.ended.isSome || (a.held && (p.ctx a.ctx).state != .queued)

/-- An administrative command written with GO, or a waiting one tried again (R388, R391). A WEDGED function accepts none (R74), and one
in a drain discards it as it discards a doorbell (R71, R391, log entry 189). A command that reads its buffer waits for Bus Master Enable
(R73). -/
def admRow (k : AdmKind) (c : AdmCmd) (body : Nat → Part → Option Part) (p : Part) : Part :=
  let n := c.fn.val
  let a := p.adm n
  if !p.fnExists n || (p.fn n).wedged || (p.fn n).draining then p
  else if a.busy && (p.admBegun n || a.cmd != admBlock k.op c) then p.modAdm n fun a => { a with err := true }
  else
    let old := p.modAdm n fun a => { a with busy := true, cmd := admBlock k.op c, tag := c.head.tag, out := [] }
    let st := p.tnt.states.get 0 n
    if p.sys.mode = .quarantine then old.modAdm n fun a => { a with ended := some { status := 0x51, detail := 0 } }
    else if n ≠ 0 ∧ (st = 0 ∨ st = 5) ∧ !p.admHeld then
      old.modAdm n fun a => { a with ended := some { status := 0x50, detail := 0 } }
    else
      let old := old.admTake n
      let i := (old.adm n).ctx
      if !(old.adm n).held || p.admHeld || (decide (0 < k.reads) && !p.mayPost n) then old
      else
        admRun k c body i old ((old.modCtx i fun x => { x with state := .running, classA := k.classA }).modAdm n fun a =>
          { a with started := true, classA := k.classA })

/-- A command ends well: RESULT, and the octets for its buffer, which OUT_COUNT counts. -/
def admDone (n i : Nat) (result out : List Byte) (p : Part) : Part :=
  (p.modAdm n fun a => { a with out := out }).finish i 0 0 result (BitVec.ofNat 32 out.length)

/-- ADM_RESULT (R386): a completion with PHASE, DEMOTED and SQ_HEAD zero. -/
def admResult (tag : Word) (status detail : Byte) (result : List Byte) (latency : BitVec 16) (out : Word) : List Byte :=
  leBytes 4 tag.toNat ++ [status, detail, 0, BitVec.ofNat 8 result.length] ++ [0, 0] ++ leBytes 2 latency.toNat
    ++ leBytes 4 out.toNat ++ Pk.fit 16 result

/-- The result written, DONE set and vector 0 signalled. -/
def admPublish (n : Nat) (status detail : Byte) (result : List Byte) (out : Word) (p : Part) : Part :=
  let (k, p) := p.draw
  (p.modAdm n fun a =>
    { a with busy := false, done := true, started := false, held := false, ended := none, out := []
             result := admResult a.tag status detail (result.take 16) ((Config.freeWord k).setWidth 16) out }).signal n 0

/-- ADM_COMMAND_END: the command has ended and, if Class A, its entry has been acknowledged. A drain discards the result together
with DONE (R71, R391). Octets for host memory wait in the channel for Bus Master Enable (R73, log entry 190). -/
def admEnd (n : Nat) (p : Part) : Part :=
  let a := p.adm n
  if !a.busy then p
  else
    match a.ended with
    | some e =>
      let q := p.admPublish n e.status e.detail e.result e.out
      if a.held then q.freeCtx a.ctx else q
    | none =>
      let c := p.ctx a.ctx
      let good := c.status == 0 || c.status == 1
      let sends := good && (a.out != [] || (c.outPtr.isSome && c.outCount != 0))
      if !a.held then p
      else if c.fn ≠ n ∨ c.qp ≠ 4096 + n ∨ c.state = .free then
        p.modAdm n fun a => { a with busy := false, started := false, held := false, out := [] }
      else if c.state ≠ .finished ∨ p.waits a.ctx then p
      else if c.discard || (p.fn n).draining then
        (p.modAdm n fun a => { a with busy := false, started := false, held := false, out := [] }).freeCtx a.ctx
      else if sends && !p.mayPost n then p
      else
        let addr := BitVec.ofNat 64 (a.cmd.num ram 8 8)
        let p := p.when (good && a.out != []) (issueWrite n addr a.out)
        let p :=
          match c.outPtr with
          | some x => p.when (good && c.outCount != 0) (issueWrite n x (p.ctxData a.ctx 0 c.outCount.toNat))
          | none => p
        (p.admPublish n c.status c.detail c.result c.outCount).freeCtx a.ctx

/-! ### Sessions, quotas and handles -/

/-- The command unless a ceremony session of the function's colour is open (R472). -/
def sessionFree (n i : Nat) (go : Part → Option Part) (p : Part) : Option Part :=
  if p.sys.session.active && p.sys.session.fn == n then some (p.fail i 0x12 0x40) else go p

def counted (p : Part) (n : Nat) : Nat := p.tnt.counted.get 0 n
def modCounted (n : Nat) (g : Nat → Nat) (p : Part) : Part := p.modTnt fun t => { t with counted := t.counted.upd 0 n g }

/-- SLOTS as warden firmware last set it, in effect or waiting for its boundary (R384, R642). -/
def slotsSet (p : Part) (n : Nat) : Nat :=
  let t := (p.tnt.t.get {} n).st
  (t.pend.getD t.eff).slots.toNat

/-- `k` more slots fit the function's quota (R384). -/
def slotsFit (p : Part) (n k : Nat) : Bool := decide (p.counted n + k ≤ p.slotsSet n)

/-- What a key's slots count in its owner's quota: its CHAIN_LEN, those that a bank has since lost too (R384). -/
def countedLen (s : Slot) : Nat := max 1 s.chainLen.toNat

/-- A range of slots that warden firmware may give out: above the secure range, EMPTY, its banks up. -/
def rangeFree (p : Part) (i k : Nat) : Bool :=
  decide (1024 ≤ i ∧ i + k ≤ 0x100000 ∧ 0 < k) && p.banksUp (rangeOf i k)
    && (rangeOf i k).all fun j => (p.slot j).state == Slot.empty && !p.slc.isBad j

/-- The first chosen slot. -/
def firstPick (c : AdmCmd) : Nat := (c.pick.headD 0).toNat

/-- A command on the key that a handle of the function's colour names. -/
def onHandle (c : AdmCmd) (i : Nat) (h : BitVec 32) (go : Part → Option Part) (p : Part) : Option Part :=
  match p.headCheck h (colourOf c.fn.val) [1, 2, 3, 4, 5] with
  | (some (st, why), p) => some (p.fail i st (keyDetail why 0))
  | (none, p) => go p

/-- The ledger entry of the slots that command `i` has changed. -/
def ledgerSlots (i : Nat) (is : List Nat) (p : Part) : Part := p.ledger (is.flatMap p.slotItem) (some i) none

/-! ### Key commands -/

/-- A slot opened as a landing slot with a template (R338). -/
def openSlot (i : Nat) (colour : BitVec 12) (template : Byte) (notAfter : BitVec 16) (p : Part) : Part :=
  let s : Slot :=
    { mat := List.replicate 32 0, w0 := Slot.word0 colour 5 ((p.slot i).gen + 1) 0, w1 := Slot.word1 0 0 0 0 Slot.landing
      w2 := Slot.word2 0 1 template false, w3 := Slot.word3 notAfter 0, tag := [] }
  p.modSlc fun c => c.put i s

/-- KEY_LAND. -/
def keyLand (c : AdmCmd) (i : Nat) (p : Part) : Option Part :=
  let n := c.fn.val
  let j := firstPick c
  sessionFree n i (fun p =>
    if c.a0 = 0 ∨ 255 < c.a0.toNat ∨ 0xFFFF < c.a1.toNat then some (p.fail i 0x10 0x0A)
    else if !p.slotsFit n 1 then some (p.fail i 0x13 1)
    else if !p.rangeFree j 1 then none
    else
      let p := p.openSlot j (colourOf n) (c.a0.setWidth 8) (c.a1.setWidth 16)
      let p := (p.modCounted n (· + 1)).ledgerSlots i [j]
      some (p.admDone n i (leBytes 4 (mkHandle 5 (p.slot j).gen j).toNat) [])) p

/-- The octets of a generated symmetric key. -/
def symLen (alg : Nat) : Option Nat :=
  match alg with
  | 0x01 | 0x10 | 0x18 => some 16
  | 0x02 | 0x11 => some 24
  | 0x12 | 0x19 => some 32
  | _ => none

/-- The secure job that generates a key pair of an algorithm (R311, R312): KIND, PARAM, the slots of the private key, and the octets
of the public key in the slots of R335. -/
def pairOf (alg limbs : Nat) : Option (Nat × Nat × Nat × Nat) :=
  match alg with
  | 0x20 => some (1, limbs, 1 + 5 * ((limbs + 7) / 8), 32 + 32 * ((limbs + 3) / 4))
  | 0x30 => some (2, 0, 1, 64)
  | 0x31 => some (2, 1, 2, 96)
  | 0x32 => some (2, 2, 3, 160)
  | 0x38 => some (2, 3, 1, 32)
  | 0x39 => some (2, 4, 2, 64)
  | 0x3A => some (2, 5, 1, 32)
  | 0x3B => some (2, 6, 2, 64)
  | 0x40 => some (4, 0, 44, 1312)
  | 0x41 => some (4, 1, 64, 1952)
  | 0x42 => some (4, 2, 84, 2592)
  | 0x48 => some (5, 0, 28, 800)
  | 0x49 => some (5, 1, 40, 1184)
  | 0x4A => some (5, 2, 52, 1568)
  | _ => none

/-- A generated key written at the chosen slots: its handle, and its public key for the buffer. -/
def landGenerated (c : AdmCmd) (i : Nat) (t : Template) (limbs : Nat) (mats : List (List Byte)) (pub : List Byte) (p : Part) : Part :=
  let n := c.fn.val
  let j := firstPick c
  let p := p.modSlc fun x => x.putChain j (colourOf n) t 0 (BitVec.ofNat 9 limbs) mats
  let p := (p.modCounted n (· + mats.length)).ledgerSlots i (rangeOf j mats.length)
  p.admDone n i (leBytes 4 (mkHandle t.hclass (p.slot j).gen j).toNat) pub

/-- KEY_GENERATE: a symmetric key from a FRESH draw, or a key pair from a secure job. SLH-DSA has no job (R311). -/
def keyGenerate (c : AdmCmd) (i : Nat) (p : Part) : Option Part :=
  let n := c.fn.val
  let limbs := c.a1.toNat
  let t := p.slc.template c.a0.toNat
  let gen := fun (slots out : Nat) (go : List Byte → Part → Part) (p : Part) =>
    if c.head.len.toNat < out then some (p.fail i 0x10 0x06)
    else if !p.slotsFit n slots then some (p.fail i 0x13 1)
    else if !p.rangeFree (firstPick c) slots then none
    else
      match p.entDraw .fresh 64 with
      | (some bs, p) => some (go bs p)
      | (none, _) => none
  sessionFree n i (fun p =>
    if c.a0 = 0 ∨ 255 < c.a0.toNat ∨ (t.alg ≠ 0x20 ∧ limbs ≠ 0) then some (p.fail i 0x10 0x0A)
    else
      match symLen t.alg.toNat with
      | some k =>
        if t.hclass ≠ 1 then some (p.fail i 0x10 0x0A)
        else gen 1 0 (fun bs => landGenerated c i t 0 [bs.take k] []) p
      | none =>
        match pairOf t.alg.toNat limbs with
        | none => some (p.fail i 0x10 0x0A)
        | some (kind, param, slots, pub) =>
          if t.hclass ≠ (if t.alg.toNat < 0x40 then 2 else 4) ∨ !p.jobParamOk kind param then some (p.fail i 0x10 0x0A)
          else
            gen slots pub
              (fun bs =>
                let key := Pk.fit (32 * slots + pub) (Pk.keygen kind param bs)
                landGenerated c i t limbs (Crypto.pieces 32 (key.take (32 * slots))) (key.drop (32 * slots))) p) p

/-- KEY_LOAD_BLOB: the checks of BLOB_OPEN, any of which refuses the command as an argument out of range. -/
def keyLoadBlob (c : AdmCmd) (i : Nat) (p : Part) : Option Part :=
  let n := c.fn.val
  let bs := (c.buf.getD []).take c.a0.toNat
  let h := bs.take 36
  let k := (h.getD 7 0).toNat
  let j := firstPick c
  sessionFree n i (fun p =>
    let owner := ofLe ((h.drop 24).take 4) == (colourOf n).toNat
    match p.storageKey (colourOf n) with
    | none => some (p.fail i 0x10 0x0A)
    | some (id, key) =>
      if c.head.len.toNat < c.a0.toNat ∨ bs.length ≠ 64 + 32 * k ∨ !blobFormatOk h ∨ !owner
          ∨ ofLe ((h.drop 20).take 4) ≠ id then some (p.fail i 0x10 0x0A)
      else
        match Crypto.sivOpen key ((bs.drop 36).take 12) h (bs.drop 48) with
        | none => some (p.fail i 0x10 0x0A)
        | some mat =>
          if !p.slotsFit n k then some (p.fail i 0x13 1)
          else if !p.rangeFree j k then none
          else
            let p := (p.blobLand j (colourOf n) h mat).cacheOwner (colourOf n)
            let p := (p.modCounted n (· + k)).ledgerSlots i (rangeOf j k)
            some (p.admDone n i (leBytes 4 (mkHandle ((h.getD 5 0).setWidth 4) (p.slot j).gen j).toNat) [])) p

/-- KEY_SEAL_BLOB (R344). -/
def keySealBlob (c : AdmCmd) (i : Nat) (p : Part) : Option Part :=
  let n := c.fn.val
  match p.slotRead c.a0 (colourOf n) [1, 2, 3, 4] with
  | (.error (st, why), p) => some (p.fail i st (keyDetail why 0))
  | (.ok ss, p) =>
    let s := ss.headD (Slc.emptySlot 0)
    if s.exportClass = 0 ∨ 4 ≤ s.exportClass.toNat then some (p.fail i 0x12 (keyDetail 2 0))
    else if c.head.len.toNat < 64 + 32 * ss.length then some (p.fail i 0x10 0x06)
    else
      match p.storageKey (colourOf n) with
      | none => some (p.fail i 0x7F 0)
      | some (id, key) =>
        match p.entDraw .fresh 16 with
        | (some r, p) =>
          let head := blobHead s id (colourOf n)
          let out := head ++ r.take 12 ++ Crypto.sivSeal key (r.take 12) head (ss.flatMap Slot.mat)
          some ((p.cacheOwner (colourOf n)).admDone n i [] out)
        | (none, _) => none

/-- KEY_DESTROY. -/
def keyDestroy (c : AdmCmd) (i : Nat) (p : Part) : Option Part :=
  let n := c.fn.val
  sessionFree n i
    (onHandle c i c.a0 fun p =>
      let is := p.slc.chainOf (hIndex c.a0)
      let s := p.slot (hIndex c.a0)
      if !p.banksUp is then some (p.fail i 0x31 (keyDetail 0 0))
      else
        let p := p.modSlc fun x => is.foldl Slc.destroy1 x
        some (((p.modCounted n (· - countedLen s)).ledgerSlots i is).admDone n i [] []))
    p

/-- A slot narrowed to `usage` and, where not 0, the limit `lim`. -/
def narrowSlot (usage lim : BitVec 16) (t : Slot) : Slot :=
  { t with
    w1 := t.w1 &&& (0xFFFF0000 ||| at' usage 0), w3 := if lim = 0 then t.w3 else (t.w3 &&& 0xFFFF0000) ||| at' lim 0 }

/-- KEY_NARROW: a NOT_AFTER later than the present limit is out of range. -/
def keyNarrow (c : AdmCmd) (i : Nat) (p : Part) : Option Part :=
  let n := c.fn.val
  sessionFree n i
    (onHandle c i c.a0 fun p =>
      let s := p.slot (hIndex c.a0)
      let is := p.slc.chainOf (hIndex c.a0)
      let lim : BitVec 16 := c.a2.setWidth 16
      if 0xFFFF < c.a1.toNat ∨ 0xFFFF < c.a2.toNat ∨ s.state ≠ Slot.key
          ∨ (lim ≠ 0 ∧ s.notAfter ≠ 0 ∧ s.notAfter.toNat < lim.toNat) then some (p.fail i 0x10 0x0A)
      else if !p.banksUp is then some (p.fail i 0x31 (keyDetail 0 0))
      else
        let p := p.modSlc fun x => is.foldl (fun x j => x.put j (narrowSlot (c.a1.setWidth 16) lim (x.slot j))) x
        some ((p.ledgerSlots i is).admDone n i [] []))
    p

/-! ### Storage keys (R348) -/

/-- The index of an owner's storage key: t, or 1,024 for the manager. -/
def ownerIndex (n : Nat) : Nat := if n = 0 then 1024 else n - 1

/-- A storage key written in an owner's entry under the storage root. -/
def putSkey (n id : Nat) (root key : List Byte) (p : Part) : Part :=
  (p.vaultWrite (skeyOffset (colourOf n)) (leBytes 4 id ++ [1, 0, 0, 0] ++ Crypto.keyWrap (Crypto.aes root) key)).ladleClear

/-- An owner's next KEY_ID. -/
def nextKeyId (p : Part) (n : Nat) : Nat := (ofLe (p.vaultRead (skeyOffset (colourOf n)) 4) + 1) % 2 ^ 32

/-- The STORAGE_KEY item (R530). -/
def skeyItem (n id : Nat) (key : List Byte) : List Byte :=
  [5, 0] ++ leBytes 2 40 ++ leBytes 2 (ownerIndex n) ++ [0, 0] ++ leBytes 4 id ++ Pk.fit 32 key

/-- STORAGE_ROTATE. -/
def storageRotate (c : AdmCmd) (i : Nat) (p : Part) : Option Part :=
  let n := c.fn.val
  sessionFree n i (fun p =>
    match p.storageRoot with
    | none => some (p.fail i 0x7F 0)
    | some root =>
      match p.entDraw .predict 32 with
      | (some key, p) =>
        let id := p.nextKeyId n
        some (((p.putSkey n id root key).ledger (skeyItem n id key) (some i) none).admDone n i (leBytes 4 id) [])
      | (none, _) => none) p

/-! ### Counters (R349, R350, R385, R653) -/

/-- The global index of a function's counter (R385). -/
def counterIndex (p : Part) (n : Nat) (a : Word) : Option Nat :=
  let t := (p.tnt.t.get {} n).st.eff
  if a.toNat < 256 * t.groups.toNat then some (256 * t.grpBase.toNat + a.toNat) else none

/-- A group's epoch in the Vault. -/
def vaultEpoch (p : Part) (g : Nat) : BitVec 64 := BitVec.ofNat 64 (ofLe (p.vaultRead (0x100 + 8 * g) 8))

/-- The MAC of a group's table under the counter-table key (R346, R349). -/
def tableMac (p : Part) (epoch : BitVec 64) (values : Tab (BitVec 64)) : List Byte :=
  Config.counterMac (p.rootDerive "HX6400 counter table" 32)
    (leBytes 8 epoch.toNat ++ (List.range 256).flatMap fun i => leBytes 8 (values.get 0 i).toNat)

/-- The table that a sector of a group holds, where its MAC holds and its epoch is the Vault's (R350). -/
def sectorTable (p : Part) (g : Nat) (second : Bool) : Option CtrTable :=
  (p.nvm.ctrTab.get none (2 * g + (if second then 1 else 0))).filter fun t =>
    t.epoch == p.vaultEpoch g && p.rootUsable && t.mac == some (p.tableMac t.epoch t.values)

/-- The values of a group as warden firmware holds them, by index in the group. -/
def groupValues (p : Part) (g : Nat) : Tab (BitVec 64) :=
  (p.tnt.counters.filter fun c => c.1 / 256 == g).map fun c => (c.1 % 256, c.2)

/-- A group's table written with the epoch plus 1 in the sector that does not hold the table at the Vault's epoch, read back, and the
Vault's epoch then incremented (R350, R479). -/
def epochStep (g : Nat) (p : Part) : Part :=
  let e := p.vaultEpoch g + 1
  let s := 2 * g + (if (p.sectorTable g false).isSome then 1 else 0)
  let t : CtrTable := { epoch := e, values := p.groupValues g, mac := some (p.tableMac e (p.groupValues g)) }
  (p.modNvm fun n => { n with ctrTab := n.ctrTab.set none s (some t) }).vaultWrite (0x100 + 8 * g) (leBytes 8 e.toNat)

/-- What CTR_READ returns: the value last acknowledged, or posted in SOLO. -/
def counterRead (p : Part) (g : Nat) : BitVec 64 := (p.tnt.acked.get none g).getD (p.tnt.counters.get 0 g)

/-- The COUNTER item (R530). -/
def counterItem (g : Nat) (v : BitVec 64) : List Byte := [2, 0] ++ leBytes 2 12 ++ leBytes 4 g ++ leBytes 8 v.toNat

/-- CTR_READ. -/
def ctrRead (c : AdmCmd) (i : Nat) (p : Part) : Option Part :=
  match p.counterIndex c.fn.val c.a0 with
  | none => some (p.fail i 0x13 2)
  | some g =>
    if p.tnt.badGroups.contains (g / 256) then some (p.fail i 0x7F 0)
    else some (p.admDone c.fn.val i (leBytes 8 (p.counterRead g).toNat) [])

/-- CTR_ADVANCE: on a pair that is not in SOLO, the value becomes readable when its entry is acknowledged. -/
def ctrAdvance (c : AdmCmd) (i : Nat) (p : Part) : Option Part :=
  match p.counterIndex c.fn.val c.a0 with
  | none => some (p.fail i 0x13 2)
  | some g =>
    let old := p.tnt.counters.get 0 g
    let v := old.toNat + c.a1.toNat
    if p.tnt.badGroups.contains (g / 256) then some (p.fail i 0x7F 0)
    else if c.a1 = 0 ∨ 2 ^ 64 ≤ v then some (p.fail i 0x10 0x0A)
    else
      let new := BitVec.ofNat 64 v
      let seen := p.counterRead g
      let p := (p.modTnt fun t =>
        { t with counters := t.counters.set 0 g new
                 acked := if p.paired && !alone p.mir then t.acked.set none g (some seen) else t.acked.set none g none }).epochStep
        (g / 256)
      some ((p.ledger (counterItem g new) (some i) (some (g, new))).admDone c.fn.val i (leBytes 8 v) [])

/-! ### QUERY (R392) -/

/-- A migration session holds the tenant of a function. -/
def migOf (p : Part) (n : Nat) : Option Mig := (p.tnt.migs.find? fun m => m.1 == n).map Prod.snd

/-- The usage report of a function. -/
def usageReport (p : Part) (n : Nat) : List Byte :=
  let st := p.tntState n
  let t := (p.tnt.t.get {} n).st.eff
  let groups := (List.range t.groups.toNat).filter fun g => p.tnt.badGroups.contains (t.grpBase.toNat + g)
  if st = 0 then List.replicate 64 0
  else
    leBytes 4 t.slots.toNat ++ leBytes 4 (p.counted n) ++ leBytes 4 t.inflight.toNat ++ leBytes 4 (p.ctxsOf n).length
      ++ leBytes 2 t.granBase.toNat ++ leBytes 2 t.grans.toNat ++ leBytes 2 t.qpBase.toNat ++ leBytes 1 t.qpCount.toNat
      ++ [t.weight, t.floor.setWidth 8 ||| (st.setWidth 8 <<< 4),
        (if p.sys.session.active && p.sys.session.fn == n then 1 else 0) ||| (if (p.migOf n).isSome then 2 else 0)
          ||| (if (p.fn n).wedged then 4 else 0)]
      ++ leBytes 2 t.groups.toNat ++ leBytes 2 t.grpBase.toNat ++ leBytes 2 groups.length
      ++ p.vaultRead (skeyOffset (colourOf n)) 4 ++ leBytes 2 p.bat.frac.toNat ++ leBytes 6 p.bat.secs.toNat
      ++ List.replicate 20 0

/-- QUERY. -/
def admQuery (c : AdmCmd) (i : Nat) (p : Part) : Option Part :=
  let n := c.fn.val
  let t := c.head.target.toNat
  if n = 0 ∧ 1024 < t then some (p.fail i 0x10 0x0A)
  else some (p.admDone n i [] (p.usageReport (if n ≠ 0 then n else if t = 1024 then 0 else t + 1)))

/-! ### RUN -/

/-- RUN: the descriptor at BUF_ADDR is decoded in the command's context; `input` is what its IN_ADDR holds. An ADMIN_ONLY program
of a colour whose ceremony session is open is refused (R472). -/
def admRunProgram (c : AdmCmd) (input : Option (List Byte)) (i : Nat) (p : Part) : Option Part :=
  let d := Pk.fit 128 (c.buf.getD [])
  let h := headOf d
  let adminOnly : Bool :=
    match p.programEntry (h.kind == 1) h.program (BitVec.ofNat 32 (dNum d 20 4)) with
    | some (e, _) => e.admin
    | none => false
  let classA := (handlesOf h d).any fun x => hClass x == 5
  if c.head.len ≠ 4096 then some (p.fail i 0x10 0x0A)
  else if adminOnly && p.sys.session.active && p.sys.session.fn == c.fn.val then some (p.fail i 0x12 0x40)
  else
    some (((p.modCtx i fun x => { x with state := .fetched, unit := none, placed := false, classA := classA }).descriptorDecode i
      (some d) input).modCtx i fun x => { x with classA := classA })

/-- RUN on a standby: a committing program needs the gate (R543). -/
def admRunRow (c : AdmCmd) (input : Option (List Byte)) (p : Part) : Part :=
  let d := Pk.fit 128 (c.buf.getD [])
  let classA := p.sys.mode == .standby && (handlesOf (headOf d) d).any fun x => hClass x == 5
  admRow { op := 0x0001, classA := classA, reads := 64 } c (admRunProgram c input) p

end Part

/-! ### The meanings -/

/-- RUN (R389). -/
def execRun (c : AdmCmd) (input : Option (List Byte)) (s : State) : Host.Outcome State Fault Refusal :=
  onPart (Part.admRunRow c input) s
/-- KEY_LAND (R389, R341). -/
def execKeyLand (c : AdmCmd) (s : State) : Host.Outcome State Fault Refusal :=
  onPart (Part.admRow { op := 0x0010, classA := true } c (Part.keyLand c)) s
/-- KEY_GENERATE (R389, R311). -/
def execKeyGenerate (c : AdmCmd) (s : State) : Host.Outcome State Fault Refusal :=
  onPart (Part.admRow { op := 0x0011, classA := true } c (Part.keyGenerate c)) s
/-- KEY_LOAD_BLOB (R389, R343). -/
def execKeyLoadBlob (c : AdmCmd) (s : State) : Host.Outcome State Fault Refusal :=
  onPart (Part.admRow { op := 0x0012, classA := true, reads := 64 } c (Part.keyLoadBlob c)) s
/-- KEY_SEAL_BLOB (R389, R344). -/
def execKeySealBlob (c : AdmCmd) (s : State) : Host.Outcome State Fault Refusal :=
  onPart (Part.admRow { op := 0x0013 } c (Part.keySealBlob c)) s
/-- KEY_DESTROY (R389, R351). -/
def execKeyDestroy (c : AdmCmd) (s : State) : Host.Outcome State Fault Refusal :=
  onPart (Part.admRow { op := 0x0014, classA := true } c (Part.keyDestroy c)) s
/-- KEY_NARROW (R389, R338). -/
def execKeyNarrow (c : AdmCmd) (s : State) : Host.Outcome State Fault Refusal :=
  onPart (Part.admRow { op := 0x0015, classA := true } c (Part.keyNarrow c)) s
/-- STORAGE_ROTATE (R389, R348). -/
def execStorageRotate (c : AdmCmd) (s : State) : Host.Outcome State Fault Refusal :=
  onPart (Part.admRow { op := 0x0016, classA := true } c (Part.storageRotate c)) s
/-- CTR_READ (R389, R653). -/
def execCtrRead (c : AdmCmd) (s : State) : Host.Outcome State Fault Refusal :=
  onPart (Part.admRow { op := 0x0020 } c (Part.ctrRead c)) s
/-- CTR_ADVANCE (R389, R350). -/
def execCtrAdvance (c : AdmCmd) (s : State) : Host.Outcome State Fault Refusal :=
  onPart (Part.admRow { op := 0x0021, classA := true } c (Part.ctrAdvance c)) s
/-- QUERY (R392). -/
def execQuery (c : AdmCmd) (s : State) : Host.Outcome State Fault Refusal :=
  onPart (Part.admRow { op := 0x0040, writes := 64 } c (Part.admQuery c)) s
/-- ADM_COMMAND_END (R388, R391). -/
def execAdmCommandEnd (n : Fin 1025) (s : State) : Host.Outcome State Fault Refusal := onPart (Part.admEnd n.val) s

end Sys2Proof.Machine
end

