-- ==== Sys2Proof/Machine/Tenancy.lean ====
section
/-! DEFINITION. Tenants (11_tenants.md, R380 to R400): creation, allotments, destruction, freezing, the TNT block's commits and
states, and the manager–tenant mailboxes. Tenant t is function t + 1, the manager function 0. -/

namespace Sys2Proof.Machine
namespace Part

/-! ### Allotments (R382, R396) -/

/-- The allotments that octets 32 to 47 of a command block name. -/
def allotOf (bs : List Byte) : TntCfg :=
  let f := fun (o n : Nat) => ofLe ((bs.drop o).take n)
  { slots := BitVec.ofNat 21 (f 0 4), inflight := BitVec.ofNat 17 (f 4 4), grans := BitVec.ofNat 14 (f 8 2)
    qpCount := BitVec.ofNat 7 (f 10 1), groups := BitVec.ofNat 9 (f 12 2), weight := BitVec.ofNat 8 (f 14 1)
    floor := BitVec.ofNat 2 (f 15 1) }

/-- The octets of allotments in that layout. -/
def allotOctets (c : TntCfg) : List Byte :=
  leBytes 4 c.slots.toNat ++ leBytes 4 c.inflight.toNat ++ leBytes 2 c.grans.toNat ++ leBytes 1 c.qpCount.toNat ++ [0]
    ++ leBytes 2 c.groups.toNat ++ [c.weight, c.floor.setWidth 8]

/-- The octets name allotments in the ranges of R382: a value too wide for its field does not come back from it. -/
def allotOk (bs : List Byte) : Bool :=
  let c := allotOf bs
  allotOctets c == bs && decide (c.slots.toNat ≤ 1047552 ∧ 1 ≤ c.grans.toNat ∧ c.grans.toNat ≤ 8192 ∧ 1 ≤ c.inflight.toNat
    ∧ c.inflight.toNat ≤ 8 * c.grans.toNat ∧ 1 ≤ c.qpCount.toNat ∧ c.qpCount.toNat ≤ 64 ∧ c.groups.toNat ≤ 256
    ∧ 1 ≤ c.weight.toNat)

/-- The octets of ARGS that allotments take; octet 43 is reserved. -/
def allotUsed : List Nat := (List.range 16).filter (· != 11)

/-- The allotments of the owners that hold ranges, in effect and accepted for the next boundary: the manager's, and those of tenants
whose state is not NONE. -/
def owners (p : Part) (but : Nat) : List TntCfg :=
  (p.tnt.t.filter fun t => t.1 != but && (t.1 == 0 || p.tnt.states.get 0 t.1 != 0)).flatMap fun t => t.2.st.eff :: t.2.st.pend.toList

/-- The slots that those owners have been given. -/
def slotsGiven (p : Part) (but : Nat) : Nat :=
  ((p.tnt.t.filter fun t => t.1 != but && (t.1 == 0 || p.tnt.states.get 0 t.1 != 0)).map fun t => p.slotsSet t.1).sum

/-- Two ranges, base and length, overlap. -/
def rangesMeet (a b : Nat × Nat) : Bool := decide (0 < a.2 ∧ 0 < b.2 ∧ a.1 < b.1 + b.2 ∧ b.1 < a.1 + a.2)

/-- The lowest index at which `k` entries of a pool are free. -/
def firstFit (pool k : Nat) (taken : List (Nat × Nat)) : Option Nat :=
  ((0 :: taken.map fun r => r.1 + r.2).filter fun b => decide (b + k ≤ pool) && !taken.any (rangesMeet (b, k))).min?

/-- The allotments of a new owner with its ranges, first-fit from the pools. -/
def takeRanges (p : Part) (n : Nat) (c : TntCfg) : Option TntCfg :=
  let o := p.owners n
  let h := p.nvm.charter
  if h.slotPool.toNat < p.slotsGiven n + c.slots.toNat then none
  else
    match firstFit h.granulePool.toNat c.grans.toNat (o.map fun x => (x.granBase.toNat, x.grans.toNat)),
        firstFit h.qpPool.toNat c.qpCount.toNat (o.map fun x => (x.qpBase.toNat, x.qpCount.toNat)),
        firstFit h.groupPool.toNat c.groups.toNat (o.map fun x => (x.grpBase.toNat, x.groups.toNat)) with
    | some g, some q, some k =>
      some { c with granBase := BitVec.ofNat 13 g, qpBase := BitVec.ofNat 12 q, grpBase := BitVec.ofNat 8 k }
    | _, _, _ => none

/-! ### Ledger items (R530) -/

def setState (n : Nat) (st : BitVec 3) : Part → Part :=
  funcWatch (modTnt fun t => { t with states := t.states.set 0 n st })

/-- The TENANT item. -/
def tenantItem (p : Part) (n : Nat) : List Byte :=
  let x := (p.tnt.t.get {} n).st
  let c := x.pend.getD x.eff
  [3, 0] ++ leBytes 2 28 ++ leBytes 2 (ownerIndex n) ++ [(p.tntState n).setWidth 8, 0] ++ allotOctets c
    ++ leBytes 2 c.granBase.toNat ++ leBytes 2 c.qpBase.toNat ++ leBytes 1 c.grpBase.toNat ++ [0, 0, 0]

/-- The TAGS item of a range of the operation buffer. -/
def tagsItem (first count : Nat) (colour : BitVec 12) : List Byte :=
  [4, 0] ++ leBytes 2 8 ++ [0, 0] ++ leBytes 2 first ++ leBytes 2 count ++ leBytes 2 colour.toNat

/-! ### Creation and destruction (R396, R397) -/

/-- The counter groups of a range rewritten with every counter at zero (R350): the part, and the COUNTER items of the counters that
held a value. -/
def zeroGroups (base k : Nat) (p : Part) : List Byte × Part :=
  let mine := fun (g : Nat) => decide (256 * base ≤ g ∧ g < 256 * (base + k))
  let items := (p.tnt.counters.filter fun x => mine x.1).flatMap fun x => counterItem x.1 0
  let p := p.modTnt fun t =>
    { t with counters := t.counters.filter fun x => !mine x.1, acked := t.acked.filter fun x => !mine x.1 }
  (items, (rangeOf base k).foldl (fun p g => p.epochStep g) p)

/-- An owner given its ranges: granules retagged, counters zeroed, the TNT fields committed, the state written. -/
def grantRanges (n : Nat) (c : TntCfg) (st : BitVec 3) (p : Part) : List Byte × Part :=
  let p := p.retag 0 c.granBase.toNat c.grans.toNat (colourOf n)
  let (items, p) := p.zeroGroups c.grpBase.toNat c.groups.toNat
  let p := (p.modTnt fun t =>
    { t with t := t.t.set {} n { st := { stage := c, eff := c } }, counted := t.counted.set 0 n 0 }).setState n st
  (items ++ tagsItem c.granBase.toNat c.grans.toNat (colourOf n) ++ p.tenantItem n, p)

/-- A tenant named by TARGET, in one of the given states; any other target is out of range. -/
def onTenant (c : AdmCmd) (i : Nat) (sts : List (BitVec 3)) (go : Nat → Part → Option Part) (p : Part) : Option Part :=
  let n := c.head.target.toNat + 1
  if 1024 < n ∨ !sts.contains (p.tnt.states.get 0 n) then some (p.fail i 0x10 0x0A) else go n p

/-- TENANT_CREATE. -/
def tenantCreate (c : AdmCmd) (i : Nat) (p : Part) : Option Part :=
  let bs := Pk.fit 16 c.args
  onTenant c i [0] (fun n p =>
    if !allotOk bs then some (p.fail i 0x10 0x0A)
    else
      match p.takeRanges n (allotOf bs), p.storageRoot with
      | none, _ => some (p.fail i 0x10 0x0A)
      | _, none => some (p.fail i 0x7F 0)
      | some t, some root =>
        if (p.tagFault 0 t.granBase.toNat t.grans.toNat (colourOf n)).isSome then some (p.fail i 0x7F 0)
        else
          match p.entDraw .predict 32 with
          | (none, _) => none
          | (some key, p) =>
            let id := p.nextKeyId n
            let (items, p) := (p.putSkey n id root key).grantRanges n t 1
            let res := leBytes 2 t.granBase.toNat ++ leBytes 2 t.qpBase.toNat ++ leBytes 1 t.grpBase.toNat
            some ((p.ledger (items ++ skeyItem n id key) (some i) none).admDone 0 i res [])) p

/-- A fetch waits for a function: an enabled queue pair of it holds entries not yet fetched. -/
def fetchWaits (p : Part) (n : Nat) : Bool :=
  let (b, k) := p.qpsOf n
  (rangeOf b k).any fun g => (p.qp g).enable && sqPending (p.qp g) != 0

/-- TENANT_SET: SLOTS, INFLIGHT, WEIGHT and CLASS_FLOOR, in effect at the next fetch, and at once where none waits (R382, R400, R642). -/
def tenantSet (c : AdmCmd) (i : Nat) (p : Part) : Option Part :=
  onTenant c i [1, 2, 3] (fun n p =>
    let st := (p.tnt.t.get {} n).st
    let cur := st.pend.getD st.eff
    let a := allotOf (Pk.fit 16 c.args)
    let new := { cur with slots := a.slots, inflight := a.inflight, weight := a.weight, floor := a.floor }
    let given := (Pk.fit 16 c.args).take 8 ++ (Pk.fit 16 c.args).drop 14
    if (allotOctets new).take 8 ++ (allotOctets new).drop 14 ≠ given ∨ !allotOk (allotOctets new)
        ∨ p.nvm.charter.slotPool.toNat < p.slotsGiven n + a.slots.toNat then some (p.fail i 0x10 0x0A)
    else
      let idle := !p.fetchWaits n
      let p := p.modTnt fun t =>
        { t with t := t.t.upd {} n fun x => { x with st := { x.st with stage := new }.commit true idle } }
      some ((p.ledger (p.tenantItem n) (some i) none).admDone 0 i [] [])) p

/-- A tenant destroyed (R397): its slots, counters, storage key, tags, ranges and mailbox; the items of its ledger entry. -/
def tenantGone (n : Nat) (p : Part) : List Byte × Part :=
  let t := (p.tnt.t.get {} n).st.eff
  let is := p.slc.ownedBy (colourOf n)
  let p := p.modSlc fun c => is.foldl Slc.destroy1 c
  let (items, p) := p.zeroGroups t.grpBase.toNat t.groups.toNat
  let p := (p.vaultWrite (skeyOffset (colourOf n)) (List.replicate 48 0)).ladleClear
  let p := p.retag 0 t.granBase.toNat t.grans.toNat 0
  let p := (p.modTnt fun x =>
    { x with t := x.t.set {} n {}, mbox := x.mbox.set {} n {}, counted := x.counted.set 0 n 0
             migs := x.migs.filter fun m => m.1 != n }).setState n 0
  (is.flatMap p.slotItem ++ items ++ skeyItem n 0 [] ++ tagsItem t.granBase.toNat t.grans.toNat 0 ++ p.tenantItem n, p)

/-- A tenant may be destroyed: its function not WEDGED, its interface in CONFIG_UNLOCKED (R397). -/
def mayDestroy (p : Part) (n : Nat) : Bool := !(p.fn n).wedged && (p.fn n).tdi == .unlocked

/-- TENANT_DESTROY. -/
def tenantDestroy (c : AdmCmd) (i : Nat) (p : Part) : Option Part :=
  onTenant c i [3, 4] (fun n p =>
    if !p.mayDestroy n then some (p.fail i 0x10 0x0A)
    else
      let (items, p) := p.tenantGone n
      some ((p.ledger items (some i) none).admDone 0 i [] [])) p

/-- The manager created from the charter's manager allotment, before any tenant and so at the start of each pool (R380, R382): its
granules tagged, its TNT fields in effect. Where the TNT block holds an allotment of the manager already, or the charter gives none that
R382 admits, nothing changes (log entry 31). -/
def createManager (p : Part) : Part :=
  let bs := Pk.fit 16 p.nvm.charter.mgrAllot
  if (p.tnt.t.get {} 0).st.eff ≠ {} ∨ !allotOk bs then p
  else
    match p.takeRanges 0 (allotOf bs) with
    | none => p
    | some c =>
      (p.retag 0 c.granBase.toNat c.grans.toNat (colourOf 0)).modTnt fun t => { t with t := t.t.set {} 0 { st := { stage := c, eff := c } } }

/-! ### Freezing (R398, R399, R472) -/

/-- FREEZE: completes when the state is FREEZING; FROZEN comes with the last context. The tenant of a WEDGED function cannot be frozen
(R74). -/
def freeze (c : AdmCmd) (i : Nat) (p : Part) : Option Part :=
  onTenant c i [1] (fun n p =>
    if (p.fn n).wedged ∨ (p.fn n).tdi ≠ .unlocked ∨ (p.sys.session.active && p.sys.session.fn == n) then some (p.fail i 0x10 0x0A)
    else
      let p := p.setState n 2
      some (((p.ledger (p.tenantItem n) (some i) none).admDone 0 i [] []).settle n)) p

/-- THAW. -/
def thaw (c : AdmCmd) (i : Nat) (p : Part) : Option Part :=
  onTenant c i [2, 3] (fun n p =>
    let p := p.setState n 1
    some ((p.ledger (p.tenantItem n) (some i) none).admDone 0 i [] [])) p

/-! ### The TNT block (R383, R381, R642) -/

/-- The function that a TENANT field of the TNT block names. -/
def tntFn (t : BitVec 11) : Option Nat := if t.toNat < 1024 then some (t.toNat + 1) else if t = 1024 then some 0 else none

/-- A set of allotments passes the checks of R383. -/
def tntOk (p : Part) (n : Nat) (c : TntCfg) : Bool :=
  let h := p.nvm.charter
  decide (c.inflight.toNat ≤ 8 * c.grans.toNat ∧ c.granBase.toNat + c.grans.toNat ≤ h.granulePool.toNat
      ∧ c.qpBase.toNat + c.qpCount.toNat ≤ h.qpPool.toNat ∧ c.grpBase.toNat + c.groups.toNat ≤ h.groupPool.toNat
      ∧ c.qpCount.toNat ≤ 64 ∧ c.weight ≠ 0)
    && (p.owners n).all fun x =>
      !rangesMeet (c.granBase.toNat, c.grans.toNat) (x.granBase.toNat, x.grans.toNat)
        && !rangesMeet (c.qpBase.toNat, c.qpCount.toNat) (x.qpBase.toNat, x.qpCount.toNat)
        && !rangesMeet (c.grpBase.toNat, c.groups.toNat) (x.grpBase.toNat, x.groups.toNat)

/-- TNT_COMMIT. -/
def tntCommit (t : BitVec 11) (p : Part) : Part :=
  match tntFn t with
  | none => p
  | some n =>
    let ok := p.tntOk n (p.tnt.t.get {} n).st.stage
    let idle := !p.fetchWaits n
    p.modTnt fun x =>
      { x with cfgMismatch := x.cfgMismatch || !ok, mismatch := if ok then x.mismatch else t
               t := x.t.upd {} n fun y => { y with st := y.st.commit ok idle } }

/-- TNT_STATE_SET: ignored for the manager, and for a state code that R381 does not give. -/
def tntStateSet (t : BitVec 11) (st : BitVec 3) (p : Part) : Part :=
  if 1024 ≤ t.toNat ∨ 5 < st.toNat then p else (p.setState (t.toNat + 1) st).settle (t.toNat + 1)

/-! ### Mailboxes (R393 to R395) -/

def modMbox (n : Nat) (g : Mbox → Mbox) (p : Part) : Part := p.modTnt fun t => { t with mbox := t.mbox.upd {} n g }

/-- The mailbox of tenant function `n` works: its state is not NONE. -/
def mboxUp (p : Part) (n : Nat) : Bool := p.tnt.states.get 0 n != 0

/-- DOWN_RING. -/
def downRing (n : Nat) (p : Part) : Part :=
  if !p.mboxUp n then p
  else if (p.tnt.mbox.get {} n).downFull then p.modMbox n fun m => { m with downErr := true }
  else (p.modMbox n fun m => { m with downFull := true }).signal n 0

/-- UP_RING. -/
def upRing (n : Nat) (p : Part) : Part :=
  if !p.mboxUp n then p
  else if (p.tnt.mbox.get {} n).upFull then p.modMbox n fun m => { m with upErr := true }
  else (p.modMbox n fun m => { m with upFull := true }).signal 0 1

/-- The tenant writes 1 to DOWN_FULL. -/
def downClear (n : Nat) (p : Part) : Part :=
  if p.mboxUp n && (p.tnt.mbox.get {} n).downFull then
    (p.modMbox n fun m => { m with downFull := false, acked := true }).signal 0 1
  else p

/-- The manager writes 1 to UP_FULL. -/
def upClear (n : Nat) (p : Part) : Part :=
  if p.mboxUp n && (p.tnt.mbox.get {} n).upFull then (p.modMbox n fun m => { m with upFull := false }).signal n 0 else p

end Part

/-! ### The meanings -/

/-- TENANT_CREATE (R396). -/
def execTenantCreate (c : AdmCmd) (s : State) : Host.Outcome State Fault Refusal :=
  onPart (Part.admRow { op := 0x0100, mgr := true, classA := true, used := Part.allotUsed } c (Part.tenantCreate c)) s
/-- TENANT_SET (R382, R389). -/
def execTenantSet (c : AdmCmd) (s : State) : Host.Outcome State Fault Refusal :=
  onPart (Part.admRow { op := 0x0101, mgr := true, classA := true, used := Part.allotUsed } c (Part.tenantSet c)) s
/-- TENANT_DESTROY (R397). -/
def execTenantDestroy (c : AdmCmd) (s : State) : Host.Outcome State Fault Refusal :=
  onPart (Part.admRow { op := 0x0102, mgr := true, classA := true } c (Part.tenantDestroy c)) s
/-- FREEZE (R398). -/
def execFreeze (c : AdmCmd) (s : State) : Host.Outcome State Fault Refusal :=
  onPart (Part.admRow { op := 0x0110, mgr := true, classA := true } c (Part.freeze c)) s
/-- THAW (R399). -/
def execThaw (c : AdmCmd) (s : State) : Host.Outcome State Fault Refusal :=
  onPart (Part.admRow { op := 0x0111, mgr := true, classA := true } c (Part.thaw c)) s
/-- TNT_COMMIT (R383, R642). -/
def execTntCommit (t : BitVec 11) (s : State) : Host.Outcome State Fault Refusal := onPart (Part.tntCommit t) s
/-- TNT_STATE_SET (R381). -/
def execTntStateSet (t : BitVec 11) (st : BitVec 3) (s : State) : Host.Outcome State Fault Refusal :=
  onPart (Part.tntStateSet t st) s
/-- DOWN_RING (R394). -/
def execDownRing (t : Fin 1024) (s : State) : Host.Outcome State Fault Refusal := onPart (Part.downRing (t.val + 1)) s
/-- UP_RING (R394). -/
def execUpRing (t : Fin 1024) (s : State) : Host.Outcome State Fault Refusal := onPart (Part.upRing (t.val + 1)) s
/-- DOWN_FULL_CLEAR (R394). -/
def execDownFullClear (t : Fin 1024) (s : State) : Host.Outcome State Fault Refusal := onPart (Part.downClear (t.val + 1)) s
/-- UP_FULL_CLEAR (R394). -/
def execUpFullClear (t : Fin 1024) (s : State) : Host.Outcome State Fault Refusal := onPart (Part.upClear (t.val + 1)) s

end Sys2Proof.Machine
end

