-- ==== Sys2Proof/Machine/Ceremony.lean ====
section
/-! DEFINITION. Ceremonies (13_modes_and_life_cycle.md, R464 to R474, R711) and debug grants (21_debug_and_identity.md, R661 to R667),
which a DEBUG_UNLOCK session writes. -/

namespace Sys2Proof.Machine
namespace Part

/-! ### Debug grants (R662, R667, R672) -/

/-- The bits that a life-cycle state allows in effect, with or without a grant. -/
def grantCeiling : Life → BitVec 10
  | .blank | .tested => 0x1FF
  | .provisioned | .owned => 0x053
  | .analysis => 0x3FF
  | .scrapped => 0

/-- The reaches in effect: open ones of BLANK and TESTED, and the grant. -/
def reach (p : Part) : BitVec 10 :=
  p.dbg.granted ||| (if p.life = .blank ∨ p.life = .tested then 0x1FF else 0)

/-- The condition of R667. -/
def grantOk (p : Part) (mask : BitVec 10) (secs : BitVec 17) : Bool :=
  mask &&& ~~~grantCeiling p.life == 0 && decide (1 ≤ secs.toNat ∧ secs.toNat ≤ 86400) && !p.bat.scrapDue

/-- A grant commit: the first evaluation of its decision. -/
def grantCommit (p : Part) : Part :=
  let d := p.dbg
  (p.modDbg fun d => { d with pendGrant := some (d.maskStage, d.durStage) }).openDecision
    (.debugUnlock (p.grantOk d.maskStage d.durStage))

/-! ### Sessions (R464 to R468) -/

/-- The custodian set and the quorum of a class. -/
def classOf (p : Part) (k : Nat) : BitVec 16 × BitVec 8 := p.nvm.charter.ceremonies.getD k (0, 0)

/-- The class can be opened (R464). -/
def classOpen (p : Part) (k : Nat) : Bool :=
  let (m, q) := p.classOf k
  q != 0 && decide (q.toNat ≤ Library.ones m.toNat 16)

/-- The 64 octets of the challenge (R467). -/
def challengeOf (p : Part) (c : AdmCmd) (id : List Byte) (cls octet : Nat) : List Byte :=
  let block := leBytes 4 c.a0.toNat ++ leBytes 4 c.a1.toNat ++ leBytes 4 c.a2.toNat ++ Pk.fit 96 c.args
  Pk.fit 16 id ++ leBytes 8 p.serial.toNat ++ leBytes 1 cls ++ leBytes 1 octet ++ leBytes 2 (colourOf c.fn.val).toNat ++ [0, 0, 0, 0]
    ++ Pk.fit 32 (Standard.hash 2 block)

/-- A number in ARGS, by its octet in the command block. -/
def argNum (c : AdmCmd) (o n : Nat) : Nat := ofLe (((Pk.fit 96 c.args).drop (o - 32)).take n)

/-- The octets of ARGS that OPEN defines for a class (R466, R666). -/
def openUsed (cls : Nat) : List Nat := if cls < 2 then [0, 1, 2, 3] else if cls = 3 then [20, 21, 24, 25, 26, 27] else []

/-- The session opened (R466, R471), its key held where the class is KEY_DESTROY. -/
def openSession (c : AdmCmd) (i : Nat) (id : List Byte) (p : Part) : Part :=
  let n := c.fn.val
  let cls := (fld c.a1 0 4).toNat
  let comps := (fld c.a1 8 8).toNat
  let target : BitVec 3 := if cls = 2 then c.a2.setWidth 3 else 0
  let h := BitVec.ofNat 32 (argNum c 32 4)
  let ch := p.challengeOf c id cls (if cls = 0 then comps else target.toNat)
  let p := p.modSys fun y =>
    { y with
      session := { active := true, id := BitVec.ofNat 128 (ofLe id), fn := n, cls := BitVec.ofNat 4 cls, comps := comps
                   template := c.a2.setWidth 8, target := target, key := h, mask := BitVec.ofNat 10 (argNum c 52 2)
                   duration := BitVec.ofNat 32 (argNum c 56 4), challenge := ch }
      cerActive := true, cerClass := BitVec.ofNat 4 cls, cerTarget := target, cerCount := 0, cerFails := 0, cerQuorum := false
      mode := .ceremony }
  let p := if cls = 1 then (p.setHold h true).ledgerSlots i (p.slc.chainOf (hIndex h)) else p
  p.admDone n i (Pk.fit 16 id) ch

/-- OPEN. -/
def cerOpen (c : AdmCmd) (i : Nat) (p : Part) : Option Part :=
  let n := c.fn.val
  let cls := (fld c.a1 0 4).toNat
  let comps := (fld c.a1 8 8).toNat
  let h := BitVec.ofNat 32 (argNum c 32 4)
  let bad := some (p.fail i 0x10 0x0A)
  let go := fun (p : Part) =>
    match p.entDraw .fresh 16 with
    | (some id, p) => some (p.openSession c i id)
    | (none, _) => none
  if c.a0 ≠ 0 ∨ c.a1 &&& 0xFFFF00F0 ≠ 0 ∨ 3 < cls ∨ (2 ≤ cls ∧ n ≠ 0) ∨ p.sys.session.active ∨ p.sys.mode ≠ .service
      ∨ !p.classOpen cls ∨ (cls ≠ 0 ∧ comps ≠ 0) then bad
  else
    match cls with
    | 0 =>
      if comps < 2 ∨ 9 < comps ∨ c.a2 = 0 ∨ 255 < c.a2.toNat then bad
      else
        onHandle c i h (fun p =>
          let s := p.slot (hIndex h)
          match p.useCheck s (isAes s.alg) 0x4000 with
          | some (st, why) => some (p.fail i st (keyDetail why 0))
          | none => go p) p
    | 1 => if c.a2 ≠ 0 then bad else onHandle c i h go p
    | 2 => if c.a2 ≠ 4 ∧ c.a2 ≠ 5 then bad else go p
    | _ =>
      let mask := argNum c 52 2
      let secs := argNum c 56 4
      if 0x3FF < mask then some (p.fail i 0x10 0x01)
      else if c.a2 ≠ 0 ∨ BitVec.ofNat 10 mask &&& ~~~grantCeiling .owned ≠ 0 ∨ secs = 0 ∨ 86400 < secs then bad
      else go p

/-- A step of the open session: from its function, with its ID (R466). -/
def onSession (c : AdmCmd) (step i : Nat) (go : Session → Part → Option Part) (p : Part) : Option Part :=
  let s := p.sys.session
  if c.a0.toNat ≠ step ∨ !s.active ∨ s.fn ≠ c.fn.val ∨ s.id ≠ BitVec.ofNat 128 (argNum c 36 16) then some (p.fail i 0x10 0x0A)
  else go s p

/-- A custodian's signature over the challenge verifies. -/
def approvalOk (s : Session) (alg : Byte) (key sig : List Byte) : Bool :=
  let msg := KeyBlock.ascii "HX6400 ceremony" ++ s.challenge
  if alg = 1 then sig.length == 96 && Standard.verifyP384 key msg sig
  else sig.length == 3309 && Config.verifySig 0x41 key msg sig

/-- APPROVE (R468): the quorum is decided when the count reaches M; the third failure ends the session. -/
def cerApprove (c : AdmCmd) (i : Nat) (p : Part) : Option Part :=
  onSession c 1 i (fun s p =>
    let (mask, m) := p.classOf s.cls.toNat
    let k := c.a1.toNat
    let buf := c.buf.getD []
    let sig := (buf.drop 2).take (ofLe (buf.take 2))
    match p.nvm.charter.custodians.find? fun x => x.1.toNat == k with
    | none => some (p.fail i 0x10 0x0A)
    | some (_, alg, key) =>
      if 15 < k ∨ !bitAt mask k ∨ bitAt s.counted k then some (p.fail i 0x10 0x0A)
      else if approvalOk s alg key sig then
        let n := p.sys.cerCount + 1
        let p := p.modSys fun y =>
          { y with cerCount := n, session := { y.session with counted := y.session.counted ||| BitVec.ofNat 16 (2 ^ k) } }
        let p := p.when (n.toNat == m.toNat) (openDecision (.quorum true))
        some (p.admDone c.fn.val i [n.setWidth 8] [])
      else
        let f := p.sys.cerFails + 1
        let p := p.modSys fun y => { y with cerFails := f }
        some ((p.when (f == 3) undoSession).finish i 1 0 [] 0)) p

/-- The key check value of R245 for a key of a template's algorithm. -/
def checkValue (alg : Byte) (key : List Byte) : List Byte :=
  if isTdes alg then ((Crypto.tdes key).enc (List.replicate 8 0)).take 3
  else (Crypto.cmac (Crypto.aes key) (List.replicate 16 0)).take 5

/-- COMPONENT (R469). -/
def cerComponent (c : AdmCmd) (i : Nat) (p : Part) : Option Part :=
  onSession c 2 i (fun s p =>
    let k := c.a1.toNat
    let len := c.a2.toNat
    if s.cls ≠ 0 ∨ k = 0 ∨ s.comps < k ∨ (len ≠ 24 ∧ len ≠ 40) ∨ s.got.any (fun g => g.1 == k) then some (p.fail i 0x10 0x0A)
    else
      match p.slotRead s.key (colourOf s.fn) [1] with
      | (.error (st, why), p) => some (p.fail i st (keyDetail why 0))
      | (.ok ss, p) =>
        let t := ss.headD (Slc.emptySlot 0)
        match p.useCheck t (isAes t.alg) 0x4000 with
        | some (st, why) => some (p.fail i st (keyDetail why 0))
        | none =>
          let kek := t.mat.take ((symLen t.alg.toNat).getD 16)
          match Crypto.keyUnwrap (Crypto.aes kek) (Pk.fit len (c.buf.getD [])) with
          | none => some (p.finish i 1 0 [] 0)
          | some comp =>
            let p := p.modSys fun y => { y with session := { y.session with got := y.session.got ++ [(k, comp)] } }
            some (p.admDone c.fn.val i (checkValue (p.slc.template s.template.toNat).alg comp) [])) p

/-- The CEREMONY item (R530). -/
def ceremonyItem (s : Session) (status : Byte) : List Byte :=
  [6, 0] ++ leBytes 2 20 ++ [s.cls.setWidth 8, status] ++ leBytes 2 (colourOf s.fn).toNat ++ leBytes 16 s.id.toNat

/-- A session ended by a successful EXECUTE (R470). -/
def closeSession (p : Part) : Part :=
  p.modSys fun y =>
    { y with session := {}, cerActive := false, cerClass := 0, cerTarget := 0, cerCount := 0, cerFails := 0, cerQuorum := false
             mode := if y.mode = .ceremony then .service else y.mode }

/-- EXECUTE of COMPONENT_ENTRY (R470): the landing slot opened, the components combined, the key written. -/
def execComponents (c : AdmCmd) (i : Nat) (s : Session) (p : Part) : Option Part :=
  let n := c.fn.val
  let t := p.slc.template s.template.toNat
  let j := s.slot.getD (firstPick c)
  let comps := s.got.map Prod.snd
  let key := comps.foldl (fun a b => if a = [] then b else Crypto.xorB a b) []
  if comps.length < s.comps then some (p.fail i 0x10 0x0A)
  else if s.slot.isNone ∧ !p.slotsFit n 1 then some (p.fail i 0x13 1)
  else if s.slot.isNone ∧ !p.rangeFree j 1 then none
  else
    let p :=
      if s.slot.isSome then p
      else
        ((p.openSlot j (colourOf n) s.template 0).modCounted n (· + 1)).modSys fun y =>
          { y with session := { y.session with slot := some j } }
    if !(comps.all fun x => x.length == key.length) ∨ symLen t.alg.toNat ≠ some key.length ∨ t.hclass ≠ 1 then
      some ((p.ledgerSlots i [j]).fail i 0x10 0x0A)
    else
      let p := p.modSlc fun x => x.putChain j (colourOf n) t 0 0 [key]
      let p := (p.ledger (p.slotItem j ++ ceremonyItem s 0) (some i) none).closeSession
      some (p.admDone n i (leBytes 4 (mkHandle t.hclass (p.slot j).gen j).toNat ++ Pk.fit 5 (checkValue t.alg key)) [])

/-- EXECUTE (R470, R711, R666). That of LIFE_CYCLE stays running until its transition has been decided. -/
def cerExecute (c : AdmCmd) (i : Nat) (p : Part) : Option Part :=
  let n := c.fn.val
  onSession c 3 i (fun s p =>
    if !p.sys.cerQuorum ∨ s.executing then some (p.fail i 0x10 0x0A)
    else
      match s.cls.toNat with
      | 0 => execComponents c i s p
      | 1 =>
        let is := p.slc.chainOf (hIndex s.key)
        let back := countedLen (p.slot (hIndex s.key))
        let p := (p.modSlc fun x => is.foldl Slc.destroy1 x).modCounted n (· - back)
        some (((p.ledger (is.flatMap p.slotItem ++ ceremonyItem s 0) (some i) none).closeSession).admDone n i [] [])
      | 2 => some ((p.ledger (ceremonyItem s 0) (some i) none).modSys fun y => { y with session := { y.session with executing := true } })
      | _ =>
        let p := p.modDbg fun d => { d with maskStage := s.mask, durStage := s.duration.setWidth 17 }
        if !p.grantOk s.mask (s.duration.setWidth 17) then some (p.grantCommit.fail i 0x10 0x0A)
        else some (p.grantCommit.closeSession.admDone n i [] [])) p

/-- EXECUTE of KEY_DESTROY, COMPONENT_ENTRY and LIFE_CYCLE needs the gate (R464). -/
def executeClassA (p : Part) : Bool := p.sys.session.active && p.sys.session.cls != 3

/-- CLOSE (R473). -/
def cerClose (c : AdmCmd) (i : Nat) (p : Part) : Option Part :=
  onSession c 4 i (fun s p =>
    if s.executing then some (p.fail i 0x10 0x0A) else some (p.undoSession.admDone c.fn.val i [] [])) p

/-- The octets of ARGS that hold the session ID. -/
def stepUsed : List Nat := rangeOf 4 16

end Part

/-! ### The meanings -/

/-- CEREMONY_OPEN (R466, R467). -/
def execCeremonyOpen (c : AdmCmd) (s : State) : Host.Outcome State Fault Refusal :=
  onPart (Part.admRow { op := 0x0030, classA := true, used := Part.openUsed (fld c.a1 0 4).toNat, writes := 64 } c (Part.cerOpen c)) s
/-- APPROVE (R468). -/
def execApprove (c : AdmCmd) (s : State) : Host.Outcome State Fault Refusal :=
  onPart (Part.admRow { op := 0x0030, used := Part.stepUsed, reads := 2 } c (Part.cerApprove c)) s
/-- COMPONENT (R469). -/
def execComponent (c : AdmCmd) (s : State) : Host.Outcome State Fault Refusal :=
  onPart (Part.admRow { op := 0x0030, used := Part.stepUsed, reads := 24 } c (Part.cerComponent c)) s
/-- EXECUTE (R470, R711). -/
def execExecute (c : AdmCmd) (s : State) : Host.Outcome State Fault Refusal :=
  onPart (Part.admRow { op := 0x0030, classA := s.part.executeClassA, used := Part.stepUsed } c (Part.cerExecute c)) s
/-- CEREMONY_CLOSE (R473). -/
def execCeremonyClose (c : AdmCmd) (s : State) : Host.Outcome State Fault Refusal :=
  onPart (Part.admRow { op := 0x0030, used := Part.stepUsed } c (Part.cerClose c)) s
/-- CEREMONY_TIMEOUT (R474). -/
def execCeremonyTimeout (s : State) : Host.Outcome State Fault Refusal := onPart Part.undoSession s

end Sys2Proof.Machine
end

