-- ==== Sys2Proof/Machine/LifeCycle.lean ====
section
/-! DEFINITION. FROZEN (R447 to R449), the life cycle (R454 to R461) and the root fuse bank (R462) of
13_modes_and_life_cycle.md. -/

namespace Sys2Proof.Machine
namespace Part

/-! ### FROZEN -/

/-- FREEZE in SYS_MODE_REQ: refused under R447, else the drain begins. -/
def modeFreeze : Part → Part :=
  pairWatch fun p =>
  let s := p.sys
  if !(s.mode == .service || s.mode == .standby) || (p.paired && p.mir.gate == 2) || s.session.active then
    p.modSys fun s => { s with reqRefused := true }
  else (p.modSys fun s => { s with freezing := true, leftMode := s.mode }).settle 0

/-- RESUME in SYS_MODE_REQ (R449). -/
def modeResume : Part → Part :=
  pairWatch fun p =>
  if p.sys.freezing then p.modSys fun s => { s with freezing := false }
  else if p.sys.mode = .frozen then p.modSys fun s => { s with mode := s.leftMode }
  else p.modSys fun s => { s with reqRefused := true }

/-! ### Transitions (R456 to R460) -/

/-- A transition of R456 with its precondition and mode. -/
def lcOk (p : Part) (target : BitVec 3) : Bool :=
  let s := p.sys
  match p.life, target.toNat with
  | .blank, 1 | .tested, 2 => s.mode == .assay
  | .provisioned, 3 => s.fuses.rootOk && (s.mode == .assay || s.mode == .service)
  | .owned, 4 | .owned, 5 => s.cerQuorum && s.cerClass == 2 && s.cerTarget == target && s.mode == .ceremony
  | .analysis, 5 => s.mode == .quarantine
  | _, _ => false

/-- The EXECUTE of LIFE_CYCLE that waits for its transition ends in refusal; the session stays open (R711). -/
def executeRefused (p : Part) : Part :=
  let s := p.sys.session
  if !s.executing then p
  else
    (p.modSys fun y => { y with session := { y.session with executing := false } }).fail (p.adm s.fn).ctx 0x10 0x0A

/-- A write of SYS_LC_NEXT: the first of its two decisions, or refused under R458. -/
def lcNext (target : BitVec 3) (p : Part) : Part :=
  if p.sys.lcBusy || !p.lcOk target then
    ((p.modSys fun s => { s with lcRefused := true }).post 0x0031 (target.setWidth 32) 0).executeRefused
  else ((p.modSys fun s => { s with lcBusy := true }).endGrant 3).openDecision (.lifeCycle target true)

/-- The fuses a transition blows (R454, R459). -/
def lcBlow (target : BitVec 3) (f : Fuses) : Fuses :=
  let t := target.toNat
  { f with
    lcWord := f.lcWord ||| BitVec.ofNat 5 (2 ^ (t - 1)), rootDisable := f.rootDisable || decide (4 ≤ t)
    scanDisable := f.scanDisable || decide (t = 5) }

/-- The life-cycle code that a transition left. -/
def lcOld (f : Fuses) (target : BitVec 3) : BitVec 3 :=
  if target = 5 then (if bitAt f.lcWord 3 then 4 else 3) else target - 1

/-- The sensed fuses renewed. -/
def sense (f : Fuses) (p : Part) : Part := p.modSys fun s => { s with fuses := f }

/-- The bits have been blown and sensed: a transition out of OWNED enters QUARANTINE; that from ANALYSIS clears SCRAP_DUE (R672). -/
def lcBlown (target : BitVec 3) (f : Fuses) (p : Part) : Part :=
  let p := p.sense f
  let p := p.when (target == 5) (modBat fun b => { b with scrapDue := false })
  p.when (decide (4 ≤ target.toNat) && p.sys.mode != .quarantine) quarantine

/-- LC_WIPE_DONE: what R459 wipes, LC_BUSY and LC_DONE, and the record. -/
def lcWipe (p : Part) : Part :=
  match p.sys.lcTarget with
  | none => p
  | some t =>
    if lifeCode p.life ≠ t then p
    else
      let old := lcOld p.sys.fuses t
      let p := p.when (old == 3 && decide (4 ≤ t.toNat)) fun p => p.cellarKill.vaultClear
      let p := p.when (t == 2) fun p =>
        (p.vaultClear.modBat fun b => { b with blog := [] }).modEvr fun e => { e with store := [], ring := [] }
      (p.modSys fun s => { s with lcBusy := false, lcDone := true, lcTarget := none }).post 0x0030
        (at' old 0 ||| at' t 4) 0

/-! ### The root fuse bank (R462) -/

/-- BURN: ignored once ROOT_SET is 1, and outside PROVISIONED. -/
def rootBurn (p : Part) : Part :=
  if p.sys.fuses.rootSet || p.life != .provisioned then p else p.modSys fun s => { s with rootBusy := true }

/-- The staged words as 256 bits. -/
def rootStaged (p : Part) : BitVec 256 :=
  BitVec.ofNat 256 (ofLe ((List.range 8).flatMap fun k => leBytes 4 (p.sys.rootProg.get 0 k).toNat))

/-- The bank after a burn; `weak` marks the fuses that did not blow. -/
def rootBlow (staged weak : BitVec 256) (f : Fuses) : Fuses :=
  { f with rootBits := f.rootBits ||| (staged &&& ~~~weak), rootSet := true, rootOk := f.rootOk || staged &&& weak == 0 }

/-- The bank has been sensed: the staged words are zeroed, and a failure enters QUARANTINE. -/
def rootBurned (f : Fuses) (p : Part) : Part :=
  let p := (p.sense f).modSys fun s => { s with rootProg := [], rootBusy := false }
  if f.rootOk then p else (p.modSys fun s => { s with quarRoot := true }).quarantine

end Part

/-! ### The meanings -/

/-- MODE_FREEZE (R447, R448). -/
def execModeFreeze (s : State) : Host.Outcome State Fault Refusal := onPart Part.modeFreeze s
/-- MODE_RESUME (R449). -/
def execModeResume (s : State) : Host.Outcome State Fault Refusal := onPart Part.modeResume s
/-- LC_NEXT_WRITE (R457, R458). -/
def execLcNextWrite (target : BitVec 3) (s : State) : Host.Outcome State Fault Refusal := onPart (Part.lcNext target) s
/-- LC_FUSES_BLOWN (R460 step 3): once both decisions have agreed. -/
def execLcFusesBlown (s : State) : Host.Outcome State Fault Refusal :=
  match s.part.sys.lcTarget with
  | none => .next s
  | some t =>
    if Part.lifeCode s.part.life = t then .next s
    else
      let f := Part.lcBlow t s.fuses
      .next { s with fuses := f, part := s.part.lcBlown t f }
/-- LC_WIPE_DONE (R459, R460 step 4). -/
def execLcWipeDone (s : State) : Host.Outcome State Fault Refusal := onPart Part.lcWipe s
/-- ROOT_BURN (R462). -/
def execRootBurn (s : State) : Host.Outcome State Fault Refusal := onPart Part.rootBurn s
/-- ROOT_BURN_END (R462): `weak` marks the root fuses that did not blow. -/
def execRootBurnEnd (weak : BitVec 256) (s : State) : Host.Outcome State Fault Refusal :=
  if !s.part.sys.rootBusy then .next s
  else
    let f := Part.rootBlow s.part.rootStaged weak s.fuses
    .next { s with fuses := f, part := s.part.rootBurned f }

end Sys2Proof.Machine
end

