-- ==== Sys2Proof/Machine/Flash.lean ====
section
/-! DEFINITION. The configuration flash (14_charter.md): partitions and rights (R478, R480), the NVM commands (R497), the boot
loader (R505), the FAILED bits (R493), and the anti-rollback and owner fuses (R487 to R490). -/

namespace Sys2Proof.Machine
namespace Part

/-! ### Partitions -/

/-- The partitions of R478. -/
inductive Partition where
  | dir | ident | charterA | charterB | wardenA | wardenB | worksA | worksB | log | owner
  deriving DecidableEq, Repr

/-- The partition that holds a flash offset. -/
def partitionAt (density a : Nat) : Option Partition :=
  if a < 0x10000 then some .dir
  else if a < 0x100000 then some .ident
  else if a < 0x300000 then some .charterA
  else if a < 0x500000 then some .charterB
  else if a < 0x700000 then some .wardenA
  else if a < 0x900000 then some .wardenB
  else if a < 0xD00000 then some .worksA
  else if a < 0x1100000 then some .worksB
  else if a < 0x2100000 then some .log
  else if a < density then some .owner
  else none

/-- The rights of R480: `modify` writes or erases. -/
def nvmMay (p : Part) (w : World) (modify : Bool) (x : Partition) : Bool :=
  match w, x with
  | _, .dir | _, .log => !modify
  | .normal, .ident | .normal, .charterA | .normal, .charterB => !modify
  | .secure, .ident => !modify || p.life == .provisioned
  | .secure, .charterA => !modify || p.nvm.charter.slotB
  | .secure, .charterB => !modify || !p.nvm.charter.slotB
  | .normal, .wardenA | .normal, .wardenB => false
  | .secure, .wardenA => !modify || p.nvm.wardenB
  | .secure, .wardenB => !modify || !p.nvm.wardenB
  | _, .worksA => !modify || p.nvm.worksB
  | _, .worksB => !modify || !p.nvm.worksB
  | .secure, .owner => true
  | .normal, .owner => false

/-! ### Commands (R497) -/

def nvmSet (p : Part) (w : World) : NvmSet := match w with | .normal => p.nvm.normal | .secure => p.nvm.secure

def modNvmSet (w : World) (g : NvmSet → NvmSet) (p : Part) : Part :=
  p.modNvm fun n => match w with | .normal => { n with normal := g n.normal } | .secure => { n with secure := g n.secure }

def nvmUser : World → NvmUser
  | .normal => .normal
  | .secure => .secure

/-- GO: the command waits its turn. -/
def nvmGo (w : World) (op : NvmOp) (p : Part) : Part :=
  if (p.nvmSet w).busy then p
  else (p.modNvmSet w fun s => { s with busy := true, op := some op }).modNvm fun n => { n with queue := n.queue ++ [nvmUser w] }

/-- The octets a command touches. -/
def nvmSpan (s : NvmSet) : NvmOp → Nat
  | .read | .program => s.len.toNat
  | .erase4k => 0x1000
  | .erase64k => 0x10000

/-- RESULT as the command's checks decide it: ALIGN, DENIED, or none. -/
def nvmFault (p : Part) (w : World) (s : NvmSet) (op : NvmOp) : Option (BitVec 2) :=
  let a := s.addr.toNat
  let n := nvmSpan s op
  let aligned : Bool :=
    match op with
    | .read | .program => decide (1 ≤ n ∧ n ≤ 256 ∧ a % 256 + n ≤ 256)
    | _ => a % n == 0
  if !aligned then some 2
  else
    match partitionAt p.nvm.density a with
    | none => some 1
    | some x => if p.nvmMay w (op != .read) x then none else some 1

/-- Octets that a command reads: DIR reads as erased (R478). -/
def flashOctets (f : Mem) (a n : Nat) : List Byte :=
  (f.read erased a n).zipIdx.map fun x => if a + x.2 < 0x10000 then erased else x.1

/-- A write or erase in a charter slot clears its FAILED bit (R493). -/
def slotTouched (a : Nat) (p : Part) : Part :=
  match partitionAt p.nvm.density a with
  | some .charterA => p.modAon fun x => { x with failedA := false }
  | some .charterB => p.modAon fun x => { x with failedB := false }
  | _ => p

/-- Octets of a page buffer. -/
def nvmBuf (s : NvmSet) (n : Nat) : List Byte :=
  ((List.range 64).flatMap fun k => leBytes 4 (s.buf.get 0 k).toNat).take n

/-- A buffer with octets put at its start. -/
def nvmFill (bs : List Byte) (t : Tab Word) : Tab Word :=
  let old := (List.range 64).flatMap fun k => leBytes 4 (t.get 0 k).toNat
  ((Crypto.pieces 4 (bs ++ old.drop bs.length)).zipIdx).foldl (fun t x => t.set 0 x.2 (BitVec.ofNat 32 (ofLe x.1))) []

/-- The sectors of the counter tables that a program or erase of `n` octets at `a` touches (R479): an erase empties them, a program
spoils their tables' MAC (log entry 28). -/
def tablesTouched (a n : Nat) (erase : Bool) (t : Tab (Option CtrTable)) : Tab (Option CtrTable) :=
  (List.range ((a + n - 1) / 0x1000 + 1 - a / 0x1000)).foldl
    (fun t k =>
      let s := a / 0x1000 + k
      if s < 0x2100 ∨ 0x2300 ≤ s then t
      else t.set none (s - 0x2100)
        (if erase then none
         else some { ((t.get none (s - 0x2100)).getD { epoch := 0, values := [], mac := none }) with mac := none }))
    t

/-- What a command does: a program clears bits, as NOR flash does (log entry 24). -/
def nvmRun (w : World) (s : NvmSet) (op : NvmOp) (p : Part) : Part :=
  let a := s.addr.toNat
  let n := nvmSpan s op
  match op with
  | .read => p.modNvmSet w fun s => { s with buf := nvmFill (flashOctets p.nvm.flash a n) s.buf }
  | .program =>
    let new := (p.nvm.flash.read erased a n).zipWith (· &&& ·) (nvmBuf s n)
    (p.modNvm fun x => { x with flash := x.flash.write erased a new, ctrTab := tablesTouched a n false x.ctrTab }).slotTouched a
  | _ => (p.modNvm fun x => { x with flash := x.flash.clear a n, ctrTab := tablesTouched a n true x.ctrTab }).slotTouched a

/-- The oldest command of a world or of the boot loader has its turn (R497). -/
def nvmTurn (p : Part) (u : NvmUser) : Bool := p.nvm.queue.head? == some u

/-- NVM_CMD_END: the command of world `w` whose turn it is ends; `device` says that the flash reported an error. -/
def nvmEnd (w : World) (device : Bool) (p : Part) : Part :=
  let s := p.nvmSet w
  match s.op with
  | none => p
  | some op =>
    if !p.nvmTurn (nvmUser w) then p
    else
      let fault := p.nvmFault w s op
      let p := if fault.isNone && !device then p.nvmRun w s op else p
      (p.modNvmSet w fun s =>
        { s with busy := false, done := true, op := none, result := fault.getD (if device then 3 else 0) }).modNvm fun n =>
        { n with queue := n.queue.drop 1 }

/-! ### The boot loader (R505 to R507, R512) -/

def blGo (p : Part) : Part :=
  if p.nvm.blBusy then p else p.modNvm fun n => { n with blBusy := true, queue := n.queue ++ [.loader] }

/-- The transfer is in bounds: 16 octets to 4 MiB, all of it in the flash and in its target. -/
def blOk (n : Nvm) : Bool :=
  let len := n.blLen.toNat
  let src := n.blSrc.toNat
  let dst := n.blDst.toNat
  let size := if n.blTarget = 1 then 0x200000 else 0x100000
  decide (16 ≤ len ∧ len ≤ 0x400000 ∧ len % 16 = 0 ∧ src % 16 = 0 ∧ src + len ≤ n.density) && n.blTarget != 3
    && (n.blTarget == 0 || decide (dst % 16 = 0 ∧ dst + len ≤ size))

/-- A transfer: the octets placed, their SHA-384 taken, and the image of this start noted (NVM_BOOT, R62). -/
def blMove (p : Part) : Part :=
  let n := p.nvm
  let bs := flashOctets n.flash n.blSrc.toNat n.blLen.toNat
  let h := BitVec.ofNat 384 (ofBe (Standard.hash 3 bs))
  let x := partitionAt n.density n.blSrc.toNat
  let p := if n.blTarget = 1 then p.writePriv n.blDst.toNat bs
           else if n.blTarget = 2 then p.writeCc n.blDst.toNat bs else p
  p.modNvm fun n =>
    let warden := n.blTarget == 1 && (x == some .wardenA || x == some .wardenB)
    let works := n.blTarget == 2 && (x == some .worksA || x == some .worksB)
    { n with
      blHash := h
      wardenB := if warden then x == some .wardenB else n.wardenB
      wardenHash := if warden then h else n.wardenHash
      worksB := if works then x == some .worksB else n.worksB
      worksHash := if works then h else n.worksHash }

/-- BL_END. -/
def blEnd (device : Bool) (p : Part) : Part :=
  if !p.nvmTurn .loader then p
  else
    let r : BitVec 2 := if p.nvm.blClosed then 3 else if !blOk p.nvm then 1 else if device then 2 else 0
    (if r = 0 then p.blMove else p).modNvm fun n =>
      { n with blBusy := false, blDone := true, blResult := r, queue := n.queue.drop 1 }

/-! ### Fuses (R487 to R490) -/

/-- A write of NVM_ARB_ADV acts (R490). -/
def arbActs (p : Part) (target : Byte) : Bool :=
  p.nvm.charter.present && target == p.nvm.charter.sv && p.nvm.charter.svCommit && (p.sys.mode == .service || p.sys.mode == .standby)

/-- Steps FV to TARGET − 1 blown. -/
def arbBlow (target : Byte) (f : Fuses) : Fuses :=
  let steps := (List.range target.toNat).filter fun i => decide (fusedVersion f.arb ≤ i)
  { f with arb := steps.foldl (fun m i => m ||| BitVec.ofNat 128 (2 ^ i)) f.arb }

/-- The staged owner hash. -/
def ownerStaged (p : Part) : BitVec 384 :=
  BitVec.ofNat 384 (ofBe ((List.range 12).flatMap fun k => leBytes 4 (p.nvm.ownerProg.get 0 k).toNat))

/-- BURN acts: a free slot, and the staged hash is the charter's owner hash for the first slot, or its successor's hash with
ROTATE (R487, R488). -/
def ownerActs (p : Part) : Bool :=
  let c := p.nvm.charter
  let k := p.sys.fuses.owner.length
  let h := p.ownerStaged
  c.present && decide (k < 4) && h != 0 && ((k == 0 && h == c.ownerHash) || (c.rotate && h == c.nextHash))

def ownerBlow (h : BitVec 384) (f : Fuses) : Fuses := { f with owner := f.owner ++ [h] }

/-- A write of NVM_ARB_ADV: the steps blown and the banks sensed, or nothing. -/
def arbAdvance (target : Byte) (x : Fuses × Part) : Fuses × Part :=
  if x.2.arbActs target then (arbBlow target x.1, x.2.sense (arbBlow target x.1)) else x

/-- A write of BURN to NVM_OWNER_CTRL: the staged hash blown where it acts; the staged words are zeroed afterwards. -/
def ownerBurn (x : Fuses × Part) : Fuses × Part :=
  let zero := modNvm fun n => { n with ownerProg := [] }
  if x.2.ownerActs then (ownerBlow x.2.ownerStaged x.1, zero (x.2.sense (ownerBlow x.2.ownerStaged x.1))) else (x.1, zero x.2)

end Part

/-! ### The meanings -/

/-- NVM_READ (R497). -/
def execNvmRead (w : World) (s : State) : Host.Outcome State Fault Refusal := onPart (Part.nvmGo w .read) s
/-- NVM_PROGRAM (R497). -/
def execNvmProgram (w : World) (s : State) : Host.Outcome State Fault Refusal := onPart (Part.nvmGo w .program) s
/-- NVM_ERASE_4K (R497). -/
def execNvmErase4k (w : World) (s : State) : Host.Outcome State Fault Refusal := onPart (Part.nvmGo w .erase4k) s
/-- NVM_ERASE_64K (R497). -/
def execNvmErase64k (w : World) (s : State) : Host.Outcome State Fault Refusal := onPart (Part.nvmGo w .erase64k) s
/-- NVM_CMD_END (R480, R497). -/
def execNvmCmdEnd (w : World) (device : Bool) (s : State) : Host.Outcome State Fault Refusal := onPart (Part.nvmEnd w device) s
/-- NVM_FAILED_SET (R492, R493). -/
def execNvmFailedSet (slotB : Bool) (s : State) : Host.Outcome State Fault Refusal :=
  onPart (Part.modAon fun x => if slotB then { x with failedB := true } else { x with failedA := true }) s
/-- ARB_ADVANCE (R490). -/
def execArbAdvance (target : Byte) (s : State) : Host.Outcome State Fault Refusal :=
  let r := Part.arbAdvance target (s.fuses, s.part)
  .next { s with fuses := r.1, part := r.2 }
/-- OWNER_BURN (R487, R488). -/
def execOwnerBurn (s : State) : Host.Outcome State Fault Refusal :=
  let r := Part.ownerBurn (s.fuses, s.part)
  .next { s with fuses := r.1, part := r.2 }
/-- BL_GO (R505). -/
def execBlGo (s : State) : Host.Outcome State Fault Refusal := onPart Part.blGo s
/-- BL_END (R505, R506). -/
def execBlEnd (device : Bool) (s : State) : Host.Outcome State Fault Refusal := onPart (Part.blEnd device) s

end Sys2Proof.Machine
end

