-- ==== Sys2Proof/Machine/StartUp.lean ====
section
/-! DEFINITION. Hand-off and the end of the start (15_power_up.md, R508 to R514), and the chosen charter read from its body in
private memory (14_charter.md, R481 to R484, R495; R712). -/

namespace Sys2Proof.Machine

namespace Charter

/-- A little-endian field of octets. -/
def num (bs : List Byte) (o n : Nat) : Nat := ofLe ((bs.drop o).take n)

/-- A hash held as octets. -/
def hashAt (bs : List Byte) (o : Nat) : BitVec 384 := BitVec.ofNat 384 (ofBe ((bs.drop o).take 48))

/-- The section of a type: its entry count and its octets (R481). -/
def sectionOf (body : List Byte) (t : Nat) : Option (Nat × List Byte) :=
  ((List.range (min 32 (num body 12 2))).find? fun i => num body (256 + 16 * i) 2 == t).map fun i =>
    let o := 256 + 16 * i
    (num body (o + 2) 2, (body.drop (num body (o + 4) 4)).take (num body (o + 8) 4))

/-- The octets of a section, empty where it is absent. -/
def octetsOf (body : List Byte) (t : Nat) : List Byte := ((sectionOf body t).map Prod.snd).getD []

/-- Custodian entries: index, algorithm, key length, key. -/
def custodiansOf : Nat → List Byte → List (BitVec 8 × BitVec 8 × List Byte)
  | 0, _ => []
  | n + 1, bs =>
    let l := num bs 2 2
    (bs.getD 0 0, bs.getD 1 0, (bs.drop 4).take l) :: custodiansOf n (bs.drop (4 + l))

/-- Entries of a fixed size. -/
def entriesOf (size : Nat) (bs : List Byte) : List (List Byte) := (Crypto.pieces size bs).filter fun e => e.length == size

/-- A PROGRAMS entry (R484). -/
def programOf (e : List Byte) : CharterProg :=
  { number := BitVec.ofNat 16 (num e 0 2), mask := fld (e.getD 2 0) 0 4, admin := bitAt (e.getD 2 0) 4
    budget := BitVec.ofNat 16 (num e 4 2), minOut := num e 6 2, entry := BitVec.ofNat 32 (num e 8 4), len := num e 12 4
    offset := num e 16 4, hash := hashAt e 24 }

/-- The chosen charter from its body. -/
def parse (slotB : Bool) (body : List Byte) : Charter :=
  let par := octetsOf body 1
  let pools := octetsOf body 3
  let f := body.getD 7 0
  { present := true, slotB := slotB, svCommit := bitAt f 0, rotate := bitAt f 1, sequence := BitVec.ofNat 64 (num body 16 8)
    sv := body.getD 24 0, compatLevel := BitVec.ofNat 16 (num body 36 2), compatMin := BitVec.ofNat 16 (num body 38 2)
    ownerHash := hashAt body 40, nextHash := hashAt body 88
    subVendor := BitVec.ofNat 16 (num par 0 2), subSystem := BitVec.ofNat 16 (num par 2 2)
    minModLimbs := BitVec.ofNat 9 (num par 4 2), curveEn := (par.getD 6 0).setWidth 7, setEn := BitVec.ofNat 12 (num par 8 2)
    sessionMax := BitVec.ofNat 16 (num par 10 2), timeThresh := BitVec.ofNat 32 (num par 12 4), paired := par.getD 16 0 == 1
    slotPool := BitVec.ofNat 21 (num pools 0 4), granulePool := BitVec.ofNat 14 (num pools 4 2)
    qpPool := BitVec.ofNat 13 (num pools 6 2), groupPool := BitVec.ofNat 9 (num pools 8 2), mgrAllot := (pools.drop 16).take 16
    ceremonies := (entriesOf 4 (octetsOf body 7)).map fun e => (BitVec.ofNat 16 (num e 0 2), e.getD 2 0)
    custodians := match sectionOf body 6 with | some (n, bs) => custodiansOf (min 16 n) bs | none => []
    partners := (entriesOf 48 (octetsOf body 8)).map fun e => hashAt e 0
    migPeers := (entriesOf 48 (octetsOf body 9)).map fun e => hashAt e 0
    programs := ((entriesOf 72 (octetsOf body 5)).take 1024).map programOf
    firmware := ((entriesOf 52 (octetsOf body 2)).take 4).map fun e => (e.getD 0 0, hashAt e 4)
    hash := BitVec.ofNat 384 (ofBe (Standard.hash 3 body)), progHash := BitVec.ofNat 384 (ofBe (Standard.hash 3 (octetsOf body 5))) }

end Charter

namespace CrustCfg

/-- The floors of R562; none marks a fixed alarm. -/
def floors : List (Option Nat) :=
  [some 3, some 3, some 2, some 2, some 2, some 1, some 2, some 1, some 0, some 2, none, none, none, none, none, none, some 0,
    some 0, none]

/-- A rank octet of the CRUST entry is allowed (R563). -/
def rankOk (b : Byte) (floor : Option Nat) : Bool :=
  b == 0xFF || match floor with | some n => decide (n ≤ b.toNat ∧ b.toNat ≤ 4) | none => false

/-- A CRUST entry checked as R712 says: its values, when every field passes. -/
def ofEntry (e : List Byte) : Option CrustCfg :=
  let i := fun (k : Nat) => (e.getD k 0).toInt
  let n := fun (k : Nat) => (e.getD k 0).toNat
  let ok := e.length == 64 && ((e.take 19).zip floors).all (fun x => rankOk x.1 x.2) && n 19 == 0
    && decide (-55 ≤ i 20 ∧ i 20 ≤ -20 ∧ 110 ≤ i 21 ∧ i 21 ≤ 127 ∧ 16 ≤ n 22 ∧ n 22 ≤ n 23)
    && decide (40 ≤ Charter.num e 24 2 ∧ Charter.num e 24 2 ≤ Charter.num e 26 2 ∧ Charter.num e 26 2 ≤ 120)
    && (e.drop 28).all fun b => b == 0
  if ok then
    some { ranks := e.take 19, tempLow := e.getD 20 0, tempHigh := e.getD 21 0, lightMin := e.getD 22 0, lightMax := e.getD 23 0
           vglMin := BitVec.ofNat 16 (Charter.num e 24 2), vglMax := BitVec.ofNat 16 (Charter.num e 26 2) }
  else none

end CrustCfg

namespace Part

/-! ### The chosen charter judged (R481, R482, R485, R487, R489, R491) -/

/-- The public keys of a signature block, P-384 then ML-DSA-87. -/
def blockKeys (block : List Byte) : List Byte × List Byte := (block.take 97, (block.drop 97).take 2592)

/-- Both signatures of a block verify over a message. -/
def blockOk (block msg : List Byte) : Bool :=
  block.length == 7412 && Standard.verifyP384 (blockKeys block).1 msg ((block.drop 2689).take 96)
    && Config.verifySig 0x42 (blockKeys block).2 msg (block.drop 2785)

/-- The header of a charter body (R481). -/
def headerOk (b : List Byte) : Bool :=
  let n := Charter.num b
  let zero := fun (o k : Nat) => n o k == 0
  decide (512 ≤ b.length ∧ b.length ≤ 262144) && b.take 4 == ascii "HXCH" && n 4 2 == 1 && n 6 1 == 0xB0 && (b.getD 7 0) &&& 0xFC == 0
    && n 8 4 == b.length && decide (1 ≤ n 12 2 ∧ n 12 2 ≤ 32) && zero 14 2 && n 16 8 != 0 && decide (n 24 1 ≤ 128) && zero 25 3
    && zero 136 120 && (bitAt (b.getD 7 0) 1 || zero 88 48)

/-- The section table (R481, R482): sections in table order, aligned, apart and within the body, which ends with the last; each type
known and at most once, and types 1 to 5 present. -/
def sectionsOk (b : List Byte) : Bool :=
  let n := Charter.num b
  let k := n 12 2
  let es := (List.range k).map fun i => (n (256 + 16 * i) 2, n (260 + 16 * i) 4, n (264 + 16 * i) 4, n (268 + 16 * i) 4)
  let ends := (256 + 16 * k) :: es.map fun e => e.2.1 + e.2.2.1
  (es.zip ends).all (fun x => decide (1 ≤ x.1.1 ∧ x.1.1 ≤ 10 ∧ x.1.2.1 % 16 = 0 ∧ x.2 ≤ x.1.2.1) && x.1.2.2.2 == 0)
    && ends.getLast? == some b.length && decide (es.map (·.1)).Nodup && [1, 2, 3, 4, 5].all fun t => (es.map (·.1)).contains t

/-- The charter is signed by its owner and the owner is bound to the part (R485, R487): the keys of the signature block hash to
OWNER_KEY_HASH, which is the active owner hash where one is blown, and both signatures verify. -/
def signedBy (p : Part) (b block : List Byte) : Bool :=
  let h := Charter.hashAt b 40
  let keys := (blockKeys block).1 ++ (blockKeys block).2
  h == BitVec.ofNat 384 (ofBe (Standard.hash 3 keys))
    && (match p.sys.fuses.owner.getLast? with | some o => h == o | none => p.life == .provisioned)
    && blockOk block (ascii "HX6400 charter" ++ Standard.hash 3 b)

/-- A slot's charter is valid (R491). -/
def charterValid (p : Part) (slotB : Bool) (b block : List Byte) : Bool :=
  headerOk b && sectionsOk b && decide (fusedVersion p.sys.fuses.arb ≤ Charter.num b 24 1)
    && (Charter.num b 28 8 == 0 || Charter.num b 28 8 == p.serial.toNat) && !(if slotB then p.aon.failedB else p.aon.failedA)
    && p.signedBy b block

/-- The signature block as the boot ROM has loaded it to private-memory offset 0x18_0000 (R485, R505). -/
def charterBlock (p : Part) : List Byte := p.priv.read ram 0x180000 7412

/-- The charter body left at private-memory offset 0x1C_0000 (R505, R508), of the length its header names. -/
def charterBody (p : Part) : List Byte :=
  let n := p.priv.num ram 0x1C0008 4
  if p.priv.read ram 0x1C0000 4 = ascii "HXCH" ∧ 512 ≤ n ∧ n ≤ 262144 then p.priv.read ram 0x1C0000 n else []

/-- Partitions that R459 wipes, erased at a start in ANALYSIS or SCRAPPED, and the Vault flash-cleared (R461). -/
def finishWipe (p : Part) : Part :=
  (p.modNvm fun n => { n with flash := (n.flash.clear 0x100000 0x400000).clear 0x2100000 (n.density - 0x2100000), ctrTab := [] }).vaultClear

/-- A firmware image keeps R506: its header, for a kind and its greatest length. -/
def imageOk (kind : Byte) (limit : Nat) (head : List Byte) : Bool :=
  let n := fun (o : Nat) => Charter.num head o 4
  head.length == 64 && head.take 4 == ascii "HXFW" && head.getD 4 0 == kind && decide (64 ≤ n 8 ∧ n 8 ≤ limit ∧ n 12 % 4 = 0)
    && ((head.drop 5).take 3).all (· == 0) && (head.drop 16).all (· == 0)

/-- The image that stands at private-memory offset 0 is a warden image that the charter lists (R506, R507). -/
def wardenOk (p : Part) (c : Charter) : Bool :=
  imageOk 1 1572864 (p.priv.read ram 0 64)
    && c.firmware.any fun x => x.1 == 1 && x.2 == BitVec.ofNat 384 (ofBe (Standard.hash 3 (p.priv.read ram 0 (p.priv.num ram 8 4))))

/-- The charter of a start (R491, R505), as SYS_HANDOFF finds it: that of the body and the signature block which the boot ROM left in
private memory, where it is valid; none with the responder. -/
def chosenCharter (p : Part) (responder : Bool) : Charter :=
  let slotB := (p.core 4).regs.get 0 1 == 1
  if responder || p.charterBody.isEmpty || !p.charterValid slotB p.charterBody p.charterBlock then {}
  else Charter.parse slotB p.charterBody

/-- No warden image matches: the FAILED bit of the chosen slot is set and the boot ROM raises a full reset (R507, R517). -/
def noWarden (slotB : Bool) (f : Fuses) (p : Part) : Part :=
  (p.modAon fun a => if slotB then { a with failedB := true } else { a with failedA := true }).fullReset 6 f

/-- The secure core started at an entry offset of private memory (R508). -/
def startSecureCore (entry : BitVec 21) (c : Core) : Core :=
  { c with regs := Tab.set 0 [] 1 (c.regs.get 0 1), pc := entry.setWidth 32, ibk := 0, dbk := 0, pendIbk := none
           priv := true, run := .running, resv := none }

/-- A write of SYS_HANDOFF: private memory from 0x18_0000 to 0x1B_FFFF zeroed, private memory in the boot ROM's place, the
secure core at its entry, mode ASSAY. The charter is read from the body, where R491 finds it valid (log entry 191); with the responder
there is none. BACKUP_LATCH is read once more (R657). With a charter and no image that it lists, R507 applies instead. -/
def handoff (responder : Bool) (entry : BitVec 21) (f : Fuses) (p : Part) : Part :=
  if p.sys.handed || p.sys.mode != .wake then p
  else
    let p := p.when (p.life == .analysis || p.life == .scrapped) finishWipe
    let ch := p.chosenCharter responder
    if ch.present && !p.wardenOk ch then p.noWarden ch.slotB f
    else
    let crust := (CrustCfg.ofEntry (if ch.present then Charter.octetsOf p.charterBody 10 else [])).getD {}
    let p := { p with priv := p.priv.clear 0x180000 0x40000 }
    let p := ((p.modNvm fun n => { n with charter := ch }).modTmp fun t => { t with crust := crust }).modCore 4
      (startSecureCore (entry &&& 0x1FFFFC))
    (p.modSys fun s =>
      { s with handed := true, responder := responder, mode := .assay, quarBackup := s.quarBackup || p.bat.backupLatch }).post 0x0017
      (bit' responder 0) 0

/-- The conditions of R512 on SERVICE and STANDBY. -/
def startOk (p : Part) (standby : Bool) : Bool :=
  let f := p.sys.fuses
  p.ent.ready && p.slc.ready && p.slc.tplLocked && p.seq.loaded && !p.ent.startFail && !p.ent.katFailed
    && (p.life == .owned && f.rootOk || p.life == .provisioned && (f.rootOk || !f.rootSet))
    && (if standby then p.paired else !p.paired || p.mir.gate == 2)

/-- A counter group's values as ASSAY takes them: those of the table whose MAC holds and whose epoch is the Vault's (R350, R479). A
group that nothing has written yet counts as zeros while the Vault's epoch is 0 (log entry 28). -/
def tableAt (p : Part) (g : Nat) : Option (Tab (BitVec 64)) :=
  if p.nvm.ctrTab.get none (2 * g) = none ∧ p.nvm.ctrTab.get none (2 * g + 1) = none then
    if p.vaultEpoch g = 0 then some [] else none
  else ((p.sectorTable g false).or (p.sectorTable g true)).map CtrTable.values

/-- A counter group has no accepted table (R516). -/
def tableBad (p : Part) (g : Nat) : Bool := (p.tableAt g).isNone

/-- The counters of every accepted table. -/
def tableCounters (p : Part) : Tab (BitVec 64) :=
  (List.range 256).flatMap fun g => ((p.tableAt g).getD []).map fun x => (256 * g + x.1, x.2)

/-- A write of SERVICE or STANDBY to SYS_START_END: ignored outside ASSAY. The outcomes of ASSAY stand from then on: the counter tables
taken and the groups held unusable (R511, R516), and the manager created (R380). -/
def startEnd (standby : Bool) (reason : Byte) : Part → Part :=
  pairWatch (funcWatch fun p =>
  if p.sys.mode ≠ .assay then p
  else if !p.startOk standby then p.modSys fun s => { s with startRefused := true }
  else
    let p := p.createManager.post 0x001E (at' (if standby then 2#2 else 1#2) 0 ||| at' reason 8) 0
    ((p.modSys fun s => { s with mode := if standby then .standby else .service, reason := reason }).modNvm fun n =>
      { n with blClosed := true }).modTnt fun t => { t with badGroups := (List.range 256).filter p.tableBad, counters := p.tableCounters })

/-- A write of QUARANTINE to SYS_START_END; the battery domain's latch is cleared once the cause is recorded (R453, R512). -/
def startEndQuarantine (reason : Byte) (p : Part) : Part :=
  if p.sys.mode ≠ .assay then p
  else
    let lc := p.life == .analysis || p.life == .scrapped
    let p := p.post 0x001E (at' 3#2 0 ||| at' reason 8) 0
    let p := (p.modSys fun s => { s with reason := reason, quarStart := s.quarStart || !(s.quarBackup || lc) }).modNvm fun n =>
      { n with blClosed := true }
    p.quarantine.modBat fun b => { b with backupLatch := false }

/-- ASSAY_WATCHDOG (R514). -/
def assayWatchdog (p : Part) : Part :=
  if p.sys.mode ≠ .assay then p
  else (p.modSys fun s => { s with assayWd := true, quarStart := true }).quarantine

end Part

/-! ### The meanings -/

/-- HANDOFF (R508, R509, R712): ENTRY [20:2] of the entry offset. -/
def execHandoff (responder : Bool) (entry : BitVec 21) (s : State) : Host.Outcome State Fault Refusal :=
  onPart (Part.handoff responder entry s.fuses) s
/-- START_END_SERVICE (R512). -/
def execStartEndService (reason : Byte) (s : State) : Host.Outcome State Fault Refusal := onPart (Part.startEnd false reason) s
/-- START_END_STANDBY (R512). -/
def execStartEndStandby (reason : Byte) (s : State) : Host.Outcome State Fault Refusal := onPart (Part.startEnd true reason) s
/-- START_END_QUARANTINE (R512). -/
def execStartEndQuarantine (reason : Byte) (s : State) : Host.Outcome State Fault Refusal :=
  onPart (Part.startEndQuarantine reason) s
/-- ASSAY_WATCHDOG (R514). -/
def execAssayWatchdog (s : State) : Host.Outcome State Fault Refusal := onPart Part.assayWatchdog s

end Sys2Proof.Machine
end

