-- ==== Sys2Proof/Machine/Identity.lean ====
section
/-! DEFINITION. The identity of the part (R62, R346, R485, R674, R675): its identity keys, certificate chains, measurements,
attestation report body and signature blocks, and the check of a peer's. Pair and migration use them. -/

namespace Sys2Proof.Machine
namespace Part

/-- The identity keys as the Cellar holds them (R346): the P-384 scalar at slot 0, the ML-DSA-87 seed and public key from slot
0x010 on; none where warden firmware has not written them. -/
def identKeys (p : Part) : Option (List Byte × List Byte × List Byte) :=
  if (p.slot 0).state = Slot.key ∧ (p.slot 16).state = Slot.key then
    let d := ((p.slot 0).mat ++ (p.slot 1).mat).take 48
    let ms := (rangeOf 17 81).flatMap fun i => (p.slot i).mat
    some (d, (p.slot 16).mat, ms)
  else none

/-- The certificate chains that IDENT holds: P-384, then ML-DSA-87. -/
def identChains (p : Part) : List Byte × List Byte :=
  let bs := p.nvm.flash.read erased 0x10000 0xF0000
  (Config.identChain 0x31 bs, Config.identChain 0x42 bs)

/-- The octets that a signature block signs: a text, then a digest. -/
def signMessage (text : String) (bs : List Byte) : List Byte := ascii text ++ Standard.hash 3 bs

/-- The signature block of R485 by the part's identity keys; it draws what the signatures take. -/
def signBlock (keys : List Byte × List Byte × List Byte) (msg : List Byte) (p : Part) : List Byte × Part :=
  let (k, p) := p.draw
  (((4 : Byte) :: Standard.ecPublic Standard.p384 (ofBe keys.1)) ++ Pk.fit 2592 keys.2.2 ++ Standard.ecSign Standard.p384 (ofBe keys.1) (Standard.hash 3 msg) (drawBytes k 32)
    ++ Pk.fit 4627 (Config.sign 0x42 keys.2.1 msg k), p)

/-- SHA-384 of a P-384 public key, as the charter's peer lists name it. -/
def keyHash (key : List Byte) : BitVec 384 := BitVec.ofNat 384 (ofBe (Standard.hash 3 key))

/-- The public keys that two chains certify, where both chain to Vortutan's root. -/
def certifiedKeys (chain1 chain2 : List Byte) : Option (List Byte × List Byte) :=
  match Config.certified 0x31 chain1, Config.certified 0x42 chain2 with
  | some a, some b => some (a, b)
  | _, _ => none

/-- SYS_QUAR_CAUSE. -/
def quarCause (p : Part) : Word :=
  bit' p.sys.quarAlarm 0 ||| bit' p.sys.quarStart 1 ||| bit' p.sys.quarBackup 2
    ||| bit' (p.life == .analysis || p.life == .scrapped) 3 ||| bit' p.sys.quarRoot 4

/-- The calendar time in the eight octets that messages carry: fraction, seconds [47:0]. -/
def timeOctets (p : Part) : List Byte := leBytes 2 p.bat.frac.toNat ++ leBytes 6 p.bat.secs.toNat

/-- The body of an attestation report (R675). -/
def attestBody (p : Part) (nonce : List Byte) : List Byte :=
  ascii "HXAR" ++ [1, (modeCode p.sys.mode).setWidth 8, (lifeCode p.life).setWidth 8,
      BitVec.ofNat 8 (fusedVersion p.sys.fuses.arb)]
    ++ leBytes 8 p.serial.toNat ++ leBytes 8 p.nvm.charter.sequence.toNat ++ p.timeOctets ++ leBytes 4 p.bat.evidN.toNat
    ++ beBytes 48 p.bat.evidH.toNat ++ Pk.fit 32 nonce ++ Pk.fit 48 Config.romHash
    ++ beBytes 48 p.nvm.wardenHash.toNat ++ beBytes 48 p.nvm.worksHash.toNat ++ beBytes 48 p.nvm.charter.hash.toNat
    ++ beBytes 48 p.nvm.charter.progHash.toNat ++ leBytes 4 p.quarCause.toNat ++ [0, 0, 0, 0]

/-- HKDF with SHA-384 (RFC 5869): `n` octets. -/
def hkdf (salt ikm info : List Byte) (n : Nat) : List Byte :=
  let prk := Crypto.hmac 3 salt ikm
  let t := (List.range ((n + 47) / 48)).foldl
    (fun s i => let x := Crypto.hmac 3 prk (s.2 ++ info ++ [BitVec.ofNat 8 (i + 1)]); (s.1 ++ x, x))
    (([] : List Byte), ([] : List Byte))
  t.1.take n

/-- The base point of X25519. -/
def x25519Base : List Byte := 9 :: List.replicate 31 0

end Part
end Sys2Proof.Machine
end

