-- ==== Sys2Proof/Machine/Spdm.lean ====
section
/-! DEFINITION. The data objects of the physical function's DOE mailbox (R59 to R65, R445, R452): DOE Discovery, the SPDM responder of
warden firmware, its measurements and certificate portions, secured sessions, and the TDISP device interface report. The octets
of these messages are those of the PCI-SIG and DMTF standards that the spec names (log entry 165). -/

namespace Sys2Proof.Machine
namespace Part

/-! ### Measurements and certificates (R61, R62, R445) -/

/-- SPDM measurement block 6: the mode and the life-cycle code (R445). -/
def modeBlock (p : Part) : List Byte := [(modeCode p.sys.mode).setWidth 8, (lifeCode p.life).setWidth 8]

/-- The value of measurement block `i` (R62). -/
def measurement (p : Part) (i : Nat) : List Byte :=
  match i with
  | 1 => Pk.fit 48 Config.romHash
  | 2 => beBytes 48 p.nvm.wardenHash.toNat
  | 3 => beBytes 48 p.nvm.worksHash.toNat
  | 4 => beBytes 48 p.nvm.charter.hash.toNat
  | 5 => beBytes 48 p.nvm.charter.progHash.toNat
  | _ => p.modeBlock

/-- The type octet of a measurement: ROM, firmware, configuration, and octets that are no digest. -/
def measurementType (i : Nat) : Byte :=
  match i with
  | 1 => 0x00 | 2 | 3 => 0x01 | 4 | 5 => 0x03 | _ => 0x82

/-- A measurement block as it travels. -/
def measurementBlock (p : Part) (i : Nat) : List Byte :=
  let v := p.measurement i
  [BitVec.ofNat 8 i, 1] ++ leBytes 2 (v.length + 3) ++ [measurementType i] ++ leBytes 2 v.length ++ v

/-- The octets of the first DER object of a list, by its length octets. -/
def derFirst (bs : List Byte) : List Byte :=
  let n := (bs.getD 1 0).toNat
  if n < 0x80 then bs.take (2 + n) else bs.take (2 + (n - 0x80) + ofBe ((bs.drop 2).take (n - 0x80)))

/-- Certificate slot 0: the P-384 chain of IDENT behind its length and the digest of its root (R61). -/
def slotZero (p : Part) : List Byte :=
  let chain := p.identChains.1
  leBytes 2 (52 + chain.length) ++ [0, 0] ++ Standard.hash 3 (derFirst chain) ++ chain

/-! ### The responder (R60 to R63, R452) -/

/-- CERT, CHAL, MEAS with signature, ENCRYPT, MAC and KEY_EX (R60). -/
abbrev spdmFlags : Nat := 0x2D6

/-- An ERROR message: error code and data octet. -/
def spdmError (code data : Byte) : List Byte := [0x12, 0x7F, code, data]

/-- An algorithm table of the answer: of those offered, secp384r1, AES-256-GCM or the SPDM key schedule (R60). -/
def algTable (b : List Byte) : List Byte :=
  let own : Nat := match b.headD 0 with | 2 => 0x10 | 3 => 0x02 | 5 => 0x01 | _ => 0
  [b.headD 0, 0x20] ++ leBytes 2 (own &&& ofLe ((b.drop 2).take 2))

/-- ALGORITHMS: of those offered, ECDSA over P-384 with SHA-384 (R60). -/
def algorithms (req : List Byte) : List Byte :=
  let n := (req.getD 2 0).toNat
  let tables := ((Crypto.pieces 4 (req.drop 32)).take n).flatMap algTable
  [0x12, 0x63, BitVec.ofNat 8 n, 0] ++ leBytes 2 (36 + tables.length) ++ [1, 0] ++ leBytes 4 4
    ++ leBytes 4 (0x80 &&& ofLe ((req.drop 8).take 4)) ++ leBytes 4 (0x02 &&& ofLe ((req.drop 12).take 4))
    ++ List.replicate 16 0 ++ tables

/-- CERTIFICATE: a portion of slot 0, at most 4 KiB (R63), and what remains after it; no other slot is populated (R61). -/
def certificate (p : Part) (req : List Byte) : List Byte :=
  let chain := p.slotZero
  let off := ofLe ((req.drop 4).take 2)
  let part := (chain.drop off).take (min (ofLe ((req.drop 6).take 2)) 4096)
  if req.getD 2 0 ≠ 0 ∨ chain.length ≤ off then spdmError 0x01 0
  else [0x12, 0x02, 0, 0] ++ leBytes 2 part.length ++ leBytes 2 (chain.length - off - part.length) ++ part

/-- The SHA-384 over all six measurement blocks, where a request asks for a summary. -/
def summary (p : Part) (ask : Byte) : List Byte :=
  if ask = 0 then [] else Standard.hash 3 (([1, 2, 3, 4, 5, 6] : List Nat).flatMap p.measurementBlock)

/-- MEASUREMENTS: the number of blocks, one block, or all; nonce and signature are free octets of draw `k`. -/
def measurements (p : Part) (k : Nat) (req : List Byte) : List Byte :=
  let op := (req.getD 3 0).toNat
  let signed := bitAt (req.getD 2 0) 0
  let blocks : List Nat := if op = 0xFF then [1, 2, 3, 4, 5, 6] else if 1 ≤ op ∧ op ≤ 6 then [op] else []
  let rec_ := blocks.flatMap p.measurementBlock
  if 6 < op ∧ op ≠ 0xFF then spdmError 0x01 0
  else if signed ∧ p.identKeys = none then spdmError 0x05 0
  else
    [0x12, 0x60, if op = 0 then 6 else 0, 0, BitVec.ofNat 8 blocks.length] ++ leBytes 3 rec_.length ++ rec_
      ++ drawBytes k 32 ++ [0, 0] ++ (if signed then (drawBytes k 128).drop 32 else [])

/-- The answer to an SPDM request of version 1.2 (R60), with the free octets of draw `k`: nonces, signatures, public keys and the
sizes of the responder. CHALLENGE and signed MEASUREMENTS fail where the part has no identity key (R452). -/
def spdmAnswer (p : Part) (k : Nat) (req : List Byte) : List Byte :=
  let code := req.getD 1 0
  if code = 0x84 then [0x10, 0x04, 0, 0, 0, 1, 0x00, 0x12]
  else if req.headD 0 ≠ 0x12 then spdmError 0x41 0
  else
    match code with
    | 0xE1 => [0x12, 0x61, 0, 0, 0, Config.freeByte k 0, 0, 0] ++ leBytes 4 spdmFlags ++ (drawBytes k 9).drop 1
    | 0xE3 => algorithms req
    | 0x81 => [0x12, 0x01, 0, 1] ++ Standard.hash 3 p.slotZero
    | 0x82 => p.certificate req
    | 0x83 =>
      if req.getD 2 0 ≠ 0 then spdmError 0x01 0
      else if p.identKeys = none then spdmError 0x05 0
      else
        [0x12, 0x03, 0, 1] ++ Standard.hash 3 p.slotZero ++ drawBytes k 32 ++ p.summary (req.getD 3 0) ++ [0, 0]
          ++ (drawBytes k 128).drop 32
    | 0xE0 => p.measurements k req
    | 0xE4 =>
      if req.getD 3 0 ≠ 0 then spdmError 0x01 0
      else if p.identKeys = none then spdmError 0x05 0
      else
        [0x12, 0x64, 0, 0] ++ drawBytes k 2 ++ [0, 0] ++ (drawBytes k 130).drop 2 ++ p.summary (req.getD 2 0) ++ [0, 0]
          ++ (drawBytes k 274).drop 130
    | c => spdmError 0x07 c

/-! ### TDISP over a secured session (R65) -/

/-- The device interface report of virtual function `v`: BAR0, and BAR2 with the MSI-X table and PBA marked in it; INTERFACE_INFO
is free octets of draw `k`. -/
def interfaceReport (p : Part) (k v : Nat) : List Byte :=
  let base := fun (lo hi : Nat) => (p.cfgHeld 0 hi).toNat * 2 ^ 32 + (p.cfgHeld 0 lo).toNat / 4096 * 4096
  let range := fun (a n : Nat) (attr : Nat) (id : Nat) => leBytes 8 (a / 4096) ++ leBytes 4 (n / 4096) ++ leBytes 2 attr ++ leBytes 2 id
  drawBytes k 2 ++ [0, 0] ++ leBytes 2 ((p.cfgRead (v + 1) 0x70).toNat / 0x10000) ++ [0, 0, 0, 0, 0, 0] ++ leBytes 4 2
    ++ range (base 0x184 0x188 + v * 0x10000) 0x10000 0 0 ++ range (base 0x18C 0x190 + v * 0x1000) 0x1000 3 2
    ++ [0, 0, 0, 0]

/-- The header of a vendor-defined SPDM message of the PCI-SIG around a payload. -/
def pciMessage (code : Byte) (payload : List Byte) : List Byte :=
  [0x12, code, 0, 0, 3, 0, 2, 1, 0] ++ leBytes 2 payload.length ++ payload

/-- The answer to GET_DEVICE_INTERFACE_REPORT for the interface whose routing ID the message carries: a portion of the report
of a locked or running interface; otherwise a TDISP error, whose data are free. -/
def tdispReport (p : Part) (k : Nat) (m : List Byte) : List Byte :=
  let id := (m.drop 5).take 12
  let n := (BitVec.ofNat 16 (ofLe (id.take 2)) - p.routingId 0).toNat
  let head := fun (c : Byte) => [1, 0x10, c, 0, 0] ++ id
  if 0 < n ∧ p.fnExists n ∧ ((p.fn n).tdi = .locked ∨ (p.fn n).tdi = .run) then
    let rep := (p.interfaceReport k (n - 1)).drop (ofLe ((m.drop 17).take 2))
    let part := rep.take (ofLe ((m.drop 19).take 2))
    pciMessage 0x7E (head 4 ++ leBytes 2 part.length ++ leBytes 2 (rep.length - part.length) ++ part)
  else pciMessage 0x7E (head 0x7F ++ leBytes 4 4 ++ drawBytes k 4)

/-- The answer to the plain octets of a Secured SPDM object, and what the exchange makes of the session: FINISH opens it where
its verification data hold (`good`), END_SESSION ends it. -/
def securedAnswer (p : Part) (k : Nat) (m : List Byte) (good : Bool) : List Byte × Bool :=
  match m.getD 1 0 with
  | 0xE5 => if good then ([0x12, 0x65, 0, 0], true) else (spdmError 0x06 0, p.hif.spdm)
  | 0xE9 => ([0x12, 0x69] ++ (m.drop 2).take 2, p.hif.spdm)
  | 0xEC => ([0x12, 0x6C, 0, 0], false)
  | 0xFE =>
    let payload := m.drop 11
    if payload.headD 0 = 1 ∧ payload.getD 2 0 = 0x84 then (p.tdispReport k payload, p.hif.spdm)
    else (pciMessage 0x7E (drawBytes k 16), p.hif.spdm)
  | _ => (p.spdmAnswer k m, p.hif.spdm)

/-! ### Data objects (R59, R63) -/

/-- A data object of the PCI-SIG: its type, its length in dwords with the header, its content. -/
def doeFrame (type : Byte) (bs : List Byte) : List Byte :=
  let bs := Crypto.padR ((bs.length + 3) / 4 * 4) bs
  [1, 0, type, 0] ++ leBytes 4 (bs.length / 4 + 2) ++ bs

/-- The answer of DOE Discovery for an index: the object type there and the next index, 0 after the last (R59). -/
def discovery (index : Byte) : List Byte :=
  match index with
  | 0 => [1, 0, 0, 1]
  | 1 => [1, 0, 1, 2]
  | 2 => [1, 0, 2, 0]
  | _ => [0xFF, 0xFF, 0, 0]

/-- An answer is put in the read mailbox and issued. -/
def doePut (secured : Bool) (bs : List Byte) (p : Part) : Part :=
  (p.modHif fun h =>
    { h with doeOut := if secured then h.doeOut else (Crypto.pieces 4 bs).map fun b => BitVec.ofNat 32 (ofLe b) }).issue
    (.doe secured bs)

/-- DOE_OBJECT: an object of the three supported types is answered, any other discarded; one above 4 KiB gets an SPDM error
response, whose code the spec leaves open. `inner` is what a Secured SPDM object deciphers to, `good` whether it
authenticates. -/
def doeObject (object inner : List Byte) (good : Bool) (p : Part) : Part :=
  if !p.cfgOpen 0 ∨ object.take 2 ≠ [1, 0] ∨ 2 < (object.getD 2 0).toNat then p
  else
    let type := object.getD 2 0
    let (k, p) := p.draw
    if 4096 < object.length then p.doePut false (doeFrame 1 ([0x12#8, 0x7F#8] ++ drawBytes k 2))
    else if type = 0 then p.doePut false (doeFrame 0 (discovery (object.getD 8 0)))
    else if type = 1 then p.doePut false (doeFrame 1 (p.spdmAnswer k (object.drop 8)))
    else
      let (bs, session) := p.securedAnswer k inner good
      (p.modHif fun h => { h with spdm := session }).doePut true bs

end Part

/-- DOE_OBJECT (R59 to R63). -/
def execDoeObject (object inner : List Byte) (good : Bool) (s : State) : Host.Outcome State Fault Refusal :=
  onPart (Part.doeObject object inner good) s

end Sys2Proof.Machine
end

