-- ==== Sys2Proof/Machine/Pair.lean ====
section
/-! DEFINITION. Pair operation (16_pair.md, R653 to R656): the link and its handshake, the gate, the ledger and the
resynchronisation. A received message is a row's operand: its first FSEQ, its FACK, its key phase, its payload as decrypted. -/

namespace Sys2Proof.Machine
namespace Part

/-! ### Sync state and causes -/

/-- Bits of MIR_CAUSE. -/
abbrev cIdentity : BitVec 6 := 1
abbrev cCompat : BitVec 6 := 2
abbrev cRank : BitVec 6 := 4
abbrev cGap : BitVec 6 := 8
abbrev cLinkLost : BitVec 6 := 16
abbrev cHandover : BitVec 6 := 32

/-- A CONTROL message: kind, value (R532). -/
def control (kind : Byte) (v : BitVec 64) (m : Mir) : Mir :=
  send frControl ([kind, 0, 0, 0, 0, 0, 0, 0] ++ leBytes 8 v.toNat) m

/-- The versions lie in the window both ways (R495, R527). -/
def compatOk (p : Part) : Bool :=
  decide (p.mir.peerMin.toNat ≤ p.nvm.charter.compatLevel.toNat ∧ p.nvm.charter.compatMin.toNat ≤ p.mir.peerLevel.toNat)

/-- The unit becomes UNSYNCED with a cause and asks for a copy (R532, R548, R554). -/
def unsync (cause : BitVec 6) (p : Part) : Part :=
  let ok := p.compatOk
  p.modMir fun m =>
    let m := { m with sync := 2, cause := m.cause ||| cause, resyncFrom := none, resyncEnd := none, pairEvent := true }
    if ok then control 2 m.seq m else m

/-- The unit stops driving the gate and becomes standby: `gate` is what GATE then reads (R539, R553, R656). -/
def leaveGate (gate : BitVec 2) (p : Part) : Part :=
  let p := p.undoSession.modMir fun m => { m with driving := false, gate := gate, hoStop := false, pairEvent := true }
  p.modSys fun s => { s with mode := if s.mode = .service ∨ s.mode = .ceremony then .standby else s.mode }

/-- Two holders, or a low read in the unit's own release: GATE reads LOST (R539, R656). -/
def gateLost (detail : Word) (p : Part) : Part :=
  let p := ((p.leaveGate 3).modMir fun m => control 3 m.ownClaim m).post 0xC007 detail 0
  p.unsync cGap

/-! ### Frames received (R524, R528) -/

/-- A received message: first FSEQ, FACK, the old key phase, payload. -/
def framesOf (n : Nat) : Nat := max 1 ((n + 1023) / 1024)

/-- A message accepted in order: its frames counted, the frames it acknowledges dropped; none where it is out of order, or of
a phase no longer accepted. -/
def accept (type : Byte) (fseq : BitVec 64) (fack : Word) (old : Bool) (bs : List Byte) (p : Part) : Option Part :=
  let m := p.mir
  let k := BitVec.ofNat 64 (framesOf bs.length)
  let open' := if type = frHandshake then decide (2 ≤ m.link.toNat) else m.session
  if !p.paired || !open' || (old && !m.oldPhase) || fseq != (if old then m.fseqOld else m.fseqRx) then none
  else
    some (p.modMir fun m =>
      { m with fseqRx := if old then m.fseqRx else m.fseqRx + k, fseqOld := if old then m.fseqOld + k else m.fseqOld
               tx := m.tx.filter fun f => f.1 != (m.phase != old) || decide (2 ^ 31 ≤ (fack - f.2.1.setWidth 32).toNat) })

/-- A received message acted on. -/
def receive (type : Byte) (fseq : BitVec 64) (fack : Word) (old : Bool) (bs : List Byte) (go : Part → Part) : Part → Part :=
  pairWatch fun p => match p.accept type fseq fack old bs with | some q => go q | none => p

/-! ### Items applied (R530, R546, R547, R654) -/

/-- Number `n` octets at `o` of an item. -/
def itemNum (x : List Byte) (o n : Nat) : Nat := ofLe ((x.drop o).take n)

/-- The function that an owner or tenant index names. -/
def indexFn (t : Nat) : Nat := if t = 1024 then 0 else t + 1

/-- A slot image written with the unit's own tag. -/
def applySlot (i : Nat) (attr mat : List Byte) (p : Part) : Part :=
  let w := fun k => BitVec.ofNat 32 (itemNum attr (4 * k) 4)
  p.modSlc fun c => { c.put i { mat := mat, w0 := w 0, w1 := w 1, w2 := w 2, w3 := w 3, tag := [] } with bad := c.bad.set false i false }

/-- The TENANT item's allotments and state. -/
def applyTenant (x : List Byte) (p : Part) : Part :=
  let n := indexFn (itemNum x 4 2)
  let a := allotOf ((x.drop 8).take 16)
  let c := { a with granBase := BitVec.ofNat 13 (itemNum x 24 2), qpBase := BitVec.ofNat 12 (itemNum x 26 2)
                    grpBase := BitVec.ofNat 8 (itemNum x 28 1) }
  let st := BitVec.ofNat 3 (itemNum x 6 1)
  p.funcWatch (modTnt fun t =>
    { t with t := t.t.set {} n (if n ≠ 0 ∧ st = 0 then {} else { st := { stage := c, eff := c } })
             states := if n = 0 then t.states else t.states.set 0 n st })

/-- A storage key placed under the unit's own storage root; KEY_ID 0 empties the entry. -/
def applySkey (x : List Byte) (p : Part) : Part :=
  let n := indexFn (itemNum x 4 2)
  let id := itemNum x 8 4
  if id = 0 then (p.vaultWrite (skeyOffset (colourOf n)) (List.replicate 48 0)).ladleClear
  else
    match p.storageRoot with
    | some root => p.putSkey n id root ((x.drop 12).take 32)
    | none => p

/-- The MIGRATION item: a SENT session is kept, an ended one dropped. -/
def applyMig (x : List Byte) (p : Part) : Part :=
  let n := indexFn (itemNum x 4 2)
  let m : Mig := { stage := .sent, id := (x.drop 8).take 16, peer := BitVec.ofNat 384 (ofBe ((x.drop 24).take 48)) }
  p.modTnt fun t =>
    let rest := t.migs.filter fun y => y.1 != n
    { t with migs := if itemNum x 6 1 = 4 then rest ++ [(n, m)] else rest }

/-- One item applied. A counter's table is rewritten with its epoch. -/
def applyItem (x : List Byte) (p : Part) : Part :=
  match itemNum x 0 1 with
  | 1 => p.applySlot (itemNum x 4 4) ((x.drop 8).take 16) ((x.drop 24).take 32)
  | 2 =>
    let g := itemNum x 4 4
    (p.modTnt fun t =>
      { t with counters := t.counters.set 0 g (BitVec.ofNat 64 (itemNum x 8 8)), acked := t.acked.set none g none }).epochStep
      (g / 256)
  | 3 => p.applyTenant x
  | 4 => p.retag (BitVec.ofNat 2 (itemNum x 4 1)) (itemNum x 6 2) (itemNum x 8 2) (BitVec.ofNat 12 (itemNum x 10 2))
  | 5 => p.applySkey x
  | 7 => p.applyMig x
  | _ => p

def applyItems (bs : List Byte) (p : Part) : Part := (itemsOf bs.length bs).foldl (fun p x => p.applyItem x) p

/-- The copy is complete and the holder's latest sequence applied: SYNC reads SYNCED (R554 step 5). -/
def maybeSynced (p : Part) : Part :=
  match p.mir.resyncEnd with
  | some l =>
    if l.toNat ≤ p.mir.seq.toNat ∧ p.mir.sync = 3 ∧ p.compatOk then
      p.modMir fun m => { m with sync := 4, resyncFrom := none, resyncEnd := none, pairEvent := true }
    else p
  | none => p

/-- LEDGER at the standby (R547, R548): the next sequence is applied and acknowledged, any other discarded. -/
def ledgerGo (bs : List Byte) (p : Part) : Part :=
  let seq := BitVec.ofNat 64 (itemNum bs 0 8)
  if p.mir.gate = 2 ∨ !(p.mir.sync = 3 ∨ p.mir.sync = 4) then p
  else if seq ≠ p.mir.seq + 1 then p.unsync cGap
  else
    ((p.applyItems ((bs.drop 16).take (itemNum bs 12 4))).modMir fun m =>
      send frAck (leBytes 8 seq.toNat) { m with seq := seq, sent := seq }).maybeSynced

/-- The contexts whose discarded completion waited for these entries are freed (R70). -/
def freeDiscarded (es : List Entry) (p : Part) : Part :=
  es.foldl
    (fun p e =>
      match e.waiter with
      | some w => if (p.ctx w).state = .finished ∧ (p.ctx w).discard && !p.waits w then p.freeCtx w else p
      | none => p)
    p

/-- LEDGER_ACK at the holder: the entries up to the acknowledged one are done, in sequence order; counters become readable (R653). -/
def ackGo (bs : List Byte) (p : Part) : Part :=
  let seq := itemNum bs 0 8
  let done := p.mir.entries.filter fun e => decide (e.seq.toNat ≤ seq)
  if done = [] then p
  else
    let p := p.modMir fun m =>
      { m with entries := m.entries.filter fun e => decide (seq < e.seq.toNat), seq := BitVec.ofNat 64 seq }
    let p := p.modTnt fun t =>
      let readable := fun (a : Tab (Option (BitVec 64))) (e : Entry) =>
        match e.counter with
        | some (g, v) => a.set none g (if t.counters.get 0 g = v then none else some v)
        | none => a
      { t with acked := done.foldl readable t.acked }
    p.freeDiscarded done

/-- The operation of an entry completes with MIRROR_TIMEOUT; the change stays (R549). -/
def mirrorTimeout (e : Entry) (p : Part) : Part :=
  match e.waiter with
  | some w =>
    if (p.ctx w).state = .finished then
      p.modCtx w fun c => { c with status := 0x42, detail := 0, result := [], outCount := 0, outPtr := none }
    else p
  | none => p

/-- LEDGER_TIMEOUT of an entry: it stands unacknowledged, and nothing waits for it any longer. -/
def ledgerTimeout (seq : BitVec 64) (p : Part) : Part :=
  match p.mir.entries.find? fun e => e.seq == seq with
  | some e =>
    if e.waiter.isNone then p
    else
      ((p.mirrorTimeout e).modMir fun m =>
        { m with entries := m.entries.map fun x => if x.seq = seq then { x with waiter := none } else x }).freeDiscarded [e]
  | none => p

/-! ### The copy (R531, R554, R654) -/

/-- The storage keys of every owner leave the Vault, and the granules of every tenant their colour. -/
def copyClear (p : Part) : Part :=
  let p := (p.tnt.t.filter fun x => x.1 != 0).foldl
    (fun p x => p.retag 0 x.2.st.eff.granBase.toNat x.2.st.eff.grans.toNat 0) p
  (p.modBat fun b => { b with vault := b.vault.clear 0x0900 (48 * 1025) }).ladleClear

/-- RESYNC_BEGIN: the copy begins at sequence S, and nothing of the unit's own is kept (R654). -/
def resyncBegin (bs : List Byte) (p : Part) : Part :=
  if p.mir.gate = 2 then p
  else
    let s := BitVec.ofNat 64 (itemNum bs 8 8)
    let p := p.copyClear
    (p.modMir fun m => { m with sync := 3, resyncFrom := some s, resyncEnd := none, chunks := 0, seq := s, sent := s
                                entries := [] }).funcWatch (modTnt fun t =>
      { t with t := t.t.filter fun x => x.1 == 0, states := [], counters := [], acked := [], migs := [] })

/-- RESYNC_RECORDS. -/
def resyncRecords (bs : List Byte) (p : Part) : Part := if p.mir.sync = 3 ∧ p.mir.gate ≠ 2 then p.applyItems (bs.drop 8) else p

/-- A bit of a bitmap: slot j of the chunk is bit j mod 8 of octet j / 8. -/
def mapBit (bs : List Byte) (j : Nat) : Bool := bitAt (bs.getD (j / 8) 0) (j % 8)

/-- The slots of a CHUNK written in index order (R531): EMPTY ones, bad ones, and the images of the others. R351 gives an EMPTY slot
the holder's GEN, which no octet of the message carries: it is a free value, of draw `k` (log entry 100). -/
def chunkSlots (k base : Nat) (empty bad : List Byte) : List Nat → List Byte → Part → Part
  | [], _, p => p
  | j :: js, imgs, p =>
    if mapBit empty j then
      chunkSlots k base empty bad js imgs
        (p.modSlc fun c =>
          { c.put (base + j) (Slc.emptySlot (Config.freeByte k j)) with bad := c.bad.set false (base + j) false })
    else if mapBit bad j then chunkSlots k base empty bad js imgs (p.markBad (base + j) false)
    else chunkSlots k base empty bad js (imgs.drop 48) (p.applySlot (base + j) (imgs.take 16) ((imgs.drop 16).take 32))

/-- RESYNC_CHUNK. -/
def resyncChunk (bs : List Byte) (p : Part) : Part :=
  let k := itemNum bs 4 4
  if p.mir.sync ≠ 3 ∨ p.mir.gate = 2 ∨ 1022 < k then p
  else
    let (d, p) := p.draw
    (chunkSlots d (1024 + 1024 * k) ((bs.drop 8).take 128) ((bs.drop 136).take 128) (List.range 1024) (bs.drop 264) p).modMir
      fun m => { m with chunks := BitVec.ofNat 10 (min 1023 (m.chunks.toNat + 1)) }

/-- RESYNC_END. -/
def resyncEnd (bs : List Byte) (p : Part) : Part :=
  if p.mir.sync ≠ 3 ∨ p.mir.gate = 2 then p
  else (p.modMir fun m => { m with resyncEnd := some (BitVec.ofNat 64 (itemNum bs 8 8)) }).maybeSynced

/-- The records of a copy (R554 step 2): tenants with their tags, counters, the storage keys of every owner, SENT migration sessions. -/
def copyRecords (p : Part) : List Byte :=
  let ts := p.tnt.t.filter fun t => t.1 != 0 && p.tnt.states.get 0 t.1 != 0
  let tenants := ts.flatMap fun t =>
    tagsItem t.2.st.eff.granBase.toNat t.2.st.eff.grans.toNat (colourOf t.1) ++ p.tenantItem t.1
  let counters := p.tnt.counters.flatMap fun c => counterItem c.1 c.2
  let keys := (0 :: ts.map Prod.fst).flatMap fun n =>
    match p.storageKey (colourOf n) with | some (id, k) => skeyItem n id k | none => []
  let migs := p.tnt.migs.flatMap fun x =>
    if x.2.stage = .sent then
      [7, 0] ++ leBytes 2 68 ++ leBytes 2 (ownerIndex x.1) ++ [4, 0] ++ Pk.fit 16 x.2.id ++ beBytes 48 x.2.peer.toNat
    else []
  tenants ++ counters ++ keys ++ migs

/-- A bitmap of a chunk. -/
def bitmap (f : Nat → Bool) : List Byte :=
  (List.range 128).map fun o => (List.range 8).foldl (fun b j => if f (8 * o + j) then b ||| (1 <<< j) else b) (0 : Byte)

/-- CHUNK k of a copy. -/
def chunkMessage (p : Part) (k : Nat) : List Byte :=
  let b := 1024 + 1024 * k
  let empty := fun j => (p.slot (b + j)).state == Slot.empty && !p.slc.isBad (b + j)
  let imgs := (List.range 1024).flatMap fun j =>
    if empty j || p.slc.isBad (b + j) then [] else (p.slot (b + j)).attrBytes ++ Crypto.padR 32 (p.slot (b + j)).mat
  [3, 0, 0, 0] ++ leBytes 4 k ++ bitmap empty ++ bitmap (fun j => p.slc.isBad (b + j)) ++ imgs

/-- RESYNC_REQUEST at the holder: the copy is sent whole, with the sequence at which it begins (R554). -/
def resyncRequest (p : Part) : Part :=
  if p.mir.gate ≠ 2 then p
  else
    let s := p.mir.sent
    let recs := p.copyRecords
    let n := (itemsOf recs.length recs).length
    let p := p.modMir fun m =>
      send frResync ([2, 0, 0, 0] ++ leBytes 4 n ++ recs)
        (send frResync ([1, 0, 0, 0, 0, 0, 0, 0] ++ leBytes 8 s.toNat)
          { m with resyncFrom := some s, sync := if m.sync = 5 then 5 else 3, chunks := 0 })
    let p := (List.range 1023).foldl (fun p k => p.modMir (send frResync (p.chunkMessage k))) p
    p.modMir fun m =>
      send frResync ([4, 0, 0, 0, 0, 0, 0, 0] ++ leBytes 8 m.sent.toNat) { m with chunks := 1023 }

/-! ### Heartbeats (R525, R529, R539, R545, R552, R558) -/

/-- The payload of a HEARTBEAT; `hold` is the nanoseconds since the partner's last one. -/
def heartbeatOf (p : Part) (hold : Word) : List Byte :=
  let m := p.mir
  leBytes 8 m.ownClaim.toNat ++ [m.gate.setWidth 8, m.sync.setWidth 8, m.line.setWidth 8, (modeCode p.sys.mode).setWidth 8, 0, 0, 0, 0]
    ++ leBytes 8 m.seq.toNat ++ p.timeOctets ++ leBytes 8 m.peerTime.toNat ++ leBytes 4 hold.toNat ++ [0, 0, 0, 0]

/-- HEARTBEAT_SEND. -/
def heartbeatSend (hold : Word) (p : Part) : Part := p.modMir (send frHeartbeat (p.heartbeatOf hold))

/-- The time that eight octets carry, in units of 1/65,536 s, and the unit's own in the same form. -/
def ownTime (p : Part) : Int := (ofLe p.timeOctets : Nat)

/-- The partner's time less the unit's own, in ms, corrected by half the round trip (R558). -/
def offsetOf (p : Part) (bs : List Byte) : Int :=
  let now := p.ownTime
  let theirs : Int := itemNum bs 24 8
  let echo : Int := itemNum bs 32 8
  let hold : Int := (itemNum bs 40 4 * 65536 : Nat) / 1000000000
  (theirs + (now - echo - hold) / 2 - now) * 1000 / 65536

/-- The calendar compared: only once the partner has echoed a time of this unit. -/
def timeCompare (bs : List Byte) (p : Part) : Part :=
  if itemNum bs 32 8 = 0 then p
  else
    let d := p.offsetOf bs
    let skew := decide ((p.nvm.charter.timeThresh.toNat : Int) < |d|)
    let w := BitVec.ofInt 32 d
    (p.modMir fun m => { m with timeOffset := w, timeSkew := skew }).when skew (post 0xC004 w 0)

/-- What a HEARTBEAT tells: the partner's claim and states. -/
def heartbeatNote (bs : List Byte) (p : Part) : Part :=
  let claim := BitVec.ofNat 64 (itemNum bs 0 8)
  p.modMir fun m =>
    { m with peerClaim := if m.peerClaim.toNat < claim.toNat then claim else m.peerClaim
             seenPartner := m.seenPartner || claim != 0
             peerGate := BitVec.ofNat 2 (itemNum bs 8 1), peerSync := BitVec.ofNat 3 (itemNum bs 9 1)
             peerTime := BitVec.ofNat 64 (itemNum bs 24 8) }

/-- HEARTBEAT: two holders, the end of a handover, the end of a copy or of SOLO where the standby reports SYNCED (R552). -/
def heartbeatGo (bs : List Byte) (p : Part) : Part :=
  let p := (p.heartbeatNote bs).timeCompare bs
  let m := p.mir
  let claim := itemNum bs 0 8
  if m.gate = 2 ∧ m.peerGate = 2 ∧ m.ownClaim.toNat < claim then p.gateLost 0
  else if m.gate = 2 ∧ m.peerSync = 4 ∧ (m.resyncFrom.isSome ∨ m.sync = 5) then
    (p.modMir fun m => { m with sync := 4, resyncFrom := none, pairEvent := true }).modTnt fun t => { t with acked := [] }
  else if m.hoSent && m.peerGate == 2 then
    (p.modMir fun m => { m with hoSent := false, hoRx := none, pairEvent := true }).modSys fun s =>
      { s with mode := if s.mode = .service ∨ s.mode = .ceremony then .standby else s.mode }
  else p

/-! ### The handshake (R526 to R528, R533) -/

/-- The two units' payloads of a step in transcript order: rank 0x01 first. -/
def hsPair (p : Part) (k : Nat) : List Byte :=
  let a := p.mir.hsMine.getD k []
  let b := p.mir.hsPeer.getD k []
  if p.pairRank = 1 then a ++ b else b ++ a

/-- The step 1 payload. -/
def hsStep1 (nonce : List Byte) (p : Part) : List Byte :=
  let (c1, c2) := p.identChains
  [1, p.pairRank, 0, 0] ++ leBytes 2 p.nvm.charter.compatLevel.toNat ++ leBytes 2 p.nvm.charter.compatMin.toNat ++ nonce
    ++ leBytes 4 c1.length ++ leBytes 4 c2.length ++ c1 ++ c2

/-- The handshake begins: step 1 is sent with a FRESH nonce, where one can be drawn. -/
def hsBegin (p : Part) : Part :=
  match p.entDraw .fresh 32 with
  | (some nonce, p) =>
    let bs := p.hsStep1 nonce
    p.modMir fun m => send frHandshake bs { m with hsMine := [bs], hsPeer := [], hsSecret := [] }
  | (none, p) => p.modMir fun m => { m with hsMine := [], hsPeer := [], hsSecret := [] }

/-- No session: the cause is set and recorded (R527, R557). -/
def hsRefuse (cause : BitVec 6) (p : Part) : Part :=
  let p := p.modMir fun m =>
    { m with cause := m.cause ||| cause, hsMine := [], hsPeer := [], hsSecret := [], pairEvent := true
             sync := if m.sync = 1 then 0 else m.sync, link := if cause = cRank then 3 else m.link }
  p.post 0xC003 ((fld p.mir.cause 0 3).setWidth 32) 0

/-- The partner's certified identity keys from its step 1. -/
def hsPeerKeys (p : Part) : Option (List Byte × List Byte) :=
  let bs := p.mir.hsPeer.headD []
  let l1 := itemNum bs 40 4
  certifiedKeys ((bs.drop 48).take l1) ((bs.drop (48 + l1)).take (itemNum bs 44 4))

/-- What step 2 signs: text, then the SHA-384 of step 1's transcript and the payload's first 1,588 octets. -/
def hsMessage (p : Part) (body : List Byte) : List Byte := signMessage "HX6400 causeway handshake" (p.hsPair 0 ++ body)

/-- Step 2 sent: attestation with the partner's nonce, ephemeral keys, signature block. -/
def hsSend2 (p : Part) : Option Part :=
  match p.entDraw .fresh 32, p.identKeys with
  | (some x, p), some keys =>
    match p.entDraw .fresh 64 with
    | (some seed, p) =>
      let body := [2, 0, 0, 0, 0, 0, 0, 0] ++ p.attestBody (((p.mir.hsPeer.headD []).drop 8).take 32)
        ++ Pk.fit 32 (Standard.x25519 x x25519Base) ++ Pk.fit 1184 (Config.kemKey seed)
      let (block, p) := p.signBlock keys (p.hsMessage body)
      some (p.modMir fun m => send frHandshake (body ++ block) { m with hsMine := m.hsMine ++ [body ++ block], hsSecret := x ++ seed })
    | (none, _) => none
  | _, _ => none

/-- HANDSHAKE_STEP1: the partner's certificates, rank, levels and nonce checked; step 2 follows. -/
def handshake1 (bs : List Byte) (p : Part) : Part :=
  let p := if p.mir.hsMine = [] then p.hsBegin else p
  if p.mir.hsMine.length ≠ 1 ∨ p.mir.hsPeer ≠ [] then p
  else
    let p := p.modMir fun m =>
      { m with hsPeer := [bs], peerRank := bs.getD 1 0, peerLevel := BitVec.ofNat 16 (itemNum bs 4 2)
               peerMin := BitVec.ofNat 16 (itemNum bs 6 2), pairEvent := true }
    match p.hsPeerKeys with
    | some (k, _) =>
      if !p.nvm.charter.partners.contains (keyHash k) then p.hsRefuse cIdentity
      else (p.hsSend2).getD (p.modMir fun m => { m with hsPeer := [] })
    | none => p.hsRefuse cIdentity

/-- The keys of R528 staged in MIR_KEYk: transmit key and salt, receive key and salt. -/
def hsDerive (shared : List Byte) (p : Part) : Part :=
  let peer2 := p.mir.hsPeer.getD 1 []
  let n1 := ((p.mir.hsMine.getD 0 []).drop 8).take 32
  let n2 := ((p.mir.hsPeer.getD 0 []).drop 8).take 32
  let salt := if p.pairRank = 1 then n1 ++ n2 else n2 ++ n1
  let dh := Standard.x25519 (p.mir.hsSecret.take 32) ((peer2.drop 372).take 32)
  let info := ascii "HX6400 causeway" ++ Standard.hash 3 (p.hsPair 0 ++ p.hsPair 1 ++ p.hsPair 2)
  let k := hkdf salt (dh ++ shared) info 72
  let key1 := k.take 32 ++ (k.drop 64).take 4
  let key2 := (k.drop 32).take 32 ++ (k.drop 68).take 4
  let bs := if p.pairRank = 1 then key1 ++ key2 else key2 ++ key1
  p.modMir fun m =>
    { m with keyStage := ((Crypto.pieces 4 bs).zipIdx).foldl (fun t x => t.set 0 x.2 (BitVec.ofNat 32 (ofLe x.1))) []
             pairEvent := true }

/-- HANDSHAKE_STEP2: both signatures checked; rank 0x01 encapsulates, sends step 3 and derives. -/
def handshake2 (bs : List Byte) (p : Part) : Part :=
  if p.mir.hsMine.length ≠ 2 ∨ p.mir.hsPeer.length ≠ 1 then p
  else
    let block := bs.drop 1588
    let ok := bs.length == 9000 && p.hsPeerKeys == some (blockKeys block) && blockOk block (p.hsMessage (bs.take 1588))
      && ((bs.drop 92).take 32) == ((p.mir.hsMine.getD 0 []).drop 8).take 32
    if !ok then p.hsRefuse cIdentity
    else if p.mir.peerRank = p.pairRank then p.hsRefuse cRank
    else
      let q := p.modMir fun m => { m with hsPeer := m.hsPeer ++ [bs], pairEvent := true }
      if p.pairRank = 2 then q
      else
        match q.entDraw .fresh 32 with
        | (some r, q) =>
          let ek := (bs.drop 404).take 1184
          let msg := [3, 0, 0, 0, 0, 0, 0, 0] ++ Pk.fit 1088 (Config.kemCipher ek r)
          (q.modMir fun m => send frHandshake msg { m with hsMine := m.hsMine ++ [msg] }).hsDerive (Config.kemShared ek r)
        | (none, _) => p

/-- HANDSHAKE_STEP3 at rank 0x02: the ciphertext opened, the keys derived. -/
def handshake3 (bs : List Byte) (p : Part) : Part :=
  if p.pairRank ≠ 2 ∨ p.mir.hsPeer.length ≠ 2 then p
  else
    let q := p.modMir fun m => { m with hsPeer := m.hsPeer ++ [bs] }
    q.hsDerive (Config.kemOpen (q.mir.hsSecret.drop 32) ((bs.drop 8).take 1088))

/-- INSTALL (R528): the staged keys take effect at the next frame boundary. The first forms the session; a later one flips
KEY_PHASE, with frames of both phases accepted. -/
def keyInstall (p : Part) : Part :=
  if !p.paired || decide (p.mir.link.toNat < 2) then p.modMir fun m => { m with keyStage := [] }
  else
    let first := !p.mir.session
    let ok := p.compatOk
    let p := p.modMir fun m =>
      { m with keyOld := if first then [] else m.keyInUse, keyInUse := m.keyStage, keyStage := [], session := true, link := 3
               phase := if first then m.phase else !m.phase, oldPhase := !first, fseqOld := m.fseqRx, fseqTx := 0, fseqRx := 0
               tx := if first then [] else m.tx, hsMine := [], hsPeer := [], hsSecret := [], pairEvent := true
               cause := if ok then m.cause else m.cause ||| cCompat }
    if first && p.mir.gate != 2 && p.mir.sync != 4 then p.unsync 0 else p

/-- 100 µs after a key change (R528). -/
def phaseEnd (p : Part) : Part :=
  p.modMir fun m => { m with oldPhase := false, keyOld := [], tx := m.tx.filter fun f => f.1 == m.phase }

/-- SESSION_REKEY: a new handshake under the running session. -/
def sessionRekey (p : Part) : Part := if p.paired && p.mir.session then p.hsBegin else p

/-! ### The link (R521, R522, R551, R655) -/

/-- CAUSEWAY_LINK_ENABLE. An unpaired part keeps the Causeway off. -/
def linkEnable (p : Part) : Part :=
  let on := p.paired
  p.modMir fun m => { m with linkEn := true, link := if on && m.link == 0 then 1 else m.link }

/-- A lane width as LANES codes it. -/
def lanesNote (lanes : BitVec 2) (p : Part) : Part :=
  (p.modMir fun m => { m with lanes := lanes, pairEvent := true }).post 0xC002 (lanes.setWidth 32) 0

/-- CAUSEWAY_TRAINED: the handshake starts. The link does not train while XIN1 is lost (R615). -/
def trained (lanes : BitVec 2) (p : Part) : Part :=
  if !p.mir.linkEn || p.mir.link != 1 || lanes == 0 || (p.wpu.clkSrcLost && !p.wpu.xin1Present) then p
  else
    let p := if lanes = 3 then p.modMir fun m => { m with lanes := 3, pairEvent := true } else p.lanesNote lanes
    (p.modMir fun m => { m with link := 2, sync := if m.sync = 0 then 1 else m.sync, fseqTx := 0, fseqRx := 0, tx := [] }).hsBegin

/-- LANES_CHANGED: the link drops to a narrower width. -/
def lanesChanged (lanes : BitVec 2) (p : Part) : Part :=
  if p.mir.link.toNat < 2 ∨ lanes = 0 ∨ p.mir.lanes.toNat ≤ lanes.toNat then p else p.lanesNote lanes

/-- LINK_LOST: the session keys discarded, the link trained again; a handover not yet sent is abandoned (R655). -/
def linkLost (failedTags : Bool) (p : Part) : Part :=
  if p.mir.link.toNat < 2 then p
  else
    let ho := p.mir.hoStop
    let p := p.modMir fun m =>
      { m with link := if m.linkEn then 1 else 0, lanes := 0, session := false, keyInUse := [], keyOld := [], oldPhase := false
               phase := false, tx := [], hsMine := [], hsPeer := [], hsSecret := [], resyncFrom := none, resyncEnd := none
               hoStop := false, hoRx := none, cause := m.cause ||| cLinkLost ||| (if ho then cHandover else 0), pairEvent := true
               peerGate := 0, peerSync := 0 }
    let p := p.post 0xC001 (bit' failedTags 0) 0
    p.when ho (post 0xC005 0 0)

/-- STANDBY_LINK_TIMEOUT: 250 µs after the loss, the line still HELD (a SIGNAL_FAULT counts as HELD). -/
def standbyTimeout (p : Part) : Part :=
  let m := p.mir
  if m.link = 3 ∨ m.gate = 2 ∨ !(m.line = 0 ∨ m.line = 3) ∨ !(m.sync = 4 ∨ m.sync = 3) then p
  else p.unsync cLinkLost

/-- HOLDER_SOLO_TIMEOUT: 300 µs after the loss; the queued entries complete with MIRROR_TIMEOUT, and every counter becomes
readable (R653). -/
def holderSolo (p : Part) : Part :=
  let m := p.mir
  if m.link = 3 || m.gate != 2 || !m.soloAuto then p
  else
    let es := m.entries
    let p := es.foldl (fun p e => p.mirrorTimeout e) p
    ((p.modMir fun m => { m with sync := 5, entries := [], seq := m.sent, pairEvent := true }).modTnt fun t =>
      { t with acked := [] }).freeDiscarded es

/-- FRAME_AUTH_FAIL. -/
def frameAuthFail (p : Part) : Part := if p.mir.session then p.modMir fun m => { m with authFail := satInc m.authFail } else p

/-- FRAME_RESEND: every frame not covered by FACK (R524). -/
def frameResend (p : Part) : Part :=
  p.modMir fun m =>
    { m with out := m.out ++ m.tx.map fun f => f.2.2
             resent := BitVec.ofNat 16 (min 0xFFFF (m.resent.toNat + m.tx.length)) }

/-! ### The gate (R534 to R540, R553) -/

/-- GATE_PERIOD: the holder's release; reading it low ends the hold (R656). -/
def gatePeriod (low : Bool) (p : Part) : Part := if p.mir.gate = 2 ∧ low then p.gateLost 1 else p

/-- LINE_STATE_CHANGE. `long`: the line has been FREE for a further 200 µs; `high`: TIDEGATE_N has been high for 5 µs. A
SIGNAL_FAULT or STUCK line is recorded; on STUCK the holder's pair watchdog raises a full reset (R538). -/
def lineChange (line : BitVec 2) (long high : Bool) (f : Fuses) (p : Part) : Part :=
  if !p.paired then p
  else
    let old := p.mir.line
    let q := p.pairWatch fun p =>
      (p.modMir fun m => { m with line := line, freeLong := long && line == 1, highFive := high, pairEvent := true }).when
        (line != old && (line == 2 || line == 3)) (post 0xC008 (line.setWidth 32) 0)
    if line = 2 ∧ p.mir.gate = 2 then q.fullReset 4 f else q

/-- The conditions of R536. A former holder whose HANDOVER has not been taken counts as standby (R553, R655). -/
def claimOk (p : Part) : Bool :=
  let m := p.mir
  let mode := p.sys.mode == .standby || (p.sys.mode == .assay && p.paired) || (m.hoSent && p.sys.mode == .service)
  let sync := m.sync == 4 || (m.link != 3 && !m.seenPartner)
  let free := m.line == 1 && (m.seenPartner || p.pairRank == 1 || m.freeLong)
  let handed := match m.hoRx with | some s => s == m.seq && m.highFive | none => false
  p.paired && m.gateEn && mode && sync && (free || handed)

/-- GATE_CLAIM_FIRST (R537). -/
def claimFirst (p : Part) : Part :=
  if p.mir.gate = 2 ∨ p.mir.gate = 1 ∨ !p.claimOk then p
  else (p.modMir fun m => { m with gate := 1 }).openDecision (.gateClaim true)

/-- MIR_EPOCH_FLOOR. -/
def epochFloor (m : Mir) : Nat := m.floorHi.toNat * 2 ^ 32 + m.floorLo.toNat

/-- The slots in use of each function, as the Cellar shows them (R384). -/
def recount (p : Part) : Tab Nat :=
  p.slc.slots.foldl
    (fun t s =>
      match s.2 with
      | some x =>
        if x.state = Slot.empty ∨ x.colour = 0 ∨ x.colour = 0xFFF then t
        else t.upd 0 (if x.colour = 0xFFE then 0 else x.colour.toNat) (· + 1)
      | none => t)
    []

/-- Both decisions of a claim have agreed (R537): the new epoch, GATE HOLDING, the mode, SOLO without a link. A FREEZING tenant with
nothing in flight becomes FROZEN (R400); in an unplanned takeover a reservation whose session was the failed unit's is given up
(R409). -/
def gateTake (p : Part) : Part :=
  let m := p.mir
  let planned := m.hoRx.isSome || m.hoSent
  let epoch := (max (max (m.ownClaim.toNat / 65536) (m.peerClaim.toNat / 65536)) (epochFloor m) + 1) % 2 ^ 48
  let rank := p.pairRank
  let solo := m.link != 3
  let p := p.modMir fun m =>
    { m with ownClaim := BitVec.ofNat 64 (epoch * 65536 + rank.toNat * 256), gate := 2, driving := true, pairEvent := true
             lastHeld := BitVec.ofNat 18 epoch, sync := if solo then 5 else m.sync, hoRx := none, hoSent := false, sent := m.seq
             entries := [], resyncFrom := none, resyncEnd := none }
  let p := p.post 0xC006 (BitVec.ofNat 32 epoch) 0
  let p := p.modSys fun s => { s with mode := if s.mode = .standby then .service else s.mode }
  let cs := p.recount
  let p := p.modTnt fun t => { t with counted := cs, acked := [] }
  let lost := if planned then [] else
    p.tnt.states.filterMap fun x => if x.2 = 5 ∧ (p.migOf x.1).isNone then some x.1 else none
  let p := lost.foldl (fun p n => let (items, p) := p.tenantGone n; p.ledger items none none) p
  p.tnt.states.foldl (fun p x => p.settle x.1) p

/-- MIR_HANDOVER, step 4 of R553: the lines released, HANDOVER sent with the last sequence. Ignored unless GATE is HOLDING. -/
def handoverWrite (p : Part) : Part :=
  if p.mir.gate ≠ 2 then p
  else
    p.undoSession.modMir fun m =>
      control 1 m.sent { m with driving := false, gate := 0, hoStop := false, hoSent := true, pairEvent := true }

/-- HANDOVER_REQUEST: the pair event; warden firmware begins the handover whenever the partner is SYNCED. -/
def handoverRequest (p : Part) : Part :=
  p.modMir fun m => { m with pairEvent := true, hoStop := m.hoStop || (m.gate == 2 && m.sync == 4 && m.session) }

/-- HANDOVER received. -/
def handoverGo (bs : List Byte) (p : Part) : Part :=
  p.modMir fun m => { m with hoRx := some (BitVec.ofNat 64 (itemNum bs 8 8)), pairEvent := true }

/-- HANDOVER_TIMEOUT: the gate taken back, or, without a link and without R536, standby (R553, R655). -/
def handoverTimeout (p : Part) : Part :=
  if !p.mir.hoSent || p.mir.gate == 2 then p
  else
    let p := (p.modMir fun m => { m with cause := m.cause ||| cHandover }).post 0xC005 0 0
    if p.claimOk then p.claimFirst
    else if p.mir.link ≠ 3 then
      let p := p.modMir fun m => { m with hoSent := false }
      (p.leaveGate p.mir.gate).unsync cLinkLost
    else p

/-- STEP_DOWN received: the partner has stopped driving. -/
def stepDown (bs : List Byte) (p : Part) : Part :=
  let claim := BitVec.ofNat 64 (itemNum bs 8 8)
  p.modMir fun m => { m with peerGate := if m.peerClaim = claim ∨ m.peerGate = 2 then 3 else m.peerGate, pairEvent := true }

/-- MIR_COMMIT: SHARE of 0 is refused; the boundary is the next frame. -/
def mirCommit (p : Part) : Part :=
  p.modMir fun m =>
    let ok := m.share.stage != 0
    { m with cfgMismatch := m.cfgMismatch || !ok, share := m.share.commit ok (!m.session) }

end Part

/-! ### The meanings -/

/-- CAUSEWAY_TRAINED (R521), with the LANES code reached. -/
def execCausewayTrained (lanes : BitVec 2) (s : State) : Host.Outcome State Fault Refusal :=
  onPart (Part.pairWatch (Part.trained lanes)) s
/-- LANES_CHANGED (R521). -/
def execLanesChanged (lanes : BitVec 2) (s : State) : Host.Outcome State Fault Refusal := onPart (Part.lanesChanged lanes) s
/-- LINK_LOST (R522, R655): by silence, or by failed tags. -/
def execLinkLost (failedTags : Bool) (s : State) : Host.Outcome State Fault Refusal :=
  onPart (Part.pairWatch (Part.linkLost failedTags)) s
/-- FRAME_AUTH_FAIL (R524). -/
def execFrameAuthFail (s : State) : Host.Outcome State Fault Refusal := onPart Part.frameAuthFail s
/-- FRAME_RESEND (R524). -/
def execFrameResend (s : State) : Host.Outcome State Fault Refusal := onPart Part.frameResend s
/-- HEARTBEAT_SEND (R525, R529). -/
def execHeartbeatSend (hold : Word) (s : State) : Host.Outcome State Fault Refusal := onPart (Part.heartbeatSend hold) s
/-- HEARTBEAT (R529, R539, R545, R558). -/
def execHeartbeat (fseq : BitVec 64) (fack : Word) (old : Bool) (bs : List Byte) (s : State) : Host.Outcome State Fault Refusal :=
  onPart (Part.receive Part.frHeartbeat fseq fack old bs (Part.heartbeatGo bs)) s
/-- HANDSHAKE_STEP1 (R527, R533). -/
def execHandshakeStep1 (fseq : BitVec 64) (fack : Word) (bs : List Byte) (s : State) : Host.Outcome State Fault Refusal :=
  onPart (Part.receive Part.frHandshake fseq fack false bs (Part.handshake1 bs)) s
/-- HANDSHAKE_STEP2 (R527, R533). -/
def execHandshakeStep2 (fseq : BitVec 64) (fack : Word) (bs : List Byte) (s : State) : Host.Outcome State Fault Refusal :=
  onPart (Part.receive Part.frHandshake fseq fack false bs (Part.handshake2 bs)) s
/-- HANDSHAKE_STEP3 (R527, R528, R533). -/
def execHandshakeStep3 (fseq : BitVec 64) (fack : Word) (bs : List Byte) (s : State) : Host.Outcome State Fault Refusal :=
  onPart (Part.receive Part.frHandshake fseq fack false bs (Part.handshake3 bs)) s
/-- KEY_INSTALL (R528). -/
def execKeyInstall (s : State) : Host.Outcome State Fault Refusal := onPart (Part.pairWatch Part.keyInstall) s
/-- SESSION_REKEY (R528). -/
def execSessionRekey (s : State) : Host.Outcome State Fault Refusal := onPart Part.sessionRekey s
/-- LEDGER (R546 to R548). -/
def execLedger (fseq : BitVec 64) (fack : Word) (old : Bool) (bs : List Byte) (s : State) : Host.Outcome State Fault Refusal :=
  onPart (Part.receive Part.frLedger fseq fack old bs (Part.ledgerGo bs)) s
/-- LEDGER_ACK (R547, R653). -/
def execLedgerAck (fseq : BitVec 64) (fack : Word) (old : Bool) (bs : List Byte) (s : State) : Host.Outcome State Fault Refusal :=
  onPart (Part.receive Part.frAck fseq fack old bs (Part.ackGo bs)) s
/-- LEDGER_TIMEOUT (R549). -/
def execLedgerTimeout (seq : BitVec 64) (s : State) : Host.Outcome State Fault Refusal := onPart (Part.ledgerTimeout seq) s
/-- RESYNC_BEGIN (R531, R554, R654). -/
def execResyncBegin (fseq : BitVec 64) (fack : Word) (old : Bool) (bs : List Byte) (s : State) :
    Host.Outcome State Fault Refusal :=
  onPart (Part.receive Part.frResync fseq fack old bs (Part.resyncBegin bs)) s
/-- RESYNC_RECORDS (R531, R654). -/
def execResyncRecords (fseq : BitVec 64) (fack : Word) (old : Bool) (bs : List Byte) (s : State) :
    Host.Outcome State Fault Refusal :=
  onPart (Part.receive Part.frResync fseq fack old bs (Part.resyncRecords bs)) s
/-- RESYNC_CHUNK (R531). -/
def execResyncChunk (fseq : BitVec 64) (fack : Word) (old : Bool) (bs : List Byte) (s : State) :
    Host.Outcome State Fault Refusal :=
  onPart (Part.receive Part.frResync fseq fack old bs (Part.resyncChunk bs)) s
/-- RESYNC_END (R531, R554). -/
def execResyncEnd (fseq : BitVec 64) (fack : Word) (old : Bool) (bs : List Byte) (s : State) : Host.Outcome State Fault Refusal :=
  onPart (Part.receive Part.frResync fseq fack old bs (Part.resyncEnd bs)) s
/-- HANDOVER (R532, R536, R553). -/
def execHandover (fseq : BitVec 64) (fack : Word) (old : Bool) (bs : List Byte) (s : State) : Host.Outcome State Fault Refusal :=
  onPart (Part.receive Part.frControl fseq fack old bs (Part.handoverGo bs)) s
/-- RESYNC_REQUEST (R532, R554). -/
def execResyncRequest (fseq : BitVec 64) (fack : Word) (old : Bool) (bs : List Byte) (s : State) :
    Host.Outcome State Fault Refusal :=
  onPart (Part.receive Part.frControl fseq fack old bs Part.resyncRequest) s
/-- STEP_DOWN (R532). -/
def execStepDown (fseq : BitVec 64) (fack : Word) (old : Bool) (bs : List Byte) (s : State) : Host.Outcome State Fault Refusal :=
  onPart (Part.receive Part.frControl fseq fack old bs (Part.stepDown bs)) s
/-- GATE_PERIOD (R534, R656): what the unit reads in its own release. -/
def execGatePeriod (low : Bool) (s : State) : Host.Outcome State Fault Refusal := onPart (Part.pairWatch (Part.gatePeriod low)) s
/-- LINE_STATE_CHANGE (R535, R538). -/
def execLineStateChange (line : BitVec 2) (long high : Bool) (s : State) : Host.Outcome State Fault Refusal :=
  onPart (Part.lineChange line long high s.fuses) s
/-- GATE_CLAIM_FIRST (R536, R537). -/
def execGateClaimFirst (s : State) : Host.Outcome State Fault Refusal := onPart Part.claimFirst s
/-- STANDBY_LINK_TIMEOUT (R551). -/
def execStandbyLinkTimeout (s : State) : Host.Outcome State Fault Refusal := onPart (Part.pairWatch Part.standbyTimeout) s
/-- HOLDER_SOLO_TIMEOUT (R551). -/
def execHolderSoloTimeout (s : State) : Host.Outcome State Fault Refusal := onPart (Part.pairWatch Part.holderSolo) s
/-- MIR_HANDOVER (R553). -/
def execMirHandover (s : State) : Host.Outcome State Fault Refusal := onPart (Part.pairWatch Part.handoverWrite) s
/-- HANDOVER_REQUEST (R553). -/
def execHandoverRequest (s : State) : Host.Outcome State Fault Refusal := onPart Part.handoverRequest s
/-- HANDOVER_TIMEOUT (R553, R655). -/
def execHandoverTimeout (s : State) : Host.Outcome State Fault Refusal := onPart (Part.pairWatch Part.handoverTimeout) s
/-- MIR_COMMIT (R560, R640). -/
def execMirCommit (s : State) : Host.Outcome State Fault Refusal := onPart Part.mirCommit s
/-- CAUSEWAY_LINK_ENABLE (R521). -/
def execCausewayLinkEnable (s : State) : Host.Outcome State Fault Refusal := onPart Part.linkEnable s
/-- KEY_PHASE_WINDOW_END (R528). -/
def execKeyPhaseWindowEnd (s : State) : Host.Outcome State Fault Refusal := onPart Part.phaseEnd s

end Sys2Proof.Machine
end

