-- ==== Sys2Proof/Machine/Migration.lean ====
section
/-! DEFINITION. The migration of a frozen tenant (11_tenants.md, R401 to R412): the offer and the answer, the segments of the
state stream, the receipt and the refusal. Warden firmware's choice of free slots comes with the command (`pick`). -/

namespace Sys2Proof.Machine
namespace Part

/-! ### What a tenant carries (R404, R405) -/

/-- The slots in use of function `n`, in index order. -/
def tenantSlots (p : Part) (n : Nat) : List (Nat × Slot) :=
  (p.slc.ownedBy (colourOf n)).map fun i => (i, p.slot i)

/-- The key may leave the part as a blob or in a migration: EXPORT is BLOB, TRUSTED or SENSITIVE (R324). -/
def mayMove (s : Slot) : Bool := decide (1 ≤ s.exportClass.toNat ∧ s.exportClass.toNat ≤ 3)

/-- The heads of the chains that are carried: keys whose EXPORT is neither EPHEMERAL nor reserved (R324). -/
def carried (p : Part) (n : Nat) : List (Nat × Slot) :=
  (p.tenantSlots n).filter fun s => s.2.state == Slot.key && s.2.chainPos == 0 && mayMove s.2

/-- The heads of the keys that are not carried. -/
def ephemeral (p : Part) (n : Nat) : List Nat :=
  ((p.tenantSlots n).filter fun s => s.2.state == Slot.key && s.2.chainPos == 0 && !mayMove s.2).map Prod.fst

/-- The unwritten landing slots. -/
def landings (p : Part) (n : Nat) : List Nat :=
  ((p.tenantSlots n).filter fun s => s.2.state == Slot.landing).map Prod.fst

/-- The templates that the carried attribute blocks name, in index order. -/
def namedTemplates (p : Part) (n : Nat) : List Nat :=
  let cs := (p.carried n).map fun s => s.2.child.toNat
  (List.range 256).filter fun t => t != 0 && cs.contains t

/-- The tenant's counters that hold a value: tenant index, value. -/
def tenantCounters (p : Part) (n : Nat) : List (Nat × BitVec 64) :=
  let t := (p.tnt.t.get {} n).st.eff
  (p.tnt.counters.filter fun c => decide (256 * t.grpBase.toNat ≤ c.1 ∧ c.1 < 256 * (t.grpBase.toNat + t.groups.toNat))).map
    fun c => (c.1 - 256 * t.grpBase.toNat, c.2)

/-- The 64-octet tenant summary: allotments, then the counts (R410). -/
def summaryOf (allot counts : List Byte) : List Byte := Pk.fit 16 allot ++ Pk.fit 20 counts ++ List.replicate 28 0

/-- The counts of an offer. -/
def offerCounts (p : Part) (n : Nat) : List Byte :=
  leBytes 4 (p.carried n).length ++ leBytes 4 (((p.carried n).map fun s => max 1 s.2.chainLen.toNat).sum)
    ++ leBytes 4 (p.ephemeral n).length ++ leBytes 4 (p.landings n).length ++ leBytes 2 (p.namedTemplates n).length
    ++ leBytes 2 (p.tenantCounters n).length

/-- A record of the state stream. -/
def streamRecord (type : Byte) (body : List Byte) : List Byte := [type, 0] ++ leBytes 2 body.length ++ body

/-- A template's entry of 64 bits. -/
def templateEntry (p : Part) (t : Nat) : BitVec 64 := if t = 0 then 0 else p.slc.tpl.get 0 t

/-- The records of a tenant before END, in the order of R411. -/
def tenantRecords (p : Part) (n id : Nat) (key : List Byte) : List (List Byte) :=
  [streamRecord 1 (allotOctets (p.tnt.t.get {} n).st.eff)]
    ++ (p.namedTemplates n).map (fun t => streamRecord 2 ([BitVec.ofNat 8 t, 0, 0, 0] ++ leBytes 8 (p.templateEntry t).toNat))
    ++ [streamRecord 3 (leBytes 4 id ++ Pk.fit 32 key)]
    ++ (p.tenantCounters n).map (fun c => streamRecord 4 (leBytes 4 c.1 ++ leBytes 8 c.2.toNat))
    ++ (p.carried n).map fun s =>
      streamRecord 5 (leBytes 4 (mkHandle s.2.hclass s.2.gen s.1).toNat ++ s.2.attrBytes
        ++ (rangeOf s.1 (max 1 s.2.chainLen.toNat)).flatMap fun i => Crypto.padR 32 (p.slot i).mat)

/-- The whole stream and the hash in its END record. -/
def stateStream (records : List (List Byte)) : List Byte × List Byte :=
  let bs := records.flatten
  let h := Standard.hash 3 bs
  (bs ++ streamRecord 6 (leBytes 4 records.length ++ Pk.fit 48 h), Pk.fit 48 h)

/-! ### Offers and answers (R401, R410) -/

/-- The octets of an offer or answer before its signature block. -/
def exchangeBody (magic : String) (tenant : Nat) (id x ek ct summary : List Byte) (p : Part) : List Byte :=
  let (c1, c2) := p.identChains
  ascii magic ++ [1, 0, 0, 0] ++ leBytes 2 tenant ++ [0, 0] ++ Pk.fit 16 id ++ leBytes 4 c1.length ++ leBytes 4 c2.length
    ++ Pk.fit 32 x ++ Pk.fit 1184 ek ++ Pk.fit 1088 ct ++ Pk.fit 64 summary ++ p.attestBody (Pk.fit 16 id ++ List.replicate 16 0)
    ++ c1 ++ c2

/-- The octets before the signature block of a received offer or answer, and the whole of it. -/
def exchangeLen (bs : List Byte) : Nat := 2768 + itemNum bs 28 4 + itemNum bs 32 4
def exchangeWhole (bs : List Byte) : List Byte := bs.take (exchangeLen bs + 7412)

/-- A received offer or answer accepted under R401: the peer's identity keys. `extra` follows the digest in an answer's message. -/
def exchangePeer (magic text : String) (extra bs : List Byte) (p : Part) : Option (List Byte × List Byte) :=
  let n := exchangeLen bs
  let l1 := itemNum bs 28 4
  let block := (bs.drop n).take 7412
  let body := bs.take n
  match certifiedKeys ((bs.drop 2768).take l1) ((bs.drop (2768 + l1)).take (itemNum bs 32 4)) with
  | some keys =>
    let (level, least) := Config.charterCompat ((bs.drop 2664).take 48)
    let ok := bs.take 5 == ascii magic ++ [1] && blockKeys block == keys && blockOk block (signMessage text body ++ extra)
      && p.nvm.charter.migPeers.contains (keyHash keys.1)
      && ((bs.drop 2488).take 32) == ((bs.drop 12).take 16) ++ List.replicate 16 0
      && decide (p.nvm.charter.compatMin.toNat ≤ level.toNat ∧ least.toNat ≤ p.nvm.charter.compatLevel.toNat)
    if ok then some keys else none
  | none => none

/-- The migration key (R403). -/
def migKey (id dh shared offer answer : List Byte) : List Byte :=
  hkdf id (dh ++ shared) (ascii "HX6400 migration" ++ Standard.hash 3 (offer ++ answer)) 32

def setMig (n : Nat) (m : Mig) (p : Part) : Part :=
  p.modTnt fun t => { t with migs := (t.migs.filter fun x => x.1 != n) ++ [(n, m)] }
def dropMig (n : Nat) (p : Part) : Part := p.modTnt fun t => { t with migs := t.migs.filter fun x => x.1 != n }

/-- The MIGRATION item (R530): the session state as the tenant's state code, 0 once ended. -/
def migItem (n : Nat) (st : Byte) (m : Mig) : List Byte :=
  [7, 0] ++ leBytes 2 68 ++ leBytes 2 (ownerIndex n) ++ [st, 0] ++ Pk.fit 16 m.id ++ beBytes 48 m.peer.toNat

/-- MIG_OFFER. -/
def migOffer (c : AdmCmd) (i : Nat) (p : Part) : Option Part :=
  onTenant c i [3] (fun n p =>
    if (p.migOf n).isSome ∨ 16 ≤ p.tnt.migs.length then some (p.fail i 0x10 0x0A)
    else
      match p.identKeys with
      | none => some (p.fail i 0x7F 0)
      | some keys =>
        let (c1, c2) := p.identChains
        if c.head.len.toNat < 2768 + c1.length + c2.length + 7412 then some (p.fail i 0x10 0x06)
        else
          match p.entDraw .fresh 48 with
          | (none, _) => none
          | (some r, q) =>
            match q.entDraw .fresh 64 with
            | (none, _) => none
            | (some seed, p) =>
              let id := r.take 16
              let x := r.drop 16
              let sum := summaryOf (allotOctets (p.tnt.t.get {} n).st.eff) (p.offerCounts n)
              let body := p.exchangeBody "HXMO" (ownerIndex n) id (Standard.x25519 x x25519Base) (Config.kemKey seed) [] sum
              let (block, p) := p.signBlock keys (signMessage "HX6400 migration offer" body)
              let p := p.setMig n { stage := .offered, id := id, secret := x ++ seed, offer := body ++ block }
              some (p.admDone 0 i [] (body ++ block))) p

/-- MIG_ACCEPT: the offer checked, TARGET reserved as RESTORING, the answer written over the offer. -/
def migAccept (c : AdmCmd) (i : Nat) (p : Part) : Option Part :=
  let bs := Pk.fit 16 c.args
  let offer := exchangeWhole (c.buf.getD [])
  onTenant c i [0] (fun n p =>
    match p.exchangePeer "HXMO" "HX6400 migration offer" [] offer, p.identKeys, p.takeRanges n (allotOf bs) with
    | some peer, some keys, some t =>
      let (c1, c2) := p.identChains
      if !allotOk bs ∨ 16 ≤ p.tnt.migs.length then some (p.fail i 0x10 0x0A)
      else if c.head.len.toNat < 2768 + c1.length + c2.length + 7412 then some (p.fail i 0x10 0x06)
      else if (p.tagFault 0 t.granBase.toNat t.grans.toNat (colourOf n)).isSome then some (p.fail i 0x7F 0)
      else
        match p.entDraw .fresh 64 with
        | (none, _) => none
        | (some r, p) =>
          let id := (offer.drop 12).take 16
          let x := r.take 32
          let ek := (offer.drop 68).take 1184
          let sum := summaryOf (allotOctets t) ((offer.drop 2356).take 20)
          let body := p.exchangeBody "HXMA" (ownerIndex n) id (Standard.x25519 x x25519Base) [] (Config.kemCipher ek (r.drop 32)) sum
          let (block, p) := p.signBlock keys (signMessage "HX6400 migration answer" body ++ Standard.hash 3 offer)
          let answer := body ++ block
          let dh := Standard.x25519 x ((offer.drop 36).take 32)
          let (items, p) := p.grantRanges n t 5
          let p := p.setMig n
            { stage := .accepted, id := id, peer := keyHash peer.1, peerKeys := peer.1 ++ peer.2
              key := migKey id dh (Config.kemShared ek (r.drop 32)) offer answer }
          some ((p.ledger items (some i) none).admDone 0 i [] answer)
    | some _, none, _ => some (p.fail i 0x7F 0)
    | _, _, _ => some (p.fail i 0x10 0x0A)) p

/-- MIG_BIND: the answer checked, the key derived. -/
def migBind (c : AdmCmd) (i : Nat) (p : Part) : Option Part :=
  onTenant c i [3] (fun n p =>
    match p.migOf n with
    | some m =>
      let answer := exchangeWhole (c.buf.getD [])
      match p.exchangePeer "HXMA" "HX6400 migration answer" (Standard.hash 3 m.offer) answer with
      | some peer =>
        if m.stage ≠ .offered ∨ (answer.drop 12).take 16 ≠ m.id then some (p.fail i 0x10 0x0A)
        else
          let dh := Standard.x25519 (m.secret.take 32) ((answer.drop 36).take 32)
          let shared := Config.kemOpen (m.secret.drop 32) ((answer.drop 1252).take 1088)
          let p := p.setMig n
            { m with stage := .bound, peer := keyHash peer.1, peerKeys := peer.1 ++ peer.2, secret := []
                     key := migKey m.id dh shared m.offer answer }
          some (p.admDone 0 i [] [])
      | none => some (p.fail i 0x10 0x0A)
    | none => some (p.fail i 0x10 0x0A)) p

/-! ### Segments (R404, R411) -/

/-- The 48 octets of associated data of a segment. -/
def segmentHead (id : List Byte) (n size : Nat) (last : Bool) : List Byte :=
  ascii "HXMS" ++ [1, if last then 1 else 0, 0, 0] ++ Pk.fit 16 id ++ leBytes 4 n ++ leBytes 4 size ++ List.replicate 16 0

/-- SNAPSHOT: segment 0 destroys what is not carried and forms the stream; the last sets the state SENT. -/
def snapshot (c : AdmCmd) (i : Nat) (p : Part) : Option Part :=
  onTenant c i [3] (fun n p =>
    match p.migOf n with
    | some m =>
      if !(m.stage = .bound ∨ m.stage = .sending) ∨ c.a0.toNat ≠ m.seg then some (p.fail i 0x10 0x0A)
      else if c.head.len = 0 then some (p.fail i 0x10 0x06)
      else
        match p.storageKey (colourOf n) with
        | none => some (p.fail i 0x7F 0)
        | some (id, key) =>
          let first := m.stage == .bound
          let gone := if first then (p.ephemeral n).flatMap p.slc.chainOf ++ p.landings n else []
          let (stream, hash) := if first then stateStream (p.tenantRecords n id key) else (m.stream, m.hash)
          let back := if first then ((p.ephemeral n).map fun i => countedLen (p.slot i)).sum + (p.landings n).length else 0
          let p := (p.modSlc fun x => gone.foldl Slc.destroy1 x).modCounted n (· - back)
          let size := min stream.length (c.head.len.toNat - 64)
          let last := decide (stream.length ≤ size)
          let head := segmentHead m.id m.seg size last
          let ct := Crypto.gcmCrypt m.key (beBytes 12 m.seg) 0 (stream.take size)
          let out := head ++ ct ++ Crypto.gcmTag m.key (beBytes 12 m.seg) head ct
          let m : Mig :=
            { m with stage := if last then .sent else .sending, seg := m.seg + 1, stream := stream.drop size, hash := hash
                     key := if last then [] else m.key }
          let p := p.setMig n m
          let p := if last then p.setState n 4 else p
          let items := gone.flatMap p.slotItem ++ (if last then p.tenantItem n ++ migItem n 4 m else [])
          some ((p.when (items != []) (ledger items (some i) none)).admDone 0 i [if last then 1 else 0] out)
    | none => some (p.fail i 0x10 0x0A)) p

/-! ### RESTORE (R406, R407, R412) -/

/-- The stream's records: type and body, while they are whole. -/
def recordsOf : Nat → List Byte → List (Nat × List Byte)
  | 0, _ => []
  | n + 1, bs =>
    let k := itemNum bs 2 2
    if bs.length < 4 ∨ bs.length < 4 + k ∨ bs.getD 1 0 ≠ 0 then []
    else (itemNum bs 0 1, (bs.drop 4).take k) :: recordsOf n (bs.drop (4 + k))

/-- The records stand in the order of R411 and END closes them with their count and hash. -/
def streamOk (stream : List Byte) : Bool :=
  let rs := recordsOf stream.length stream
  let body := rs.dropLast
  let types := body.map Prod.fst
  match rs.getLast? with
  | some (6, e) =>
    let before := stream.take (stream.length - 56)
    types.head? == some 1 && (types.filter (· == 1)).length == 1 && (types.filter (· == 3)).length == 1
      && types.all (fun t => decide (1 ≤ t ∧ t ≤ 5)) && decide (types.mergeSort (· ≤ ·) = types)
      && ((rs.map fun r => 4 + r.2.length).sum == stream.length)
      && e == leBytes 4 body.length ++ Pk.fit 48 (Standard.hash 3 before)
  | _ => false

/-- Records of a type. -/
def bodies (type : Nat) (rs : List (Nat × List Byte)) : List (List Byte) := (rs.filter fun r => r.1 == type).map Prod.snd

/-- The reason to refuse a whole stream: 0x02 order, 0x03 template, 0x04 allotments; 0 for none. -/
def streamFault (n : Nat) (stream : List Byte) (p : Part) : Byte :=
  let rs := recordsOf stream.length stream
  let t := (p.tnt.t.get {} n).st.eff
  if !streamOk stream then 2
  else if (bodies 2 rs).any fun b => p.templateEntry (itemNum b 0 1) != BitVec.ofNat 64 (itemNum b 4 8) then 3
  else if t.slots.toNat < ((bodies 5 rs).map fun b => (b.length - 20) / 32).sum
      ∨ (bodies 4 rs).any (fun b => decide (256 * t.groups.toNat ≤ itemNum b 0 4)) then 4
  else 0

/-- One chain written at a chosen index with its head's attributes: its source handle and its new one. -/
def restoreKey (n j : Nat) (b : List Byte) (p : Part) : List Byte × Part :=
  let attr := (b.drop 4).take 16
  let w := fun k => BitVec.ofNat 32 (itemNum attr (4 * k) 4)
  let mats := Crypto.pieces 32 (b.drop 20)
  let g := (p.slot j).gen + 1
  let w0 := Slot.word0 (colourOf n) (fld (w 0) 12 4) g (fld (w 0) 24 8)
  let p := p.modSlc fun c =>
    mats.zipIdx.foldl
      (fun c x =>
        { c.put (j + x.2)
            { mat := x.1, w0 := w0, w1 := w 1, w2 := (w 2 &&& 0xFFFFFF00#32) ||| BitVec.ofNat 32 x.2, w3 := w 3, tag := [] } with
          bad := c.bad.set false (j + x.2) false })
      c
  (b.take 4 ++ leBytes 4 (mkHandle (fld (w 0) 12 4) g j).toNat, p)

/-- Every chain written where warden firmware places it; none where a place is not free. -/
def restoreKeys (n : Nat) : List (List Byte) → List Nat → Part → Option (List Byte × Part)
  | [], _, p => some ([], p)
  | _ :: _, [], _ => none
  | b :: bs, j :: js, p =>
    if !p.rangeFree j ((b.length - 20) / 32) then none
    else
      let (e, p) := p.restoreKey n j b
      (restoreKeys n bs js p).map fun r => (e ++ r.1, r.2)

/-- A receipt or refusal with its signature block (R412). -/
def closing (kind reason : Byte) (m : Mig) (keysRestored : Nat) (hash : List Byte) (keys : List Byte × List Byte × List Byte)
    (p : Part) : List Byte × Part :=
  let head := ascii "HXMC" ++ [1, kind, reason, 0] ++ Pk.fit 16 m.id ++ leBytes 4 m.seg ++ leBytes 4 keysRestored ++ Pk.fit 48 hash
    ++ List.replicate 16 0
  let (block, p) := p.signBlock keys (signMessage "HX6400 migration close" head)
  (head ++ block, p)

/-- The whole stream restored (R406, R407): keys, counters, storage key; the tenant FROZEN; the handle map and the receipt. -/
def restoreAll (c : AdmCmd) (i n : Nat) (m : Mig) (p : Part) : Option Part :=
  let rs := recordsOf m.stream.length m.stream
  let ks := bodies 5 rs
  let size := 16 * ((8 + 8 * ks.length + 15) / 16)
  if c.head.len.toNat < size + 7508 then some (p.fail i 0x10 0x06)
  else
    match p.identKeys, p.storageRoot, p.restoreKeys n ks (c.pick.map BitVec.toNat) with
    | some keys, some root, some (map, p) =>
      let base := 256 * (p.tnt.t.get {} n).st.eff.grpBase.toNat
      let cs := (bodies 4 rs).map fun b => (base + itemNum b 0 4, BitVec.ofNat 64 (itemNum b 4 8))
      let skey := (bodies 3 rs).headD []
      let p := (p.modTnt fun t => { t with counters := cs.foldl (fun a x => a.set 0 x.1 x.2) t.counters })
      let p := ((cs.map fun x => x.1 / 256).dedup).foldl (fun p g => p.epochStep g) p
      let p := p.putSkey n (itemNum skey 0 4) root (skey.drop 4)
      let total := (ks.map fun b => (b.length - 20) / 32).sum
      let p := ((p.modCounted n fun _ => total).setState n 3).dropMig n
      let heads := c.pick.map BitVec.toNat
      let is := (heads.zip ks).flatMap fun x => rangeOf x.1 ((x.2.length - 20) / 32)
      let items := is.flatMap p.slotItem ++ cs.flatMap (fun x => counterItem x.1 x.2)
        ++ skeyItem n (itemNum skey 0 4) (skey.drop 4) ++ p.tenantItem n
      let hash := m.stream.drop (m.stream.length - 48)
      let (receipt, p) := closing 1 0 m ks.length hash keys p
      some ((p.ledger items (some i) none).admDone 0 i [] (padTo size (leBytes 4 ks.length ++ [0, 0, 0, 0] ++ map) ++ receipt))
    | none, _, _ | _, none, _ => some (p.fail i 0x7F 0)
    | _, _, none => none

/-- RESTORE: a segment that fails its tag or its order is remembered; the last segment then ends in VERIFY_FALSE (R406). -/
def restore (c : AdmCmd) (i : Nat) (p : Part) : Option Part :=
  let bs := c.buf.getD []
  onTenant c i [5] (fun n p =>
    match p.migOf n with
    | some m =>
      let size := itemNum bs 28 4
      let last := bitAt (bs.getD 5 0) 0
      let head := bs.take 48
      let ct := (bs.drop 48).take size
      let good := head == segmentHead m.id c.a0.toNat size last && bs.length ≥ 64 + size
        && Crypto.gcmTag m.key (beBytes 12 c.a0.toNat) head ct == (bs.drop (48 + size)).take 16
      let why : Byte := if !good then 1 else if c.a0.toNat ≠ m.seg then 2 else 0
      let m : Mig :=
        { m with stage := .restoring, seg := m.seg + 1, bad := if m.bad = 0 then why else m.bad
                 stream := if why = 0 then m.stream ++ Crypto.gcmCrypt m.key (beBytes 12 c.a0.toNat) 0 ct else m.stream }
      if !last then some ((p.setMig n m).admDone 0 i [] [])
      else
        let bad := if m.bad = 0 then p.streamFault n m.stream else m.bad
        if bad ≠ 0 then some ((p.setMig n { m with bad := bad, stream := [] }).finish i 0x01 0 [] 0)
        else p.restoreAll c i n m
    | none => some (p.fail i 0x10 0x0A)) p

/-! ### The end of a session (R408, R412) -/

/-- MIG_ABANDON: on the source before segment 0, on the target before RESTORE. -/
def migAbandon (c : AdmCmd) (i : Nat) (p : Part) : Option Part :=
  onTenant c i [3, 5] (fun n p =>
    match (p.migOf n).map Mig.stage with
    | some .offered | some .bound => some ((p.dropMig n).admDone 0 i [] [])
    | some .accepted =>
      let (items, p) := p.tenantGone n
      some ((p.when (p.mir.gate == 2) (ledger items none none)).admDone 0 i [] [])
    | _ => some (p.fail i 0x10 0x0A)) p

/-- MIG_REFUSE: the signed refusal; the partial state and the secrets destroyed, TARGET back to NONE. -/
def migRefuse (c : AdmCmd) (i : Nat) (p : Part) : Option Part :=
  onTenant c i [5] (fun n p =>
    match p.migOf n, p.identKeys with
    | some m, some keys =>
      let (out, p) := closing 2 (if m.bad = 0 then 5 else m.bad) m 0 [] keys p
      let (items, p) := p.tenantGone n
      some ((p.ledger items (some i) none).admDone 0 i [] out)
    | some _, none => some (p.fail i 0x7F 0)
    | none, _ => some (p.fail i 0x10 0x0A)) p

/-- A receipt or refusal answers the session: both signatures under the peer's keys, the session ID and, for a receipt, the hash.
A session taken over from the failed holder knows the peer's key hash alone (R409). -/
def closeOk (m : Mig) (bs : List Byte) : Bool :=
  let block := (bs.drop 96).take 7412
  let (k1, k2) := blockKeys block
  (bs.take 5 == ascii "HXMC" ++ [1]) && keyHash k1 == m.peer && (m.peerKeys == [] || m.peerKeys == k1 ++ k2)
    && blockOk block (signMessage "HX6400 migration close" (bs.take 96)) && (bs.drop 8).take 16 == m.id
    && (bs.getD 5 0 == 2 || bs.getD 5 0 == 1 && (m.hash == [] || (bs.drop 32).take 48 == m.hash))

/-- MIG_CLOSE: a receipt destroys the tenant, a refusal returns it to FROZEN. -/
def migClose (c : AdmCmd) (i : Nat) (p : Part) : Option Part :=
  let bs := (c.buf.getD []).take 7508
  onTenant c i [4] (fun n p =>
    match p.migOf n with
    | some m =>
      if !closeOk m bs then some (p.fail i 0x10 0x0A)
      else if bs.getD 5 0 = 1 then
        if !p.mayDestroy n then some (p.fail i 0x10 0x0A)
        else
          let (items, p) := p.tenantGone n
          some ((p.ledger (items ++ migItem n 0 m) (some i) none).admDone 0 i [] [])
      else
        let p := (p.setState n 3).dropMig n
        some ((p.ledger (p.tenantItem n ++ migItem n 0 m) (some i) none).admDone 0 i [] [])
    | none => some (p.fail i 0x10 0x0A)) p

end Part

/-! ### The meanings -/

/-- MIG_OFFER (R402, R410). -/
def execMigOffer (c : AdmCmd) (s : State) : Host.Outcome State Fault Refusal :=
  onPart (Part.admRow { op := 0x0120, mgr := true } c (Part.migOffer c)) s
/-- MIG_ACCEPT (R401, R402, R410). -/
def execMigAccept (c : AdmCmd) (s : State) : Host.Outcome State Fault Refusal :=
  onPart (Part.admRow { op := 0x0121, mgr := true, classA := true, used := Part.allotUsed, reads := 10180 } c (Part.migAccept c)) s
/-- MIG_BIND (R402). -/
def execMigBind (c : AdmCmd) (s : State) : Host.Outcome State Fault Refusal :=
  onPart (Part.admRow { op := 0x0122, mgr := true, reads := 10180 } c (Part.migBind c)) s
/-- SNAPSHOT (R402, R404, R405, R411). -/
def execSnapshot (c : AdmCmd) (s : State) : Host.Outcome State Fault Refusal :=
  onPart (Part.admRow { op := 0x0123, mgr := true, classA := true } c (Part.snapshot c)) s
/-- RESTORE (R402, R406, R407). -/
def execRestore (c : AdmCmd) (s : State) : Host.Outcome State Fault Refusal :=
  onPart (Part.admRow { op := 0x0124, mgr := true, classA := true, reads := 64 } c (Part.restore c)) s
/-- MIG_ABANDON (R408). -/
def execMigAbandon (c : AdmCmd) (s : State) : Host.Outcome State Fault Refusal :=
  onPart (Part.admRow { op := 0x0125, mgr := true } c (Part.migAbandon c)) s
/-- MIG_REFUSE (R408, R412). -/
def execMigRefuse (c : AdmCmd) (s : State) : Host.Outcome State Fault Refusal :=
  onPart (Part.admRow { op := 0x0126, mgr := true, classA := true, writes := 7508 } c (Part.migRefuse c)) s
/-- MIG_CLOSE (R402, R408, R412). -/
def execMigClose (c : AdmCmd) (s : State) : Host.Outcome State Fault Refusal :=
  onPart (Part.admRow { op := 0x0127, mgr := true, classA := true, reads := 7508 } c (Part.migClose c)) s

end Sys2Proof.Machine
end

