-- ==== Sys2Proof/Machine/CsrSys.lean ====
section
/-! DEFINITION. The registers of SYS, WPU, HIF and ACU as reads find them and writes change them (R4 to R8, R25, and the register
tables of 02, 12, 13, 15 and 19). An offset is a multiple of 4. A command bit acts as the command of its own row does. Reads of a
register with a side effect are in Csr.lean. -/

namespace Sys2Proof.Machine
namespace Part

/-! ### Access types (R4) -/

/-- A W1C bit after a write. -/
def keep (b : Bool) (v : Word) (i : Nat) : Bool := b && !bitAt v i

/-- A bit with a set and a clear field: where one write carries both, the spec does not say which acts, and the bit is free. -/
def setClr (set clr old : Bool) (p : Part) : Bool × Part :=
  if set && clr then
    let (k, p) := p.draw
    (bitAt (Config.freeWord k) 0, p)
  else (set || (old && !clr), p)

/-- The fields `mask` of a register word replaced. -/
def put (mask old v : Word) : Word := (old &&& ~~~mask) ||| (v &&& mask)

/-- Word `i` of a wider value, and the value with that word replaced. -/
def wordOf {n : Nat} (v : BitVec n) (i : Nat) : Word := fld v (32 * i) 32
def setWord {n : Nat} (v : BitVec n) (i : Nat) (w : Word) : BitVec n :=
  (v &&& ~~~((0xFFFFFFFF#32).setWidth n <<< (32 * i))) ||| (w.setWidth n <<< (32 * i))

/-! ### SYS (12, 13, 15) -/

/-- STATE of SYS_CC_STATE. A halted core counts as running. -/
def runCode : RunState → BitVec 2
  | .held => 0 | .running | .halted => 1 | .doze => 2 | .lockup => 3

/-- SYS_LC. -/
def lcWord (p : Part) : Word :=
  let f := p.sys.fuses
  at' (lifeCode p.life) 0 ||| bit' f.rootSet 3 ||| bit' f.rootOk 4 ||| bit' f.rootDisable 5 ||| bit' f.scanDisable 6
    ||| bit' p.sys.lcBusy 7 ||| bit' p.sys.lcDone 8 ||| bit' p.sys.lcRefused 9 ||| bit' (lifeInconsistent f.lcWord) 10

/-- Channel `c` of the DMA registers. -/
def dma (p : Part) (c : Nat) : Dma := p.sys.dma.get {} c
def modDma (c : Nat) (g : Dma → Dma) (p : Part) : Part := p.modSys fun s => { s with dma := s.dma.upd {} c g }

def dmaRead (d : Dma) (o : Nat) : Word :=
  match o with
  | 0x00 => wordOf d.src 0
  | 0x04 => wordOf d.src 1
  | 0x08 => wordOf d.dst 0
  | 0x0C => wordOf d.dst 1
  | 0x10 => at' d.len 0
  | 0x14 => bit' d.srcHost 0 ||| bit' d.dstHost 1
  | 0x18 => bit' d.busy 0 ||| bit' d.done 1 ||| bit' d.err 2 ||| at' d.cause 4
  | 0x1C => at' d.count 0
  | _ => 0

/-- The channel registers but for GO (R418, R419). -/
def dmaWrite (o : Nat) (v : Word) (d : Dma) : Dma :=
  match o with
  | 0x00 => { d with src := setWord d.src 0 v }
  | 0x04 => { d with src := setWord d.src 1 v }
  | 0x08 => { d with dst := setWord d.dst 0 v }
  | 0x0C => { d with dst := setWord d.dst 1 v }
  | 0x10 => { d with len := v.setWidth 25 }
  | 0x14 => { d with srcHost := bitAt v 0, dstHost := bitAt v 1 }
  | 0x18 => { d with done := keep d.done v 1, err := keep d.err v 2 }
  | _ => d

/-- SYS_SWI as a world reads it. -/
def swiWord (w : World) (p : Part) : Word := bit' p.sys.swiN 0 ||| bit' (p.sys.swiS && w.bit) 2

def sysRead (w : World) (o : Nat) (p : Part) : Word :=
  let s := p.sys
  if o = 0x100 then at' (modeCode s.mode) 0 ||| bit' s.freezing 3 ||| bit' s.cerActive 4 ||| bit' s.reqRefused 5
  else if o = 0x108 then p.quarCause
  else if o = 0x110 then p.lcWord
  else if o = 0x150 then
    bit' s.cerActive 0 ||| at' s.cerClass 1 ||| at' s.cerTarget 5 ||| at' s.cerCount 8 ||| at' s.cerFails 13
      ||| bit' s.cerQuorum 15
  else if o = 0x160 then at' s.reason 0 ||| bit' s.startRefused 8 ||| bit' s.assayWd 9 ||| bit' s.responder 10
  else if within o 0x1000 0x1200 then s.n2s.get 0 ((o - 0x1000) / 4)
  else if within o 0x1200 0x1400 then s.s2n.get 0 ((o - 0x1200) / 4)
  else if o = 0x1400 then at' s.n2sTail 0 ||| at' s.n2sHead 4 ||| at' s.s2nTail 8 ||| at' s.s2nHead 12
  else if o = 0x1404 then bit' s.nErr 0 ||| bit' s.sErr 1
  else if o = 0x1420 then at' s.notice 0
  else if o = 0x1500 then (p.irqRaw &&& (if w.bit then 0x3FFFFF#22 else normalSources)).setWidth 32
  else if within o 0x1510 0x1524 then s.irqEn.get 0 ((o - 0x1510) / 4)
  else if o = 0x1530 then p.swiWord w
  else if o = 0x1604 then (List.range 4).foldl (fun x c => x ||| at' (runCode (p.core c).run) (2 * c)) 0
  else if within o 0x1610 0x1630 then
    let c := (o - 0x1610) / 8
    if o % 8 = 0 then s.ccStart.get 0 c else at' (s.ccStartBk.get 0 c) 0
  else if within o 0x1640 0x1660 then
    let c := (o - 0x1640) / 8
    if o % 8 = 0 then s.lockEpc.get 0 c else s.lockCause.get 0 c
  else if o = 0x1700 then at' s.gpioWorld 0
  else if within o 0x4000 0x5000 then dmaRead (p.dma ((o - 0x4000) / 0x40)) (o % 0x40)
  else 0

/-- SYS_CER written by warden firmware. A count that reaches M has its quorum decided (R468). -/
def cerWrite (v : Word) (p : Part) : Part :=
  let s := p.sys
  let q := s.cerQuorum
  let act := bitAt v 0
  let n : BitVec 5 := fld v 8 5
  let p := p.modSys fun s =>
    { s with cerActive := act, cerClass := if q then s.cerClass else fld v 1 4, cerTarget := if q then s.cerTarget else fld v 5 3
             cerCount := n, cerFails := fld v 13 2, cerQuorum := q && act }
  let m := (p.classOf p.sys.cerClass.toNat).2.toNat
  p.when (act && !q && n != s.cerCount && n.toNat == m && decide (0 < m)) (openDecision (.quorum true))

/-- SYS_CC_CTRL: HOLD and RUN. Where one write carries both for a core, their order is free. -/
def ccCtrl (v : Word) (p : Part) : Part :=
  (List.range 4).foldl
    (fun p c =>
      if bitAt v c && bitAt v (4 + c) then
        let (k, p) := p.draw
        if bitAt (Config.freeWord k) 0 then (p.ccHold c).ccRun c else (p.ccRun c).ccHold c
      else if bitAt v c then p.ccRun c
      else p.when (bitAt v (4 + c)) (ccHold c))
    p

/-- SYS_SWI. -/
def swiWrite (w : World) (v : Word) (p : Part) : Part :=
  let (n, p) := p.setClr (bitAt v 0) (bitAt v 1) p.sys.swiN
  let (x, p) := p.setClr (bitAt v 2) (bitAt v 3 && w.bit) p.sys.swiS
  p.modSys fun s => { s with swiN := n, swiS := x }

/-- WMB_NOTICE: bits cleared; HOST_RESET acknowledges the latched request (R76, R424). -/
def noticeWrite (f : Fuses) (v : Word) (p : Part) : Part :=
  (p.modSys fun s => { s with notice := s.notice &&& ~~~ (v.setWidth 7) }).when (bitAt v 0) (requestedReset f)

def sysWrite (w : World) (f : Fuses) (o : Nat) (v : Word) (p : Part) : Part :=
  let sec := w.bit
  if o = 0x100 then p.modSys fun s => { s with reqRefused := keep s.reqRefused v 5 }
  else if o = 0x104 then
    if fld v 0 2 = 1 then p.modeFreeze else if fld v 0 2 = 2 then p.modeResume else p
  else if o = 0x110 then p.modSys fun s => { s with lcDone := keep s.lcDone v 8, lcRefused := keep s.lcRefused v 9 }
  else if o = 0x114 then p.lcNext (fld v 0 3)
  else if within o 0x120 0x140 then
    p.modSys fun s => if s.fuses.rootSet then s else { s with rootProg := s.rootProg.set 0 ((o - 0x120) / 4) v }
  else if o = 0x140 then p.when (bitAt v 0) rootBurn
  else if o = 0x150 then p.cerWrite v
  else if o = 0x160 then p.modSys fun s => { s with startRefused := keep s.startRefused v 8 }
  else if o = 0x164 then p.handoff (bitAt v 0) (v.setWidth 21 &&& 0x1FFFFC) f
  else if o = 0x168 then
    let e : BitVec 2 := fld v 0 2
    if e = 1 then p.startEnd false (fld v 8 8) else if e = 2 then p.startEnd true (fld v 8 8)
    else p.when (e == 3) (startEndQuarantine (fld v 8 8))
  else if within o 0x1000 0x1200 then p.when (!sec) (wmbSlot .normal ((o - 0x1000) / 4) v)
  else if within o 0x1200 0x1400 then p.when sec (wmbSlot .secure ((o - 0x1200) / 4) v)
  else if o = 0x1400 then
    if sec then (p.wmbTail .secure (fld v 8 4)).wmbHead .secure (fld v 4 4)
    else (p.wmbTail .normal (fld v 0 4)).wmbHead .normal (fld v 12 4)
  else if o = 0x1404 then
    p.modSys fun s => if sec then { s with sErr := keep s.sErr v 1 } else { s with nErr := keep s.nErr v 0 }
  else if o = 0x1420 then p.noticeWrite f v
  else if within o 0x1510 0x1524 then
    let c := (o - 0x1510) / 4
    p.modSys fun s => { s with irqEn := s.irqEn.set 0 c (v &&& (if c = 4 then 0x3FFFFF#32 else normalSources.setWidth 32)) }
  else if o = 0x1530 then p.swiWrite w v
  else if o = 0x1600 then p.ccCtrl v
  else if within o 0x1610 0x1630 then
    let c := (o - 0x1610) / 8
    p.modSys fun s =>
      if o % 8 = 0 then { s with ccStart := s.ccStart.set 0 c (v &&& 0xFFFFFFFC#32) }
      else { s with ccStartBk := s.ccStartBk.set 0 c (v.setWidth 8) }
  else if o = 0x1700 then p.modSys fun s => { s with gpioWorld := v.setWidth 16 }
  else if within o 0x4000 0x5000 then p.modDma ((o - 0x4000) / 0x40) (dmaWrite (o % 0x40) v)
  else p

/-! ### WPU (19) -/

def thermWord (c : WpuCfg) : Word := at' c.step1 0 ||| at' c.step2 8 ||| at' c.hyst 16
def pcapWord (c : WpuCfg) : Word := at' c.cap 0 ||| at' c.margin 8

/-- WPU_DOMd. -/
def domWord (m : Dom) : Word :=
  bit' m.en.run 0 ||| bit' m.en.sleep 1 ||| bit' m.en.dsleep 2 ||| at' (domCode m.state) 4 ||| bit' m.held.isSome 6
    ||| bit' (m.tripT || m.tripV) 7 ||| bit' m.refused 8

/-- Thirty-two domains from 32 × k as one word. -/
def domMap (p : Part) (k : Nat) (g : Dom → Bool) : Word :=
  (List.range 32).foldl (fun x j => x ||| bit' (decide (32 * k + j ≤ 130) && g (p.dom (32 * k + j))) j) 0

def wpuRead (o : Nat) (p : Part) : Word :=
  let u := p.wpu
  let c := u.st.stage
  if o = 0x0 then
    bit' u.cfgMismatch 0 ||| bit' u.clkSrcLost 1 ||| bit' u.xin1Present 2 ||| bit' u.rtcDegraded 3 ||| bit' u.avsFault 4
      ||| bit' u.relocking 5
  else if o = 0x10 then thermWord c
  else if o = 0x14 then thermWord u.st.eff
  else if o = 0x18 then pcapWord c
  else if o = 0x1C then pcapWord u.st.eff
  else if o = 0x20 then at' c.slew 0 ||| at' c.slackLo 8 ||| at' c.slackHi 16
  else if o = 0x24 then at' c.idleNs 0 ||| at' c.dsleep 12
  else if o = 0x28 then at' u.command 0 ||| at' u.readback 10 ||| at' u.power 20
  else if o = 0x44 then u.latchLo
  else if o = 0x48 then u.latchHi
  else if o = 0x60 then at' u.nevent 0
  else if o = 0x64 then at' u.sevent 0
  else if within o 0x100 0x180 then
    let i := (o - 0x100) / 16
    let m := p.island i
    match o % 16 with
    | 0 => at' (c.caps.get 0 i) 0
    | 4 => at' m.step 0 ||| at' m.ageStep 2 ||| at' m.band 4 ||| bit' m.drain 6 ||| bit' m.cprLimit 7 ||| at' m.temp 8
    | 8 => at' m.target 0 ||| at' m.floor 10 ||| at' m.ageOffset 20
    | _ => 0
  else if within o 0x200 0x260 then at' (u.temps.get 0 ((o - 0x200) / 4)) 0
  else if within o 0x300 0x400 then at' (u.hyd.get 0 ((o - 0x300) / 4)) 0
  else if within o 0x1000 0x120C then domWord (p.dom ((o - 0x1000) / 4))
  else if within o 0x2000 0x2014 then p.domMap ((o - 0x2000) / 4) fun m => m.lease
  else if within o 0x2060 0x2074 then p.domMap ((o - 0x2060) / 4) fun m => m.held.isSome
  else 0

/-- The staged fields of WPU (R638). CAP_STEP of VI7 is ignored. -/
def wpuStage (o : Nat) (v : Word) (c : WpuCfg) : WpuCfg :=
  if o = 0x10 then { c with step1 := fld v 0 8, step2 := fld v 8 8, hyst := fld v 16 4 }
  else if o = 0x18 then { c with cap := fld v 0 8, margin := fld v 8 8 }
  else if o = 0x20 then { c with slew := fld v 0 8, slackLo := fld v 8 8, slackHi := fld v 16 8 }
  else if o = 0x24 then { c with idleNs := fld v 0 12, dsleep := fld v 12 16 }
  else if within o 0x100 0x170 ∧ o % 16 = 0 then { c with caps := c.caps.set 0 ((o - 0x100) / 16) (fld v 0 2) }
  else c

def wpuWrite (w : World) (o : Nat) (v : Word) (p : Part) : Part :=
  if o = 0x0 then
    p.modWpu fun u =>
      { u with cfgMismatch := keep u.cfgMismatch v 0, rtcDegraded := keep u.rtcDegraded v 3, avsFault := keep u.avsFault v 4 }
  else if o = 0x4 then (p.when (bitAt v 0) wpuCommit).when (bitAt v 1) relock
  else if within o 0x50 0x5C then p.modWpu fun u => { u with rtcSet := u.rtcSet.set 0 ((o - 0x50) / 4) v }
  else if o = 0x5C then p.when (bitAt v 0) rtcApply
  else if o = 0x60 then p.modWpu fun u => { u with nevent := u.nevent &&& ~~~ (v.setWidth 14) }
  else if o = 0x64 then p.modWpu fun u => { u with sevent := u.sevent &&& ~~~ (v.setWidth 14) }
  else if within o 0x100 0x180 ∧ o % 16 = 4 then
    p.modIsland ((o - 0x100) / 16) fun m => { m with cprLimit := keep m.cprLimit v 7 }
  else if within o 0x1000 0x120C then
    let d := (o - 0x1000) / 4
    (p.modDom d fun m => { m with refused := keep m.refused v 8 }).domWrite w d
      { run := bitAt v 0, sleep := bitAt v 1, dsleep := bitAt v 2 }
  else if within o 0x2020 0x2034 then (domsOf ((o - 0x2020) / 4) v).foldl (fun p d => p.leaseTake d) p
  else if within o 0x2040 0x2054 then (domsOf ((o - 0x2040) / 4) v).foldl (fun p d => p.leaseGive d) p
  else p.modWpu fun u => { u with st := { u.st with stage := wpuStage o v u.st.stage } }

/-! ### HIF (02, 16) -/

def hifRead (o : Nat) (p : Part) : Word :=
  let h := p.hif
  if o = 0x0 then bit' (p.fn 0).wedged 0 ||| bit' h.linkUp 1 ||| bit' h.degraded 2 ||| bit' h.flit 3
  else if o = 0x8 then bit' h.statusChg 0 ||| bit' h.wedgedChg 1
  else if o = 0x44 then at' p.aon.resetCause 0
  else if within o 0x100 0x180 then
    (List.range 32).foldl (fun x j => x ||| bit' (p.fn (8 * (o - 0x100) + j + 1)).wedged j) 0
  else if o = 0x200 then p.pairWord
  else 0

def hifWrite (o : Nat) (v : Word) (p : Part) : Part :=
  if o = 0x8 then p.modHif fun h => { h with statusChg := keep h.statusChg v 0, wedgedChg := keep h.wedgedChg v 1 }
  else if o = 0x40 then p.when (bitAt v 8) (resetRequest (fld v 0 8))
  else if o = 0x44 then p.modAon fun a => { a with resetCause := a.resetCause &&& ~~~ (v.setWidth 7) }
  else if o = 0x204 then p.when (bitAt v 0) handoverRequest
  else p

/-! ### ACU (12) -/

/-- Word `i` of the oldest record of a queue, 0 in an empty one. -/
def faultWord (q : List FaultRec) (i : Nat) : Word := ((FaultRec.words (q.headD {})).getD i 0) &&& (if q = [] then 0 else 0xFFFFFFFF#32)

def regionRead (g : Region) (o : Nat) : Word :=
  match o with
  | 0 => at' g.base 0
  | 4 => at' g.limit 0
  | 8 => at' g.perm 0
  | _ => 0

def regionWrite (o : Nat) (v : Word) (g : Region) : Region :=
  match o with
  | 0 => { g with base := fld v 0 28 }
  | 4 => { g with limit := fld v 0 28 }
  | 8 => { g with perm := fld v 0 9 &&& 0x13F#9 }
  | _ => g

def acuRead (o : Nat) (p : Part) : Word :=
  let u := p.acu
  if o = 0x0 then
    bit' u.cfgMismatch 0 ||| bit' u.writeLocked 1 ||| at' u.misCause 2 ||| at' u.misMaster 5 ||| at' u.ovlA 8 ||| at' u.ovlB 13
  else if o = 0xC then at' u.gen 0 ||| bit' u.oldInflight 16
  else if o = 0x20 then at' u.tagFirst 0 ||| at' u.tagCount 14 ||| at' u.tagSpace 28
  else if o = 0x24 then at' u.tagColour 0
  else if o = 0x30 then at' u.queryIndex 0 ||| at' u.querySpace 28
  else if o = 0x34 then
    match u.querySpace.toNat with
    | 0 => at' (u.tagAt .ob u.queryIndex.toNat) 0
    | 1 => if u.queryIndex.toNat < 1024 then at' (u.tagAt .es u.queryIndex.toNat) 0 else 0
    | 2 => if u.queryIndex.toNat < 4608 then at' (u.tagAt .csr u.queryIndex.toNat) 0 else 0
    | _ => 0
  else if within o 0x100 0x120 then faultWord u.nfault ((o - 0x100) / 4)
  else if o = 0x120 then BitVec.ofNat 32 u.nfault.length ||| at' u.nOverflow 8
  else if within o 0x140 0x160 then faultWord u.sfault ((o - 0x140) / 4)
  else if o = 0x160 then BitVec.ofNat 32 u.sfault.length ||| at' u.sOverflow 8
  else if o = 0x200 ∨ o = 0x204 then wordOf u.dmaWorld ((o - 0x200) / 4)
  else if within o 0x300 0x400 then
    let c := (o - 0x300) / 4
    at' (if p.dmaSecure c then u.dmaColour.get 0xFFF c else 0xFFE) 0
  else if within o 0x10000 0x10C00 then
    let i := o - 0x10000
    regionRead (u.stage.get {} (32 * (i / 0x200) + i % 0x200 / 16)) (i % 16)
  else 0

/-- ACU_DMA_WORLDk: the bits of idle channels change, and a busy channel's is ignored, which sets WRITE_LOCKED (R4, R416). -/
def dmaWorldWrite (k : Nat) (v : Word) (p : Part) : Part :=
  (List.range 32).foldl
    (fun p j =>
      let c := 32 * k + j
      let m : BitVec 64 := BitVec.ofNat 64 (2 ^ c)
      if (p.dma c).busy then p.modAcu fun u => { u with writeLocked := true }
      else if bitAt v j == p.dmaSecure c then p
      else p.modAcu fun u => { u with dmaWorld := u.dmaWorld ^^^ m })
    p

/-- ACU_DMA_COLOURc (R415, R416). -/
def dmaColourWrite (c : Nat) (v : Word) (p : Part) : Part :=
  let x : BitVec 12 := fld v 0 12
  if (p.dma c).busy then p.modAcu fun u => { u with writeLocked := true }
  else p.when (x == 0xFFF#12 || decide (1 ≤ x.toNat ∧ x.toNat ≤ 0x400))
    (modAcu fun u => { u with dmaColour := u.dmaColour.set 0xFFF c x })

def acuWrite (o : Nat) (v : Word) (p : Part) : Part :=
  if o = 0x0 then p.modAcu fun u => { u with cfgMismatch := keep u.cfgMismatch v 0, writeLocked := keep u.writeLocked v 1 }
  else if o = 0x4 then p.when (bitAt v 31) (regionCommit (fld v 0 2).toNat 16 32)
  else if o = 0x8 then
    if !bitAt v 31 then p
    else if (fld v 0 3).toNat = 7 then p.tagCommit
    else p.when (decide ((fld v 0 3).toNat ≤ 5)) (secRegionCommit (fld v 0 3).toNat)
  else if o = 0x20 then p.modAcu fun u => { u with tagFirst := fld v 0 13, tagCount := fld v 14 14, tagSpace := fld v 28 2 }
  else if o = 0x24 then p.modAcu fun u => { u with tagColour := fld v 0 12 }
  else if o = 0x30 then p.modAcu fun u => { u with queryIndex := fld v 0 13, querySpace := fld v 28 2 }
  else if o = 0x120 then p.when (bitAt v 5) (faultPop .normal)
  else if o = 0x160 then p.when (bitAt v 5) (faultPop .secure)
  else if o = 0x200 ∨ o = 0x204 then p.dmaWorldWrite ((o - 0x200) / 4) v
  else if within o 0x300 0x400 then p.dmaColourWrite ((o - 0x300) / 4) v
  else if within o 0x10000 0x10C00 then
    let i := o - 0x10000
    p.modAcu fun u => { u with stage := u.stage.upd {} (32 * (i / 0x200) + i % 0x200 / 16) (regionWrite (i % 16) v) }
  else p

end Part
end Sys2Proof.Machine
end

