-- ==== Sys2Proof/Machine/CsrWork.lean ====
section
/-! DEFINITION. The registers of DSP, SEQ, PAN, RKE and GRN as reads find them and writes change them (register tables of 03, 04, 07
and 08). -/

namespace Sys2Proof.Machine
namespace Part

/-! ### DSP (03) -/

def weightWord (c : DspCfg) : Word := at' c.wStandard 0 ||| at' c.wBulk 8 ||| at' c.wBack 16
def placeWord (c : DspCfg) : Word := at' c.wDepth 0 ||| at' c.wThermal 8 ||| at' c.wStep 16

/-- A DSP register. -/
def dspRead (o : Nat) (p : Part) : Word × Part :=
  let d := p.dsp
  match o with
  | 0x00 => (bit' d.enable 0, p)
  | 0x04 => (bit' d.cfgMismatch 0 ||| bit' d.writeLocked 1 ||| bit' d.entHold 2, p)
  | 0x10 => (weightWord d.st.stage, p)
  | 0x14 => (at' d.st.stage.reserve 0, p)
  | 0x18 => (placeWord d.st.stage, p)
  | 0x20 => (BitVec.ofNat 32 (65536 - (d.ctxs.filter fun c => c.2.state != .free).length), p)
  | 0x24 => (at' d.p999 0, p)
  | _ => (0, p)

def dspStage (o : Nat) (v : Word) (c : DspCfg) : DspCfg :=
  match o with
  | 0x10 => { c with wStandard := fld v 0 8, wBulk := fld v 8 8, wBack := fld v 16 8 }
  | 0x14 => { c with reserve := fld v 0 5 }
  | 0x18 => { c with wDepth := fld v 0 8, wThermal := fld v 8 8, wStep := fld v 16 8 }
  | _ => c

def dspWrite (o : Nat) (v : Word) (p : Part) : Part :=
  match o with
  | 0x00 => p.modDsp fun d => { d with enable := bitAt v 0 }
  | 0x04 => p.modDsp fun d => { d with cfgMismatch := keep d.cfgMismatch v 0, writeLocked := keep d.writeLocked v 1 }
  | 0x08 => p.when (bitAt v 0) dspCommit
  | _ => p.modDsp fun d => { d with st := { d.st with stage := dspStage o v d.st.stage } }

/-! ### SEQ (04) -/

def budgetWord (c : BitVec 16 × BitVec 16) : Word := at' c.1 0 ||| at' c.2 16

def seqRead (o : Nat) (p : Part) : Word :=
  let s := p.seq
  if o < 0x80000 then
    let n := o / 0x8000
    let u := s.units.get {} n
    match o % 0x8000 with
    | 0x00 => (List.range 32).foldl (fun x t => x ||| bit' (p.thread (32 * n + t)).busy t) 0
    | 0x08 => u.harvests
    | 0x10 => u.fault
    | 0x14 => u.faultPc
    | _ => 0
  else
    match o - 0x80000 with
    | 0x00 => bit' s.loadOpen 0 ||| bit' s.run 1
    | 0x04 =>
      bit' s.cfgMismatch 0 ||| bit' s.writeLocked 1 ||| bit' s.loaded 2 ||| at' (BitVec.ofNat 11 s.programs.length) 3
    | 0x10 => budgetWord s.st.stage
    | 0x14 => budgetWord s.st.eff
    | 0x20 => at' s.pmemWord 2
    | _ => 0

/-- SEQ_CTRL: LOAD_OPEN written 0 closes program memory; RUN is ignored while LOAD_OPEN stands at 1 as the write arrives. -/
def seqCtrl (v : Word) (p : Part) : Part :=
  let was := p.seq.loadOpen
  let p := p.when (was && !bitAt v 0) loadClose
  p.when (!was) (modSeq fun s => { s with run := bitAt v 1 })

def seqWrite (o : Nat) (v : Word) (p : Part) : Part :=
  if o = 0x80000 then p.seqCtrl v
  else if o = 0x80004 then
    p.modSeq fun s => { s with cfgMismatch := keep s.cfgMismatch v 0, writeLocked := keep s.writeLocked v 1 }
  else if o = 0x80008 then p.when (bitAt v 0) seqCommit
  else if o = 0x80010 then p.modSeq fun s => { s with st := { s.st with stage := (fld v 0 16, fld v 16 16) } }
  else if o = 0x80020 then 
    p.modSeq fun s => if s.loadOpen then { s with pmemWord := fld v 2 16 } else { s with writeLocked := true }
  else if o = 0x80024 then p.pmemWrite v
  else p

/-! ### PAN (07) -/

def panCfgWord (c : PanCfg) : Word := at' c.interval 0 ||| at' c.limit 8

/-- A bit for each of `n` units. -/
def unitBits (n : Nat) (g : Nat → Bool) : Word := (List.range n).foldl (fun x i => x ||| bit' (g i) i) 0

def panRead (o : Nat) (p : Part) : Word :=
  let b := p.pan
  if o < 0x80000 then
    let x := p.onePan (o / 0x8000)
    match o % 0x8000 with
    | 0x00 => x.blocks
    | 0x08 => BitVec.ofNat 32 (min 8 x.streams.length) ||| bit' x.retired 4 ||| bit' x.stall 5
    | 0x0C => BitVec.ofNat 32 x.maskCount
    | _ => 0
  else
    match o - 0x80000 with
    | 0x04 => bit' b.cfgMismatch 0 ||| bit' b.erased 1 ||| (unitBits 16 fun n => (p.onePan n).retired) <<< 16
    | 0x10 => panCfgWord b.st.stage
    | 0x14 => panCfgWord b.st.eff
    | 0x20 => unitBits 16 fun n => (p.onePan n).katRun
    | 0x28 => unitBits 16 fun n => (p.onePan n).retired
    | 0x24 => (unitBits 16 fun n => (p.onePan n).katDone) ||| (unitBits 16 fun n => (p.onePan n).katFail) <<< 16
    | _ => 0

/-- `g` for each of the first `n` bits of a word that is 1. -/
def forBits (n : Nat) (v : Word) (g : Nat → Part → Part) (p : Part) : Part :=
  (List.range n).foldl (fun p i => if bitAt v i then g i p else p) p

def panWrite (o : Nat) (v : Word) (p : Part) : Part :=
  if o < 0x80000 then p
  else
    match o - 0x80000 with
    | 0x04 => p.modPan fun b => { b with cfgMismatch := keep b.cfgMismatch v 0, erased := keep b.erased v 1 }
    | 0x08 => p.when (bitAt v 0) panCommit
    | 0x10 => p.modPan fun b => { b with st := { b.st with stage := { interval := fld v 0 5, limit := fld v 8 5 } } }
    | 0x20 => p.forBits 16 v panKat
    | 0x24 => p.forBits 16 v fun n => modOnePan n fun x => { x with katDone := false }
    | 0x28 => p.forBits 16 v panRetireWrite
    | _ => p

/-! ### RKE and GRN (08). Block registers stand above the engines' own, and the two blocks share their offsets. -/

/-- The engines of a block, where its block registers start, the step between engines, and its first job. -/
def engBase (grn : Bool) : Nat × Nat × Nat × Nat × Nat := if grn then (48, 8, 0x80000, 0x8000, 4) else (0, 48, 0xC0000, 0x4000, 0)

/-- RKE_LIMITS, GRN_LIMITS. -/
def limitsWord (grn : Bool) (p : Part) : Word :=
  let c := p.nvm.charter
  if grn then at' c.setEn 0 else at' c.minModLimbs 0 ||| at' c.curveEn 16

/-- RKE_STATEr, GRN_STATEg. -/
def engWord (x : Engine) : Word :=
  BitVec.ofNat 32 (min 63 x.queue.length) ||| bit' x.cur.isSome 6 ||| bit' x.parked.isSome 7 ||| bit' x.retired 8
    ||| bit' x.katRun 9 ||| bit' x.katDone 10 ||| bit' x.katFail 11

def engRead (grn : Bool) (o : Nat) (p : Part) : Word :=
  let (e0, n, base, step, j0) := engBase grn
  let b := if grn then p.rke.grn else p.rke.rke
  if o < base then
    if n ≤ o / step then 0
    else
      let x := p.eng (e0 + o / step)
      match o % step with
      | 0x00 => bit' x.katRun 0 ||| bit' x.retired 1
      | 0x04 => engWord x
      | 0x08 => x.ops
      | 0x0C =>
        if grn then at' (fld x.bnInvalid 0 10) 0 ||| at' (fld x.releaseFail 0 10) 10 ||| at' x.attemptCap 20
        else at' x.bnInvalid 0 ||| at' x.releaseFail 16
      | _ => 0
  else
    let i := o - base
    if i = 0x04 then bit' b.cfgMismatch 0 ||| bit' b.erased 1
    else if i = 0x10 then at' b.st.stage 0
    else if i = 0x14 then at' b.st.eff 0
    else if i = 0x18 then p.limitsWord grn
    else if within i 0x40 0x80 then
      let j := p.rke.jobs.get {} (j0 + (i - 0x40) / 16)
      match i % 16 with
      | 0 => at' j.engine 0 ||| at' j.kind 8 ||| at' j.param 12 ||| bit' j.busy 31
      | 4 => j.addr
      | 8 => bit' j.busy 0 ||| bit' j.done 1 ||| at' j.result 8
      | _ => 0
    else 0

def modJob (j : Nat) (g : Sjob → Sjob) (p : Part) : Part := p.modRke fun r => { r with jobs := r.jobs.upd {} j g }

def engWrite (grn : Bool) (o : Nat) (v : Word) (p : Part) : Part :=
  let (e0, n, base, step, j0) := engBase grn
  let set := fun (g : EngBlock → EngBlock) (p : Part) =>
    p.modRke fun r => if grn then { r with grn := g r.grn } else { r with rke := g r.rke }
  if o < base then
    let e := e0 + o / step
    if n ≤ o / step then p
    else if o % step = 0 then (p.when (bitAt v 0) (engineKat e)).when (bitAt v 1) (engineRetire 1 e)
    else if o % step = 4 then p.modEng e fun x => { x with katDone := keep x.katDone v 10 }
    else p
  else
    let i := o - base
    if i = 0x04 then set (fun b => { b with cfgMismatch := keep b.cfgMismatch v 0, erased := keep b.erased v 1 }) p
    else if i = 0x08 then p.when (bitAt v 0) (rkeCommit grn)
    else if i = 0x10 then set (fun b => { b with st := { b.st with stage := fld v 0 6 } }) p
    else if within i 0x40 0x80 then
      let j := j0 + (i - 0x40) / 16
      match i % 16 with
      | 0 =>
        let e : BitVec 6 := if grn then (fld v 0 3 : BitVec 3).setWidth 6 else fld v 0 6
        let p := p.modJob j fun x => { x with engine := e, kind := fld v 8 4, param := fld v 12 16 }
        p.when (bitAt v 31) (jobGo j e (fld v 8 4) (fld v 12 16))
      | 4 => p.modJob j fun x => { x with addr := v }
      | 8 => p.modJob j fun x => { x with done := keep x.done v 1 }
      | _ => p
    else p

end Part
end Sys2Proof.Machine
end

