-- ==== Sys2Proof/Machine/CsrVault.lean ====
section
/-! DEFINITION. The registers of SLC, ENT, TNT, MBX and MIR as reads find them and writes change them (register tables of 09, 10, 11
and 16), and the mailbox of R393 from either side. -/

namespace Sys2Proof.Machine
namespace Part

/-! ### SLC (09) -/

def scrubWord (c : Bool × BitVec 12) : Word := bit' c.1 0 ||| at' c.2 1

/-- The template entry at SLC_TPL_ADDR; entry 0 is fixed at zero (R325). -/
def tplEntry (c : Slc) : BitVec 64 := if c.tplIndex = 0 then 0 else c.tpl.get 0 c.tplIndex.toNat

def slcRead (o : Nat) (p : Part) : Word :=
  let c := p.slc
  if o = 0x0 then
    bit' c.cfgMismatch 0 ||| bit' c.writeLocked 1 ||| bit' c.ready 2 ||| bit' c.clearing 3 ||| bit' c.tplLocked 4
      ||| bit' c.vaultDenied 5 ||| at' (BitVec.ofNat 16 (min 0xFFFF c.bad.length)) 16
  else if o = 0x10 then scrubWord c.st.stage
  else if o = 0x14 then scrubWord c.st.eff
  else if o = 0x18 then at' c.lastBad 0 ||| bit' c.byScrub 20 ||| bit' c.newBad 21
  else if o = 0x1C then c.bankLost
  else if o = 0x20 then at' c.tplIndex 0
  else if o = 0x24 then wordOf (tplEntry c) 0
  else if o = 0x28 then wordOf (tplEntry c) 1
  else if o = 0x2C then bit' c.tplLocked 0
  else if o = 0x104 then at' c.spIndex 0
  else if o = 0x108 then c.spAddr
  else if within o 0x110 0x120 then c.spAttr.get 0 ((o - 0x110) / 4)
  else if o = 0x140 then bit' c.busy 0 ||| bit' c.done 1 ||| bit' c.spBad 2 ||| at' c.result 8 ||| at' c.gen 16
  else if o = 0x200 then at' c.vaultWord 2
  else 0

/-- A write of SLC_SP_CMD: the command whose code it is (R338). -/
def spCommand (cmd : Byte) (p : Part) : Part :=
  match cmd.toNat with
  | 0x01 => p.spGrant spWrite
  | 0x02 => p.spGrant spLanding
  | 0x03 => p.spDestroy
  | 0x04 => p.chainOpen
  | 0x05 => p.chainClose
  | 0x06 => p.spSweep
  | 0x07 => p.readAttr
  | 0x08 => p.narrow
  | 0x10 => p.spGrant spBlobOpen
  | 0x11 => p.spStart spBlobSeal blobSealGo
  | 0x12 => p.deriveId
  | 0x13 => p.spStart spVaultInit vaultInitGo
  | 0x14 => p.spStart spNewSkey newSkeyGo
  | _ => p.spUnknown

/-- A template word; entry 0 and a locked table ignore it (R325). -/
def tplWrite (i : Nat) (v : Word) (c : Slc) : Slc :=
  if c.tplLocked then { c with writeLocked := true }
  else if c.tplIndex = 0 then c
  else { c with tpl := c.tpl.set 0 c.tplIndex.toNat (setWord (tplEntry c) i v &&& 0x3FFFFFFFFFFFF#64) }

def slcWrite (o : Nat) (v : Word) (p : Part) : Part :=
  if o = 0x0 then
    p.modSlc fun c =>
      { c with cfgMismatch := keep c.cfgMismatch v 0, writeLocked := keep c.writeLocked v 1
               vaultDenied := keep c.vaultDenied v 5 }
  else if o = 0x4 then p.when (bitAt v 0) slcCommit
  else if o = 0x10 then p.modSlc fun c => { c with st := { c.st with stage := (bitAt v 0, fld v 1 12) } }
  else if o = 0x18 then p.modSlc fun c => { c with newBad := keep c.newBad v 21 }
  else if o = 0x1C then p.modSlc fun c => { c with bankLost := c.bankLost &&& ~~~ v }
  else if o = 0x20 then p.modSlc fun c => { c with tplIndex := fld v 0 8 }
  else if o = 0x24 then p.modSlc (tplWrite 0 v)
  else if o = 0x28 then p.modSlc (tplWrite 1 v)
  else if o = 0x2C then p.when (bitAt v 0) (modSlc fun c => { c with tplLocked := true })
  else if o = 0x100 then p.spCommand (fld v 0 8)
  else if o = 0x104 then p.modSlc fun c => { c with spIndex := fld v 0 20 }
  else if o = 0x108 then p.modSlc fun c => { c with spAddr := v }
  else if within o 0x110 0x120 then p.modSlc fun c => { c with spAttr := c.spAttr.set 0 ((o - 0x110) / 4) v }
  else if within o 0x120 0x140 then p.modSlc fun c => { c with spData := c.spData.set 0 ((o - 0x120) / 4) v }
  else if o = 0x140 then p.modSlc fun c => { c with done := keep c.done v 1 }
  else if o = 0x200 then p.modSlc fun c => { c with vaultWord := fld v 2 14 }
  else if o = 0x204 then (p.vaultAccess (some v)).2
  else p

/-! ### ENT (10) -/

def reseedWord (c : BitVec 6 × BitVec 6) : Word := at' c.1 0 ||| at' c.2 8

def entRead (o : Nat) (p : Part) : Word :=
  let e := p.ent
  let iso := p.aon.isolated
  if o = 0x0 then
    bit' e.cfgMismatch 0 ||| bit' e.ready 1 ||| bit' e.stretched 2 ||| bit' (Ent.soundCount iso == 1) 3
      ||| bit' (Ent.soundCount iso == 0) 4 ||| bit' e.startFail 5 ||| bit' e.katFailed 6
      ||| bit' (e.promoting || e.promoA) 7 ||| at' (BitVec.ofNat 4 e.actA) 8 ||| at' (BitVec.ofNat 4 e.actB) 12
      ||| at' (BitVec.ofNat 4 e.seeds.length) 16
  else if o = 0x10 then reseedWord e.st.stage
  else if o = 0x14 then reseedWord e.st.eff
  else if o = 0x18 then BitVec.ofNat 32 (min 0xFFFFFFFF e.count)
  else if o = 0x20 then at' iso 0 ||| at' e.activeBits 16
  else if o = 0x24 then (List.range 16).foldl (fun x k => x ||| at' (p.aon.isoCause.get 0 k) (2 * k)) 0
  else if o = 0x28 then e.reseeds
  else if o = 0x2C then e.freshWaits
  else if o = 0x40 then bit' e.katCond 0 ||| bit' e.katDrbg 1
  else if o = 0x44 then bit' (e.katCond || e.katDrbg) 0 ||| bit' e.katDone 1 ||| bit' e.condFail 2 ||| bit' e.drbgFail 3
  else if within o 0x50 0x60 then e.katOut.get 0 ((o - 0x50) / 4)
  else if o = 0x100 ∨ o = 0x180 then
    let s := e.ports.get {} ((o - 0x100) / 0x80)
    at' s.words 0 ||| at' s.cls 4 ||| bit' s.busy 31
  else if o = 0x104 ∨ o = 0x184 then
    let s := e.ports.get {} ((o - 0x100) / 0x80)
    bit' s.busy 0 ||| bit' s.valid 1 ||| bit' s.reqErr 2 ||| at' s.status 8
  else 0

def modPort (i : Nat) (g : SwPort → SwPort) (p : Part) : Part := p.modEnt fun e => { e with ports := e.ports.upd {} i g }

def entWrite (o : Nat) (v : Word) (p : Part) : Part :=
  if o = 0x0 then p.modEnt fun e => { e with cfgMismatch := keep e.cfgMismatch v 0 }
  else if o = 0x4 then p.when (bitAt v 0) entCommit
  else if o = 0x10 then p.modEnt fun e => { e with st := { e.st with stage := (fld v 0 6, fld v 8 6) } }
  else if o = 0x40 then (p.when (bitAt v 0) (entKat false)).when (bitAt v 1) (entKat true)
  else if o = 0x44 then p.modEnt fun e => { e with katDone := keep e.katDone v 1 }
  else if o = 0x100 ∨ o = 0x180 then
    let i := (o - 0x100) / 0x80
    if bitAt v 31 then p.swReq i (fld v 0 4) (fld v 4 2)
    else p.modPort i fun s => { s with words := fld v 0 4, cls := fld v 4 2 }
  else if o = 0x104 ∨ o = 0x184 then p.modPort ((o - 0x100) / 0x80) fun s => { s with reqErr := keep s.reqErr v 2 }
  else p

/-! ### TNT (11) -/

/-- The function of tenant index t: 1,024 is the manager. -/
def tntIndex (t : Nat) : Nat := if t = 1024 then 0 else t + 1

def tntWord (c : TntCfg) (o : Nat) : Word :=
  match o with
  | 0x04 => at' c.granBase 0 ||| at' c.grans 13
  | 0x08 => at' c.inflight 0
  | 0x0C => at' c.slots 0
  | 0x10 => at' c.grpBase 0 ||| at' c.groups 8
  | 0x14 => at' c.weight 0 ||| at' c.floor 8
  | 0x18 => at' c.qpBase 0 ||| at' c.qpCount 12
  | _ => 0

def tntStage (o : Nat) (v : Word) (c : TntCfg) : TntCfg :=
  match o with
  | 0x04 => { c with granBase := fld v 0 13, grans := fld v 13 14 }
  | 0x08 => { c with inflight := fld v 0 17 }
  | 0x0C => { c with slots := fld v 0 21 }
  | 0x10 => { c with grpBase := fld v 0 8, groups := fld v 8 9 }
  | 0x14 => { c with weight := fld v 0 8, floor := fld v 8 2 }
  | 0x18 => { c with qpBase := fld v 0 12, qpCount := fld v 12 7 }
  | _ => c

/-- A tenant has a mailbox event: UP_FULL, DOWN_ACKED or FLUSHED (R394). -/
def mboxEvent (p : Part) (n : Nat) : Bool :=
  let m := p.tnt.mbox.get {} n
  p.mboxUp n && (m.upFull || m.acked || m.flushed)

def tntRead (o : Nat) (p : Part) : Word :=
  let h := p.nvm.charter
  if o < 0x10040 then
    let n := tntIndex (o / 0x40)
    match o % 0x40 with
    | 0x00 => at' (p.tntState n) 0
    | 0x1C => BitVec.ofNat 32 (p.ctxsOf n).length
    | r => tntWord (p.tnt.t.get {} n).st.stage r
  else if o = 0x20004 then bit' p.tnt.cfgMismatch 0 ||| at' p.tnt.mismatch 16
  else if o = 0x20010 then at' h.slotPool 0
  else if o = 0x20014 then at' h.granulePool 0 ||| at' h.qpPool 14
  else if o = 0x20018 then at' h.groupPool 0
  else if within o 0x20100 0x20180 then unitBits 32 fun j => p.mboxEvent (8 * (o - 0x20100) + j + 1)
  else 0

def tntWrite (o : Nat) (v : Word) (p : Part) : Part :=
  if o < 0x10040 then
    p.modTnt fun t => { t with t := t.t.upd {} (tntIndex (o / 0x40)) fun x =>
      { x with st := { x.st with stage := tntStage (o % 0x40) v x.st.stage } } }
  else if o = 0x20000 then p.when (bitAt v 31) (tntCommit (fld v 0 11))
  else if o = 0x20004 then p.modTnt fun t => { t with cfgMismatch := keep t.cfgMismatch v 0 }
  else if o = 0x20008 then p.tntStateSet (fld v 0 11) (fld v 16 3)
  else p

/-! ### Mailboxes (R393 to R395) -/

/-- A register of the mailbox of tenant function `n`, from either side. -/
def mboxRead (n r : Nat) (p : Part) : Word :=
  let m := p.tnt.mbox.get {} n
  if !p.mboxUp n then 0
  else if r < 0x40 then m.down.get 0 (r / 4)
  else if r < 0x80 then m.up.get 0 ((r - 0x40) / 4)
  else if r = 0x80 then
    bit' m.downFull 0 ||| bit' m.upFull 1 ||| bit' m.acked 2 ||| bit' m.flushed 3 ||| bit' m.downErr 16 ||| bit' m.upErr 17
  else 0

/-- A write by the manager, or with `tenant` by the tenant. -/
def mboxWrite (tenant : Bool) (n r : Nat) (v : Word) (p : Part) : Part :=
  let m := p.tnt.mbox.get {} n
  if !p.mboxUp n then p
  else if r < 0x40 then
    if tenant then p
    else p.modMbox n fun x => if m.downFull then { x with downErr := true } else { x with down := x.down.set 0 (r / 4) v }
  else if r < 0x80 then
    if tenant then
      p.modMbox n fun x => if m.upFull then { x with upErr := true } else { x with up := x.up.set 0 ((r - 0x40) / 4) v }
    else p
  else if r ≠ 0x80 then p
  else if tenant then
    ((p.modMbox n fun x => { x with upErr := keep x.upErr v 17 }).when (bitAt v 0) (downClear n)).when (bitAt v 9) (upRing n)
  else
    let p := p.modMbox n fun x =>
      { x with acked := keep x.acked v 2, flushed := keep x.flushed v 3, downErr := keep x.downErr v 16 }
    (p.when (bitAt v 1) (upClear n)).when (bitAt v 8) (downRing n)

/-! ### MIR (16) -/

/-- The values of MIR_STATUS but for its first bit. -/
def mirStatus (p : Part) : Word :=
  let m := p.mir
  bit' m.cfgMismatch 0 ||| at' m.link 1 ||| at' m.lanes 3 ||| at' m.sync 5 ||| at' m.gate 8 ||| at' m.line 10
    ||| bit' p.sys.unitSel 12 ||| bit' m.timeSkew 13 ||| at' m.lastHeld 14

def mirRead (o : Nat) (p : Part) : Word :=
  let m := p.mir
  match o with
  | 0x00 => bit' m.linkEn 0 ||| bit' m.gateEn 1 ||| bit' m.soloAuto 2
  | 0x04 => p.mirStatus
  | 0x08 => at' m.cause 0
  | 0x10 => at' m.share.stage 0 ||| at' m.chunks 4
  | 0x14 => at' m.share.eff 0 ||| at' m.chunks 4
  | 0x20 => wordOf m.ownClaim 0
  | 0x24 => wordOf m.ownClaim 1
  | 0x28 => wordOf m.peerClaim 0
  | 0x2C => wordOf m.peerClaim 1
  | 0x30 => m.floorLo
  | 0x34 => at' m.floorHi 0
  | 0x40 => wordOf m.seq 0
  | 0x44 => wordOf m.seq 1
  | 0x50 => m.timeOffset
  | 0x54 => p.nvm.charter.timeThresh
  | 0x58 => at' m.authFail 0 ||| at' m.resent 16
  | 0x60 => bit' m.phase 1
  | _ => 0

/-- MIR_CTRL. LINK_EN cleared takes a running link down. -/
def mirCtrl (v : Word) (p : Part) : Part :=
  let was := p.mir.linkEn
  let p := p.modMir fun m => { m with gateEn := bitAt v 1, soloAuto := bitAt v 2 }
  let p :=
    if bitAt v 0 then p.when (!was) linkEnable
    else
      let p := (p.modMir fun m => { m with linkEn := false }).when was (linkLost false)
      p.modMir fun m => { m with link := if m.link = 1 then 0 else m.link }
  p.when (bitAt v 3) handoverWrite

def mirWrite (o : Nat) (v : Word) (p : Part) : Part :=
  if o = 0x00 then p.pairWatch (mirCtrl v)
  else if o = 0x04 then p.modMir fun m => { m with cfgMismatch := keep m.cfgMismatch v 0 }
  else if o = 0x08 then p.modMir fun m => { m with cause := m.cause &&& ~~~ (v.setWidth 6) }
  else if o = 0x0C then p.when (bitAt v 0) mirCommit
  else if o = 0x10 then p.modMir fun m => { m with share := { m.share with stage := fld v 0 4 } }
  else if o = 0x30 then p.modMir fun m => if m.gate = 2 then m else { m with floorLo := v }
  else if o = 0x34 then p.modMir fun m => if m.gate = 2 then m else { m with floorHi := fld v 0 16 }
  else if o = 0x60 then p.when (bitAt v 0) (pairWatch keyInstall)
  else if within o 0x80 0xC8 then p.modMir fun m => { m with keyStage := m.keyStage.set 0 ((o - 0x80) / 4) v }
  else p

end Part
end Sys2Proof.Machine
end

