-- ==== Sys2Proof/Machine/Evr.lean ====
section
/-! DEFINITION. The commands of the Tally Book (18_tally_book.md): records, floods, freeze, firmware records, persistence,
and the EVR staged fields. -/

namespace Sys2Proof.Machine
namespace Part

/-- A record of a block reaches the recorder (R593), with its code's severity. -/
def recordPost (code : BitVec 16) (detail aux : Word) (payload : List Byte) (p : Part) : Part :=
  p.postRec { code := code, sev := p.sevOf code, detail := detail, aux := aux, payload := payload }

/-- The end of a code's window, or the 60 s limit of its flood (R598, R599). -/
def rateWindowEnd (code : BitVec 16) (sixty : Bool) (p : Part) : Part :=
  match p.evr.limiter.find? fun x => x.code == code with
  | none => p
  | some x =>
    let others : LimEntry → List LimEntry → List LimEntry := fun y l => l.map fun z => if z.code == code then y else z
    let drop : Evr → Evr := fun e => { e with limiter := e.limiter.filter fun z => z.code != code }
    let summary : Evr → Evr := fun e => e.submit (Evr.summaryRec x p.bat.secs p.bat.frac)
    if sixty then
      if x.flood then
        p.modEvr fun e =>
          summary { e with limiter := others { x with suppressed := 0, inWindow := 0, flood := false } e.limiter }
      else p
    else if !x.flood then p.modEvr drop
    else if x.inWindow = 0 then p.modEvr fun e => summary (drop e)
    else p.modEvr fun e => { e with limiter := others { x with written := 0, inWindow := 0 } e.limiter }

/-- SET of EVR_FREEZE by a world (R600): ignored while frozen. -/
def freezeSet (w : World) (p : Part) : Part :=
  p.when (!p.evr.frozen) (modEvr fun e => { e with frozen := true, freezeWorld := w.bit })

/-- The freeze ends and the queue drains (R600, R601). -/
def freezeEnd (p : Part) : Part :=
  (p.modEvr fun e => e.drain { code := 0, sev := 0, secs := p.bat.secs, frac := p.bat.frac }).foldChain

/-- CLEAR of EVR_FREEZE: by the owner only. -/
def freezeClear (w : World) (p : Part) : Part :=
  p.when (p.evr.frozen && p.evr.freezeWorld == w.bit) freezeEnd

/-- The firmware set of a world. -/
def evrSw (w : World) (e : Evr) : EvrSw :=
  match w with
  | .normal => e.swN
  | .secure => e.swS

def setEvrSw (w : World) (x : EvrSw) (e : Evr) : Evr :=
  match w with
  | .normal => { e with swN := x }
  | .secure => { e with swS := x }

/-- The first `n` payload octets of a set. -/
def swPayload (x : EvrSw) (n : Nat) : List Byte :=
  ((List.range 56).flatMap fun k => leBytes 4 (x.pay.get 0 k).toNat).take n

/-- GO of EVR_SW (R603): the record is formed at once and the payload words zeroed, or the write is ignored with SW_ERR. -/
def swGo (w : World) (p : Part) : Part :=
  let x := evrSw w p.evr
  let low : Nat := match w with | .normal => 0x400 | .secure => 0x800
  let high : Nat := match w with | .normal => 0x7FF | .secure => 0xFFF
  if x.number.toNat < low ∨ high < x.number.toNat ∨ 224 < x.plen.toNat then
    p.modEvr fun e => { e with swErr := true }
  else
    let sev : BitVec 2 := if w = .normal ∧ x.sev = 3 then 2 else x.sev
    (p.modEvr (setEvrSw w { x with pay := [] })).postRec
      { code := 0xE000#16 ||| x.number.setWidth 16, sev := sev, detail := x.detail, aux := x.aux
        payload := swPayload x x.plen.toNat }

/-- PERSIST_EN written (R609): setting it starts the scan; clearing it stops persistence after the page in progress. -/
def persistEnable (on : Bool) (p : Part) : Part :=
  if on then
    p.when (!p.evr.persistEn) (modEvr fun e => { e with persistEn := true, scanning := true })
  else
    p.modEvr fun e =>
      { e with persistEn := false, persistOn := false, scanning := false
               ring := e.ring.map fun x => { x with persisted := true } }

/-- The LOG scan ends (R609): writing resumes in the sector after the last valid one, and every record in the ring waits to
be copied. -/
def persistScanEnd (p : Part) : Part :=
  if !p.evr.scanning then p
  else
    let last := p.logLast
    let seq : Nat := match last with | some s => p.logSeq s | none => 0
    let sector : Nat := match last with | some s => (s + 1) % 4096 | none => 0
    (p.modEvr fun e =>
      { e with scanning := false, persistOn := true, sector := BitVec.ofNat 12 sector
               sectorSeq := BitVec.ofNat 64 (seq + 1), page := 0
               ring := e.ring.map fun x => { x with persisted := false } }).post
      0xE003#16 (BitVec.ofNat 32 seq) (if last.isSome then BitVec.ofNat 32 sector else 0)

/-- The sector after the one being written. Its SECTOR_SEQ advances where the header of the one left was programmed (R606). -/
def nextSector (e : Evr) (valid : Bool) : Evr :=
  { e with sector := e.sector + 1, sectorSeq := if valid then e.sectorSeq + 1 else e.sectorSeq, page := 0 }

/-- One closed page is programmed into LOG (R606, R607), opening its sector with an erase and a header when it is the
first; or the flash reports DEVICE and the sector is abandoned (R610). -/
def logPageProgram (device : Bool) (p : Part) : Part :=
  let e := p.evr
  let cap := if e.page = 0 then 192 else 256
  let (take, closed) := pageTake cap (e.ring.filter fun x => !x.persisted)
  if !(e.persistOn && closed) then p
  else if device then
    (p.modEvr fun e => { nextSector e (e.page != 0) with flashErr := true }).post 0xE002#16 (e.sector.setWidth 32) 3
  else
    let s := e.sector.toNat
    let base := logBase s
    let body := take.flatMap fun x => e.store.read ram x.off x.len
    let prev : List Byte :=
      match p.logLast with
      | some k => Standard.hash 3 (p.nvm.flash.read erased (logBase k) 4096)
      | none => []
    let erases : Nat := if p.logValid s then p.nvm.flash.num erased (base + 4) 4 + 1 else 1
    let flash : Mem :=
      if e.page = 0 then
        (p.nvm.flash.clear base 0x1000).write erased base (padTo 256 (logHeader erases e.sectorSeq.toNat prev ++ body))
      else p.nvm.flash.write erased (base + 256 * e.page) (padTo 256 body)
    (p.modNvm fun n => { n with flash := flash }).modEvr fun e =>
      let e1 : Evr :=
        { e with ring := e.ring.map fun x => if take.contains x then { x with persisted := true } else x }
      if e.page = 15 then nextSector e1 true else { e1 with page := e.page + 1 }

/-- The partial page is closed (R607): by FLUSH, or when its oldest record has waited FLUSH_MS. -/
def closePage (p : Part) : Part :=
  p.modEvr fun e =>
    let n := (e.ring.filter fun x => !x.persisted).length
    if n = 0 then e
    else { e with ring := e.ring.take (e.ring.length - 1) ++ (e.ring.drop (e.ring.length - 1)).map fun x =>
      { x with closes := true } }

/-- A read of EVR_RD_DATA: the store word at WORD, which advances (R613). -/
def rdData (p : Part) : Word × Part :=
  (BitVec.ofNat 32 (p.evr.store.num ram (4 * p.evr.rdWord.toNat) 4), p.modEvr fun e => { e with rdWord := e.rdWord + 1 })

/-- A word of the battery log; an empty slot reads as zero. -/
def blogRead (p : Part) (word : Nat) : Word :=
  match p.bat.blog.find? fun b => b.slot == word / 8 with
  | some b => BitVec.ofNat 32 (ofLe (((blogBytes b).drop (4 * (word % 8))).take 4))
  | none => 0

/-- A read of EVR_BLOG_DATA. -/
def blogData (p : Part) : Word × Part :=
  (p.blogRead p.evr.blogWord.toNat, p.modEvr fun e => { e with blogWord := e.blogWord + 1 })

/-- The check of R612 on a pending set. -/
def evrConsistent (c : EvrCfg) : Bool :=
  let info := (fld c.rate 0 8).toNat
  let notice := (fld c.rate 8 8).toNat
  let warn := (fld c.rate 16 8).toNat
  let valid := (List.range 16).filter fun k => bitAt (c.ovr.get 0 k) 31
  decide (1 ≤ info ∧ info ≤ notice ∧ notice ≤ warn) && fld c.cfg 0 8 != 0 && fld c.cfg 8 8 != 0
    && ((valid.map fun k => fld (c.ovr.get 0 k) 0 16).dedup.length == valid.length)

/-- EVR_COMMIT (R612, R640). The recorder stands between two records when the write arrives, so an accepted set takes
effect at once (R642). -/
def evrCommit (p : Part) : Part :=
  p.modEvr fun e =>
    let ok := evrConsistent e.st.stage
    { e with cfgMismatch := e.cfgMismatch || !ok, st := e.st.commit ok true }

end Part

/-! ### The meanings -/

/-- RECORD_POST (R593). -/
def execRecordPost (code : BitVec 16) (detail aux : Word) (payload : List Byte) (s : State) :
    Host.Outcome State Fault Refusal := onPart (Part.recordPost code detail aux payload) s

/-- RATE_WINDOW_END (R598). `sixty` says that the flood's 60 s limit fell, not the end of a window. -/
def execRateWindowEnd (code : BitVec 16) (sixty : Bool) (s : State) : Host.Outcome State Fault Refusal :=
  onPart (Part.rateWindowEnd code sixty) s

/-- EVR_FREEZE_SET (R600). -/
def execEvrFreezeSet (w : World) (s : State) : Host.Outcome State Fault Refusal := onPart (Part.freezeSet w) s

/-- EVR_FREEZE_CLEAR (R600). -/
def execEvrFreezeClear (w : World) (s : State) : Host.Outcome State Fault Refusal := onPart (Part.freezeClear w) s

/-- EVR_FREEZE_TIMEOUT (R600). -/
def execEvrFreezeTimeout (s : State) : Host.Outcome State Fault Refusal :=
  onPart (fun p => p.when p.evr.frozen Part.freezeEnd) s

/-- EVR_SW_GO (R603). -/
def execEvrSwGo (w : World) (s : State) : Host.Outcome State Fault Refusal := onPart (Part.swGo w) s

/-- PERSIST_ENABLE (R609). -/
def execPersistEnable (s : State) : Host.Outcome State Fault Refusal := onPart (Part.persistEnable true) s

/-- PERSIST_SCAN_END (R609). -/
def execPersistScanEnd (s : State) : Host.Outcome State Fault Refusal := onPart Part.persistScanEnd s

/-- LOG_PAGE_PROGRAM (R607, R610). `device` says that the flash reported an error. -/
def execLogPageProgram (device : Bool) (s : State) : Host.Outcome State Fault Refusal :=
  onPart (Part.logPageProgram device) s

/-- FLUSH_TIMEOUT (R607). -/
def execFlushTimeout (s : State) : Host.Outcome State Fault Refusal := onPart Part.closePage s

/-- EVR_FLUSH (R607). -/
def execEvrFlush (s : State) : Host.Outcome State Fault Refusal := onPart Part.closePage s

/-- EVR_RD_DATA_READ (R613). -/
def execEvrRdDataRead (s : State) : Host.Outcome State Fault Refusal := onPart (fun p => Part.answer p.rdData) s

/-- EVR_BLOG_DATA_READ (R613). -/
def execEvrBlogDataRead (s : State) : Host.Outcome State Fault Refusal := onPart (fun p => Part.answer p.blogData) s

/-- EVR_COMMIT (R612). -/
def execEvrCommit (s : State) : Host.Outcome State Fault Refusal := onPart Part.evrCommit s

end Sys2Proof.Machine
end

