-- ==== Sys2Proof/Machine/CsrWatch.lean ====
section
/-! DEFINITION. The registers of TMP, EVR, NVM and DBG as reads find them and writes change them (register tables of 14, 15, 17, 18
and 21). -/

namespace Sys2Proof.Machine
namespace Part

/-- Octets 4k to 4k + 3 of a string of `n` octets held as a number, its first octet most significant. -/
def octetWord {n : Nat} (v : BitVec n) (k : Nat) : Word := BitVec.ofNat 32 (ofLe (((beBytes (n / 8) v.toNat).drop (4 * k)).take 4))

/-! ### TMP (17) -/

/-- TMP_RANKk. -/
def rankWord (p : Part) (k : Nat) : Word :=
  (List.range 8).foldl (fun x j => if 8 * k + j < 19 then x ||| at' (p.rank (8 * k + j)) (4 * j) else x) 0

/-- The Suspend responses of the last second, 15 at most (R572). -/
def suspendCount (p : Part) : Nat := min 15 (p.tmp.suspends.filter fun x => decide ((p.now - x).toNat < 65536)).length

def tmpRead (o : Nat) (p : Part) : Word :=
  let t := p.tmp
  let b := p.bat
  if o = 0x0 then at' t.latched 0
  else if o = 0x4 then at' p.condWord 0
  else if within o 0x10 0x1C then p.rankWord ((o - 0x10) / 4)
  else if o = 0x20 then
    at' t.applied 0 ||| bit' t.throttled 3 ||| bit' (p.sys.porStart || b.batPor) 4 ||| BitVec.ofNat 32 (p.suspendCount * 256)
  else if o = 0x30 then at' t.light 0 ||| at' t.vgl 8 ||| at' t.crust.tempLow 16 ||| at' t.crust.tempHigh 24
  else if within o 0x40 0x50 then at' (t.temps.get 0 ((o - 0x40) / 4)) 0
  else if o = 0x60 ∨ o = 0x64 then wordOf t.meshFail ((o - 0x60) / 4)
  else if o = 0x70 then at' t.decisions 0 ||| at' t.lastR 16 ||| at' t.splits 24
  else if o = 0x78 then bit' b.causeMesh 0 ||| bit' b.causeTemp 1 ||| bit' b.causeVolt 2 ||| at' b.causeNet 8
  else if o = 0x80 then b.evidN
  else if within o 0x84 0xB4 then octetWord b.evidH ((o - 0x84) / 4)
  else 0

def tmpWrite (o : Nat) (v : Word) (p : Part) : Part :=
  if o = 0x0 then p.alarmClear (v.setWidth 19)
  else if o = 0x24 then p.when (bitAt v 0) throttleRelease
  else if o = 0x60 then p.modTmp fun t => { t with meshFail := t.meshFail &&& ~~~ (v.setWidth 64) }
  else if o = 0x64 then p.modTmp fun t => { t with meshFail := t.meshFail &&& ~~~ (v.setWidth 64 <<< 32) }
  else p

/-! ### EVR (18) -/

/-- The offset of the first record that `g` picks, or of the next write. -/
def ringAt (e : Evr) (g : RingEntry → Bool) : Nat := match e.ring.find? g with | some x => x.off | none => e.wp

/-- EVR_QUERY. -/
def queryWord (p : Part) : Word :=
  let c := p.evr.queryCode
  let sev := p.sevOf c
  at' c 0 ||| at' sev 16 ||| bit' (evExempt c) 18 ||| at' (BitVec.ofNat 8 (evLimit p.evr.st.eff c sev)) 20

/-- A register of a firmware set. -/
def swRead (x : EvrSw) (r : Nat) : Word :=
  if r = 0x0 then at' x.number 0 ||| at' x.sev 12 ||| at' x.plen 16
  else if r = 0x4 then x.detail
  else if r = 0x8 then x.aux
  else if within r 0x10 0xF0 then x.pay.get 0 ((r - 0x10) / 4)
  else 0

def evrRead (o : Nat) (p : Part) : Word :=
  let e := p.evr
  if o = 0x0 then
    bit' e.cfgMismatch 0 ||| bit' e.persistOn 1 ||| bit' p.fixedOnly 2 ||| bit' e.frozen 3 ||| bit' e.freezeWorld 4
      ||| bit' e.freezeBroken 5 ||| bit' e.scanning 6 ||| bit' e.storeLost 7 ||| bit' e.flashErr 8 ||| bit' e.blogOverrun 9
      ||| bit' e.swErr 10
  else if o = 0x10 then e.st.stage.cfg
  else if o = 0x14 then e.st.eff.cfg
  else if o = 0x18 then e.st.stage.rate
  else if o = 0x1C then e.st.eff.rate
  else if o = 0x20 then at' e.irqSev 0 ||| bit' e.pending 2
  else if within o 0x40 0x80 then e.st.stage.ovr.get 0 ((o - 0x40) / 4)
  else if o = 0x80 then BitVec.ofNat 32 e.wp
  else if o = 0x84 then BitVec.ofNat 32 (ringAt e fun _ => true)
  else if o = 0x88 then BitVec.ofNat 32 (ringAt e fun x => !x.persisted)
  else if o = 0x8C then BitVec.ofNat 32 e.critWp
  else if o = 0x90 then e.seq
  else if o = 0x94 then
    at' e.dropInfo 0 ||| at' e.dropNotice 8 ||| at' e.dropWarning 16 ||| at' e.lost 24 ||| at' e.untracked 28
  else if o = 0xA0 then BitVec.ofNat 32 (e.hold.length * 256) ||| at' e.holdDropped 16
  else if o = 0xB0 then p.queryWord
  else if within o 0x100 0x200 then swRead e.swN (o - 0x100)
  else if within o 0x200 0x300 then swRead e.swS (o - 0x200)
  else if o = 0x300 then bit' e.persistEn 0 ||| at' e.sector 4
  else if o = 0x308 then wordOf e.sectorSeq 0
  else if o = 0x30C then wordOf e.sectorSeq 1
  else if o = 0x400 then at' e.rdWord 2
  else if o = 0x408 then at' e.blogWord 2
  else 0

/-- A write into a firmware set (R603); the set at 0x100 is the normal world's, whoever writes it. -/
def swWrite (w : World) (r : Nat) (v : Word) (p : Part) : Part :=
  let set := fun (g : EvrSw → EvrSw) (p : Part) => p.modEvr fun e => setEvrSw w (g (evrSw w e)) e
  if r = 0x0 then
    (set (fun x => { x with number := fld v 0 12, sev := fld v 12 2, plen := fld v 16 8 }) p).when (bitAt v 31) (swGo w)
  else if r = 0x4 then set (fun x => { x with detail := v }) p
  else if r = 0x8 then set (fun x => { x with aux := v }) p
  else if within r 0x10 0xF0 then set (fun x => { x with pay := x.pay.set 0 ((r - 0x10) / 4) v }) p
  else p

/-- EVR_FREEZE: where one write carries SET and CLEAR, their order is free. -/
def freezeWrite (w : World) (v : Word) (p : Part) : Part :=
  if bitAt v 0 && bitAt v 1 then
    let (k, p) := p.draw
    if bitAt (Config.freeWord k) 0 then (p.freezeSet w).freezeClear w else (p.freezeClear w).freezeSet w
  else (p.when (bitAt v 0) (freezeSet w)).when (bitAt v 1) (freezeClear w)

def evrWrite (w : World) (o : Nat) (v : Word) (p : Part) : Part :=
  if o = 0x0 then
    p.modEvr fun e =>
      { e with cfgMismatch := keep e.cfgMismatch v 0, freezeBroken := keep e.freezeBroken v 5, storeLost := keep e.storeLost v 7
               flashErr := keep e.flashErr v 8, blogOverrun := keep e.blogOverrun v 9, swErr := keep e.swErr v 10 }
  else if o = 0x4 then p.when (bitAt v 0) evrCommit
  else if o = 0x10 then p.modEvr fun e => { e with st := { e.st with stage := { e.st.stage with cfg := v &&& 0xFFFF#32 } } }
  else if o = 0x18 then p.modEvr fun e => { e with st := { e.st with stage := { e.st.stage with rate := v &&& 0xFFFFFF#32 } } }
  else if o = 0x20 then p.modEvr fun e => { e with irqSev := fld v 0 2, pending := keep e.pending v 2 }
  else if within o 0x40 0x80 then
    p.modEvr fun e =>
      { e with st := { e.st with stage := { e.st.stage with ovr := e.st.stage.ovr.set 0 ((o - 0x40) / 4) (v &&& 0x80FFFFFF#32) } } }
  else if o = 0xA0 then p.freezeWrite w v
  else if o = 0xB0 then p.modEvr fun e => { e with queryCode := fld v 0 16 }
  else if within o 0x100 0x200 then p.swWrite .normal (o - 0x100) v
  else if within o 0x200 0x300 then p.swWrite .secure (o - 0x200) v
  else if o = 0x300 then (p.persistEnable (bitAt v 0)).when (bitAt v 1) closePage
  else if o = 0x400 then p.modEvr fun e => { e with rdWord := fld v 2 20 }
  else if o = 0x408 then p.modEvr fun e => { e with blogWord := fld v 2 11 }
  else p

/-! ### NVM (14, 15) -/

/-- The command set at an offset: the world and the register in the set. -/
def nvmSlotOf (o : Nat) : Option (World × Nat) :=
  if within o 0x100 0x300 then some (.normal, o - 0x100) else if within o 0x300 0x500 then some (.secure, o - 0x300) else none

def nvmSetRead (s : NvmSet) (r : Nat) : Word :=
  if r = 0x4 then at' s.addr 0
  else if r = 0x8 then at' s.len 0
  else if r = 0xC then bit' s.busy 0 ||| bit' s.done 1 ||| at' s.result 2
  else if within r 0x100 0x200 then s.buf.get 0 ((r - 0x100) / 4)
  else 0

def nvmRead (o : Nat) (p : Part) : Word :=
  let n := p.nvm
  match nvmSlotOf o with
  | some (w, r) => nvmSetRead (p.nvmSet w) r
  | none =>
    if o = 0x0 then
      bit' n.charter.slotB 0 ||| bit' p.aon.failedA 1 ||| bit' p.aon.failedB 2 ||| bit' n.wardenB 3 ||| bit' n.worksB 4
    else if o = 0x8 then wordOf n.charter.sequence 0
    else if o = 0xC then wordOf n.charter.sequence 1
    else if o = 0x10 then
      at' (BitVec.ofNat 8 (fusedVersion p.sys.fuses.arb)) 0 ||| at' n.charter.sv 8 ||| bit' n.charter.svCommit 16
    else if o = 0x18 then unitBits 4 fun k => (p.sys.fuses.owner.getD k 0) != 0
    else if o = 0x80 then at' n.blSrc 0
    else if o = 0x84 then at' n.blLen 0
    else if o = 0x88 then at' n.blDst 0
    else if o = 0x8C then at' n.blTarget 0
    else if o = 0x90 then bit' n.blBusy 0 ||| bit' n.blDone 1 ||| at' n.blResult 2 ||| bit' n.blClosed 4
    else if within o 0xA0 0xD0 then octetWord n.blHash ((o - 0xA0) / 4)
    else 0

/-- NVM_CMD with GO (R497). -/
def nvmCommand (w : World) (v : Word) (p : Part) : Part :=
  if !bitAt v 31 then p
  else
    match (fld v 0 3).toNat with
    | 1 => p.nvmGo w .read
    | 2 => p.nvmGo w .program
    | 3 => p.nvmGo w .erase4k
    | 4 => p.nvmGo w .erase64k
    | _ => p

def nvmSetWrite (w : World) (r : Nat) (v : Word) (p : Part) : Part :=
  if r = 0x0 then p.nvmCommand w v
  else if r = 0x4 then p.modNvmSet w fun s => { s with addr := fld v 0 29 }
  else if r = 0x8 then p.modNvmSet w fun s => { s with len := fld v 0 9 }
  else if r = 0xC then p.modNvmSet w fun s => { s with done := keep s.done v 1 }
  else if within r 0x100 0x200 then p.modNvmSet w fun s => { s with buf := s.buf.set 0 ((r - 0x100) / 4) v }
  else p

/-- The NVM registers whose writes blow no fuse. -/
def nvmPlain (o : Nat) (v : Word) (p : Part) : Part :=
  match nvmSlotOf o with
  | some (w, r) => p.nvmSetWrite w r v
  | none =>
    if o = 0x0 then p.modAon fun a => { a with failedA := a.failedA || bitAt v 1, failedB := a.failedB || bitAt v 2 }
    else if within o 0x40 0x70 then p.modNvm fun n => { n with ownerProg := n.ownerProg.set 0 ((o - 0x40) / 4) v }
    else if o = 0x80 then p.modNvm fun n => { n with blSrc := fld v 0 29 }
    else if o = 0x84 then p.modNvm fun n => { n with blLen := fld v 0 23 }
    else if o = 0x88 then p.modNvm fun n => { n with blDst := fld v 0 21 }
    else if o = 0x8C then (p.modNvm fun n => { n with blTarget := fld v 0 2 }).when (bitAt v 31) blGo
    else if o = 0x90 then p.modNvm fun n => { n with blDone := keep n.blDone v 1 }
    else p

/-- A write of an NVM register: two of them blow fuses. -/
def nvmWrite (o : Nat) (v : Word) (x : Fuses × Part) : Fuses × Part :=
  if o = 0x14 then arbAdvance (fld v 0 8) x
  else if o = 0x70 then (if bitAt v 0 then ownerBurn x else x)
  else (x.1, x.2.nvmPlain o v)

/-! ### DBG (21) -/

/-- IDCODE (R660). -/
def idcode : Word := 0xB6400001#32 ||| at' Config.jedecId 1

/-- DBG_STATUS. -/
def dbgStatus (p : Part) : Word :=
  let d := p.dbg
  bit' d.cfgMismatch 0 ||| bit' d.attached 1 ||| bit' d.scanActive 2 ||| bit' p.bat.scrapDue 3 ||| at' p.reach 16

def dbgRead (o : Nat) (p : Part) : Word :=
  let d := p.dbg
  let f := p.sys.fuses
  if o = 0x0 then p.dbgStatus
  else if o = 0x10 then at' d.maskStage 0
  else if o = 0x14 then at' d.durStage 0
  else if o = 0x18 then at' d.remain 0
  else if within o 0x20 0x40 then d.challenge.get 0 ((o - 0x20) / 4)
  else if o = 0x40 then bit' d.tokenReady 0 ||| at' d.tokenWords 1
  else if o = 0x80 then at' f.lot 0 ||| at' f.wafer 24
  else if o = 0x84 then at' f.dieX 0 ||| at' f.dieY 8 ||| at' f.testSite 16
  else if o = 0x88 then idcode
  else if o = 0x90 then bit' p.slc.ladleRun 0 ||| bit' p.slc.ladleDone 1 ||| bit' p.slc.ladleFail 2
  else if within o 0x2000 0x3FFC then d.tokenData.get 0 ((o - 0x2000) / 4)
  else 0

/-- READY of DBG_TOKEN_CTRL cleared: every word is zeroed (R665). -/
def tokenClear (p : Part) : Part := p.modDbg fun d => { d with tokenReady := false, tokenWords := 0, tokenData := [] }

def dbgWrite (o : Nat) (v : Word) (p : Part) : Part :=
  if o = 0x0 then p.modDbg fun d => { d with cfgMismatch := keep d.cfgMismatch v 0 }
  else if o = 0x4 then (p.when (bitAt v 0) grantCommit).when (bitAt v 1) (endGrant 1)
  else if o = 0x10 then p.modDbg fun d => { d with maskStage := fld v 0 10 }
  else if o = 0x14 then p.modDbg fun d => { d with durStage := fld v 0 17 }
  else if within o 0x20 0x40 then p.modDbg fun d => { d with challenge := d.challenge.set 0 ((o - 0x20) / 4) v }
  else if o = 0x40 then p.when (bitAt v 0) tokenClear
  else if o = 0x90 then
    (p.modSlc fun c => { c with ladleDone := keep c.ladleDone v 1 }).when (bitAt v 0) (modSlc fun c => { c with ladleRun := true })
  else p

end Part
end Sys2Proof.Machine
end

