-- ==== Sys2Proof/Machine/Dma.lean ====
section
/-! DEFINITION. How a DMA transfer starts or is refused (12_worlds_and_checkpoints.md, R417, R418, R710). -/

namespace Sys2Proof.Machine
namespace Part

/-- The colour and the security of a channel's accesses (R415, R416). -/
def dmaColour (p : Part) (c : Nat) : BitVec 12 := if p.dmaSecure c then p.acu.dmaColour.get 0xFFF c else 0xFFE

/-- A transfer that has ended, whole or refused, with its CAUSE and COUNT (R418, R419). -/
def dmaDone (c : Nat) (cause : BitVec 4) (count : Nat) (p : Part) : Part :=
  (p.modDma c fun d =>
    { d with busy := false, done := true, err := d.err || cause != 0, cause := cause, count := BitVec.ofNat 25 count
             run := none }).acuSettle

/-- The regions that R417 allows an internal end. -/
def dmaSpace (dst : Bool) (s : Space) : Bool := s == .ob || s == .csr || (s == .es && !dst)

/-- Where an internal end of `n` octets lies. -/
def dmaPlace (p : Part) (a : BitVec 64) (n : Nat) : Space × Nat := spaceOf p.sys.handed false a.toNat n

/-- An internal end lies in an allowed region, and a host end does not wrap. -/
def dmaEndOk (p : Part) (host dst : Bool) (a : BitVec 64) (n : Nat) : Bool :=
  if host then decide (a.toNat + n ≤ 2 ^ 64) else dmaSpace dst (p.dmaPlace a n).1

/-- The checkpoint of an internal end: its refusal as a fault record. -/
def dmaEndCheck (p : Part) (c : Nat) (host dst : Bool) (a : BitVec 64) (n : Nat) : Option FaultRec :=
  if host then none
  else
    let (s, o) := p.dmaPlace a n
    (p.colourCheck s o n (p.dmaColour c) (p.dmaSecure c)).map fun d =>
      denialRec d a.toNat n (BitVec.ofNat 8 (0x80 + c)) (if dst then kMoveWrite else kMoveRead) false (p.dmaSecure c)
        (p.dmaColour c)

/-- The first failing check of R418 but for the checkpoints. -/
def dmaFault (p : Part) (d : Dma) : Option (BitVec 4) :=
  let n := d.len.toNat
  if n = 0 ∨ 0x1000000 < n then some 1
  else if d.srcHost && d.dstHost then some 2
  else if !p.dmaEndOk d.srcHost false d.src n || !p.dmaEndOk d.dstHost true d.dst n then some 3
  else if (d.srcHost || d.dstHost) && !(p.fn 0).bme then some 6
  else none

/-- GO: ignored while BUSY; the transfer checked whole, then refused whole or begun. -/
def dmaGo (c : Nat) (p : Part) : Part :=
  let d := p.dma c
  let n := d.len.toNat
  if d.busy then p
  else
    match p.dmaFault d with
    | some cause => p.dmaDone c cause 0
    | none =>
      match (p.dmaEndCheck c d.srcHost false d.src n).orElse fun _ => p.dmaEndCheck c d.dstHost true d.dst n with
      | some r => (p.refuse r (!p.dmaSecure c)).dmaDone c 4 0
      | none =>
        let t : Transfer := { src := d.src, dst := d.dst, len := n, srcHost := d.srcHost, dstHost := d.dstHost }
        (p.modDma c fun d => { d with busy := true, gen := p.acu.gen, run := some t }).when d.srcHost (issueRead 0 d.src n)

end Part

/-- DMA_GO (R418, R419). -/
def execDmaGo (c : Fin 64) (s : State) : Host.Outcome State Fault Refusal := onPart (Part.dmaGo c.val) s

end Sys2Proof.Machine
end

