-- ==== Sys2Proof/Machine/Csr.lean ====
section
/-! DEFINITION. CSR space as one (R23, R25): a register read or written by the access of a world; octets of the physical map moved
by a master whose checkpoint has admitted it; the function pages and MSI-X tables of the host (R50 to R56); and the ends of DMA
transfers (R418, R419). -/

namespace Sys2Proof.Machine
namespace Part

/-! ### One register -/

/-- A read of the register at offset `o` of block `b`, with the side effect of the few that have one (R49). -/
def csrRead (w : World) (b o : Nat) (p : Part) : Word × Part :=
  match b with
  | 0x0 => (p.sysRead w o, p)
  | 0x1 => if o = 0x40 then p.rtcFrac else (p.wpuRead o, p)
  | 0x2 => (p.hifRead o, p)
  | 0x3 => p.dspRead o
  | 0x4 => (p.seqRead o, p)
  | 0x5 => (p.panRead o, p)
  | 0x6 => (p.engRead false o, p)
  | 0x7 => (p.engRead true o, p)
  | 0x8 => if o = 0x204 then p.vaultAccess none else (p.slcRead o, p)
  | 0x9 =>
    if within o 0x140 0x180 then p.swData 0 ((o - 0x140) / 4)
    else if within o 0x1C0 0x200 then p.swData 1 ((o - 0x1C0) / 4)
    else (p.entRead o, p)
  | 0xA => (p.acuRead o, p)
  | 0xB => (p.mboxRead (o / 0x400 + 1) (o % 0x400), p)
  | 0xC => (p.tntRead o, p)
  | 0xD => (p.mirRead o, p)
  | 0xE => (p.tmpRead o, p)
  | 0xF => if o = 0x404 then p.rdData else if o = 0x40C then p.blogData else (p.evrRead o, p)
  | 0x10 => (p.nvmRead o, p)
  | 0x11 => (p.dbgRead o, p)
  | _ => (0, p)

/-- A write of a register of every block but NVM, whose writes may blow fuses; `f` is the fuse banks as they stand. -/
def csrPlain (w : World) (f : Fuses) (b o : Nat) (v : Word) (p : Part) : Part :=
  match b with
  | 0x0 =>
    (p.sysWrite w f o v).when (within o 0x4000 0x5000 && o % 0x40 == 0x14 && bitAt v 31) (dmaGo ((o - 0x4000) / 0x40))
  | 0x1 => p.wpuWrite w o v
  | 0x2 => p.hifWrite o v
  | 0x3 => p.dspWrite o v
  | 0x4 => p.seqWrite o v
  | 0x5 => p.panWrite o v
  | 0x6 => p.engWrite false o v
  | 0x7 => p.engWrite true o v
  | 0x8 => p.slcWrite o v
  | 0x9 => p.entWrite o v
  | 0xA => p.acuWrite o v
  | 0xB => p.mboxWrite false (o / 0x400 + 1) (o % 0x400) v
  | 0xC => p.tntWrite o v
  | 0xD => p.mirWrite o v
  | 0xE => p.tmpWrite o v
  | 0xF => p.evrWrite w o v
  | 0x11 => p.dbgWrite o v
  | _ => p

/-- A write of the register at offset `o` of block `b`. -/
def csrWrite (w : World) (b o : Nat) (v : Word) (x : Fuses × Part) : Fuses × Part :=
  if b = 0x10 then nvmWrite o v x else (x.1, x.2.csrPlain w x.1 b o v)

/-! ### Octets of the physical map (R23) -/

/-- The registers that octets `o` to `o + n − 1` of CSR space touch, as word offsets. -/
def csrSpan (o n : Nat) : List Nat := if n = 0 then [] else (List.range ((o + n + 3) / 4 - o / 4)).map (o / 4 + ·)

/-- Octets read from CSR space: each register read once, in rising order. -/
def csrLoad (w : World) (o n : Nat) (p : Part) : List Byte × Part :=
  let (bs, p) := (csrSpan o n).foldl
    (fun (x : List Byte × Part) k =>
      let (v, p) := x.2.csrRead w (4 * k / 0x100000) (4 * k % 0x100000)
      (x.1 ++ leBytes 4 v.toNat, p))
    (([] : List Byte), p)
  ((bs.drop (o % 4)).take n, p)

/-- Octets written to a space of registers: each register written once by `put`, in rising order. The octets of a register that
the access does not carry are free: the spec gives no write narrower than a register. -/
def storeWords (put : Nat → Word → Fuses × Part → Fuses × Part) (o : Nat) (bs : List Byte) (x : Fuses × Part) : Fuses × Part :=
  (csrSpan o bs.length).foldl
    (fun x k =>
      let (d, p) := x.2.draw
      let b := fun (j : Nat) =>
        if o ≤ 4 * k + j ∧ 4 * k + j < o + bs.length then bs.getD (4 * k + j - o) 0 else Config.freeByte d j
      put (4 * k) (BitVec.ofNat 32 (ofLe [b 0, b 1, b 2, b 3])) (x.1, p))
    x

/-- Octets written to CSR space. -/
def csrStore (w : World) (o : Nat) (bs : List Byte) (x : Fuses × Part) : Fuses × Part :=
  storeWords (fun a => csrWrite w (a / 0x100000) (a % 0x100000)) o bs x

/-- Octets read from a region. The boot ROM's octets are not in the spec. -/
def load (w : World) (s : Space) (o n : Nat) (p : Part) : List Byte × Part :=
  match s with
  | .boot => ((List.range n).map fun i => Config.bootOctet (o + i), p)
  | .cc => (p.ccMem.read ram o n, p)
  | .ob => (p.opBuf.read ram o n, p)
  | .es => (p.evr.store.read ram o n, p)
  | .priv => (p.priv.read ram o n, p)
  | .csr => p.csrLoad w o n
  | .none => (List.replicate n 0, p)

/-- Octets written to a region; the boot ROM keeps what it holds. -/
def store (w : World) (s : Space) (o : Nat) (bs : List Byte) (x : Fuses × Part) : Fuses × Part :=
  match s with
  | .cc => (x.1, x.2.writeCc o bs)
  | .ob => (x.1, x.2.writeOb o bs)
  | .es => (x.1, x.2.modEvr fun e => { e with store := e.store.write ram o bs })
  | .priv => (x.1, x.2.writePriv o bs)
  | .csr => csrStore w o bs x
  | .boot | .none => x

/-! ### Function pages (R51, R52, R57, R80 to R88, R386) -/

/-- QP_CFG and QP_IRQ as staged. -/
def qpCfgWord (c : QpCfg) : Word := at' c.sqLog 0 ||| at' c.cqLog 5 ||| at' c.qclass 10
def qpIrqWord (c : QpCfg) : Word :=
  at' c.vector 0 ||| at' c.coalCnt 11 ||| at' c.coalTime 19 ||| bit' c.authImm 27

/-- A queue pair has completions waiting in contexts because its ring is full (CQ_HOLD, R89). -/
def cqHold (p : Part) (g : Nat) : Bool :=
  cqFull (p.qp g) && p.dsp.ctxs.any fun c => c.2.qp == g && c.2.state == .finished

/-- A register of queue pair `g` in the function control page. -/
def qpRead (g r : Nat) (p : Part) : Word :=
  let q := p.qp g
  let c := q.st.stage
  match r with
  | 0x00 => wordOf c.sqBase 0
  | 0x04 => wordOf c.sqBase 1
  | 0x08 => wordOf c.cqBase 0
  | 0x0C => wordOf c.cqBase 1
  | 0x10 => qpCfgWord c
  | 0x14 => qpIrqWord c
  | 0x18 => bit' q.enable 0
  | 0x1C => bit' (p.qpIdle g) 0 ||| bit' q.cfgMismatch 1 ||| bit' q.dbError 2 ||| bit' (p.cqHold g) 3 ||| at' q.sqHead 16
  | _ => 0

def qpStage (r : Nat) (v : Word) (c : QpCfg) : QpCfg :=
  match r with
  | 0x00 => { c with sqBase := setWord c.sqBase 0 (v &&& 0xFFFFF000#32) }
  | 0x04 => { c with sqBase := setWord c.sqBase 1 v }
  | 0x08 => { c with cqBase := setWord c.cqBase 0 (v &&& 0xFFFFF000#32) }
  | 0x0C => { c with cqBase := setWord c.cqBase 1 v }
  | 0x10 => { c with sqLog := fld v 0 5, cqLog := fld v 5 5, qclass := fld v 10 2 }
  | 0x14 => { c with vector := fld v 0 11, coalCnt := fld v 11 8, coalTime := fld v 19 8, authImm := bitAt v 27 }
  | _ => c

/-- QP_CTRL: ENABLE and COMMIT. Where one write changes both, their order is free. -/
def qpCtrl (n g : Nat) (v : Word) (p : Part) : Part :=
  let enab : Part → Part := if bitAt v 0 then qpEnable g else qpDisable g
  if !bitAt v 1 then enab p
  else
    let (k, p) := p.draw
    if bitAt (Config.freeWord k) 0 then (enab p).qpCommit n g else enab (p.qpCommit n g)

def qpWrite (n r : Nat) (v : Word) (g : Nat) (p : Part) : Part :=
  if r = 0x18 then p.qpCtrl n g v
  else if r = 0x1C then p.modQp g fun q => { q with cfgMismatch := keep q.cfgMismatch v 1, dbError := keep q.dbError v 2 }
  else p.modQp g fun q => { q with st := { q.st with stage := qpStage r v q.st.stage } }

/-- The opcodes of R389. -/
def admOpcodes : List Nat :=
  [0x0001, 0x0010, 0x0011, 0x0012, 0x0013, 0x0014, 0x0015, 0x0016, 0x0020, 0x0021, 0x0030, 0x0040, 0x0100, 0x0101, 0x0102, 0x0110,
   0x0111, 0x0120, 0x0121, 0x0122, 0x0123, 0x0124, 0x0125, 0x0126, 0x0127]

/-- GO: the channel is busy with the block it holds, with a context of its function (R391), until its command's row runs; an unknown
opcode ends it (R388, R390). -/
def admGo (n : Nat) (p : Part) : Part :=
  if (p.adm n).busy then p.modAdm n fun a => { a with err := true }
  else
    (p.modAdm n fun a =>
      { a with
        busy := true, started := false, out := [], tag := BitVec.ofNat 32 (a.cmd.num ram 4 4)
        ended := if admOpcodes.contains (a.cmd.num ram 0 2) then none else some { status := 0x10, detail := 0x0A } }).admTake n

/-- A word of the administrative channel. -/
def admRead (n r : Nat) (p : Part) : Word :=
  let a := p.adm n
  if r < 0x80 then BitVec.ofNat 32 (a.cmd.num ram r 4)
  else if r = 0x84 then bit' a.busy 0 ||| bit' a.done 1 ||| bit' a.err 2
  else if within r 0xA0 0xC0 then BitVec.ofNat 32 (ofLe ((a.result.drop (r - 0xA0)).take 4))
  else 0

def admWrite (n r : Nat) (v : Word) (p : Part) : Part :=
  if r < 0x80 then
    p.modAdm n fun a => if a.busy then { a with err := true } else { a with cmd := a.cmd.write ram r (leBytes 4 v.toNat) }
  else if r = 0x80 then p.when (bitAt v 0 && !(p.fn n).wedged && !(p.fn n).draining) (admGo n)
  else if r = 0x84 then p.modAdm n fun a => { a with done := keep a.done v 1, err := keep a.err v 2 }
  else p

/-- A word of the function page of function `n` at offset `o` (R51). No read of it has a side effect (R49). -/
def pageRead (n o : Nat) (p : Part) : Word :=
  let slot := fun (q : Nat) (g : Nat → Word) => match p.qpGlobal n q with | some i => g i | none => 0
  if o = 0 then p.funcStatus n
  else if within o 0x800 0x1000 then slot ((o - 0x800) / 0x20) fun g => p.qpRead g (o % 0x20)
  else if within o 0x1000 0x2000 then if n = 0 then 0 else p.mboxRead n (o - 0x1000)
  else if within o 0x2000 0x3000 then p.admRead n (o - 0x2000)
  else if within o 0x8000 0x10000 then
    slot ((o - 0x8000) / 0x200) fun g =>
      if o % 0x200 = 0 then at' (p.qp g).sqTail 0 else if o % 0x200 = 4 then at' (p.qp g).cqHead 0 else 0
  else 0

def pageWrite (n o : Nat) (v : Word) (p : Part) : Part :=
  if within o 0x800 0x1000 then p.onQp n ((o - 0x800) / 0x20) (qpWrite n (o % 0x20) v)
  else if within o 0x1000 0x2000 then p.when (n != 0) (mboxWrite true n (o - 0x1000) v)
  else if within o 0x2000 0x3000 then p.admWrite n (o - 0x2000) v
  else if within o 0x8000 0x10000 then
    let q := (o - 0x8000) / 0x200
    if o % 0x200 = 0 then p.onQp n q (sqTailWrite n (fld v 0 16))
    else if o % 0x200 = 4 then p.onQp n q (cqHeadWrite n (fld v 0 16))
    else p
  else p

/-! ### MSI-X tables (R56, R58) -/

/-- A word of BAR2 of function `n`: its table, then its PBA. -/
def tableRead (n o : Nat) (p : Part) : Word :=
  let f := p.fn n
  let pba := if n = 0 then 0x8000 else 0x800
  if o < 16 * vectorCount n then
    let x := f.vectors.get {} (o / 16)
    match o % 16 with
    | 0 => wordOf x.addr 0
    | 4 => wordOf x.addr 1
    | 8 => x.data
    | _ => bit' x.masked 0
  else if within o pba (pba + (vectorCount n + 7) / 8) then
    unitBits 32 fun j => decide (8 * (o - pba) + j < vectorCount n) && (f.vectors.get {} (8 * (o - pba) + j)).pending
  else 0

/-- A word written to the table; unmasking releases the vector. The PBA is read-only. -/
def tableWrite (n o : Nat) (v : Word) (p : Part) : Part :=
  if 16 * vectorCount n ≤ o then p
  else
    let i := o / 16
    let put := fun (g : Vector → Vector) => p.modFn n fun f => { f with vectors := f.vectors.upd {} i g }
    match o % 16 with
    | 0 => put fun x => { x with addr := setWord x.addr 0 (v &&& 0xFFFFFFFC#32) }
    | 4 => put fun x => { x with addr := setWord x.addr 1 v }
    | 8 => put fun x => { x with data := v }
    | _ => if bitAt v 0 then put fun x => { x with masked := true } else p.msixUnmask n i

/-! ### A register written (row REGISTER_WRITE) -/

/-- A host write reaches a BAR of a function: the link is up, the function exists and Memory Space Enable is set. -/
def barOpen (p : Part) (n : Nat) : Bool :=
  p.hif.linkUp && p.fnExists n && (if n = 0 then (p.fn 0).mse else p.hif.vfMse)

/-- A write through a core's port, admitted or refused by its checkpoint (R420, R438). -/
def coreRegWrite (c b o : Nat) (v : Word) (x : Fuses × Part) : Fuses × Part :=
  if (x.2.core c).run ≠ .running then x
  else
    match x.2.coreCheck c kWrite (0x100000000 + b * 0x100000 + o) 4 with
    | (none, p) => csrWrite (if c = 4 then .secure else .normal) b o v (x.1, p)
    | (some _, p) => (x.1, p)

/-- A write through the host's CSR aperture: one that its checkpoint refuses is discarded (R53, R439). -/
def apertureWrite (b o : Nat) (v : Word) (x : Fuses × Part) : Fuses × Part :=
  let off := b * 0x100000 + o
  if !x.2.barOpen 0 then x
  else
    match x.2.colourCheck .csr off 4 0xFFE false with
    | none => csrWrite .normal b o v x
    | some d => (x.1, x.2.refuse (denialRec d (0x100000000 + off) 4 0x28 kWrite false false 0xFFE) true)

/-- Octets of a BAR: BAR0 and BAR2 of the physical function, of a virtual function (R48). -/
def barSize (n : Nat) (two : Bool) : Nat :=
  if n = 0 then (if two then 0x10000 else 0x10000000) else (if two then 0x1000 else 0x10000)

/-- What lies at an offset of physical-function BAR0 (R50). -/
inductive BarPlace where
  | page (o : Nat)
  | mailbox (t o : Nat)
  | aperture (o : Nat)
  | reserved
  deriving DecidableEq, Repr

def bar0Place (o : Nat) : BarPlace :=
  if o < 0x10000 then .page o
  else if within o 0x100000 0x200000 then .mailbox ((o - 0x100000) / 0x400) ((o - 0x100000) % 0x400)
  else if within o 0x4000000 0x5200000 then .aperture (o - 0x4000000)
  else .reserved

/-- A word read at an offset of a BAR; a reserved range reads as zero (R50, R51, R54, R56). -/
def barRead (n : Nat) (two : Bool) (o : Nat) (p : Part) : Word × Part :=
  if two then (p.tableRead n o, p)
  else if n ≠ 0 then (p.pageRead n o, p)
  else
    match bar0Place o with
    | .page o => (p.pageRead 0 o, p)
    | .mailbox t o => (p.mboxRead (t + 1) o, p)
    | .aperture o => p.csrRead .normal (o / 0x100000) (o % 0x100000)
    | .reserved => (0, p)

/-- A word written at an offset of a BAR; a reserved range ignores it. -/
def barWrite (n : Nat) (two : Bool) (o : Nat) (v : Word) (x : Fuses × Part) : Fuses × Part :=
  if two then (x.1, x.2.tableWrite n o v)
  else if n ≠ 0 then (x.1, x.2.pageWrite n o v)
  else
    match bar0Place o with
    | .page o => (x.1, x.2.pageWrite 0 o v)
    | .mailbox t o => (x.1, x.2.mboxWrite false (t + 1) o v)
    | .aperture o => csrWrite .normal (o / 0x100000) (o % 0x100000) v x
    | .reserved => x

/-- A request that reaches the CSR aperture passes its checkpoint as one access (R53): the refusal and the part after it. -/
def barDenied (n : Nat) (two : Bool) (o len : Nat) (kind : BitVec 3) (p : Part) : Bool × Part :=
  match n == 0 && !two && len != 0, bar0Place o with
  | true, .aperture a =>
    match p.colourCheck .csr a len 0xFFE false with
    | none => (false, p)
    | some d => (true, p.refuse (denialRec d (0x100000000 + a) len 0x28 kind false false 0xFFE) true)
  | _, _ => (false, p)

/-- A memory request of the host at an offset of a BAR. A request that crosses a 4 KiB boundary, and an AtomicOp, is completed as
Unsupported Request and has no effect (R37, R55). An access that the aperture's checkpoint refuses reads zeros or is
discarded, and completes successfully (R439). One that no open BAR claims reaches nothing of the part. -/
def barAccess (n : Nat) (two : Bool) (o : Nat) (acc : BarAccess) (x : Fuses × Part) : Fuses × Part :=
  let len := match acc with | .read k => k.val | .write bs => bs.length | .atomic bs => bs.length
  if !x.2.barOpen n ∨ barSize n two < o + len then x
  else if 4096 < o % 4096 + len then (x.1, x.2.unsupported)
  else
    match acc with
    | .atomic _ => (x.1, x.2.unsupported)
    | .read _ =>
      match barDenied n two o len kRead x.2 with
      | (true, p) => (x.1, p.issue (.completion true (List.replicate len 0)))
      | (false, p) =>
        let (bs, p) := (csrSpan o len).foldl
          (fun (y : List Byte × Part) k => let (v, p) := y.2.barRead n two (4 * k); (y.1 ++ leBytes 4 v.toNat, p))
          (([] : List Byte), p)
        (x.1, p.issue (.completion true ((bs.drop (o % 4)).take len)))
    | .write bs =>
      match barDenied n two o len kWrite x.2 with
      | (true, p) => (x.1, p)
      | (false, p) => storeWords (barWrite n two) o bs (x.1, p)

/-- A word written to a register, from where the target says. -/
def regWrite (t : RegTarget) (v : Word) (x : Fuses × Part) : Fuses × Part :=
  match t with
  | .bar n two o acc => barAccess n.val two o.toNat acc x
  | .core c b w => coreRegWrite c.val b.val (4 * w.val) v x
  | .aperture b w => apertureWrite b.val (4 * w.val) v x
  | .page n w => (x.1, x.2.when (x.2.barOpen n.val) (pageWrite n.val (4 * w.val) v))
  | .mailbox t w => (x.1, x.2.when (x.2.barOpen 0) (mboxWrite false (t.val + 1) (4 * w.val) v))
  | .table n w => (x.1, x.2.when (x.2.barOpen n.val) (tableWrite n.val (4 * w.val) v))

/-- The accepted pending set of a block takes effect at its operation boundary (R640). -/
def stagedApply (b : StagedBlock) (p : Part) : Part :=
  match b with
  | .dsp => p.dspApply
  | .seq => p.seqApply
  | .pan => p.panApply
  | .rke => p.modRke fun r => { r with rke := { r.rke with st := r.rke.st.apply } }
  | .grn => p.modRke fun r => { r with grn := { r.grn with st := r.grn.st.apply } }
  | .slc => p.modSlc fun c => { c with st := c.st.apply }
  | .ent => p.modEnt fun e => { e with st := e.st.apply }
  | .wpu => p.modWpu fun w => { w with st := w.st.apply }
  | .evr => p.modEvr fun e => { e with st := e.st.apply }
  | .mir => p.modMir fun m => { m with share := m.share.apply }
  | .tenant n => p.tntApply n.val
  | .qp g => p.modQp g.toNat fun q => { q with st := q.st.apply }

/-! ### The end of a DMA transfer (R418, R419) -/

/-- `n` octets of a running transfer moved: from the host the octets that arrived; into a destination that overlaps its source, free
octets, since the spec gives no order of reads and writes. -/
def dmaMove (c : Nat) (t : Transfer) (n : Nat) (data : List Byte) (x : Fuses × Part) : Fuses × Part :=
  let w : World := if x.2.dmaSecure c then .secure else .normal
  let (ss, so) := x.2.dmaPlace t.src n
  let (ds, d) := x.2.dmaPlace t.dst n
  let (bs, p) := if t.srcHost then (data, x.2) else x.2.load w ss so n
  if t.dstHost then (x.1, p.issueWrite 0 t.dst bs)
  else if !t.srcHost && t.src.toNat < t.dst.toNat + n && t.dst.toNat < t.src.toNat + n && t.src != t.dst then
    let (k, p) := p.draw
    store w ds d (drawBytes k n) (x.1, p)
  else store w ds d bs (x.1, p)

/-- The whole transfer has moved. `data` is what the host's reads returned. -/
def dmaEnd (c : Nat) (data : List Byte) (x : Fuses × Part) : Fuses × Part :=
  match (x.2.dma c).run with
  | none => x
  | some t =>
    if (t.srcHost && data.length != t.len) || ((t.srcHost || t.dstHost) && !(x.2.fn 0).bme) then x
    else
      let y := dmaMove c t t.len data x
      (y.1, y.2.dmaDone c 0 t.len)

/-- A transfer stopped after `n` octets, by an error completion of a host read or by Bus Master Enable cleared. -/
def dmaStop (c n : Nat) (data : List Byte) (x : Fuses × Part) : Fuses × Part :=
  match (x.2.dma c).run with
  | none => x
  | some t =>
    let bme := (x.2.fn 0).bme
    if t.len ≤ n ∨ (t.srcHost && decide (data.length ≠ n)) ∨ !(t.srcHost || (t.dstHost && !bme)) then x
    else
      let y := if n = 0 then x else dmaMove c t n data x
      (y.1, y.2.dmaDone c (if bme then 5 else 6) n)

end Part

/-- A command whose effect may blow fuses: it changes the fuse banks and the part, and leaves the waiting commands. -/
def onBoth (g : Fuses × Part → Fuses × Part) (s : State) : Host.Outcome State Fault Refusal :=
  .next { s with fuses := (g (s.fuses, s.part)).1, part := (g (s.fuses, s.part)).2 }

/-- REGISTER_WRITE (R4 to R8, R25, R54). -/
def execRegisterWrite (t : RegTarget) (v : Word) (s : State) : Host.Outcome State Fault Refusal := onBoth (Part.regWrite t v) s
/-- STAGED_SET_APPLY (R640). -/
def execStagedSetApply (b : StagedBlock) (s : State) : Host.Outcome State Fault Refusal := onPart (Part.stagedApply b) s
/-- DMA_HOST_ERROR (R418). -/
def execDmaHostError (c : Fin 64) (n : BitVec 25) (data : List Byte) (s : State) : Host.Outcome State Fault Refusal :=
  onBoth (Part.dmaStop c.val n.toNat data) s
/-- DMA_TRANSFER_END (R419). -/
def execDmaTransferEnd (c : Fin 64) (data : List Byte) (s : State) : Host.Outcome State Fault Refusal :=
  onBoth (Part.dmaEnd c.val data) s

end Sys2Proof.Machine
end

