-- ==== Sys2Proof/Machine/Storage.lean ====
section
/-! DEFINITION. Dibry loads, stores and the atomic instructions (R180, R181, R185 to R189; on threads R132, R206). -/

namespace Sys2Proof.Machine
namespace Part

/-- The world of a core's accesses. -/
def coreWorld (c : Nat) : World := if c = 4 then .secure else .normal

/-- SIZE of ECAUSE. -/
def sizeCode (n : Nat) : BitVec 2 := if n = 1 then 0 else if n = 2 then 1 else 2

/-- An exception of a data access of `n` octets at `a`. -/
def dataTrap (c : Nat) (m : Core) (cause : BitVec 5) (atomic : Bool) (a : Word) (n : Nat) (p : Part) : Part :=
  p.takeTrap c { cause := cause, epc := m.pc, addr := a, bank := some m.dbk, atomic := atomic, size := sizeCode n }

/-- A core's load: misaligned, refused, or read (R180, R181). -/
def coreLoad (n : Nat) (signed : Bool) (rd : Nat) (a : Word) (c : Nat) (m : Core) (p : Part) : Part :=
  if a.toNat % n ≠ 0 then p.dataTrap c m xLoadMis false a n
  else
    match p.coreCheck c kRead (bankAddr m.dbk a) n with
    | (some bus, p) => p.dataTrap c m (if bus then xLoadBus else xLoadAccess) false a n
    | (none, p) =>
      let (s, o) := spaceOf p.sys.handed (c == 4) (bankAddr m.dbk a) n
      let (bs, p) := p.load (coreWorld c) s o n
      (p.setCoreReg c rd (Dibry.loaded signed bs)).coreGo c (m.pc + 4)

/-- A core's store of octets: misaligned, refused, or written once the core has moved on (R180, R181). -/
def coreStore (bs : List Byte) (a : Word) (c : Nat) (m : Core) (x : Fuses × Part) : Fuses × Part :=
  let n := bs.length
  if a.toNat % n ≠ 0 then (x.1, x.2.dataTrap c m xStoreMis false a n)
  else
    match x.2.coreCheck c kWrite (bankAddr m.dbk a) n with
    | (some bus, p) => (x.1, p.dataTrap c m (if bus then xStoreBus else xStoreAccess) false a n)
    | (none, p) =>
      let (s, o) := spaceOf p.sys.handed (c == 4) (bankAddr m.dbk a) n
      store (coreWorld c) s o bs (x.1, p.coreGo c (m.pc + 4))

/-- A thread's load and store, in its own context (R132, R206). -/
def threadLoad (n : Nat) (signed : Bool) (rd : Nat) (a : Word) (k : Nat) (t : Thread) (p : Part) : Part :=
  if a.toNat % n ≠ 0 then p.threadFault k cBounds
  else
    match p.threadCheck k t kRead a n with
    | (none, p) => p.threadFault k cBounds
    | (some o, p) => (p.setThreadReg k rd (Dibry.loaded signed (p.opBuf.read ram o n))).threadGo k (t.pc + 4)

def threadStore (bs : List Byte) (a : Word) (k : Nat) (t : Thread) (p : Part) : Part :=
  if a.toNat % bs.length ≠ 0 then p.threadFault k cBounds
  else
    match p.threadCheck k t kWrite a bs.length with
    | (none, p) => p.threadFault k cBounds
    | (some o, p) => (p.writeOb o bs).threadGo k (t.pc + 4)

/-- A load of `n` octets at ra + sext(imm). -/
def loadOp (x : Proc) (n : Nat) (signed : Bool) (rd ra : BitVec 5) (imm : BitVec 16) (p : Part) : Part :=
  p.onProc x
    (fun c m p => p.coreLoad n signed rd.toNat (coreReg m ra.toNat + Dibry.sext16 imm) c m)
    (fun k t p => p.threadLoad n signed rd.toNat (threadReg t ra.toNat + Dibry.sext16 imm) k t)

/-- One instruction of a core whose effect may blow fuses, as a store to a CSR may. -/
def coreStepF (c : Nat) (body : Core → Fuses × Part → Fuses × Part) (x : Fuses × Part) : Fuses × Part :=
  let (go, q) := x.2.coreEnter c
  if go then
    let y := body (q.core c) (x.1, q)
    (y.1, y.2.stepStop c)
  else (x.1, q)

/-- A store of the low `n` octets of rs at ra + sext(imm). -/
def storeOp (x : Proc) (n : Nat) (rs ra : BitVec 5) (imm : BitVec 16) (y : Fuses × Part) : Fuses × Part :=
  match x with
  | .core c =>
    coreStepF c.val
      (fun m => coreStore (leBytes n (coreReg m rs.toNat).toNat) (coreReg m ra.toNat + Dibry.sext16 imm) c.val m) y
  | .thread _ _ =>
    (y.1, y.2.onProc x (fun _ _ p => p) fun k t =>
      threadStore (leBytes n (threadReg t rs.toNat).toNat) (threadReg t ra.toNat + Dibry.sext16 imm) k t)

/-! ### LR, SC, TAS (R185 to R189) -/

/-- The regions on which they act. -/
def lockable (s : Space) : Bool := s == .cc || s == .ob || s == .priv

/-- The write of a word to such a region. -/
def writeWord (s : Space) (o : Nat) (v : Word) (p : Part) : Part :=
  match s with
  | .cc => p.writeCc o (leBytes 4 v.toNat)
  | .priv => p.writePriv o (leBytes 4 v.toNat)
  | _ => p.writeOb o (leBytes 4 v.toNat)

/-- LR. -/
def coreLr (rd : Nat) (a : Word) (c : Nat) (m : Core) (p : Part) : Part :=
  let pa := bankAddr m.dbk a
  let (s, o) := spaceOf p.sys.handed (c == 4) pa 4
  if a.toNat % 4 ≠ 0 then p.dataTrap c m xLoadMis true a 4
  else if s != .none && !lockable s then p.dataTrap c m xLoadAccess true a 4
  else
    match p.coreCheck c kRead pa 4 with
    | (some bus, p) => p.dataTrap c m (if bus then xLoadBus else xLoadAccess) true a 4
    | (none, p) =>
      let (bs, p) := p.load (coreWorld c) s o 4
      ((p.setCoreReg c rd (Dibry.loaded false bs)).modCore c fun m => { m with resv := some (pa / 64) }).coreGo c (m.pc + 4)

/-- SC, as R186 decides it. -/
def coreSc (rd : Nat) (v : Word) (a : Word) (c : Nat) (m : Core) (p : Part) : Part :=
  let pa := bankAddr m.dbk a
  let (s, o) := spaceOf p.sys.handed (c == 4) pa 4
  let done := fun (r : Word) (p : Part) =>
    ((p.setCoreReg c rd r).modCore c fun m => { m with resv := none }).coreGo c (m.pc + 4)
  if a.toNat % 4 ≠ 0 then p.dataTrap c m xStoreMis true a 4
  else if m.resv ≠ some (pa / 64) then done 1 p
  else if s != .none && !lockable s then p.dataTrap c m xStoreAccess true a 4
  else
    match p.coreCheck c kWrite pa 4 with
    | (some bus, p) => p.dataTrap c m (if bus then xStoreBus else xStoreAccess) true a 4
    | (none, p) => done 0 (p.writeWord s o v)

/-- TAS: one access, checked as a load and a store. -/
def coreTas (rd : Nat) (a : Word) (c : Nat) (m : Core) (p : Part) : Part :=
  let pa := bankAddr m.dbk a
  let (s, o) := spaceOf p.sys.handed (c == 4) pa 4
  if a.toNat % 4 ≠ 0 then p.dataTrap c m xStoreMis true a 4
  else if s != .none && !lockable s then p.dataTrap c m xStoreAccess true a 4
  else
    match p.coreCheck c kAtomic pa 4 with
    | (some bus, p) => p.dataTrap c m (if bus then xStoreBus else xStoreAccess) true a 4
    | (none, p) =>
      let (bs, p) := p.load (coreWorld c) s o 4
      ((p.writeWord s o 1).setCoreReg c rd (Dibry.loaded false bs)).coreGo c (m.pc + 4)

/-- RESERVATION_TIMEOUT (R185). -/
def resvTimeout (c : Nat) (p : Part) : Part := p.modCore c fun m => { m with resv := none }

end Part

/-! ### The meanings -/

/-- LB (R176, R180, R181). -/
def execLb (x : Proc) (rd ra : BitVec 5) (imm : BitVec 16) (s : State) : Host.Outcome State Fault Refusal :=
  onPart (Part.loadOp x 1 true rd ra imm) s
/-- LH (R176, R180, R181). -/
def execLh (x : Proc) (rd ra : BitVec 5) (imm : BitVec 16) (s : State) : Host.Outcome State Fault Refusal :=
  onPart (Part.loadOp x 2 true rd ra imm) s
/-- LW (R176, R180, R181). -/
def execLw (x : Proc) (rd ra : BitVec 5) (imm : BitVec 16) (s : State) : Host.Outcome State Fault Refusal :=
  onPart (Part.loadOp x 4 false rd ra imm) s
/-- LBU (R176, R180, R181). -/
def execLbu (x : Proc) (rd ra : BitVec 5) (imm : BitVec 16) (s : State) : Host.Outcome State Fault Refusal :=
  onPart (Part.loadOp x 1 false rd ra imm) s
/-- LHU (R176, R180, R181). -/
def execLhu (x : Proc) (rd ra : BitVec 5) (imm : BitVec 16) (s : State) : Host.Outcome State Fault Refusal :=
  onPart (Part.loadOp x 2 false rd ra imm) s
/-- SB (R176, R180, R181). -/
def execSb (x : Proc) (rs ra : BitVec 5) (imm : BitVec 16) (s : State) : Host.Outcome State Fault Refusal :=
  onBoth (Part.storeOp x 1 rs ra imm) s
/-- SH (R176, R180, R181). -/
def execSh (x : Proc) (rs ra : BitVec 5) (imm : BitVec 16) (s : State) : Host.Outcome State Fault Refusal :=
  onBoth (Part.storeOp x 2 rs ra imm) s
/-- SW (R176, R180, R181). -/
def execSw (x : Proc) (rs ra : BitVec 5) (imm : BitVec 16) (s : State) : Host.Outcome State Fault Refusal :=
  onBoth (Part.storeOp x 4 rs ra imm) s
/-- LR (R185, R189). -/
def execLr (x : Proc) (rd ra : BitVec 5) (s : State) : Host.Outcome State Fault Refusal :=
  onPart (Part.coreOnly x fun c m => Part.coreLr rd.toNat (Part.coreReg m ra.toNat) c m) s
/-- SC (R186, R189). -/
def execSc (x : Proc) (rd ra rs : BitVec 5) (s : State) : Host.Outcome State Fault Refusal :=
  onPart (Part.coreOnly x fun c m => Part.coreSc rd.toNat (Part.coreReg m rs.toNat) (Part.coreReg m ra.toNat) c m) s
/-- TAS (R188, R189). -/
def execTas (x : Proc) (rd ra : BitVec 5) (s : State) : Host.Outcome State Fault Refusal :=
  onPart (Part.coreOnly x fun c m => Part.coreTas rd.toNat (Part.coreReg m ra.toNat) c m) s
/-- RESERVATION_TIMEOUT (R185). -/
def execReservationTimeout (c : Fin 5) (s : State) : Host.Outcome State Fault Refusal := onPart (Part.resvTimeout c.val) s

end Sys2Proof.Machine
end

