-- ==== Sys2Proof/Machine/Control.lean ====
section
/-! DEFINITION. Dibry branches and jumps (R172, R176, R184), the system group (R179, R182, R183, R192, R195 to R198), special
registers (R168, R169) and undefined words (R175). -/

namespace Sys2Proof.Machine
namespace Part

/-! ### Branches and jumps -/

/-- A conditional branch to pc + 4 × sext(off16), in the bank IBK. -/
def branchOp (x : Proc) (ra rb : BitVec 5) (off : BitVec 16) (f : Word → Word → Bool) (p : Part) : Part :=
  p.onProc x
    (fun c m p =>
      p.coreGo c (m.pc + (if f (coreReg m ra.toNat) (coreReg m rb.toNat) then Dibry.branchOff off else 4)))
    (fun k t p =>
      p.threadGo k (t.pc + (if f (threadReg t ra.toNat) (threadReg t rb.toNat) then Dibry.branchOff off else 4)))

/-- J, and CALL which writes pc + 4 to g31. -/
def jumpOp (x : Proc) (link : Bool) (off : BitVec 26) (p : Part) : Part :=
  p.onProc x
    (fun c m p => (p.when link (setCoreReg c 31 (m.pc + 4))).coreJump c (m.pc + Dibry.jumpOff off))
    (fun k t p => (p.when link (setThreadReg k 31 (t.pc + 4))).threadGo k (t.pc + Dibry.jumpOff off))

/-- JLR: the target from the value ra held before; a misaligned target raises FETCH_MISALIGNED on a core and ends a thread's harvest
(R184, R206), and nothing is written. A thread whose last budgeted instruction it is ends with its budget (R205). -/
def jlr (x : Proc) (rd ra : BitVec 5) (imm : BitVec 16) (p : Part) : Part :=
  p.onProc x
    (fun c m p =>
      let tgt := coreReg m ra.toNat + Dibry.sext16 imm
      if tgt.toNat % 4 ≠ 0 then
        p.takeTrap c { cause := xFetchMis, epc := m.pc, addr := tgt, bank := some (m.pendIbk.getD m.ibk) }
      else (p.setCoreReg c rd.toNat (m.pc + 4)).coreJump c tgt)
    (fun k t p =>
      let tgt := threadReg t ra.toNat + Dibry.sext16 imm
      if tgt.toNat % 4 ≠ 0 then p.threadFault k (if (p.thread k).budget = 0 then cBudget else cFetch)
      else (p.setThreadReg k rd.toNat (t.pc + 4)).threadGo k tgt)

/-! ### The system group -/

/-- A privileged instruction of a core: PRIVILEGED at user privilege. -/
def privileged (x : Proc) (word : Word) (core : Nat → Core → Part → Part) (p : Part) : Part :=
  p.coreOnly x fun c m p => if m.priv then core c m p else p.corePrivileged c word

/-- TRAP n. -/
def trap (x : Proc) (n : BitVec 12) (p : Part) : Part :=
  p.coreOnly x fun c m p =>
    p.takeTrap c { cause := if m.priv then xTrapPriv else xTrapUser, epc := m.pc + 4, info := n }

/-- A debugger may steer a core (R661). -/
def steers (p : Part) (c : Nat) : Bool := bitAt p.reach (if c = 4 then 3 else 1)

/-- BRK: a halt under a debugger, which leaves open whether the pc stands at the BRK or after it; else the exception (R196). -/
def brk (x : Proc) (p : Part) : Part :=
  p.coreOnly x fun c m p =>
    if p.dbg.attached && p.steers c then
      let (k, p) := p.draw
      p.modCore c fun m => { m with run := .halted, pc := if bitAt (Config.freeWord k) 0 then m.pc + 4 else m.pc }
    else p.takeTrap c { cause := xBrk, epc := m.pc }

/-- DOZE: the core stops; its pc stays at the DOZE until the request comes (R195). -/
def doze (x : Proc) (p : Part) : Part :=
  p.privileged x (Dibry.fmtY 0 0 0 3) fun c _ p => p.modCore c fun m => { m with run := .doze }

/-- DOZE_WAKE. -/
def dozeWake (c : Nat) (p : Part) : Part := p.when ((p.core c).run == .doze) (interruptTake c)

/-- FENCE and FENCE.CODE: in a model that performs each access at once there is nothing to wait for (R182, R183); on a thread they
have no effect (R179). -/
def fence (x : Proc) (p : Part) : Part :=
  p.onProc x (fun c m p => p.coreGo c (m.pc + 4)) (fun k t p => p.threadGo k (t.pc + 4))

/-- FENCE.RULE: complete at once where no transfer of an older generation remains, else it waits (R197, R198). -/
def fenceRule (x : Proc) (p : Part) : Part :=
  p.privileged x (Dibry.fmtY 0 0 0 6) fun c m p =>
    if p.acu.oldInflight then p.modCore c fun m => { m with fence := true } else p.coreGo c (m.pc + 4)

/-- FENCE_RULE_COMPLETE: a waiting FENCE.RULE of a core ends once no access of an older generation remains. -/
def fenceComplete (c : Nat) (p : Part) : Part :=
  p.when ((p.core c).fence && !p.acu.oldInflight && (p.core c).run == .running)
    (modCore c fun m => { m with fence := false, pc := m.pc + 4 })

/-! ### Special registers -/

/-- STATUS of a core. -/
def statusWord (c : Nat) (m : Core) : Word :=
  bit' m.priv 0 ||| bit' m.ie 1 ||| bit' m.exl 2 ||| bit' m.ppriv 3 ||| bit' m.pie 4 ||| bit' (c == 4) 8

/-- The special registers that MFSR reads, but for CYCLE_LO; none for an index not in R168. -/
def specialReg (c : Nat) (m : Core) (sr : Nat) : Option Word :=
  match sr with
  | 0x000 => some (statusWord c m)
  | 0x001 => some (at' m.dbk 0)
  | 0x002 => some (at' (m.pendIbk.getD m.ibk) 0)
  | 0x003 => some m.epc
  | 0x004 => some m.ecause
  | 0x005 => some m.eaddr
  | 0x006 => some (at' m.edbk 0 ||| at' m.eibk 8 ||| at' m.fbk 16)
  | 0x007 => some m.evec
  | 0x008 => some m.scratch0
  | 0x009 => some m.scratch1
  | 0x011 => some m.cycleHi
  | 0x012 => some (coreId c)
  | _ => none

/-- A special register written; a read-only field keeps its value. -/
def writeSpecial (sr : Nat) (v : Word) (m : Core) : Core :=
  match sr with
  | 0x000 => { m with ie := bitAt v 1, exl := m.exl && bitAt v 2, ppriv := bitAt v 3, pie := bitAt v 4 }
  | 0x001 => { m with dbk := v.setWidth 8 }
  | 0x002 => { m with pendIbk := some (v.setWidth 8) }
  | 0x003 => { m with epc := v }
  | 0x005 => { m with eaddr := v }
  | 0x006 => { m with edbk := fld v 0 8, eibk := fld v 8 8 }
  | 0x007 => { m with evec := v &&& 0xFFFFFCFF#32 }
  | 0x008 => { m with scratch0 := v }
  | 0x009 => { m with scratch1 := v }
  | _ => m

/-- The registers of R168 that may be read at user privilege, and that MTSR may not name (R169). -/
def userReg (sr : Nat) : Bool := sr == 0x010 || sr == 0x011 || sr == 0x012

/-- MFSR. The cycle counter has no value in a model without time: CYCLE_LO reads free, and latches a free CYCLE_HI. -/
def mfsr (x : Proc) (rd : BitVec 5) (sr : BitVec 12) (p : Part) : Part :=
  p.coreOnly x fun c m p =>
    let word := Dibry.fmtY rd 0 sr 8
    let i := sr.toNat
    if i ≠ 0x010 ∧ (specialReg c m i).isNone then p.coreIllegal c word
    else if !m.priv && !userReg i then p.corePrivileged c word
    else if i = 0x010 then
      let (k, p) := p.draw
      let v := Config.freeLong k
      ((p.modCore c fun m => { m with cycleHi := fld v 32 32 }).setCoreReg c rd.toNat (fld v 0 32)).coreGo c (m.pc + 4)
    else (p.setCoreReg c rd.toNat ((specialReg c m i).getD 0)).coreGo c (m.pc + 4)

/-- MTSR. -/
def mtsr (x : Proc) (sr : BitVec 12) (ra : BitVec 5) (p : Part) : Part :=
  p.coreOnly x fun c m p =>
    let word := Dibry.fmtY 0 ra sr 9
    if (specialReg c m sr.toNat).isNone || userReg sr.toNat then p.coreIllegal c word
    else if !m.priv then p.corePrivileged c word
    else (p.modCore c (writeSpecial sr.toNat (coreReg m ra.toNat))).coreGo c (m.pc + 4)

/-- An instruction word that the tables of 05 do not hold (R175). A word that they hold is the command of its own row. -/
def illegal (x : Proc) (word : Word) (p : Part) : Part :=
  if (Dibry.decode x word).isSome then p
  else p.onProc x (fun c _ p => p.coreIllegal c word) (fun k _ p => p.threadFault k cIllegal)

end Part

/-! ### The meanings -/

/-- BEQ (R176). -/
def execBeq (x : Proc) (ra rb : BitVec 5) (off : BitVec 16) (s : State) : Host.Outcome State Fault Refusal :=
  onPart (Part.branchOp x ra rb off fun a b => a == b) s
/-- BNE (R176). -/
def execBne (x : Proc) (ra rb : BitVec 5) (off : BitVec 16) (s : State) : Host.Outcome State Fault Refusal :=
  onPart (Part.branchOp x ra rb off fun a b => a != b) s
/-- BLT (R176). -/
def execBlt (x : Proc) (ra rb : BitVec 5) (off : BitVec 16) (s : State) : Host.Outcome State Fault Refusal :=
  onPart (Part.branchOp x ra rb off fun a b => a.slt b) s
/-- BGE (R176). -/
def execBge (x : Proc) (ra rb : BitVec 5) (off : BitVec 16) (s : State) : Host.Outcome State Fault Refusal :=
  onPart (Part.branchOp x ra rb off fun a b => !a.slt b) s
/-- BLTU (R176). -/
def execBltu (x : Proc) (ra rb : BitVec 5) (off : BitVec 16) (s : State) : Host.Outcome State Fault Refusal :=
  onPart (Part.branchOp x ra rb off fun a b => a.ult b) s
/-- BGEU (R176). -/
def execBgeu (x : Proc) (ra rb : BitVec 5) (off : BitVec 16) (s : State) : Host.Outcome State Fault Refusal :=
  onPart (Part.branchOp x ra rb off fun a b => !a.ult b) s
/-- J (R176). -/
def execJ (x : Proc) (off : BitVec 26) (s : State) : Host.Outcome State Fault Refusal := onPart (Part.jumpOp x false off) s
/-- CALL (R176). -/
def execCall (x : Proc) (off : BitVec 26) (s : State) : Host.Outcome State Fault Refusal := onPart (Part.jumpOp x true off) s
/-- JLR (R184). -/
def execJlr (x : Proc) (rd ra : BitVec 5) (imm : BitVec 16) (s : State) : Host.Outcome State Fault Refusal :=
  onPart (Part.jlr x rd ra imm) s
/-- TRAP (R179, R190). -/
def execTrap (x : Proc) (n : BitVec 12) (s : State) : Host.Outcome State Fault Refusal := onPart (Part.trap x n) s
/-- ERET (R192). -/
def execEret (x : Proc) (s : State) : Host.Outcome State Fault Refusal :=
  onPart (Part.privileged x (Dibry.fmtY 0 0 0 1) fun c _ => Part.returnTrap c) s
/-- BRK (R196). -/
def execBrk (x : Proc) (s : State) : Host.Outcome State Fault Refusal := onPart (Part.brk x) s
/-- DOZE (R195). -/
def execDoze (x : Proc) (s : State) : Host.Outcome State Fault Refusal := onPart (Part.doze x) s
/-- DOZE_WAKE (R195). -/
def execDozeWake (c : Fin 5) (s : State) : Host.Outcome State Fault Refusal := onPart (Part.dozeWake c.val) s
/-- FENCE (R182). -/
def execFence (x : Proc) (s : State) : Host.Outcome State Fault Refusal := onPart (Part.fence x) s
/-- FENCE.CODE (R183). -/
def execFenceCode (x : Proc) (s : State) : Host.Outcome State Fault Refusal := onPart (Part.fence x) s
/-- FENCE.RULE (R197, R198). -/
def execFenceRule (x : Proc) (s : State) : Host.Outcome State Fault Refusal := onPart (Part.fenceRule x) s
/-- FENCE_RULE_COMPLETE (R197). -/
def execFenceRuleComplete (c : Fin 5) (s : State) : Host.Outcome State Fault Refusal := onPart (Part.fenceComplete c.val) s
/-- MFSR (R168, R169). -/
def execMfsr (x : Proc) (rd : BitVec 5) (sr : BitVec 12) (s : State) : Host.Outcome State Fault Refusal :=
  onPart (Part.mfsr x rd sr) s
/-- MTSR (R168, R169). -/
def execMtsr (x : Proc) (sr : BitVec 12) (ra : BitVec 5) (s : State) : Host.Outcome State Fault Refusal :=
  onPart (Part.mtsr x sr ra) s
/-- ILLEGAL (R175). -/
def execIllegal (x : Proc) (word : Word) (s : State) : Host.Outcome State Fault Refusal := onPart (Part.illegal x word) s

end Sys2Proof.Machine
end

