-- ==== Sys2Proof/Machine/Debug.lean ====
section
/-! DEFINITION. Debug and test access (21_debug_and_identity.md): the TAP and its instructions, tokens, the debug port, steering of
cores, the scan entry, the end of a grant; the second evaluation of double decisions (17_salt_crust.md, R568 to R570); and the tick
of calendar time that an idle part makes (log entry 25). -/

namespace Sys2Proof.Machine
namespace Part

/-! ### The TAP (R658 to R660) -/

/-- An instruction in the instruction register, with what its data register captures. Every one leaves Test-Logic-Reset. -/
def tapSelect (ir : Byte) (dr : List Bool) (p : Part) : Part :=
  p.modDbg fun d => { d with attached := true, tapIr := ir, tapDr := dr }

/-- The bits of a word, and of octets, as a data register shifts them out. -/
def wordBits {n : Nat} (v : BitVec n) : List Bool := (List.range n).map fun i => bitAt v i

/-- EXTEST and SAMPLE/PRELOAD: the boundary register captures the pins, and takes the bits shifted in. EXTEST connects it to the balls
only while RESET_N is low (R659). -/
def tapBoundary (ir : Byte) (connect : Bool) (pins bits : List Bool) (p : Part) : Part :=
  (p.tapSelect ir pins).modDbg fun d =>
    { d with boundReg := bits, boundary := connect && p.sys.resetLow, outputsOff := false }

/-- CLAMP and HIGHZ: the bypass register; they act on the balls only while RESET_N is low. -/
def tapClamp (p : Part) : Part :=
  (p.tapSelect 0x03 [false]).modDbg fun d => { d with boundary := p.sys.resetLow, outputsOff := false }
def tapHighz (p : Part) : Part :=
  (p.tapSelect 0x04 [false]).modDbg fun d => { d with boundary := false, outputsOff := p.sys.resetLow }

/-- An instruction that leaves the balls to the part. -/
def tapRead (ir : Byte) (dr : List Bool) (p : Part) : Part :=
  (p.tapSelect ir dr).modDbg fun d => { d with boundary := false, outputsOff := false }

def challengeBits (p : Part) : List Bool := (List.range 8).flatMap fun k => wordBits (p.dbg.challenge.get 0 k)

/-- TOKEN: a word shifted into the next place; ignored while READY is 1 (R665). -/
def tapToken (w : Word) (p : Part) : Part :=
  (p.tapRead 0x11 (wordBits w)).modDbg fun d =>
    if d.tokenReady || d.tokenWords == 2047 then d
    else { d with tokenData := d.tokenData.set 0 d.tokenWords.toNat w, tokenWords := d.tokenWords + 1 }

/-- TOKEN_SUBMIT: an Update-DR under another instruction sets READY once words have been shifted, and raises source 19. -/
def tokenSubmit (ir : Byte) (p : Part) : Part :=
  if ir = 0x11 ∨ p.dbg.tokenReady ∨ p.dbg.tokenWords = 0 then p
  else ((p.tapRead ir []).modDbg fun d => { d with tokenReady := true }).modSys fun s => { s with swiS := true }

/-- BYPASS, and any code that is not listed. -/
def tapBypass (ir : Byte) (p : Part) : Part := p.tapRead ir [false]

/-- TRST_N falls: the TAP is reset and the scan chains are disconnected (R671). -/
def trstFall (p : Part) : Part :=
  p.modDbg fun d =>
    { d with attached := false, tapIr := 0x02, tapDr := [], boundary := false, outputsOff := false, scanOn := false }

/-- RESET_GLITCH raised with rank Quarantine, whatever rank the charter gives it (R671). -/
def scanAlarm (p : Part) : Part :=
  let ranks := fun (l : List Byte) => modTmp fun t => { t with crust := { t.crust with ranks := l } }
  ranks p.tmp.crust.ranks ((ranks (p.tmp.crust.ranks.set 9 3) p).raiseOne .resetGlitch 0 0)

/-- SCAN (R671). Under a grant it raises RESET_GLITCH, which ends the grant, before the clocks stop; where the reach stands open there
is no grant to end. Without the reach it selects the bypass register. -/
def tapScan (p : Part) : Part :=
  if p.dbg.scanOn then p.tapRead 0x20 []
  else if !bitAt p.reach 8 || p.sys.fuses.scanDisable then p.tapBypass 0x20
  else
    let p := p.tapRead 0x20 []
    let p := p.when (bitAt p.dbg.granted 8) fun p => p.scanAlarm.endGrant 2
    let p := (p.modDbg fun d => { d with scanActive := true, scanOn := true }).post 0xF803#16 0 0
    p.modSys fun s => { s with scanStopped := true }

/-! ### The debug port (R661, R669, R670) -/

/-- The debug port's answer: an octet 0 and the octets read, or an octet 1 for an error response. -/
def dbgAnswer (bs : List Byte) (p : Part) : Part := p.issue (.debug (0 :: bs))
def dbgError (p : Part) : Part := p.issue (.debug [1])

/-- A memory access of the debug port, as master 5: its place, where its checkpoint admits it; a refusal is recorded. -/
def dbgCheck (w : World) (priv : Bool) (kind : BitVec 3) (a n : Nat) (p : Part) : Option (Space × Nat) × Part :=
  let (s, o) := spaceOf p.sys.handed false a n
  if !bitAt p.reach (if w.bit then 5 else 4) || s == .none then (none, p)
  else
    match p.regionCheck 5 w.bit priv kind a n with
    | none => (some (s, o), p)
    | some d => (none, p.refuse (denialRec d a n 0x18 kind priv w.bit 0) (!w.bit))

/-- The stored word of an array. The scrambled words of the Salt Cellar are free values; they read zero while READY is 1. -/
def testRead (a : TestArray) (word : Nat) (p : Part) : Word × Part :=
  let num := fun (bs : List Byte) => BitVec.ofNat 32 (ofLe bs)
  match a with
  | .opBuf => (num (p.opBuf.read ram (4 * word) 4), p)
  | .eventStore => (num (p.evr.store.read ram (4 * word) 4), p)
  | .ccSram => (num (p.ccMem.read ram (4 * word) 4), p)
  | .cellar =>
    if p.slc.ready then (0, p)
    else
      let (k, p) := p.draw
      (Config.freeWord k, p)
  | .vault => (num (p.vaultRead (4 * word) 4), p)
  | .privMem => (num (p.priv.read ram (4 * word) 4), p)
  | .progMem => (p.seq.pmem.get 0 word, p)
  | .bootRom => (num ((List.range 4).map fun i => Config.bootOctet (4 * word + i)), p)

/-- A test read is open: under MEM_TEST_N or MEM_TEST_S, of the boot ROM in BLANK and TESTED (R463). -/
def testOpen (p : Part) (a : TestArray) : Bool :=
  match a with
  | .opBuf | .eventStore | .ccSram => bitAt p.reach 6
  | .cellar | .vault | .privMem | .progMem => bitAt p.reach 7
  | .bootRom => p.life == .blank || p.life == .tested

/-- DBG_ACCESS. -/
def dbgAccess (r : DbgReq) (x : Fuses × Part) : Fuses × Part :=
  let f := x.1
  let p := x.2.tapRead 0x12 []
  match r with
  | .read w priv a size =>
    match p.dbgCheck w priv kRead a.toNat (2 ^ size.val) with
    | (none, p) => (f, p.dbgError)
    | (some (s, o), p) =>
      let (bs, p) := p.load w s o (2 ^ size.val)
      (f, p.dbgAnswer bs)
  | .write w priv a size v =>
    match p.dbgCheck w priv kWrite a.toNat (2 ^ size.val) with
    | (none, p) => (f, p.dbgError)
    | (some (s, o), p) => store w s o (leBytes (2 ^ size.val) v.toNat) (f, p.dbgAnswer [])
  | .pc c =>
    if bitAt p.reach (if c.val = 4 then 2 else 0) then (f, p.dbgAnswer (leBytes 4 (p.core c.val).pc.toNat)) else (f, p.dbgError)
  | .cycle c =>
    if bitAt p.reach (if c.val = 4 then 2 else 0) then
      let (k, p) := p.draw
      (f, p.dbgAnswer (leBytes 8 (Config.freeLong k).toNat))
    else (f, p.dbgError)
  | .sram a word =>
    if p.testOpen a then
      let (v, p) := p.testRead a word.toNat
      (f, p.dbgAnswer (leBytes 4 v.toNat))
    else (f, p.dbgError)

/-! ### Steering and grants (R661, R667, R668) -/

/-- DEBUG_HALT_STEP_RESUME: under the STEER bit of the core. A FENCE.RULE that waits is executed again after a halt. -/
def steer (c : Nat) (a : Steer) (p : Part) : Part :=
  let m := p.core c
  if !(p.dbg.attached && p.steers c) then p
  else
    match a with
    | .halt => if m.run = .running ∨ m.run = .doze then p.modCore c fun m => { m with run := .halted, fence := false } else p
    | .step => if m.run = .halted then p.modCore c fun m => { m with run := .running, stepOne := true } else p
    | .resume => if m.run = .halted then p.modCore c fun m => { m with run := .running } else p

/-- GRANT_EXPIRY: REMAIN is 0. -/
def grantExpiry (p : Part) : Part := p.when (p.dbg.remain == 0) (endGrant 0)

/-! ### The second evaluation of a double decision (R568 to R570, R646) -/

/-- The two evaluations differ. -/
def split (p : Part) : Part := (p.modTmp fun t => { t with splits := satInc t.splits }).raiseOne .decisionSplit 0 0

/-- A debug unlock that both evaluations allow, and one that is refused (R667, R677). -/
def grantGive (g : BitVec 10 × BitVec 17) (p : Part) : Part :=
  (p.modDbg fun d => { d with granted := g.1, remain := g.2, pendGrant := none }).post 0xF800#16 (g.1.setWidth 32)
    (g.2.setWidth 32)
def grantDeny (p : Part) : Part := (p.modDbg fun d => { d with cfgMismatch := true, pendGrant := none }).post 0xF802#16 0 0

/-- The second evaluation on the part's state now, and what follows. -/
def judge (d : Decision) (p : Part) : Part :=
  match d with
  | .securePort cmd first =>
    let second := p.portCheck cmd
    if first = 0 ∧ second = 0 then p.portAct cmd
    else if first = 0 ∨ second = 0 then p.split.when p.slc.busy (spEnd (if first = 0 then second else first) none)
    else p.spEnd first none
  | .lifeCycle target _ =>
    if p.lcOk target then p.modSys fun s => { s with lcTarget := some target }
    else (p.split.modSys fun s => { s with lcBusy := false }).executeRefused
  | .debugUnlock first =>
    let g := p.dbg.pendGrant.getD (0, 0)
    let second := p.grantOk g.1 g.2
    if first && second then p.grantGive g
    else if first || second then p.split.grantDeny
    else p.grantDeny
  | .quorum _ =>
    let s := p.sys
    let m := (p.classOf s.cerClass.toNat).2.toNat
    if s.cerActive && decide (m ≤ s.cerCount.toNat ∧ 0 < m) then p.modSys fun s => { s with cerQuorum := true } else p.split
  | .gateClaim _ =>
    if p.claimOk then p.pairWatch gateTake
    else p.split.pairWatch (modMir fun m => { m with gate := if m.gate = 1 then 0 else m.gate })
  | .zeroise => p

/-- DECISION_SECOND_EVAL of the `i`-th decision due. -/
def secondEval (i : Nat) (p : Part) : Part :=
  match p.tmp.due[i]? with
  | none => p
  | some d => (p.modTmp fun t => { t with due := t.due.eraseIdx i }).judge d

/-! ### Calendar time while nothing is commanded -/

/-- A whole second: REMAIN of a grant counts down (R668), and DSP_AUTH_P999 takes the latency of the second that has ended, a
measurement the model does not make and leaves free (log entry 170). -/
def second (p : Part) : Part :=
  let (k, p) := p.draw
  (p.modDsp fun d => { d with p999 := (Config.freeWord k).setWidth 16 }).when (p.dbg.remain != 0)
    (modDbg fun d => { d with remain := d.remain - 1 })

/-- 1/65,536 s of calendar time (R3, R581, R617). -/
def tick (p : Part) : Part :=
  (p.modBat fun b => { b with frac := b.frac + 1, secs := if b.frac = 0xFFFF#16 then b.secs + 1 else b.secs }).when
    (p.bat.frac == 0xFFFF#16) second

end Part

/-! ### The meanings -/

/-- EXTEST (R658, R659). -/
def execExtest (pins bits : List Bool) (s : State) : Host.Outcome State Fault Refusal := onPart (Part.tapBoundary 0x00 true pins bits) s
/-- SAMPLE/PRELOAD (R658). -/
def execSamplePreload (pins bits : List Bool) (s : State) : Host.Outcome State Fault Refusal :=
  onPart (Part.tapBoundary 0x01 false pins bits) s
/-- IDCODE (R660). -/
def execIdcode (s : State) : Host.Outcome State Fault Refusal := onPart (Part.tapRead 0x02 (Part.wordBits Part.idcode)) s
/-- CLAMP (R659). -/
def execClamp (s : State) : Host.Outcome State Fault Refusal := onPart Part.tapClamp s
/-- HIGHZ (R659). -/
def execHighz (s : State) : Host.Outcome State Fault Refusal := onPart Part.tapHighz s
/-- CHALLENGE (R658). -/
def execChallenge (s : State) : Host.Outcome State Fault Refusal := onPart (fun p => p.tapRead 0x10 p.challengeBits) s
/-- TOKEN (R665). -/
def execToken (w : Word) (s : State) : Host.Outcome State Fault Refusal := onPart (Part.tapToken w) s
/-- TOKEN_SUBMIT (R665). -/
def execTokenSubmit (ir : Byte) (s : State) : Host.Outcome State Fault Refusal := onPart (Part.tokenSubmit ir) s
/-- DBG_ACCESS (R661, R669, R670). -/
def execDbgAccess (r : DbgReq) (s : State) : Host.Outcome State Fault Refusal := onBoth (Part.dbgAccess r) s
/-- STATUS (R658). -/
def execTapStatus (s : State) : Host.Outcome State Fault Refusal := onPart (fun p => p.tapRead 0x13 (Part.wordBits p.dbgStatus)) s
/-- SCAN (R671). -/
def execScan (s : State) : Host.Outcome State Fault Refusal := onPart Part.tapScan s
/-- BYPASS (R658). -/
def execBypass (ir : Byte) (s : State) : Host.Outcome State Fault Refusal := onPart (Part.tapBypass ir) s
/-- TRST_N_FALL (R671). -/
def execTrstNFall (s : State) : Host.Outcome State Fault Refusal := onPart Part.trstFall s
/-- DEBUG_HALT_STEP_RESUME (R661). -/
def execDebugHaltStepResume (c : Fin 5) (a : Steer) (s : State) : Host.Outcome State Fault Refusal := onPart (Part.steer c.val a) s
/-- DBG_COMMIT (R667). -/
def execDbgCommit (s : State) : Host.Outcome State Fault Refusal := onPart Part.grantCommit s
/-- REVOKE (R668). -/
def execRevoke (s : State) : Host.Outcome State Fault Refusal := onPart (Part.endGrant 1) s
/-- GRANT_EXPIRY (R668). -/
def execGrantExpiry (s : State) : Host.Outcome State Fault Refusal := onPart Part.grantExpiry s
/-- DECISION_SECOND_EVAL (R568 to R570). -/
def execDecisionSecondEval (i : Fin 16) (s : State) : Host.Outcome State Fault Refusal := onPart (Part.secondEval i.val) s

end Sys2Proof.Machine
end

