-- ==== Sys2Proof/Machine/Payment.lean ====
section
/-! DEFINITION. The library programs of sequencer ROM (06_payment_harvests.md, R214 to R248). Their code is not in the spec;
each is written here as the instructions that its rules describe, run in turn on its thread, each engine result landing before
the next instruction. A HEND that is the first command a library harvest is given stands for its whole program (log entry 146); a
program that would wait anywhere leaves the part as it was, and runs when HEND comes again. -/

namespace Sys2Proof.Machine
namespace Rom

open Sys2Proof.Machine.Part

/-- One step of a program: none where it has to wait. -/
abbrev Act := Part → Option Part

/-- A run of a program on its thread: the octets of its input, and its PARAM word. -/
structure Env where
  q     : Fin 16
  t     : Fin 32
  data  : List Byte
  param : Word
  info  : List Byte := []               -- the octets of INLINE2

abbrev Env.k (e : Env) : Nat := threadNo e.q e.t
abbrev Env.x (e : Env) : Proc := .thread e.q e.t

/-- `n` octets of the input from an offset. -/
def Env.at (e : Env) (o n : Nat) : List Byte := (e.data.drop o).take n

/-- The context of a thread. -/
def ctxOf (e : Env) (p : Part) : Ctx := p.ctx (p.thread e.k).ctx

/-- The handle in a field of the descriptor. -/
def handleOf (e : Env) (p : Part) (f : Nat) : BitVec 32 := p.fieldHandle (p.thread e.k) f

/-- ALG of the slot that a handle field names. -/
def algOf (e : Env) (p : Part) (f : Nat) : Byte := (p.slot (hIndex (handleOf e p f))).alg

/-- The input of a program: its data area, and its input list (R132, R133). -/
def inputOf (p : Part) (n : Nat) : List Byte := p.ctxData n 0 (p.ctx n).inLen ++ (p.ctx n).inData

/-! ### Running -/

/-- The engine whose next operation is request `id` of a thread, when it is free to take it. -/
def engineFor (p : Part) (k id : Nat) : Option Nat :=
  (List.range 56).find? fun e =>
    (p.eng e).cur.isNone && (p.eng e).parked.isNone &&
      match p.engNext e with
      | some (o, _) => o.owner == .thread k id
      | none => false

/-- The first outstanding request of a thread lands, its engine running it first; a landing write reaches its slot. Whether a release
check fails there, and whether 64 attempts of an ML-DSA signature are rejected, is free (log entry 146). -/
def settleOne (k : Nat) : Act := fun p =>
  match (p.thread k).reqs with
  | r :: _ =>
    if r.ready then
      let q := panRun k r p
      if (q.thread k).reqs.headD r = r && (q.thread k).busy then none else some q
    else
      match engineFor p k r.id with
      | none => none
      | some e =>
        let (n, p) := p.draw
        let q := (p.opStart e).opEnd e (bitAt (Config.freeWord n) 0) (bitAt (Config.freeWord n) 1)
        if ((q.thread k).reqs.headD r).ready then some q else none
  | [] =>
    let q := p.landingWrite k
    if (q.thread k).landing.isSome then none else some q

/-- Every outstanding request lands. -/
def settle (k : Nat) : Nat → Act
  | 0, p => some p
  | n + 1, p =>
    let t := p.thread k
    if !t.busy || (t.reqs.isEmpty && t.landing.isNone) then some p else (settleOne k p).bind (settle k n)

/-- One instruction of the thread, with its results. -/
def ins (e : Env) (f : Part → Part) : Act := fun p =>
  let q := f p
  if (q.thread e.k).busy && (q.thread e.k).issued == (p.thread e.k).issued then none else settle e.k 16 q

/-- Steps in turn, until the harvest ends. -/
def steps (e : Env) : List Act → Act
  | [], p => some p
  | a :: as, p => if !(p.thread e.k).busy then some p else (a p).bind (steps e as)

/-- Ordinary work between two sealed instructions. -/
def work (f : Part → Part) : Act := fun p => some (f p)

/-- The harvest ends where `bad` holds (R217). -/
def refuseInput (e : Env) (bad : Part → Bool) : Act := work fun p => p.when (bad p) (endHarvest e.k 0x10 0x0A [] 0)

/-- The harvest ends with KEY_USAGE_DENIED, reason 1, where a handle field names a key of another algorithm. -/
def needAlg (e : Env) (f : Nat) (ok : Byte → Bool) : Act := work fun p => p.when (!ok (algOf e p f)) (denyKey e.k 1 f)

/-! ### Registers, keys and output -/

/-- PUBLIC octets in a sealed register. -/
def pub (e : Env) (j : Nat) (bs : List Byte) : Act := work fun p => p.setSreg e.k j (resReg (p.thread e.k) bs 0)

/-- PUBLIC octets in sealed registers from `j`, 16 each. -/
def pubs (e : Env) (j : Nat) (bs : List Byte) : List Act := (Crypto.pieces 16 bs).zipIdx.map fun x => pub e (j + x.2) x.1

/-- A key of a handle field read and checked. -/
def withKey (e : Env) (f : Nat) (algOk : Byte → Bool) (need : BitVec 16 → Bool) (go : PanKey → Part → Part) : Act := fun p =>
  let h := handleOf e p f
  if p.cellarWaits h || !p.panReady e.q.val then none
  else
    match p.slotKey e.k f (p.thread e.k) [] algOk need with
    | (.error stop, p) => settle e.k 16 (stop p)
    | (.ok key, p) => some (go key p)

/-- The check of a handle field's key for a use that no instruction names (R323). -/
def gate (e : Env) (f : Nat) (algOk : Byte → Bool) (need : BitVec 16 → Bool) : Act := withKey e f algOk need fun _ p => p

/-- The check of a derived key's usage bits for a use that no instruction names (R145, R323). -/
def gateReg (e : Env) (j : Nat) (need : BitVec 16 → Bool) : Act := work fun p =>
  let s := sreg (p.thread e.k) j
  p.when (!need (p.templateOf (p.thread e.k) s).usage) (denyKey e.k 0 (s.ksrc.toNat % 4))

/-- The output goes to the list: the descriptor carries one and no pointer. -/
def toList (c : Ctx) : Bool := c.outPtr.isNone && c.sglOut.2 != 0

/-- The first `n` octets of a sealed register at an offset of the output, under R160 and R161. -/
def out (e : Env) (j off n : Nat) : Act := work fun p =>
  let t := p.thread e.k
  let r := sreg t j
  let room := if toList (ctxOf e p) then outListLen (ctxOf e p) else t.outLen
  let bs := (SReg.bytes r).take n
  if room < off + bs.length then p.harvestFault e.k cEmit emitDenied (8 ||| r.cls.setWidth 8)
  else if r.cls = 0 ∨ r.release then
    if toList (ctxOf e p) then p.putList t.ctx off bs else p.putData t.ctx off bs
  else p.harvestFault e.k cEmit emitDenied (r.cls.setWidth 8)

/-- HEND with a selector and an output length; what went to the list is counted there. -/
def finish (e : Env) (sel n : Nat) : Act := fun p =>
  let len := if toList (ctxOf e p) then 0 else n
  ins e (Part.hend e.x 11 12) ((p.setThreadReg e.k 11 (BitVec.ofNat 32 sel)).setThreadReg e.k 12 (BitVec.ofNat 32 len))

abbrev done : Nat := 0
abbrev verdict : Nat := 2

/-- A comparison that the program makes of sealed digits, folded into V with its class (R157). -/
def fold (e : Env) (ok : Part → Bool) (cls : BitVec 3) : Act := work fun p =>
  let v := ok p
  p.modThread e.k fun t => { t with v := t.v && v, vclass := join t.vclass cls }

/-- K fields: H0, H1, and the working key in s8 or the pair s8 and s9. -/
abbrev h0 : BitVec 5 := 0x10
abbrev h1 : BitVec 5 := 0x11
abbrev wk : BitVec 5 := 8

/-! ### MAC chains -/

/-- The phase of piece `i` of `n`. -/
def phaseOf (n i : Nat) : Nat := if n ≤ 1 then pOne else if i = 0 then pLoad else if i + 1 = n then pLast else pNext

/-- The MAC of octets into s13, piece by piece through s15. -/
def macActs (e : Env) (k : BitVec 5) (m : BitVec 9) (msg : List Byte) : List Act :=
  let ps := if msg = [] then [[]] else Crypto.pieces 16 msg
  ps.zipIdx.flatMap fun x =>
    let ph := phaseOf ps.length x.2
    [pub e 15 x.1, ins e (Part.mac e.x (if ph = pOne ∨ ph = pLast then 13 else 0) 15 k (m ||| BitVec.ofNat 9 ph))]

/-- The MAC in s13 compared with octets of the input. -/
def compare (e : Env) (mac : List Byte) : List Act :=
  [pub e 14 mac, ins e (Part.scmp true e.x 13 14 (BitVec.ofNat 5 mac.length))]

abbrev mAlg1 : BitVec 9 := 0x060
abbrev mAlg3 : BitVec 9 := 0x064
abbrev mTdesCmac : BitVec 9 := 0x068
abbrev mAesCmac : BitVec 9 := 0x028
abbrev mTdesEcb : BitVec 9 := 0x040
abbrev mAesEcb : BitVec 9 := 0x000
abbrev mF4 : BitVec 9 := 0x014

/-! ### PIN blocks (R214 to R226) -/

/-- The PIN of a block into s6 (R230 steps 6 and 7, R259): a format 4 block is opened by F4 DEC, its PAN field latched by a
SPIN.PACK whose result is not used. -/
def unpack (e : Env) (fmt : Nat) (k : BitVec 5) (block pan : List Byte) : List Act :=
  if fmt = 4 then
    [pub e 0 block, pub e 1 pan, pub e 2 [], ins e (Part.spinPack e.x 3 2 1 4), ins e (Part.encDec false e.x 4 0 k mF4)
     , ins e (Part.spinUnpk e.x 6 4 1 4)]
  else
    [pub e 0 (block.take 8), pub e 1 pan, ins e (Part.encDec false e.x 4 0 k mTdesEcb)
     , ins e (Part.spinUnpk e.x 6 4 1 (BitVec.ofNat 3 fmt))]

/-- The PIN key that a format needs (R216). -/
def pinAlg (fmt : Nat) (alg : Byte) : Bool := if fmt = 4 then isAes alg else isTdes alg

/-- The PIN in s6 built into a block under H1, and released (R220). -/
def repack (e : Env) (fmt : Nat) : List Act :=
  let n := if fmt = 4 then 16 else 8
  [gate e 1 (pinAlg fmt) (has 10), ins e (Part.spinPack e.x 7 6 1 (BitVec.ofNat 3 fmt))
   , ins e (Part.encDec true e.x 10 7 h1 (if fmt = 4 then mF4 else mTdesEcb)), out e 10 0 n, finish e verdict n]

/-- 0x0010 to 0x0012. -/
def translate (e : Env) (fin fout : Nat) : List Act :=
  [gate e 0 (pinAlg fin) (has 10)] ++ unpack e fin h0 (e.at 0 16) (e.at 16 10) ++ repack e fout

/-- Digit `i` of the PIN in s6. -/
def pinDigit (e : Env) (p : Part) (i : Nat) : Nat := (nib (SReg.operand (sreg (p.thread e.k) 6)) (1 + i)).toNat

/-- The nibbles of a result block. -/
def blockNibs (e : Env) (p : Part) (j : Nat) : List Nat := Library.nibbles (SReg.bytes (sreg (p.thread e.k) j))

/-- The decimal digits of a result block (R237): its digits, then its other nibbles less 10. -/
def decimalise (ns : List Nat) : List Nat := (ns.filter (· ≤ 9)) ++ ((ns.filter (10 ≤ ·)).map (· - 10))

/-- 0x0018 (R225, R226). -/
def verifyOffset (e : Env) : List Act :=
  let n := (fld e.param 4 4).toNat
  let off := Library.nibbles (e.at 34 6)
  let tab := Library.nibbles (e.at 40 8)
  let fmt := (fld e.param 0 3).toNat
  [gate e 0 (pinAlg fmt) (has 10)] ++ unpack e fmt h0 (e.at 0 16) (e.at 16 10) ++
  [gate e 1 isTdes (has 11), pub e 9 (e.at 26 8), ins e (Part.encDec true e.x 10 9 h1 mTdesEcb)
   , fold e (fun p => (List.range n).all fun i =>
       (tab.getD ((blockNibs e p 10).getD i 0) 0 + off.getD i 0) % 10 == pinDigit e p i) 4
   , finish e verdict 0]

/-- 0x0019 (R226): the transformed security parameter carries the PIN's class. -/
def verifyPvv (e : Env) : List Act :=
  let fmt := (fld e.param 0 3).toNat
  let pan := (Library.nibbles (e.at 16 10)).takeWhile (· < 10)
  let head := (pan.dropLast.drop (pan.length - 12)) ++ [(fld e.param 8 4).toNat]
  [gate e 0 (pinAlg fmt) (has 10)] ++ unpack e fmt h0 (e.at 0 16) (e.at 16 10) ++
  [gate e 1 isTdes (has 11)
   , work fun p =>
       let ds := head ++ (List.range 4).map (pinDigit e p)
       p.setSreg e.k 9 (plain (p.thread e.k) (ofNibs fun j => BitVec.ofNat 4 (ds.getD j 0)) 8 4)
   , ins e (Part.encDec true e.x 10 9 h1 mTdesEcb)
   , fold e (fun p => (decimalise (blockNibs e p 10)).take 4 == Library.nibbles (e.at 26 2)) 4
   , finish e verdict 0]

/-! ### Derived keys (R230, R235, R263) -/

/-- The algorithms a first derivation takes (R149, R263): `aes` for AES DUKPT. -/
def derive (e : Env) (algOk : Byte → Bool) (want : PanKey → Byte) (chain : PanKey → List (Nat × List Byte)) : Act :=
  withKey e 0 algOk (has 6) fun key p =>
    let ss := chain key
    if key.child.alg ≠ want key then denyKey e.k 1 0 p
    else if 1 < ss.length ∧ !has 6 key.child.usage then denyKey e.k 0 0 p
    else
      let r := ss.foldl (fun (a : List Byte × Nat) x =>
        let d := kderRun x.1 { key with key := a.1 } x.2
        (d.1, a.2 + d.2)) (key.key, 0)
      let p := p.panBlocks e.q.val r.2
      (Crypto.pieces 16 r.1).zipIdx.foldl
        (fun p y => p.setSreg e.k (8 + y.2) { resReg (p.thread e.k) y.1 2 with ksrc := key.ksrc }) p

/-- The set bits of a counter of `n` bits, from the most significant, as the values the counter passes. -/
def counterSteps (n c : Nat) : List Nat :=
  (((List.range n).reverse.filter c.testBit).foldl (fun (a : List Nat × Nat) b => (a.1 ++ [a.2 + 2 ^ b], a.2 + 2 ^ b)) ([], 0)).1

/-- TDES DUKPT (R230, X9.24-1): the initial key, one step for each set bit, and the variant. -/
def dukptTdes (ksn : List Byte) (variant : List Byte) : List (Nat × List Byte) :=
  let v := ofBe ksn
  let c := v % 2 ^ 21
  let base := v - c
  [(0x001, beBytes 8 (base / 2 ^ 16))] ++ (counterSteps 21 c).map (fun s => (0x002, beBytes 8 ((base + s) % 2 ^ 64)))
    ++ [(0x003, variant ++ variant)]

/-- The variant masks of X9.24-1: PIN, MAC request and response, data request and response (log entry 147). -/
def maskPin : List Byte := beBytes 8 0xFF
def maskMac (response : Bool) : List Byte := beBytes 8 (if response then 0xFF000000 else 0xFF00)
def maskData (response : Bool) : List Byte := beBytes 8 (if response then 0xFF00000000 else 0xFF0000)

/-- Algorithm indicator, key bits and ALG of a key type of X9.24-3, PARAM [18:16]. -/
def keyType (n : Nat) : Nat × Nat × Byte :=
  match n with
  | 0 => (2, 128, 0x10) | 1 => (3, 192, 0x11) | 2 => (4, 256, 0x12) | 3 => (0, 128, 0x01) | _ => (1, 192, 0x02)

/-- The key type of a base derivation key. -/
def typeOfAlg (alg : Byte) : Nat := if alg = 0x11 then 1 else if alg = 0x12 then 2 else 0

/-- The derivation data of X9.24-3 (log entry 147). -/
def derivationData (use type : Nat) (tail : List Byte) : List Byte :=
  let (a, n, _) := keyType type
  [1, 1] ++ beBytes 2 use ++ beBytes 2 a ++ beBytes 2 n ++ tail

/-- AES DUKPT (X9.24-3): the initial key, one intermediate key for each set bit, and the working key. -/
def dukptAes (ksn : List Byte) (use type : Nat) (key : PanKey) : List (Nat × List Byte) :=
  let c := ofBe (ksn.drop 8)
  let kt := typeOfAlg key.alg
  let dev := (ksn.drop 4).take 4
  [(0x010, derivationData 0x8001 kt (ksn.take 8))]
    ++ (counterSteps 32 c).map (fun s => (0x011, derivationData 0x8000 kt (dev ++ beBytes 4 s)))
    ++ [(0x011, derivationData use type (dev ++ ksn.drop 8))]

/-- The working key of a DUKPT program into s8: `use` is its X9.24-3 key usage, `mask` its X9.24-1 variant. -/
def working (e : Env) (aes : Bool) (ksn : List Byte) (use : Nat) (mask : List Byte) : Act :=
  let type := (fld e.param 16 3).toNat
  if aes then derive e isAes (fun _ => (keyType type).2.2) (dukptAes ksn use type)
  else derive e (· == 0x01) (fun _ => 0x01) fun _ => dukptTdes ksn mask

/-- The length of a KSN. -/
def ksnLen (aes : Bool) : Nat := if aes then 12 else 10

/-- The working key is a TDES key. -/
def tdesKey (e : Env) (aes : Bool) : Bool := !aes || decide (3 ≤ (fld e.param 16 3).toNat)

/-- The MAC function of a DUKPT program: algorithm 1 or 3 for TDES DUKPT (R228), else CMAC. -/
def dukptMac (e : Env) (aes : Bool) : BitVec 9 :=
  if !aes then (if bitAt e.param 20 then mAlg3 else mAlg1) else if tdesKey e aes then mTdesCmac else mAesCmac

/-- 0x0040 and 0x0048: the working key must fit the input format (R216). -/
def dukptPin (e : Env) (aes : Bool) : List Act :=
  let fin := (fld e.param 0 3).toNat
  [working e aes (e.at 26 (ksnLen aes)) 0x1000 maskPin
   , work fun p => p.when (!pinAlg fin (p.templateOf (p.thread e.k) (sreg (p.thread e.k) 8)).alg) (denyKey e.k 1 0)
   , gateReg e 8 (has 10)]
  ++ unpack e fin wk (e.at 0 16) (e.at 16 10) ++ repack e (fld e.param 4 3).toNat

/-- 0x0041 and 0x0049. -/
def dukptVerify (e : Env) (aes : Bool) : List Act :=
  let n := ksnLen aes
  let ml := Library.macLen e.param
  let len := e.data.length - n - ml
  let resp := bitAt e.param 3
  [working e aes (e.at 0 n) (if resp then 0x2001 else 0x2000) (maskMac resp), gateReg e 8 (has 3)]
    ++ macActs e wk (dukptMac e aes) (e.at n len) ++ compare e (e.at (n + len) ml) ++ [finish e verdict 0]

/-- 0x0042 and 0x004A. -/
def dukptDecrypt (e : Env) (aes : Bool) : List Act :=
  let n := ksnLen aes
  let tdes := tdesKey e aes
  let m : BitVec 9 := if tdes then 0x044 else 0x004
  let resp := bitAt e.param 3
  let ps := Crypto.pieces 16 (e.data.drop (n + 16))
  [working e aes (e.at 0 n) (if resp then 0x3001 else 0x3000) (maskData resp), gateReg e 8 (has 1)
   , pub e 0 (e.at n (if tdes then 8 else 16)), ins e (Part.encDec false e.x 0 0 wk (m ||| 1))]
  ++ ps.zipIdx.flatMap (fun x =>
      [pub e 1 x.1, ins e (Part.encDec false e.x 2 1 wk (m ||| (if x.2 + 1 = ps.length then 3 else 2)))
       , out e 2 (16 * x.2) 16])
  ++ [finish e done (e.data.length - n - 16)]

/-- 0x0043 and 0x004B: the response MAC. -/
def dukptGenerate (e : Env) (aes : Bool) : List Act :=
  let n := ksnLen aes
  let ml := Library.macLen e.param
  [working e aes (e.at 0 n) 0x2001 (maskMac true), gateReg e 8 (has 2)]
    ++ macActs e wk (dukptMac e aes) (e.data.drop n) ++ [out e 13 0 ml, finish e done ml]

/-! ### MAC (R231) -/

/-- The MAC function of PARAM [2:0]. -/
def macMode (a : Nat) : BitVec 9 :=
  match a with | 0 => mAlg1 | 1 => mAlg3 | 2 => mAesCmac | 3 => 0x088 | 4 => 0x08C | _ => 0x090

/-- A message under the padding of PARAM: method 2 appends 0x80 (R257). -/
def padded (method2 : Bool) (msg : List Byte) : List Byte := if method2 then msg ++ [0x80] else msg

/-- 0x0060, and with `ver` 0x0061. -/
def macProgram (e : Env) (ver : Bool) : List Act :=
  let ml := Library.macLen e.param
  let a := (fld e.param 0 3).toNat
  let len := if ver then e.data.length - ml else e.data.length
  let alg : Byte → Bool := if a ≤ 1 then isTdes else if a = 2 then isAes else isHmac
  [gate e 0 alg (has (if ver then 3 else 2))] ++ macActs e h0 (macMode a) (padded (bitAt e.param 3) (e.at 0 len))
    ++ if ver then compare e (e.at len ml) ++ [finish e verdict 0] else [out e 13 0 ml, finish e done ml]

/-! ### EMV (R232 to R235) -/

/-- The block of PAN and PAN sequence number: their 16 rightmost digits (EMV Book 2, A1.4 option A). -/
def panSequence (e : Env) : List Byte :=
  let ds := (Library.nibbles (e.at 0 10)).takeWhile (· < 10) ++ Library.nibbles (e.at 10 1)
  beBytes 8 (ds.foldl (fun n d => (16 * n + d) % 2 ^ 64) 0)

/-- The key of an EMV program into s8: the card master key, or a session key from the ATC, or with PARAM [2] of 0x0084 from the
cryptogram received. -/
def emvKey (e : Env) (script : Bool) : Act :=
  let block := if script && bitAt e.param 2 then e.at 16 8 else e.at 12 2 ++ List.replicate 6 0
  derive e (fun a => a == 0x01 || isAes a) (fun key => if isAes key.alg then 0x10 else 0x01) fun _ =>
    [(0x020, panSequence e)] ++ if bitAt e.param 0 then [] else [(0x021, block)]

/-- The steps that follow depend on the issuer master key's algorithm. -/
def byAlg (e : Env) (f : Bool → List Act) : Act := fun p => steps e (f (isAes (algOf e p 0))) p

/-- The cryptogram of the transaction data into s13. -/
def cryptogram (e : Env) (aes : Bool) : List Act :=
  refuseInput e (fun _ => aes && bitAt e.param 1)
    :: macActs e wk (if aes then mAesCmac else mAlg3) (padded (!aes && bitAt e.param 1) (e.data.drop 40))

/-- The ARPC of method 1 or 2 into s13: its length. -/
def arpc1 (e : Env) (aes : Bool) : List Act :=
  let y := Crypto.xorB (e.at 16 8) (e.at 24 2 ++ List.replicate 6 0)
  if aes then [pub e 12 (Crypto.padR 16 y), ins e (Part.encDec true e.x 13 12 wk mAesEcb)]
  else [pub e 12 y, ins e (Part.encDec true e.x 13 12 wk mTdesEcb)]

def arpc2 (e : Env) (aes : Bool) : List Act :=
  let y := e.at 16 8 ++ e.at 24 4 ++ e.at 32 (e.data.getD 28 0).toNat
  gateReg e 8 (has 2) :: macActs e wk (if aes then mAesCmac else mAlg3) (padded (!aes) y)

/-- 0x0080 to 0x0082: `method` 0 makes no ARPC. -/
def emvVerify (e : Env) (method : Nat) : List Act :=
  [emvKey e false, byAlg e fun aes =>
    let n := if method = 0 then 0 else if method = 2 then 4 else if aes then 16 else 8
    [gateReg e 8 (has 3)] ++ cryptogram e aes ++ compare e (e.at 16 8)
      ++ (if method = 0 then [] else (if method = 1 then arpc1 e aes else arpc2 e aes) ++ [out e 13 0 n])
      ++ [finish e verdict n]]

/-- The result in s13 leaves only where its key's template has the INTERMEDIATE bit (R235). -/
def needIntermediate (e : Env) : Act := work fun p =>
  let t := p.thread e.k
  let m := p.templateOf t (sreg t 8)
  p.setSreg e.k 13 { sreg t 13 with release := bitAt m.mask 1 && has 2 m.usage }

/-- 0x0083. -/
def emvGenerate (e : Env) : List Act :=
  [emvKey e false, byAlg e fun aes =>
    [gateReg e 8 (has 2)] ++ cryptogram e aes ++ [needIntermediate e, out e 13 0 8, finish e done 8]]

/-- 0x0084. -/
def emvScript (e : Env) : List Act :=
  let ml := Library.macLen e.param
  [emvKey e true, byAlg e fun aes =>
    [gateReg e 8 (has 2)] ++ cryptogram e aes ++ [out e 13 0 ml, finish e done ml]]

/-! ### Card verification values and check values (R236, R237, R245) -/

/-- The PAN, expiry and service code, right-filled with zero digits to 16 octets. -/
def cvvBlock (e : Env) : List Byte :=
  let ds := (Library.nibbles (e.at 0 10)).takeWhile (· < 10) ++ (Library.nibbles (e.at 10 4)).take 7
  beBytes 16 (ofBe ((Crypto.pieces 2 ((Crypto.padR 32 (ds.map (BitVec.ofNat 8))).take 32)).map fun b =>
    BitVec.ofNat 8 (16 * (b.getD 0 0).toNat + (b.getD 1 0).toNat)))

/-- 0x00A0, and with `gen` 0x00A1: single DES under the left half over both halves of the block, then the right and left
halves, which is MAC algorithm 3; the input of its last step is INTERMEDIATE. -/
def cvv (e : Env) (gen : Bool) : List Act :=
  let n := (fld e.param 0 3).toNat
  [withKey e 0 (· == 0x01) (fun u => has 12 u && has 0 u) fun key p =>
     (p.panBlocks e.q.val 2).setSreg e.k 13
       { resReg (p.thread e.k) (Part.macOf mAlg3 key.key (cvvBlock e)) 1 with release := mayRelease key 1 true }]
  ++ if gen then [out e 13 0 8, finish e done 8]
     else
       [fold e (fun p => (decimalise (blockNibs e p 13)).take n == (Library.nibbles (e.at 14 3)).take n) 1, finish e verdict 0]

/-- 0x00D1 (R245): a TDES or AES key, released by the PUBLIC bit alone. An HMAC key, for which the spec gives no check value, ends it
with KEY_USAGE_DENIED, reason 1 (log entry 182). -/
def checkValue (e : Env) : List Act :=
  [withKey e 0 (fun a => isAes a || isTdes a) (fun _ => true) (fun key p =>
     let v := if isAes key.alg then Crypto.cmac (Crypto.aes key.key) (List.replicate 16 0)
              else (Crypto.tdes key.key).enc (List.replicate 8 0)
     (p.panBlocks e.q.val (if isAes key.alg then 2 else 1)).setSreg e.k 13
       { resReg (p.thread e.k) v 1 with release := mayRelease key 0 true })
   , byAlg e fun aes => let n := if aes then 5 else 3; [out e 13 0 n, finish e done n]]

/-! ### Key blocks, components and wrapped secrets (R238 to R244) -/

/-- The pieces that a chain of key transport still has, through s13 to the output from an offset; then the end of the harvest. -/
def drain (e : Env) (k : BitVec 5) (m : BitVec 9) : Nat → Nat → Act
  | 0, off => finish e done off
  | n + 1, off => fun p =>
    match (p.thread e.k).chain with
    | none => finish e done off p
    | some c =>
      let rest := c.state.length - c.total
      if rest = 0 then finish e done off p
      else
        steps e
          [ins e (Part.encDec true e.x 13 0 k (m ||| (if rest ≤ 16 then 3 else 2))), out e 13 off 16
           , drain e k m n (off + min 16 rest)] p

/-- 0x00B0: what fails is refused by SWR (R241). -/
def keyImport (e : Env) : List Act :=
  [ins e (Part.encDec false e.x 0 0 h0 0x100), ins e (Part.swr e.x 0 1), finish e done 0]

/-- KB.BUILD of a key under H1, its first piece and the rest. -/
def buildUnder (e : Env) (k : BitVec 5) : List Act :=
  [ins e (Part.encDec true e.x 0 0 k 0x105), ins e (Part.encDec true e.x 13 0 h1 0x106), out e 13 0 16
   , drain e h1 0x104 1100 16]

/-- 0x00B2: a block that fails a check of its import ends EMIT_DENIED, detail 0x03 (R241). -/
def rewrap (e : Env) : List Act :=
  [ins e (Part.encDec false e.x 0 0 h0 0x100)
   , work fun p => p.when (!isKeyReg (sreg (p.thread e.k) 0)) (harvestFault e.k cEmit emitDenied 3)] ++ buildUnder e 0

/-- 0x00D0 (R244): each component by its own DEC instructions in ECB, joined by SCOMB. -/
def combine (e : Env) : List Act :=
  let n := e.data.length / 2
  [gate e 0 (fun a => isAes a || isTdes a) (has 14)]
  ++ (List.range (n / 16)).flatMap (fun i =>
      let m := fun p => if isTdes (algOf e p 0) then mTdesEcb else mAesEcb
      let r := BitVec.ofNat 4 i
      [pub e (4 + i) (e.at (16 * i) 16), fun p => ins e (Part.encDec false e.x (4 + r) (4 + r) h0 (m p)) p
       , pub e (6 + i) (e.at (n + 16 * i) 16), fun p => ins e (Part.encDec false e.x (6 + r) (6 + r) h0 (m p)) p
       , ins e (Part.scomb e.x r (4 + r) (6 + r))])
  ++ [ins e (Part.swr e.x 0 1), finish e done 0]

/-- The shared secret of `n` octets in s0 and onward wrapped under H1 by RFC 3394, at an offset of the output; then the end. A
length that RFC 3394 does not take gives free octets. `f` changes the secret first. A secret that R324 keeps in the part is refused
(log entry 184). -/
def wrapSecret (e : Env) (n off : Nat) (f : List Byte → List Byte) : Act :=
  fun p =>
    let s := f (((List.range ((n + 15) / 16)).flatMap fun i => SReg.octets (sreg (p.thread e.k) i)).take n)
    let s0 := sreg (p.thread e.k) 0
    let ok := isKeyReg s0
    let kept := p.keepsIn (p.thread e.k) s0
    steps e
      [withKey e 1 isAes (has 4) (fun key p =>
         if kept then denyKey e.k 2 (s0.ksrc.toNat % 4) p
         else
         let (d, p) := p.draw
         let c := if s.length % 8 = 0 then Crypto.keyWrap (Crypto.aes key.key) s else drawBytes d (s.length + 8)
         (Crypto.pieces 16 c).zipIdx.foldl
           (fun p y => p.setSreg e.k (4 + y.2) { resReg (p.thread e.k) y.1 1 with release := mayRelease key 2 ok }) p)
       , steps e ((List.range ((s.length + 23) / 16)).map fun i => out e (4 + i) (off + 16 * i) 16)
       , finish e done (off + s.length + 8)] p

/-! ### Public-key and lattice programs (R246 to R248, R288) -/

/-- An operand map (R288): first input, second input, output space; where they lie; LAYER. -/
def opMap (in1 in2 outp : Nat × Nat) (src : Nat) (list list2 : Bool) (layer : Nat) : List Byte :=
  let w := fun (x : Nat × Nat) => leBytes 4 (x.1 + 65536 * x.2)
  w in1 ++ w in2 ++ w outp
    ++ leBytes 4 (src + (if list then 4 else 0) + (if list2 then 8 else 0) + 256 * layer)

/-- An ENGX on H`f` with a map over the input, in s15; its result from s0. -/
def engine (e : Env) (op : BitVec 9) (f : Nat) (in1 in2 : Nat × Nat) (outOff : Nat) (src : Option Nat) (layer : Nat) : Act :=
  fun p =>
    let c := ctxOf e p
    let inList := decide (c.sglIn.2 ≠ 0)
    let slot := p.slot (hIndex (handleOf e p f))
    let n := Pk.outLen op.toNat slot.alg.toNat slot.modLimbs.toNat
    let m := opMap in1 in2 (outOff, n) (src.getD (if inList then 1 else 0)) (toList c)
      (Pk.verifies op.toNat && inList) layer
    steps e [pub e 15 m, ins e (Part.engx op e.x 0 15 (BitVec.ofNat 5 (0x10 + f)))] p

/-- A verifying program of a message followed by its signature. -/
def verifyProgram (e : Env) (op : BitVec 9) : List Act :=
  [fun p =>
    let n := Pk.sigLen (algOf e p 0).toNat
    let len := e.data.length - n
    steps e [refuseInput e (fun _ => decide (e.data.length < n)), engine e op 0 (0, len) (len, n) 0 none 0, finish e verdict 0] p]

/-- The end after an output of an operation on H0. -/
def finishOp (e : Env) (op : Nat) : Act := fun p => finish e done (Pk.outLen op (algOf e p 0).toNat 0) p

/-- 0x0128: the FORS signature, then each layer of the hypertree over the root in s0 (R310). -/
def slhSign (e : Env) : List Act :=
  [engine e 0x090 0 (0, e.data.length) (0, 0) 0 none 0, fun p =>
    let alg := (algOf e p 0).toNat
    let (n, _, _, d, _) := Pk.slh alg
    let base := Pk.outLen Pk.slhFors alg 0
    let each := Pk.outLen Pk.slhLayer alg 0
    steps e ((List.range d).map (fun i => engine e 0x091 0 (0, n) (0, 0) (base + i * each) (some 2) i)
      ++ [finish e done (base + d * each)]) p]

/-- 0x0130: both signatures over the digest in s0 to s3; nothing of one is released where the other fails (R248). -/
def hybridSign (e : Env) : List Act :=
  let dig := Pk.fit 64 (Config.hybridDigest e.data)
  let ec : Act := steps e (pubs e 0 dig ++ [engine e 0x040 0 (0, 64) (0, 0) 0 (some 2) 0])
  let ml : Act := steps e (pubs e 0 dig ++ [engine e 0x080 1 (0, 64) (0, 0) 96 (some 2) 0])
  [needAlg e 0 (· == 0x31), needAlg e 1 (· == 0x42)
   , fun p => (ml p).bind fun q => if (q.thread e.k).busy then steps e [ec, ml] p else some q
   , finish e done (96 + Pk.sigLen 0x42)]

/-- 0x0131. -/
def hybridVerify (e : Env) : List Act :=
  let n := Pk.sigLen 0x42
  let len := e.data.length - (96 + n)
  let dig := Pk.fit 64 (Config.hybridDigest (e.at 0 len))
  [refuseInput e (fun _ => decide (e.data.length < 96 + n)), needAlg e 0 (· == 0x31), needAlg e 1 (· == 0x42)
   , steps e (pubs e 0 dig ++ [engine e 0x041 0 (0, 64) (len, 96) 0 (some 2) 0])
   , steps e (pubs e 0 dig ++ [engine e 0x081 1 (0, 64) (len + 96, n) 0 (some 2) 0])
   , finish e verdict 0]

/-- The secret of an operation on H0, with the ciphertext it puts out. -/
def withSecret (e : Env) (op : BitVec 9) (len : Nat) (f : List Byte → List Byte) : List Act :=
  [engine e op 0 (0, len) (0, 0) 0 none 0, fun p =>
    let alg := (algOf e p 0).toNat
    wrapSecret e (Pk.secretLen op.toNat alg) (Pk.outLen op.toNat alg 0) f p]

/-- HKDF-SHA-256 (RFC 5869) of a secret with an info string and no salt; how many octets it makes is free (log entry 181). -/
def hkdf (secret info : List Byte) : List Byte :=
  let prk := Crypto.hmac 2 (List.replicate 32 0) secret
  let n := Config.hkdfLen
  ((List.range ((n + 31) / 32)).foldl (fun (a : List Byte × List Byte) i =>
    let t := Crypto.hmac 2 prk (a.2 ++ info ++ [BitVec.ofNat 8 (i + 1)])
    (a.1 ++ t, t)) ([], [])).1.take n

/-! ### The programs -/

/-- The steps of a library program (R210); none for a number that never runs on a thread. -/
def program (e : Env) (num : Nat) : Option (List Act) :=
  let lo := (fld e.param 0 3).toNat
  let hi := (fld e.param 4 3).toNat
  match num with
  | 0x0000 => some [pub e 0 e.data, out e 0 0 16, finish e done e.data.length]
  | 0x0010 => some (translate e lo hi)
  | 0x0011 => some (translate e 0 4)
  | 0x0012 => some (translate e 4 4)
  | 0x0018 => some (verifyOffset e)
  | 0x0019 => some (verifyPvv e)
  | 0x0040 => some (dukptPin e false)
  | 0x0048 => some (dukptPin e true)
  | 0x0041 => some (dukptVerify e false)
  | 0x0049 => some (dukptVerify e true)
  | 0x0042 => some (dukptDecrypt e false)
  | 0x004A => some (dukptDecrypt e true)
  | 0x0043 => some (dukptGenerate e false)
  | 0x004B => some (dukptGenerate e true)
  | 0x0060 => some (macProgram e false)
  | 0x0061 => some (macProgram e true)
  | 0x0080 => some (emvVerify e 0)
  | 0x0081 => some (emvVerify e 1)
  | 0x0082 => some (emvVerify e 2)
  | 0x0083 => some (emvGenerate e)
  | 0x0084 => some (emvScript e)
  | 0x00A0 => some (cvv e false)
  | 0x00A1 => some (cvv e true)
  | 0x00B0 => some (keyImport e)
  | 0x00B1 => some (buildUnder e h0)
  | 0x00B2 => some (rewrap e)
  | 0x00D0 => some (combine e)
  | 0x00D1 => some (checkValue e)
  | 0x0102 => some [engine e 0x002 0 (0, e.data.length) (0, 0) 0 none 0, ins e (Part.swr e.x 0 1), finish e done 0]
  | 0x0112 => some [engine e 0x048 0 (0, e.data.length) (0, 0) 0 none 0, finishOp e Pk.edSign]
  | 0x0113 => some (verifyProgram e 0x049)
  | 0x0114 => some (withSecret e 0x042 e.data.length fun s =>
      if bitAt e.param 0 then hkdf s e.info else s)
  | 0x0122 => some (withSecret e 0x088 0 id)
  | 0x0123 => some (withSecret e 0x089 e.data.length id)
  | 0x0124 => some [engine e 0x088 0 (0, 0) (0, 0) 0 none 0, ins e (Part.swr e.x 0 1), finishOp e Pk.mlkemEnc]
  | 0x0125 => some [engine e 0x089 0 (0, e.data.length) (0, 0) 0 none 0, ins e (Part.swr e.x 0 1), finish e done 0]
  | 0x0128 => some (slhSign e)
  | 0x0129 => some (verifyProgram e 0x092)
  | 0x0130 => some (hybridSign e)
  | 0x0131 => some (hybridVerify e)
  | _ => none

/-- The thread of a program as its run here begins: its own budget is enough for it, and its program counter stands on a free
instruction of its segment. -/
def ready (k : Nat) (p : Part) : Part :=
  let (n, p) := p.draw
  p.modThread k fun t =>
    { t with pc := (Config.freeWord n).extractLsb' 2 14 ++ 0#2 |>.setWidth 32, segLen := 2 ^ 24, budget := 2 ^ 24 }

/-- The whole program of a thread whose library harvest has issued nothing, may issue an instruction and is next in its sequencer's
order; none for any other thread. -/
def wholeRun (q : Fin 16) (t : Fin 32) (p : Part) : Option Part :=
  let th := p.thread (threadNo q t)
  if th.busy && th.library && th.issued == 0 && th.budget != 0 && !p.sys.scanStopped && (p.threadTurn (threadNo q t)).isSome then
    let e : Env :=
      { q := q, t := t, data := inputOf p th.ctx, param := (p.ctx th.ctx).param, info := p.inline2 th.ctx 0 28 }
    (program e th.program.toNat).map fun as => (steps e as (ready (threadNo q t) p)).getD p
  else none

end Rom

namespace Part

/-- HEND, or the library program it stands for. -/
def hendOrRun (x : Proc) (gs gl : BitVec 5) (p : Part) : Part :=
  match x with
  | .thread q t => (Rom.wholeRun q t p).getD (p.hend x gs gl)
  | .core _ => p.hend x gs gl

end Part

/-! ### The meanings -/

/-- HEND (R159); as the first command of a library harvest, its program (R214 to R248). -/
def execHend (x : Proc) (gs gl : BitVec 5) (s : State) : Host.Outcome State Fault Refusal := onPart (Part.hendOrRun x gs gl) s

end Sys2Proof.Machine
end

