-- ==== Sys2Proof/Machine/Dispatch.lean ====
section
/-! DEFINITION. Every command goes to its meaning. -/

namespace Sys2Proof.Machine

def exec (i : Instr) (s : State) : Host.Outcome State Fault Refusal :=
  match i with
  | .registerWrite target v => Sys2Proof.Machine.execRegisterWrite target v s
  | .stagedSetApply block => Sys2Proof.Machine.execStagedSetApply block s
  | .powerGood aonLost unitSel => Sys2Proof.Machine.execPowerGood aonLost unitSel s
  | .pllLock xin1 => Sys2Proof.Machine.execPllLock xin1 s
  | .fullReset cause => Sys2Proof.Machine.execFullReset cause s
  | .resetNLowTimeout => Sys2Proof.Machine.execResetNLowTimeout s
  | .resetNRise filtered unitSel => Sys2Proof.Machine.execResetNRise filtered unitSel s
  | .mainPowerFail vbat => Sys2Proof.Machine.execMainPowerFail vbat s
  | .supplyResetStart => Sys2Proof.Machine.execSupplyResetStart s
  | .hostLinkReset => Sys2Proof.Machine.execHostLinkReset s
  | .linkTrained rates widths flit => Sys2Proof.Machine.execLinkTrained rates widths flit s
  | .pfFlr => Sys2Proof.Machine.execPfFlr s
  | .vfFlr v => Sys2Proof.Machine.execVfFlr v s
  | .drainTimeout n => Sys2Proof.Machine.execDrainTimeout n s
  | .numvfsWrite v => Sys2Proof.Machine.execNumvfsWrite v s
  | .vfEnableSet => Sys2Proof.Machine.execVfEnableSet s
  | .vfEnableClear => Sys2Proof.Machine.execVfEnableClear s
  | .busMasterEnableClear n => Sys2Proof.Machine.execBusMasterEnableClear n s
  | .busMasterEnableSet n => Sys2Proof.Machine.execBusMasterEnableSet n s
  | .configWrite n dw v => Sys2Proof.Machine.execConfigWrite n dw v s
  | .d3hotEntry => Sys2Proof.Machine.execD3hotEntry s
  | .d0Return => Sys2Proof.Machine.execD0Return s
  | .msixUnmask n v => Sys2Proof.Machine.execMsixUnmask n v s
  | .hifResetReqFull key => Sys2Proof.Machine.execHifResetReqFull key s
  | .hostResetAck => Sys2Proof.Machine.execHostResetAck s
  | .hostResetTimeout => Sys2Proof.Machine.execHostResetTimeout s
  | .doeObject object inner good => Sys2Proof.Machine.execDoeObject object inner good s
  | .ideKm stream op fns => Sys2Proof.Machine.execIdeKm stream op fns s
  | .lockInterface v => Sys2Proof.Machine.execLockInterface v s
  | .startInterface v => Sys2Proof.Machine.execStartInterface v s
  | .stopInterface v => Sys2Proof.Machine.execStopInterface v s
  | .qpCommit n q => Sys2Proof.Machine.execQpCommit n q s
  | .qpEnableSet n q => Sys2Proof.Machine.execQpEnableSet n q s
  | .qpEnableClear n q => Sys2Proof.Machine.execQpEnableClear n q s
  | .sqTailWrite n q v => Sys2Proof.Machine.execSqTailWrite n q v s
  | .cqHeadWrite n q v => Sys2Proof.Machine.execCqHeadWrite n q v s
  | .dspEnableWrite on => Sys2Proof.Machine.execDspEnableWrite on s
  | .dspCommit => Sys2Proof.Machine.execDspCommit s
  | .laneFetch g n => Sys2Proof.Machine.execLaneFetch g n s
  | .descriptorDecode c desc input => Sys2Proof.Machine.execDescriptorDecode c desc input s
  | .sglRead c lists => Sys2Proof.Machine.execSglRead c lists s
  | .operationPlace c data => Sys2Proof.Machine.execOperationPlace c data s
  | .completionWrite c => Sys2Proof.Machine.execCompletionWrite c s
  | .coalTimeExpiry g => Sys2Proof.Machine.execCoalTimeExpiry g s
  | .bulkStreamStart c => Sys2Proof.Machine.execBulkStreamStart c s
  | .bulkChunk c data => Sys2Proof.Machine.execBulkChunk c data s
  | .bulkStreamEnd c => Sys2Proof.Machine.execBulkStreamEnd c s
  | .harvestStart c => Sys2Proof.Machine.execHarvestStart c s
  | .engineResult q t n => Sys2Proof.Machine.execEngineResult q t n s
  | .budgetExhausted q t => Sys2Proof.Machine.execBudgetExhausted q t s
  | .mldsaFixedDelivery q t n => Sys2Proof.Machine.execMldsaFixedDelivery q t n s
  | .add x rd ra rb => Sys2Proof.Machine.execAdd x rd ra rb s
  | .sub x rd ra rb => Sys2Proof.Machine.execSub x rd ra rb s
  | .and x rd ra rb => Sys2Proof.Machine.execAnd x rd ra rb s
  | .or x rd ra rb => Sys2Proof.Machine.execOr x rd ra rb s
  | .xor x rd ra rb => Sys2Proof.Machine.execXor x rd ra rb s
  | .slt x rd ra rb => Sys2Proof.Machine.execSlt x rd ra rb s
  | .sltu x rd ra rb => Sys2Proof.Machine.execSltu x rd ra rb s
  | .sll x rd ra rb => Sys2Proof.Machine.execSll x rd ra rb s
  | .srl x rd ra rb => Sys2Proof.Machine.execSrl x rd ra rb s
  | .sra x rd ra rb => Sys2Proof.Machine.execSra x rd ra rb s
  | .slli x rd ra rb => Sys2Proof.Machine.execSlli x rd ra rb s
  | .srli x rd ra rb => Sys2Proof.Machine.execSrli x rd ra rb s
  | .srai x rd ra rb => Sys2Proof.Machine.execSrai x rd ra rb s
  | .mul x rd ra rb => Sys2Proof.Machine.execMul x rd ra rb s
  | .mulhi x rd ra rb => Sys2Proof.Machine.execMulhi x rd ra rb s
  | .mulhiu x rd ra rb => Sys2Proof.Machine.execMulhiu x rd ra rb s
  | .div x rd ra rb => Sys2Proof.Machine.execDiv x rd ra rb s
  | .divu x rd ra rb => Sys2Proof.Machine.execDivu x rd ra rb s
  | .mod x rd ra rb => Sys2Proof.Machine.execMod x rd ra rb s
  | .modu x rd ra rb => Sys2Proof.Machine.execModu x rd ra rb s
  | .addi x rd ra imm => Sys2Proof.Machine.execAddi x rd ra imm s
  | .andi x rd ra imm => Sys2Proof.Machine.execAndi x rd ra imm s
  | .ori x rd ra imm => Sys2Proof.Machine.execOri x rd ra imm s
  | .xori x rd ra imm => Sys2Proof.Machine.execXori x rd ra imm s
  | .slti x rd ra imm => Sys2Proof.Machine.execSlti x rd ra imm s
  | .sltiu x rd ra imm => Sys2Proof.Machine.execSltiu x rd ra imm s
  | .lih x rd imm => Sys2Proof.Machine.execLih x rd imm s
  | .lb x rd ra imm => Sys2Proof.Machine.execLb x rd ra imm s
  | .lh x rd ra imm => Sys2Proof.Machine.execLh x rd ra imm s
  | .lw x rd ra imm => Sys2Proof.Machine.execLw x rd ra imm s
  | .lbu x rd ra imm => Sys2Proof.Machine.execLbu x rd ra imm s
  | .lhu x rd ra imm => Sys2Proof.Machine.execLhu x rd ra imm s
  | .sb x rs ra imm => Sys2Proof.Machine.execSb x rs ra imm s
  | .sh x rs ra imm => Sys2Proof.Machine.execSh x rs ra imm s
  | .sw x rs ra imm => Sys2Proof.Machine.execSw x rs ra imm s
  | .lr x rd ra => Sys2Proof.Machine.execLr x rd ra s
  | .sc x rd ra rs => Sys2Proof.Machine.execSc x rd ra rs s
  | .tas x rd ra => Sys2Proof.Machine.execTas x rd ra s
  | .reservationTimeout c => Sys2Proof.Machine.execReservationTimeout c s
  | .beq x ra rb off => Sys2Proof.Machine.execBeq x ra rb off s
  | .bne x ra rb off => Sys2Proof.Machine.execBne x ra rb off s
  | .blt x ra rb off => Sys2Proof.Machine.execBlt x ra rb off s
  | .bge x ra rb off => Sys2Proof.Machine.execBge x ra rb off s
  | .bltu x ra rb off => Sys2Proof.Machine.execBltu x ra rb off s
  | .bgeu x ra rb off => Sys2Proof.Machine.execBgeu x ra rb off s
  | .j x off => Sys2Proof.Machine.execJ x off s
  | .call x off => Sys2Proof.Machine.execCall x off s
  | .jlr x rd ra imm => Sys2Proof.Machine.execJlr x rd ra imm s
  | .trap x n => Sys2Proof.Machine.execTrap x n s
  | .eret x => Sys2Proof.Machine.execEret x s
  | .brk x => Sys2Proof.Machine.execBrk x s
  | .doze x => Sys2Proof.Machine.execDoze x s
  | .dozeWake c => Sys2Proof.Machine.execDozeWake c s
  | .fence x => Sys2Proof.Machine.execFence x s
  | .fenceCode x => Sys2Proof.Machine.execFenceCode x s
  | .fenceRule x => Sys2Proof.Machine.execFenceRule x s
  | .fenceRuleComplete c => Sys2Proof.Machine.execFenceRuleComplete c s
  | .mfsr x rd sr => Sys2Proof.Machine.execMfsr x rd sr s
  | .mtsr x sr ra => Sys2Proof.Machine.execMtsr x sr ra s
  | .interruptTake c => Sys2Proof.Machine.execInterruptTake c s
  | .sclr x sd => Sys2Proof.Machine.execSclr x sd s
  | .smov x sd sa => Sys2Proof.Machine.execSmov x sd sa s
  | .sxor x sd sa sb => Sys2Proof.Machine.execSxor x sd sa sb s
  | .sand x sd sa sb => Sys2Proof.Machine.execSand x sd sa sb s
  | .sor x sd sa sb => Sys2Proof.Machine.execSor x sd sa sb s
  | .sshf x sd sa k => Sys2Proof.Machine.execSshf x sd sa k s
  | .sperm x sd sa sb h => Sys2Proof.Machine.execSperm x sd sa sb h s
  | .sdec x sd sa sb => Sys2Proof.Machine.execSdec x sd sa sb s
  | .ssel x sd sa sb => Sys2Proof.Machine.execSsel x sd sa sb s
  | .scmp x sa sb n => Sys2Proof.Machine.execScmp x sa sb n s
  | .scmpA x sa sb n => Sys2Proof.Machine.execScmpA x sa sb n s
  | .scomb x sd sa sb => Sys2Proof.Machine.execScomb x sd sa sb s
  | .spinUnpk x sd sa sb f => Sys2Proof.Machine.execSpinUnpk x sd sa sb f s
  | .spinPack x sd sa sb f => Sys2Proof.Machine.execSpinPack x sd sa sb f s
  | .sld x sd ga n off => Sys2Proof.Machine.execSld x sd ga n off s
  | .sins x sd gs w => Sys2Proof.Machine.execSins x sd gs w s
  | .sext x gd ss w => Sys2Proof.Machine.execSext x gd ss w s
  | .emit x ss go => Sys2Proof.Machine.execEmit x ss go s
  | .hend x gs gl => Sys2Proof.Machine.execHend x gs gl s
  | .swr x ss f => Sys2Proof.Machine.execSwr x ss f s
  | .landingSlotWrite q t => Sys2Proof.Machine.execLandingSlotWrite q t s
  | .enc x sd ss k m => Sys2Proof.Machine.execEnc x sd ss k m s
  | .dec x sd ss k m => Sys2Proof.Machine.execDec x sd ss k m s
  | .mac x sd ss k m => Sys2Proof.Machine.execMac x sd ss k m s
  | .hash x sd ss k m => Sys2Proof.Machine.execHash x sd ss k m s
  | .kder x sd ss k m => Sys2Proof.Machine.execKder x sd ss k m s
  | .rsaSign x sd ss k => Sys2Proof.Machine.execRsaSign x sd ss k s
  | .rsaVerify x sd ss k => Sys2Proof.Machine.execRsaVerify x sd ss k s
  | .rsaOaepDec x sd ss k => Sys2Proof.Machine.execRsaOaepDec x sd ss k s
  | .ecSign x sd ss k => Sys2Proof.Machine.execEcSign x sd ss k s
  | .ecVerify x sd ss k => Sys2Proof.Machine.execEcVerify x sd ss k s
  | .ecDh x sd ss k => Sys2Proof.Machine.execEcDh x sd ss k s
  | .edSign x sd ss k => Sys2Proof.Machine.execEdSign x sd ss k s
  | .edVerify x sd ss k => Sys2Proof.Machine.execEdVerify x sd ss k s
  | .mldsaSign x sd ss k => Sys2Proof.Machine.execMldsaSign x sd ss k s
  | .mldsaVerify x sd ss k => Sys2Proof.Machine.execMldsaVerify x sd ss k s
  | .mlkemEnc x sd ss k => Sys2Proof.Machine.execMlkemEnc x sd ss k s
  | .mlkemDec x sd ss k => Sys2Proof.Machine.execMlkemDec x sd ss k s
  | .slhFors x sd ss k => Sys2Proof.Machine.execSlhFors x sd ss k s
  | .slhLayer x sd ss k => Sys2Proof.Machine.execSlhLayer x sd ss k s
  | .slhVerify x sd ss k => Sys2Proof.Machine.execSlhVerify x sd ss k s
  | .engineOpStart e => Sys2Proof.Machine.execEngineOpStart e s
  | .engineOpEnd e releaseFail rejected => Sys2Proof.Machine.execEngineOpEnd e releaseFail rejected s
  | .seqPmemDataWrite v => Sys2Proof.Machine.execSeqPmemDataWrite v s
  | .loadOpenClear => Sys2Proof.Machine.execLoadOpenClear s
  | .seqRunSet => Sys2Proof.Machine.execSeqRunSet s
  | .seqCommit => Sys2Proof.Machine.execSeqCommit s
  | .panCommit => Sys2Proof.Machine.execPanCommit s
  | .panKat n => Sys2Proof.Machine.execPanKat n s
  | .panKatEnd n failed => Sys2Proof.Machine.execPanKatEnd n failed s
  | .panRetire n => Sys2Proof.Machine.execPanRetire n s
  | .maskReseedRequest n => Sys2Proof.Machine.execMaskReseedRequest n s
  | .maskLimitStall n => Sys2Proof.Machine.execMaskLimitStall n s
  | .maskReseedArrive n => Sys2Proof.Machine.execMaskReseedArrive n s
  | .rkeCommit grn => Sys2Proof.Machine.execRkeCommit grn s
  | .engineKat e => Sys2Proof.Machine.execEngineKat e s
  | .engineKatEnd e failed => Sys2Proof.Machine.execEngineKatEnd e failed s
  | .engineRetire e => Sys2Proof.Machine.execEngineRetire e s
  | .sjobRsaKeygen j engine param => Sys2Proof.Machine.execSjobRsaKeygen j engine param s
  | .sjobEcKeygen j engine param => Sys2Proof.Machine.execSjobEcKeygen j engine param s
  | .sjobRsaCheck j engine param => Sys2Proof.Machine.execSjobRsaCheck j engine param s
  | .sjobMldsaKeygen j engine param => Sys2Proof.Machine.execSjobMldsaKeygen j engine param s
  | .sjobMlkemKeygen j engine param => Sys2Proof.Machine.execSjobMlkemKeygen j engine param s
  | .sjobDone j => Sys2Proof.Machine.execSjobDone j s
  | .thermalTrip n => Sys2Proof.Machine.execThermalTrip n s
  | .voltageTrip d => Sys2Proof.Machine.execVoltageTrip d s
  | .tripClear thermal n => Sys2Proof.Machine.execTripClear thermal n s
  | .write => Sys2Proof.Machine.execWrite s
  | .openLanding => Sys2Proof.Machine.execOpenLanding s
  | .destroy => Sys2Proof.Machine.execDestroy s
  | .chainOpen => Sys2Proof.Machine.execChainOpen s
  | .chainClose => Sys2Proof.Machine.execChainClose s
  | .sweep => Sys2Proof.Machine.execSweep s
  | .readAttr => Sys2Proof.Machine.execReadAttr s
  | .narrow => Sys2Proof.Machine.execNarrow s
  | .blobOpen => Sys2Proof.Machine.execBlobOpen s
  | .blobSeal => Sys2Proof.Machine.execBlobSeal s
  | .deriveId => Sys2Proof.Machine.execDeriveId s
  | .vaultInit => Sys2Proof.Machine.execVaultInit s
  | .newSkey => Sys2Proof.Machine.execNewSkey s
  | .spCmdUnknown => Sys2Proof.Machine.execSpCmdUnknown s
  | .spCommandEnd => Sys2Proof.Machine.execSpCommandEnd s
  | .chainOpenTimeout => Sys2Proof.Machine.execChainOpenTimeout s
  | .cellarClearStart => Sys2Proof.Machine.execCellarClearStart s
  | .cellarClearEnd => Sys2Proof.Machine.execCellarClearEnd s
  | .scrubStripe upset => Sys2Proof.Machine.execScrubStripe upset s
  | .bankRestoreStart b => Sys2Proof.Machine.execBankRestoreStart b s
  | .bankRestoreEnd b => Sys2Proof.Machine.execBankRestoreEnd b s
  | .tplLock => Sys2Proof.Machine.execTplLock s
  | .slcCommit => Sys2Proof.Machine.execSlcCommit s
  | .vaultDataAccess v => Sys2Proof.Machine.execVaultDataAccess v s
  | .quarantineZeroEnd => Sys2Proof.Machine.execQuarantineZeroEnd s
  | .vaultClearEnd => Sys2Proof.Machine.execVaultClearEnd s
  | .entResetRelease condFail drbgFail => Sys2Proof.Machine.execEntResetRelease condFail drbgFail s
  | .sourceBit k bit => Sys2Proof.Machine.execSourceBit k bit s
  | .entropyRequest w cls n => Sys2Proof.Machine.execEntropyRequest w cls n s
  | .entSwReq port words cls => Sys2Proof.Machine.execEntSwReq port words cls s
  | .entSwDataRead port k => Sys2Proof.Machine.execEntSwDataRead port k s
  | .entKatCond => Sys2Proof.Machine.execEntKatCond s
  | .entKatDrbg => Sys2Proof.Machine.execEntKatDrbg s
  | .entKatEnd drbg failed => Sys2Proof.Machine.execEntKatEnd drbg failed s
  | .entCommit => Sys2Proof.Machine.execEntCommit s
  | .run c input => Sys2Proof.Machine.execRun c input s
  | .keyLand c => Sys2Proof.Machine.execKeyLand c s
  | .keyGenerate c => Sys2Proof.Machine.execKeyGenerate c s
  | .keyLoadBlob c => Sys2Proof.Machine.execKeyLoadBlob c s
  | .keySealBlob c => Sys2Proof.Machine.execKeySealBlob c s
  | .keyDestroy c => Sys2Proof.Machine.execKeyDestroy c s
  | .keyNarrow c => Sys2Proof.Machine.execKeyNarrow c s
  | .storageRotate c => Sys2Proof.Machine.execStorageRotate c s
  | .ctrRead c => Sys2Proof.Machine.execCtrRead c s
  | .ctrAdvance c => Sys2Proof.Machine.execCtrAdvance c s
  | .query c => Sys2Proof.Machine.execQuery c s
  | .tenantCreate c => Sys2Proof.Machine.execTenantCreate c s
  | .tenantSet c => Sys2Proof.Machine.execTenantSet c s
  | .tenantDestroy c => Sys2Proof.Machine.execTenantDestroy c s
  | .freeze c => Sys2Proof.Machine.execFreeze c s
  | .thaw c => Sys2Proof.Machine.execThaw c s
  | .migOffer c => Sys2Proof.Machine.execMigOffer c s
  | .migAccept c => Sys2Proof.Machine.execMigAccept c s
  | .migBind c => Sys2Proof.Machine.execMigBind c s
  | .snapshot c => Sys2Proof.Machine.execSnapshot c s
  | .restore c => Sys2Proof.Machine.execRestore c s
  | .migAbandon c => Sys2Proof.Machine.execMigAbandon c s
  | .migRefuse c => Sys2Proof.Machine.execMigRefuse c s
  | .migClose c => Sys2Proof.Machine.execMigClose c s
  | .ceremonyOpen c => Sys2Proof.Machine.execCeremonyOpen c s
  | .approve c => Sys2Proof.Machine.execApprove c s
  | .component c => Sys2Proof.Machine.execComponent c s
  | .execute c => Sys2Proof.Machine.execExecute c s
  | .ceremonyClose c => Sys2Proof.Machine.execCeremonyClose c s
  | .ceremonyTimeout => Sys2Proof.Machine.execCeremonyTimeout s
  | .admCommandEnd n => Sys2Proof.Machine.execAdmCommandEnd n s
  | .tntCommit t => Sys2Proof.Machine.execTntCommit t s
  | .tntStateSet t st => Sys2Proof.Machine.execTntStateSet t st s
  | .downRing t => Sys2Proof.Machine.execDownRing t s
  | .upRing t => Sys2Proof.Machine.execUpRing t s
  | .downFullClear t => Sys2Proof.Machine.execDownFullClear t s
  | .upFullClear t => Sys2Proof.Machine.execUpFullClear t s
  | .wmbSlotWrite w k v => Sys2Proof.Machine.execWmbSlotWrite w k v s
  | .wmbTailWrite w v => Sys2Proof.Machine.execWmbTailWrite w v s
  | .wmbHeadWrite w v => Sys2Proof.Machine.execWmbHeadWrite w v s
  | .swiNSet => Sys2Proof.Machine.execSwiNSet s
  | .swiNClr => Sys2Proof.Machine.execSwiNClr s
  | .swiSSet => Sys2Proof.Machine.execSwiSSet s
  | .swiSClr w => Sys2Proof.Machine.execSwiSClr w s
  | .ccRun c => Sys2Proof.Machine.execCcRun c s
  | .ccHold c => Sys2Proof.Machine.execCcHold c s
  | .dmaGo c => Sys2Proof.Machine.execDmaGo c s
  | .dmaHostError c n data => Sys2Proof.Machine.execDmaHostError c n data s
  | .dmaTransferEnd c data => Sys2Proof.Machine.execDmaTransferEnd c data s
  | .acuCommit m => Sys2Proof.Machine.execAcuCommit m s
  | .acuRegionCommit m => Sys2Proof.Machine.execAcuRegionCommit m s
  | .acuTagCommit => Sys2Proof.Machine.execAcuTagCommit s
  | .faultPop w => Sys2Proof.Machine.execFaultPop w s
  | .leaseSet k v => Sys2Proof.Machine.execLeaseSet k v s
  | .leaseClr k v => Sys2Proof.Machine.execLeaseClr k v s
  | .modeFreeze => Sys2Proof.Machine.execModeFreeze s
  | .modeResume => Sys2Proof.Machine.execModeResume s
  | .lcNextWrite target => Sys2Proof.Machine.execLcNextWrite target s
  | .lcFusesBlown => Sys2Proof.Machine.execLcFusesBlown s
  | .lcWipeDone => Sys2Proof.Machine.execLcWipeDone s
  | .rootBurn => Sys2Proof.Machine.execRootBurn s
  | .rootBurnEnd weak => Sys2Proof.Machine.execRootBurnEnd weak s
  | .decisionSecondEval n => Sys2Proof.Machine.execDecisionSecondEval n s
  | .nvmRead w => Sys2Proof.Machine.execNvmRead w s
  | .nvmProgram w => Sys2Proof.Machine.execNvmProgram w s
  | .nvmErase4k w => Sys2Proof.Machine.execNvmErase4k w s
  | .nvmErase64k w => Sys2Proof.Machine.execNvmErase64k w s
  | .nvmCmdEnd w device => Sys2Proof.Machine.execNvmCmdEnd w device s
  | .nvmFailedSet slotB => Sys2Proof.Machine.execNvmFailedSet slotB s
  | .arbAdvance target => Sys2Proof.Machine.execArbAdvance target s
  | .ownerBurn => Sys2Proof.Machine.execOwnerBurn s
  | .blGo => Sys2Proof.Machine.execBlGo s
  | .blEnd device => Sys2Proof.Machine.execBlEnd device s
  | .handoff responder entry => Sys2Proof.Machine.execHandoff responder entry s
  | .startEndService reason => Sys2Proof.Machine.execStartEndService reason s
  | .startEndStandby reason => Sys2Proof.Machine.execStartEndStandby reason s
  | .startEndQuarantine reason => Sys2Proof.Machine.execStartEndQuarantine reason s
  | .assayWatchdog => Sys2Proof.Machine.execAssayWatchdog s
  | .causewayTrained lanes => Sys2Proof.Machine.execCausewayTrained lanes s
  | .lanesChanged lanes => Sys2Proof.Machine.execLanesChanged lanes s
  | .linkLost failedTags => Sys2Proof.Machine.execLinkLost failedTags s
  | .frameAuthFail => Sys2Proof.Machine.execFrameAuthFail s
  | .frameResend => Sys2Proof.Machine.execFrameResend s
  | .heartbeatSend hold => Sys2Proof.Machine.execHeartbeatSend hold s
  | .heartbeat fseq fack old bs => Sys2Proof.Machine.execHeartbeat fseq fack old bs s
  | .handshakeStep1 fseq fack bs => Sys2Proof.Machine.execHandshakeStep1 fseq fack bs s
  | .handshakeStep2 fseq fack bs => Sys2Proof.Machine.execHandshakeStep2 fseq fack bs s
  | .handshakeStep3 fseq fack bs => Sys2Proof.Machine.execHandshakeStep3 fseq fack bs s
  | .keyInstall => Sys2Proof.Machine.execKeyInstall s
  | .sessionRekey => Sys2Proof.Machine.execSessionRekey s
  | .ledger fseq fack old bs => Sys2Proof.Machine.execLedger fseq fack old bs s
  | .ledgerAck fseq fack old bs => Sys2Proof.Machine.execLedgerAck fseq fack old bs s
  | .ledgerTimeout seq => Sys2Proof.Machine.execLedgerTimeout seq s
  | .resyncBegin fseq fack old bs => Sys2Proof.Machine.execResyncBegin fseq fack old bs s
  | .resyncRecords fseq fack old bs => Sys2Proof.Machine.execResyncRecords fseq fack old bs s
  | .resyncChunk fseq fack old bs => Sys2Proof.Machine.execResyncChunk fseq fack old bs s
  | .resyncEnd fseq fack old bs => Sys2Proof.Machine.execResyncEnd fseq fack old bs s
  | .handover fseq fack old bs => Sys2Proof.Machine.execHandover fseq fack old bs s
  | .resyncRequest fseq fack old bs => Sys2Proof.Machine.execResyncRequest fseq fack old bs s
  | .stepDown fseq fack old bs => Sys2Proof.Machine.execStepDown fseq fack old bs s
  | .gatePeriod low => Sys2Proof.Machine.execGatePeriod low s
  | .lineStateChange line long high => Sys2Proof.Machine.execLineStateChange line long high s
  | .gateClaimFirst => Sys2Proof.Machine.execGateClaimFirst s
  | .standbyLinkTimeout => Sys2Proof.Machine.execStandbyLinkTimeout s
  | .holderSoloTimeout => Sys2Proof.Machine.execHolderSoloTimeout s
  | .mirHandover => Sys2Proof.Machine.execMirHandover s
  | .handoverRequest => Sys2Proof.Machine.execHandoverRequest s
  | .handoverTimeout => Sys2Proof.Machine.execHandoverTimeout s
  | .mirCommit => Sys2Proof.Machine.execMirCommit s
  | .causewayLinkEnable => Sys2Proof.Machine.execCausewayLinkEnable s
  | .meshStep mis => Sys2Proof.Machine.execMeshStep mis s
  | .meshReseed => Sys2Proof.Machine.execMeshReseed s
  | .supplyExcursion supply static long mv => Sys2Proof.Machine.execSupplyExcursion supply static long mv s
  | .crustTempSample t0 t1 t2 t3 => Sys2Proof.Machine.execCrustTempSample t0 t1 t2 t3 s
  | .lightSample sensor count => Sys2Proof.Machine.execLightSample sensor count s
  | .clockFault clock drift present => Sys2Proof.Machine.execClockFault clock drift present s
  | .vbatSample mv => Sys2Proof.Machine.execVbatSample mv s
  | .thresholdDrift => Sys2Proof.Machine.execThresholdDrift s
  | .alarmClear mask => Sys2Proof.Machine.execAlarmClear mask s
  | .throttleRelease => Sys2Proof.Machine.execThrottleRelease s
  | .backupMeshCheck mis cold low => Sys2Proof.Machine.execBackupMeshCheck mis cold low s
  | .batPor => Sys2Proof.Machine.execBatPor s
  | .recordPost code detail aux payload => Sys2Proof.Machine.execRecordPost code detail aux payload s
  | .rateWindowEnd code sixty => Sys2Proof.Machine.execRateWindowEnd code sixty s
  | .evrFreezeSet w => Sys2Proof.Machine.execEvrFreezeSet w s
  | .evrFreezeClear w => Sys2Proof.Machine.execEvrFreezeClear w s
  | .evrFreezeTimeout => Sys2Proof.Machine.execEvrFreezeTimeout s
  | .evrSwGo w => Sys2Proof.Machine.execEvrSwGo w s
  | .persistEnable => Sys2Proof.Machine.execPersistEnable s
  | .persistScanEnd => Sys2Proof.Machine.execPersistScanEnd s
  | .logPageProgram device => Sys2Proof.Machine.execLogPageProgram device s
  | .flushTimeout => Sys2Proof.Machine.execFlushTimeout s
  | .evrFlush => Sys2Proof.Machine.execEvrFlush s
  | .evrRdDataRead => Sys2Proof.Machine.execEvrRdDataRead s
  | .evrBlogDataRead => Sys2Proof.Machine.execEvrBlogDataRead s
  | .evrCommit => Sys2Proof.Machine.execEvrCommit s
  | .xin1Lost => Sys2Proof.Machine.execXin1Lost s
  | .xin1Present => Sys2Proof.Machine.execXin1Present s
  | .relock => Sys2Proof.Machine.execRelock s
  | .relockEnd => Sys2Proof.Machine.execRelockEnd s
  | .xin2Lost => Sys2Proof.Machine.execXin2Lost s
  | .xin2Return => Sys2Proof.Machine.execXin2Return s
  | .rtcApply => Sys2Proof.Machine.execRtcApply s
  | .rtcFracRead => Sys2Proof.Machine.execRtcFracRead s
  | .wpuTick temps slack power => Sys2Proof.Machine.execWpuTick temps slack power s
  | .avsReadback answered mv => Sys2Proof.Machine.execAvsReadback answered mv s
  | .domainEnableWrite w d run sleep dsleep => Sys2Proof.Machine.execDomainEnableWrite w d run sleep dsleep s
  | .domainIdleTimeout d deep => Sys2Proof.Machine.execDomainIdleTimeout d deep s
  | .domainIdleBoundary d => Sys2Proof.Machine.execDomainIdleBoundary d s
  | .domainWake d => Sys2Proof.Machine.execDomainWake d s
  | .ageMeasure hyd => Sys2Proof.Machine.execAgeMeasure hyd s
  | .ageDrainEnd n => Sys2Proof.Machine.execAgeDrainEnd n s
  | .wpuCommit => Sys2Proof.Machine.execWpuCommit s
  | .extest pins bits => Sys2Proof.Machine.execExtest pins bits s
  | .samplePreload pins bits => Sys2Proof.Machine.execSamplePreload pins bits s
  | .idcode => Sys2Proof.Machine.execIdcode s
  | .clamp => Sys2Proof.Machine.execClamp s
  | .highz => Sys2Proof.Machine.execHighz s
  | .challenge => Sys2Proof.Machine.execChallenge s
  | .token w => Sys2Proof.Machine.execToken w s
  | .tokenSubmit ir => Sys2Proof.Machine.execTokenSubmit ir s
  | .dbgAccess r => Sys2Proof.Machine.execDbgAccess r s
  | .tapStatus => Sys2Proof.Machine.execTapStatus s
  | .scan => Sys2Proof.Machine.execScan s
  | .bypass ir => Sys2Proof.Machine.execBypass ir s
  | .trstNFall => Sys2Proof.Machine.execTrstNFall s
  | .debugHaltStepResume c act => Sys2Proof.Machine.execDebugHaltStepResume c act s
  | .dbgCommit => Sys2Proof.Machine.execDbgCommit s
  | .revoke => Sys2Proof.Machine.execRevoke s
  | .grantExpiry => Sys2Proof.Machine.execGrantExpiry s
  | .ladleKat => Sys2Proof.Machine.execLadleKat s
  | .ladleKatEnd failed => Sys2Proof.Machine.execLadleKatEnd failed s
  | .illegal x word => Sys2Proof.Machine.execIllegal x word s
  | .resetSenseDisagree point => Sys2Proof.Machine.execResetSenseDisagree point s
  | .keyPhaseWindowEnd => Sys2Proof.Machine.execKeyPhaseWindowEnd s

end Sys2Proof.Machine
end

