-- ==== Sys2Proof/Safety.lean ====
section
/-! DEFINITION. What claims about runs of the part say: a run of steps, the fuses that only gain bits (R454, R459, R462, R487, R489), and the
canonical form of its memories. -/

namespace Sys2Proof.Safety

open Sys2Proof.Machine

/-- Command `i` completes in state `s` and leaves the part as `q`, with the fuse banks and the waiting commands as they were. -/
def Yields (i : Instr) (s : State) (q : Part) : Prop := exec i s = .next { s with part := q }

/-- `q` is `p` but for what a record posted may change: the Tally Book, and the head and count of the evidence chain (R581, R593). -/
def Recorded (p q : Part) : Prop :=
  q = { p with evr := q.evr, bat := { p.bat with evidN := q.bat.evidN, evidH := q.bat.evidH } }

/-- Every bit of `a` is set in `b`. -/
def bitsKept {n : Nat} (a b : BitVec n) : Prop := a &&& b = a

/-- Fuse banks `g` hold every bit that `f` holds, the blown owner slots in place, and the identity fuses unchanged. -/
structure FusesGrow (f g : Fuses) : Prop where
  lcWord      : bitsKept f.lcWord g.lcWord
  rootSet     : f.rootSet = true → g.rootSet = true
  rootOk      : f.rootOk = true → g.rootOk = true
  rootBits    : bitsKept f.rootBits g.rootBits
  rootDisable : f.rootDisable = true → g.rootDisable = true
  scanDisable : f.scanDisable = true → g.scanDisable = true
  arb         : bitsKept f.arb g.arb
  owner       : f.owner <+: g.owner
  identity    : f.lot = g.lot ∧ f.wafer = g.wafer ∧ f.dieX = g.dieX ∧ f.dieY = g.dieY ∧ f.testSite = g.testSite

/-- The byte memories of the part are in their canonical form. -/
def memoriesOk (p : Part) : Bool :=
  Tab.wf ram p.priv && Tab.wf ram p.ccMem && Tab.wf ram p.opBuf && Tab.wf ram p.evr.store && Tab.wf ram p.bat.vault
    && Tab.wf erased p.nvm.flash

/-- `n` steps, each answering a next state. -/
inductive Runs : Nat → State → State → Prop where
  | done (s : State) : Runs 0 s s
  | more {n : Nat} {s t u : State} : step s = .next t → Runs n t u → Runs (n + 1) s u

/-- Between `p` and `q` the part has issued, and only issued, the reads of `n` octets of host memory at an address for function `f`: in
the pieces that one request each carries, under tags no wider than R36 gives (R106). -/
def ReadIssued (f : Nat) (addr : BitVec 64) (n : Nat) (p q : Part) : Prop :=
  ∃ tags : List Nat, tags.length = (Part.packets p.maxRead n addr.toNat n).length ∧ (∀ t ∈ tags, t < 2 ^ p.tagBits) ∧
    q = { p with free := p.free + tags.length, hif := { p.hif with out := p.hif.out ++
      (((Part.packets p.maxRead n addr.toNat n).zip tags).map fun x => .readReq f (BitVec.ofNat 64 x.1.1) x.1.2 x.2) } }

/-! ### Slots of the Salt Cellar -/

/-- Between `p` and `q` the slots `is` have been destroyed: EMPTY, GEN advanced by 1, material zero, bad mark cleared, under a tag that
holds; every other slot and mark stays (R338, R351). -/
def Destroyed (is : List Nat) (p q : Part) : Prop :=
  (∀ i ∈ is, (q.slot i).state = Slot.empty ∧ (q.slot i).gen = (p.slot i).gen + 1 ∧ (q.slot i).mat = List.replicate 32 0 ∧
    q.slc.isBad i = false ∧ q.slc.tagOk i = true) ∧
  ∀ i, i ∉ is → q.slot i = p.slot i ∧ q.slc.isBad i = p.slc.isBad i

/-! ### Processors -/

/-- Core `c` executes the instruction that its fetch delivers: it runs, no FENCE.RULE of it waits, no debugger steps it, no interrupt
comes first, scan has not stopped it, and its fetch is aligned and admitted (R181, R191, R195, R661, R679). -/
structure CoreReady (p : Part) (c : Nat) : Prop where
  running   : (p.core c).run = .running
  unfenced  : (p.core c).fence = false
  unstepped : (p.core c).stepOne = false
  undivided : p.mayInterrupt c = false
  scanOff   : p.sys.scanStopped = false
  aligned   : (p.core c).pc.toNat % 4 = 0
  fetched   : (p.coreCheck c kFetch (Part.bankAddr (p.core c).ibk (p.core c).pc) 4).1 = none

/-- Thread `k` issues the instruction that its fetch delivers: it holds a harvest with budget left, its turn among the ready threads of
its sequencer has come, and its fetch is aligned and inside its segment (R113, R124, R205, R206). -/
structure ThreadReady (p : Part) (k : Nat) : Prop where
  busy    : (p.thread k).busy = true
  turn    : (p.threadTurn k).isSome = true
  budget  : (p.thread k).budget ≠ 0
  scanOff : p.sys.scanStopped = false
  aligned : (p.thread k).pc.toNat % 4 = 0
  inside  : (p.thread k).pc.toNat + 4 ≤ (p.thread k).segLen

/-- A processor executes the instruction that its fetch delivers. -/
def Ready (p : Part) : Proc → Prop
  | .core c => CoreReady p c.val
  | .thread q t => ThreadReady p (Part.threadNo q t)

/-- A general register of a processor; g0 reads as zero (R166). -/
def reg (p : Part) (x : Proc) (r : BitVec 5) : Word :=
  if r = 0 then 0
  else match x with
    | .core c => (p.core c.val).regs.get 0 r.toNat
    | .thread q t => (p.thread (Part.threadNo q t)).regs.get 0 r.toNat

/-- The program counter of a processor. -/
def pcOf (p : Part) : Proc → Word
  | .core c => (p.core c.val).pc
  | .thread q t => (p.thread (Part.threadNo q t)).pc

/-- A thread that has issued one instruction more (R205). -/
def counted (t : Thread) : Thread := { t with budget := t.budget - 1, issued := t.issued + 1 }

/-- The part once thread `k` has had its turn: the order of its sequencer stands at it (R113, R124). -/
def turned (p : Part) (k : Nat) : Part :=
  p.modSeq fun s => { s with units := s.units.upd {} (k / 32) fun u => { u with arb := (p.threadTurn k).getD u.arb } }

/-- Between `p` and `q` processor `x` has executed one instruction that changes at most its general registers and its program counter;
a thread has counted it, and had its turn. -/
def Executes (x : Proc) (p q : Part) : Prop :=
  match x with
  | .core c =>
    q = { p with cores := q.cores } ∧ (∀ d, d ≠ c.val → q.core d = p.core d) ∧
      q.core c.val = { p.core c.val with regs := (q.core c.val).regs, pc := (q.core c.val).pc }
  | .thread n t =>
    let k := Part.threadNo n t
    q = { p with seq := { (turned p k).seq with threads := q.seq.threads } } ∧ (∀ j, j ≠ k → q.thread j = p.thread j) ∧
      q.thread k = { counted (p.thread k) with regs := (q.thread k).regs, pc := (q.thread k).pc }

/-- Processor `x` has executed one instruction: rd has taken `v` unless it is g0, every other general register has kept its value, the
program counter is `pc`, and nothing else has changed. -/
def Computes (x : Proc) (rd : BitVec 5) (v pc : Word) (p q : Part) : Prop :=
  Executes x p q ∧ pcOf q x = pc ∧ ∀ r, reg q x r = if r ≠ 0 ∧ r = rd then v else reg p x r

/-- A thread is ready for a sealed instruction that reads registers `rs` and writes `ws`: none of them awaits an engine's result (R204),
and the ones read carry the thread's colour (R144). -/
structure SealedReady (p : Part) (k : Nat) (rs ws : List (BitVec 4)) : Prop where
  ready   : ThreadReady p k
  settled : ∀ r ∈ rs ++ ws, ∀ a ∈ (p.thread k).reqs, r.toNat ∉ a.pendDest
  colours : ∀ r ∈ rs, ((p.thread k).sregs.get {} r.toNat).colour = (p.thread k).colour

/-- A thread is ready for an instruction of the engine group over ss and K that writes registers `ws`: its operands settled, ss of its
colour, a request free, the slot that K names readable, and its pan accepting blocks (R126, R204, R275, R334). -/
structure EngineReady (p : Part) (h : Fin 16) (t : Fin 32) (ss : BitVec 4) (kf : BitVec 5) (ws : List Nat) : Prop where
  ready   : ThreadReady p (Part.threadNo h t)
  settled : ∀ a ∈ (p.thread (Part.threadNo h t)).reqs, ∀ r ∈ a.pendDest,
    r ≠ ss.toNat ∧ r ∉ ws ∧ (kf.toNat < 0x10 → r ∉ Part.keyRegs kf.toNat)
  room    : (p.thread (Part.threadNo h t)).reqs.length < 4
  keyRead : Part.keyWaits (p.thread (Part.threadNo h t)) kf p = false
  pan     : p.panReady h.val = true
  colour  : ((p.thread (Part.threadNo h t)).sregs.get {} ss.toNat).colour = (p.thread (Part.threadNo h t)).colour

/-- A thread that has issued a request to its pan `h`: registers to land, and the blocks it takes (R126). -/
def panIssued (h : Nat) (dest : List (Nat × SReg)) (blocks : Nat) (t : Thread) : Thread :=
  { counted t with
    reqs := t.reqs ++ [{ id := t.nextReq, dest := dest, window := [], verdict := none, fail := none, unit := .pan h
                         pendDest := dest.map Prod.fst, blocks := blocks, pc := t.pc }]
    nextReq := t.nextReq + 1, pc := t.pc + 4 }

/-- Sealed register `i` of thread `k`. -/
def sregOf (p : Part) (k : Nat) (i : BitVec 4) : SReg := (p.thread k).sregs.get {} i.toNat

/-- Nibble `j` of a register's value as an operand: zero beyond its LEN (R201). -/
def operandNib (s : SReg) (j : Nat) : BitVec 4 := if j < 2 * s.len.toNat ∧ j < 32 then fld s.val (124 - 4 * j) 4 else 0

/-- A sealed result with no RELEASE, FORM or KSRC: its colour, class and LEN, and its nibbles below LEN; zero beyond. -/
def IsPlain (v : SReg) (colour : BitVec 12) (cls : BitVec 3) (len : BitVec 5) (f : Nat → BitVec 4) : Prop :=
  v = { val := v.val, colour := colour, cls := cls, len := len } ∧
    ∀ j, j < 32 → fld v.val (124 - 4 * j) 4 = if j < 2 * len.toNat then f j else 0

/-! ### Exceptions of cores (R190 to R192) -/

/-- The exception that a command makes core `c` raise: each case names its cause, EPC, EADDR and FBK as R190 and R192 give them. -/
inductive Raises (p : Part) (c : Fin 5) : Instr → Trap → Prop
  | illegal (w : Word) : Dibry.decode (.core c) w = none →
      Raises p c (.illegal (.core c) w) { cause := xIllegal, epc := pcOf p (.core c), addr := w }
  | sealedGroup (sd : BitVec 4) :
      Raises p c (.sclr (.core c) sd) { cause := xIllegal, epc := pcOf p (.core c), addr := Dibry.fmtSA 0 sd 0 0 0 }
  | userEret : (p.core c).priv = false →
      Raises p c (.eret (.core c)) { cause := xPrivileged, epc := pcOf p (.core c), addr := Dibry.fmtY 0 0 0 1 }
  | userDoze : (p.core c).priv = false →
      Raises p c (.doze (.core c)) { cause := xPrivileged, epc := pcOf p (.core c), addr := Dibry.fmtY 0 0 0 3 }
  | userFenceRule : (p.core c).priv = false →
      Raises p c (.fenceRule (.core c)) { cause := xPrivileged, epc := pcOf p (.core c), addr := Dibry.fmtY 0 0 0 6 }
  | userMfsr (rd : BitVec 5) (sr : BitVec 12) : (p.core c).priv = false → sr.toNat ≤ 9 →
      Raises p c (.mfsr (.core c) rd sr) { cause := xPrivileged, epc := pcOf p (.core c), addr := Dibry.fmtY rd 0 sr 8 }
  | noMfsr (rd : BitVec 5) (sr : BitVec 12) : 9 < sr.toNat → sr.toNat ≠ 0x10 → sr.toNat ≠ 0x11 → sr.toNat ≠ 0x12 →
      Raises p c (.mfsr (.core c) rd sr) { cause := xIllegal, epc := pcOf p (.core c), addr := Dibry.fmtY rd 0 sr 8 }
  | userMtsr (sr : BitVec 12) (ra : BitVec 5) : (p.core c).priv = false → sr.toNat ≤ 9 →
      Raises p c (.mtsr (.core c) sr ra) { cause := xPrivileged, epc := pcOf p (.core c), addr := Dibry.fmtY 0 ra sr 9 }
  | noMtsr (sr : BitVec 12) (ra : BitVec 5) : 9 < sr.toNat →
      Raises p c (.mtsr (.core c) sr ra) { cause := xIllegal, epc := pcOf p (.core c), addr := Dibry.fmtY 0 ra sr 9 }
  | jump (rd ra : BitVec 5) (imm : BitVec 16) : (reg p (.core c) ra + imm.signExtend 32).toNat % 4 ≠ 0 →
      Raises p c (.jlr (.core c) rd ra imm)
        { cause := xFetchMis, epc := pcOf p (.core c), addr := reg p (.core c) ra + imm.signExtend 32
          bank := some ((p.core c).pendIbk.getD (p.core c).ibk) }
  | loadMisaligned (rd ra : BitVec 5) (imm : BitVec 16) : (reg p (.core c) ra + imm.signExtend 32).toNat % 4 ≠ 0 →
      Raises p c (.lw (.core c) rd ra imm)
        { cause := xLoadMis, epc := pcOf p (.core c), addr := reg p (.core c) ra + imm.signExtend 32
          bank := some (p.core c).dbk, size := 2 }
  | storeMisaligned (rs ra : BitVec 5) (imm : BitVec 16) : (reg p (.core c) ra + imm.signExtend 32).toNat % 2 ≠ 0 →
      Raises p c (.sh (.core c) rs ra imm)
        { cause := xStoreMis, epc := pcOf p (.core c), addr := reg p (.core c) ra + imm.signExtend 32
          bank := some (p.core c).dbk, size := 1 }
  | loadDenied (rd ra : BitVec 5) (imm : BitVec 16) (bus : Bool) :
      (p.coreCheck c kRead (Part.bankAddr (p.core c).dbk (reg p (.core c) ra + imm.signExtend 32)) 1).1 = some bus →
      Raises p c (.lbu (.core c) rd ra imm)
        { cause := if bus then xLoadBus else xLoadAccess, epc := pcOf p (.core c)
          addr := reg p (.core c) ra + imm.signExtend 32, bank := some (p.core c).dbk }
  | storeDenied (rs ra : BitVec 5) (imm : BitVec 16) (bus : Bool) :
      (p.coreCheck c kWrite (Part.bankAddr (p.core c).dbk (reg p (.core c) ra + imm.signExtend 32)) 1).1 = some bus →
      Raises p c (.sb (.core c) rs ra imm)
        { cause := if bus then xStoreBus else xStoreAccess, epc := pcOf p (.core c)
          addr := reg p (.core c) ra + imm.signExtend 32, bank := some (p.core c).dbk }
  | atomicLoad (rd ra : BitVec 5) : (reg p (.core c) ra).toNat % 4 ≠ 0 →
      Raises p c (.lr (.core c) rd ra)
        { cause := xLoadMis, epc := pcOf p (.core c), addr := reg p (.core c) ra, bank := some (p.core c).dbk, atomic := true
          size := 2 }
  | trap (n : BitVec 12) :
      Raises p c (.trap (.core c) n)
        { cause := if (p.core c).priv then xTrapPriv else xTrapUser, epc := pcOf p (.core c) + 4, info := n }
  | brk : p.dbg.attached = false → Raises p c (.brk (.core c)) { cause := xBrk, epc := pcOf p (.core c) }

/-- Core `m` after exception entry (R192), with FBK as given. -/
def entered (m : Core) (x : Trap) (fbk : Byte) : Core :=
  { m with
    epc := x.epc
    ecause := at' x.cause 0 ||| bit' x.atomic 5 ||| at' x.size 6 ||| at' x.info 8
    eaddr := x.addr, fbk := fbk
    edbk := m.dbk, eibk := m.ibk, pendIbk := none
    ppriv := m.priv, pie := m.ie, priv := true, ie := false, exl := true
    dbk := fld m.evec 0 8, ibk := fld m.evec 0 8, resv := none
    pc := (m.evec &&& 0xFFFFFC00#32) + 0x40#32 * x.cause.setWidth 32
    run := .running, fence := false }

/-- The harvest of thread `k` has ended: the thread is at its start values, and its context, where nothing discards its completion,
carries the status and detail (R130, R163). -/
def HarvestEnds (k : Nat) (status detail : Byte) (p q : Part) : Prop :=
  let n := (p.thread k).ctx
  q.thread k = {} ∧
    ((p.ctx n).state = .running → (p.ctx n).discard = false →
      (q.ctx n).state = .finished ∧ (q.ctx n).status = status ∧ (q.ctx n).detail = detail)

/-! ### The administrative channel (R386 to R391) -/

/-- Administrative command `c` of kind `k` begins at once: its function is there, may command and is not drained, its channel is idle, the
part serves, a tenant is ACTIVE, a context is free, a buffer that is read may be asked for, its fields stand R390's shared checks, and a
Class A command finds the gate open. -/
structure AdmReady (p : Part) (k : Part.AdmKind) (c : AdmCmd) : Prop where
  present  : p.fnExists c.fn.val = true
  sound    : (p.fn c.fn.val).wedged = false
  kept     : (p.fn c.fn.val).draining = false
  idle     : (p.adm c.fn.val).busy = false
  unheld   : (p.adm c.fn.val).held = false
  posts    : 0 < k.reads → p.mayPost c.fn.val = true
  serving  : p.sys.mode = .service ∨ p.sys.mode = .ceremony
  unfrozen : p.sys.freezing = false
  active   : c.fn.val ≠ 0 → p.tnt.states.get 0 c.fn.val = 1
  context  : p.freeCtxs c.fn.val ≠ []
  room     : (p.ctxsOf c.fn.val).length < (p.tnt.t.get {} c.fn.val).st.eff.inflight.toNat
  fields   : Part.admFault k c = none
  gate     : k.classA = true → p.gateOpen = true

/-- The context that an administrative command of function `n` takes: the first free one. -/
def admCtx (p : Part) (n : Nat) : Nat := (p.freeCtxs n).headD 0

/-- The part when administrative command `c` of kind `k` has begun: the channel BUSY with it, its context taken. -/
def admBegun (p : Part) (k : Part.AdmKind) (c : AdmCmd) : Part :=
  let n := c.fn.val
  let i := admCtx p n
  let x : Ctx := { state := .running, fn := n, qp := 4096 + n, order := p.dsp.nextOrder, tag := c.head.tag, unit := some .secure
                   placed := true, classA := k.classA }
  { p with
    tnt := { p.tnt with adm := p.tnt.adm.upd {} n fun a =>
      { a with busy := true, started := true, held := true, cmd := Part.admBlock k.op c, tag := c.head.tag, out := [], ctx := i
               classA := k.classA } }
    dsp := { p.dsp with ctxs := p.dsp.ctxs.set {} i x, nextOrder := p.dsp.nextOrder + 1 } }

/-- Between `p` and `q` administrative command `c` has run: its channel is BUSY with it and keeps `out` for its buffer, its context has
finished with the outcome, and no other channel or context has changed. -/
structure AdmEnds (op : Nat) (c : AdmCmd) (status detail : Byte) (result out : List Byte) (p q : Part) : Prop where
  channel : q.adm c.fn.val = { p.adm c.fn.val with
    busy := true, started := true, held := true, cmd := Part.admBlock op c, tag := c.head.tag, out := out, ctx := admCtx p c.fn.val
    classA := (q.adm c.fn.val).classA }
  ended   : (q.ctx (admCtx p c.fn.val)).state = .finished ∧ (q.ctx (admCtx p c.fn.val)).fn = c.fn.val ∧
    (q.ctx (admCtx p c.fn.val)).qp = 4096 + c.fn.val ∧ (q.ctx (admCtx p c.fn.val)).tag = c.head.tag
  outcome : (q.ctx (admCtx p c.fn.val)).status = status ∧ (q.ctx (admCtx p c.fn.val)).detail = detail ∧
    (q.ctx (admCtx p c.fn.val)).result = result ∧ (q.ctx (admCtx p c.fn.val)).outCount = BitVec.ofNat 32 out.length
  others  : (∀ m, m ≠ c.fn.val → q.adm m = p.adm m) ∧ ∀ j, j ≠ admCtx p c.fn.val → q.ctx j = p.ctx j

/-- Administrative command `c` has failed and changed nothing else (R390). -/
def AdmRefuses (op : Nat) (c : AdmCmd) (status detail : Byte) (p q : Part) : Prop :=
  AdmEnds op c status detail [] [] p q ∧ q = { p with tnt := { p.tnt with adm := q.tnt.adm }, dsp := q.dsp }

/-- The administrative commands of R389 and R466 with what those rules say of each: its opcode, manager only, Class A, the ARGS it
defines, and the octets it must read from and write to its buffer. RUN's class is its program's, which matters here on a standby only
(R543); EXECUTE is Class A but for DEBUG_UNLOCK (R464). -/
def admKinds (p : Part) (c : AdmCmd) (input : Option (List Byte)) : List (Instr × Part.AdmKind) :=
  let d := Pk.fit 128 (c.buf.getD [])
  let lands : Bool := p.sys.mode == .standby && (Part.handlesOf (Part.headOf d) d).any fun x => hClass x == 5
  [(.run c input, { op := 0x0001, classA := lands, reads := 64 }),
   (.keyLand c, { op := 0x0010, classA := true }), (.keyGenerate c, { op := 0x0011, classA := true }),
   (.keyLoadBlob c, { op := 0x0012, classA := true, reads := 64 }), (.keySealBlob c, { op := 0x0013 }),
   (.keyDestroy c, { op := 0x0014, classA := true }), (.keyNarrow c, { op := 0x0015, classA := true }),
   (.storageRotate c, { op := 0x0016, classA := true }), (.ctrRead c, { op := 0x0020 }),
   (.ctrAdvance c, { op := 0x0021, classA := true }),
   (.ceremonyOpen c, { op := 0x0030, classA := true, used := Part.openUsed (fld c.a1 0 4).toNat, writes := 64 }),
   (.approve c, { op := 0x0030, used := Part.stepUsed, reads := 2 }),
   (.component c, { op := 0x0030, used := Part.stepUsed, reads := 24 }),
   (.execute c, { op := 0x0030, classA := p.executeClassA, used := Part.stepUsed }),
   (.ceremonyClose c, { op := 0x0030, used := Part.stepUsed }), (.query c, { op := 0x0040, writes := 64 }),
   (.tenantCreate c, { op := 0x0100, mgr := true, classA := true, used := Part.allotUsed }),
   (.tenantSet c, { op := 0x0101, mgr := true, classA := true, used := Part.allotUsed }),
   (.tenantDestroy c, { op := 0x0102, mgr := true, classA := true }),
   (.freeze c, { op := 0x0110, mgr := true, classA := true }), (.thaw c, { op := 0x0111, mgr := true, classA := true }),
   (.migOffer c, { op := 0x0120, mgr := true }),
   (.migAccept c, { op := 0x0121, mgr := true, classA := true, used := Part.allotUsed, reads := 10180 }),
   (.migBind c, { op := 0x0122, mgr := true, reads := 10180 }),
   (.snapshot c, { op := 0x0123, mgr := true, classA := true }),
   (.restore c, { op := 0x0124, mgr := true, classA := true, reads := 64 }), (.migAbandon c, { op := 0x0125, mgr := true }),
   (.migRefuse c, { op := 0x0126, mgr := true, classA := true, writes := 7508 }),
   (.migClose c, { op := 0x0127, mgr := true, classA := true, reads := 7508 })]

/-! ### Ceremonies (R464 to R474) -/

/-- SYS with no session: SYS_CER zero, and the mode SERVICE where it was CEREMONY. -/
def closed (y : Sys) : Sys :=
  { y with
    session := {}, cerActive := false, cerClass := 0, cerTarget := 0, cerCount := 0, cerFails := 0, cerQuorum := false
    mode := if y.mode = .ceremony then .service else y.mode }

/-- Between `p` and `q` HOLD of the chain of handle `h` has become `b`: each slot of it in use, with no bad mark and a tag that holds, has
it so, with GEN and material kept; every other slot stays (R331, R471). -/
def HoldSet (h : BitVec 32) (b : Bool) (p q : Part) : Prop :=
  ∀ j,
    let sound := p.slc.isBad j = false ∧ p.slc.tagOk j = true
    (j ∉ p.slc.chainOf (hIndex h) → q.slot j = p.slot j) ∧
    (j ∈ p.slc.chainOf (hIndex h) → (p.slot j).state ≠ Slot.empty → sound →
      (q.slot j).hold = b ∧ (q.slot j).gen = (p.slot j).gen ∧ (q.slot j).mat = (p.slot j).mat) ∧
    (j ∈ p.slc.chainOf (hIndex h) → (p.slot j).state = Slot.empty ∨ p.slc.isBad j = true ∨ (p.bankUp (j % 32) = true ∧ p.slc.tagOk j = false) →
      q.slot j = p.slot j)

/-- The open session has been undone (R473): nothing of it is left, its landing slot is destroyed, and the hold on its key is lifted. -/
def Undone (p q : Part) : Prop :=
  let s := p.sys.session
  q.sys = closed p.sys ∧
    (s.cls ≠ 1 → s.slot = none → q.slc = p.slc) ∧
    (s.cls ≠ 1 → ∀ i, s.slot = some i → Destroyed (p.slc.chainOf i) p q) ∧
    (s.cls = 1 → s.slot = none → HoldSet s.key false p q)

/-! ### The pair (R521 to R560) -/

/-- `q` is `r`, but that a change of HIF_PAIR from `p` has raised the pair status source and signalled vector 2. -/
def Watched (p r q : Part) : Prop :=
  (r.pairWord = p.pairWord → q = r) ∧
    (r.pairWord ≠ p.pairWord → q = { r with mir := { r.mir with statusEvent := true }, hif := q.hif })

/-- `r` but for a record posted, and for the signal of a change of HIF_PAIR. -/
def Noted (p r q : Part) : Prop := ∃ r', Recorded r r' ∧ Watched p r' q

/-- A message of a type may be received: the part is paired, a session runs (for HANDSHAKE, the link has trained), and its first frame
is the next one in order of a key phase still accepted (R523, R524, R528). -/
def InOrder (p : Part) (type : Byte) (fseq : BitVec 64) (old : Bool) : Prop :=
  p.nvm.charter.paired = true ∧ (if type = Part.frHandshake then 2 ≤ p.mir.link.toNat else p.mir.session = true) ∧
    (old = true → p.mir.oldPhase = true) ∧ fseq = if old then p.mir.fseqOld else p.mir.fseqRx

/-- The MIR block once a message has been accepted: its frames counted, and the sent frames that it acknowledges dropped. -/
def taken (fack : Word) (old : Bool) (bs : List Byte) (m : Mir) : Mir :=
  let k := BitVec.ofNat 64 (max 1 ((bs.length + 1023) / 1024))
  { m with
    fseqRx := if old then m.fseqRx else m.fseqRx + k, fseqOld := if old then m.fseqOld + k else m.fseqOld
    tx := m.tx.filter fun f => f.1 != (m.phase != old) || decide (2 ^ 31 ≤ (fack - f.2.1.setWidth 32).toNat) }

/-- The MIR block once one message of at most 1,024 octets has been sent (R523, R524). -/
def sent1 (type : Byte) (bs : List Byte) (m : Mir) : Mir :=
  let f := Part.frameOctets m type false bs
  { m with out := m.out ++ [f], tx := m.tx ++ [(m.phase, m.fseqTx, f)], fseqTx := m.fseqTx + 1, share := m.share.apply }

/-- Item `x` of a ledger entry or copy, laid out as R530 says, has been applied between `p` and `q`. -/
def ItemApplied (x : List Byte) (p q : Part) : Prop :=
  let f := fun (o k : Nat) => ofLe ((x.drop o).take k)
  let n := if f 4 2 = 1024 then 0 else f 4 2 + 1
  (f 0 1 = 1 → (q.slot (f 4 4)).w0 = BitVec.ofNat 32 (f 8 4) ∧ (q.slot (f 4 4)).w1 = BitVec.ofNat 32 (f 12 4) ∧
    (q.slot (f 4 4)).w2 = BitVec.ofNat 32 (f 16 4) ∧ (q.slot (f 4 4)).w3 = BitVec.ofNat 32 (f 20 4) ∧
    (q.slot (f 4 4)).mat = (x.drop 24).take 32 ∧ q.slc.isBad (f 4 4) = false ∧ q.slc.tagOk (f 4 4) = true ∧
    (∀ j, j ≠ f 4 4 → q.slot j = p.slot j) ∧ q.tnt = p.tnt ∧ q.acu = p.acu) ∧
  (f 0 1 = 2 → q.tnt.counters.get 0 (f 4 4) = BitVec.ofNat 64 (f 8 8) ∧ q.counterRead (f 4 4) = BitVec.ofNat 64 (f 8 8) ∧
    (∀ g, g ≠ f 4 4 → q.tnt.counters.get 0 g = p.tnt.counters.get 0 g) ∧ q.slc = p.slc ∧ q.acu = p.acu) ∧
  (f 0 1 = 3 →
    (n ≠ 0 → q.tnt.states.get 0 n = BitVec.ofNat 3 (f 6 1)) ∧ (n ≠ 0 → f 6 1 % 8 = 0 → q.tnt.t.get {} n = {}) ∧
    (n = 0 ∨ f 6 1 % 8 ≠ 0 → (q.tnt.t.get {} n).st.eff =
      { granBase := BitVec.ofNat 13 (f 24 2), grans := BitVec.ofNat 14 (f 16 2), inflight := BitVec.ofNat 17 (f 12 4)
        slots := BitVec.ofNat 21 (f 8 4), grpBase := BitVec.ofNat 8 (f 28 1), groups := BitVec.ofNat 9 (f 20 2)
        weight := BitVec.ofNat 8 (f 22 1), floor := BitVec.ofNat 2 (f 23 1), qpBase := BitVec.ofNat 12 (f 26 2)
        qpCount := BitVec.ofNat 7 (f 18 1) }) ∧
    (∀ m, m ≠ n → q.tnt.t.get {} m = p.tnt.t.get {} m ∧ q.tnt.states.get 0 m = p.tnt.states.get 0 m) ∧ q.slc = p.slc ∧ q.acu = p.acu) ∧
  (f 0 1 = 4 → f 4 1 = 0 → p.tagFault 0 (f 6 2) (f 8 2) (BitVec.ofNat 12 (f 10 2)) = none →
    (∀ g, q.acu.tagOb.get 0 g = if f 6 2 ≤ g ∧ g < f 6 2 + f 8 2 then BitVec.ofNat 12 (f 10 2) else p.acu.tagOb.get 0 g) ∧
    q.slc = p.slc ∧ q.tnt = p.tnt) ∧
  (f 0 1 = 5 → ∀ root, p.storageRoot = some root →
    q.bat.vault = p.bat.vault.write ram (Part.skeyOffset (Part.colourOf n))
      (if f 8 4 = 0 then List.replicate 48 0
       else leBytes 4 (f 8 4) ++ [1, 0, 0, 0] ++ Crypto.keyWrap (Crypto.aes root) ((x.drop 12).take 32)) ∧
    q.slc = { p.slc with cache := [] } ∧ q.tnt = p.tnt ∧ q.acu = p.acu) ∧
  (f 0 1 = 7 → (f 6 1 ≠ 4 → q.migOf n = none) ∧
    (f 6 1 = 4 → q.migOf n = some { stage := .sent, id := (x.drop 8).take 16, peer := BitVec.ofNat 384 (ofBe ((x.drop 24).take 48)) }) ∧
    (∀ m, m ≠ n → q.migOf m = p.migOf m) ∧ q.slc = p.slc ∧ q.acu = p.acu)

end Sys2Proof.Safety
end

