-- ==== Sys2Proof/WellFormed.lean ====
section
/-! DEFINITION. What a well-formed command is: the fields of a Dibry instruction lie in the ranges that its word admits (R175, R200
to R202), and a command that brings a reading of every sensor, or names a vector, brings what the part has. -/

namespace Sys2Proof

/-- Vectors of the MSI-X table of a function (R40, R41). -/
def Instr.tableSize (n : Nat) : Nat := if n = 0 then 2048 else 8

def Instr.wf : Instr → Bool
  | .sshf _ _ _ k => k != 0x20
  | .scmp _ _ _ n | .scmpA _ _ _ n => Dibry.countOk n
  | .spinUnpk _ _ _ _ f | .spinPack _ _ _ _ f => Dibry.fmtOk f
  | .sld _ _ _ n _ => Dibry.countOk n
  | .enc _ _ _ k _ | .dec _ _ _ k _ | .mac _ _ _ k _ | .kder _ _ _ k _ => Dibry.keyField k
  | .hash _ _ _ k _ => k == 0x1F
  | .rsaSign _ _ _ k | .rsaVerify _ _ _ k | .rsaOaepDec _ _ _ k | .ecSign _ _ _ k | .ecVerify _ _ _ k | .ecDh _ _ _ k
  | .edSign _ _ _ k | .edVerify _ _ _ k | .mldsaSign _ _ _ k | .mldsaVerify _ _ _ k | .mlkemEnc _ _ _ k | .mlkemDec _ _ _ k
  | .slhFors _ _ _ k | .slhLayer _ _ _ k | .slhVerify _ _ _ k => Dibry.engField k
  | .msixUnmask n v => decide (v.val < Instr.tableSize n.val)
  | .wpuTick temps slack _ => temps.length == 24 && slack.length == 8
  | .ageMeasure hyd => hyd.length == 64
  | .illegal x w => (Dibry.decode x w).isNone
  | _ => true

end Sys2Proof
end

