-- ==== Sys2Proof/Certificates/Slice0/Obligations.lean ====
section
/-! DEFINITION. The statements for the provers. -/

open Sys2Proof Sys2Proof.Machine Sys2Proof.Safety

/-- For every command c and state s, the step of s with c put at the front of its queue is exec c on s with its queue as it
was, and exec c s is a next state, with the queue as it was: no command of the table ends in a fault or a refusal. What that
state is, the other statements say, row by row. The queue is the model's own (log entry 25): the spec gives commands one at a
time. -/
def Obligations.StepRunsFrontCommand : Prop :=
  (∀ (c : Instr) (s : State), step { s with pending := c :: s.pending } = exec c s) ∧
    ∀ (c : Instr) (s : State), ∃ t : State, exec c s = .next t ∧ t.pending = s.pending

/-- With an empty queue a step answers a next state in which the 80-bit calendar time has advanced by one unit of 1/65,536 s,
REMAIN of a debug grant has counted down by 1 exactly when a whole second passed and it was not 0, DSP_AUTH_P999 stands unless
a whole second passed, when it takes a free value, and nothing else of the part but the counter of free values, the fuses or
the queue has changed. That an empty queue ticks is the model's choice, log entry 25; that the latency is free is log entry
170. -/
def Obligations.IdleStepTicksCalendar : Prop :=
  ∀ s : State, s.pending = [] →
    ∃ t, step s = .next t ∧ t.part.bat.secs ++ t.part.bat.frac = (s.part.bat.secs ++ s.part.bat.frac) + 1#80 ∧
      t.part.dbg.remain =
        (if s.part.bat.frac = 0xFFFF#16 ∧ s.part.dbg.remain ≠ 0 then s.part.dbg.remain - 1 else s.part.dbg.remain) ∧
      (s.part.bat.frac ≠ 0xFFFF#16 → t.part.dsp.p999 = s.part.dsp.p999 ∧ t.part.free = s.part.free) ∧
      t = { s with part :=
        { s.part with bat := { s.part.bat with secs := t.part.bat.secs, frac := t.part.bat.frac }
                      dbg := { s.part.dbg with remain := t.part.dbg.remain }
                      dsp := { s.part.dsp with p999 := t.part.dsp.p999 }
                      free := t.part.free } }

/-- For every command i that is a Dibry instruction, on any core or thread, with every operand at any value that i.wf admits
(the ranges of R175, R200 to R202), the decoder reads the encoder's word of i as i on the same processor. -/
def Obligations.DibryDecodeReadsBackEveryEncoding : Prop :=
  ∀ (i : Instr) (x : Proc) (w : Word), i.wf = true → Dibry.encode i = some (x, w) → Dibry.decode x w = some i

/-- If a 32-bit word decodes to a command on a processor, then that command is well-formed, every field of the word that the
instruction does not use is zero, every field holds a value of the range its row gives, and the word is exactly the encoder's
word of the command: the encoder rebuilds all 32 bits. A word of any other form, R175's cases, decodes to nothing. -/
def Obligations.DibryWordHasOneMeaning : Prop :=
  ∀ (x : Proc) (w : Word) (i : Instr), Dibry.decode x w = some i → Dibry.encode i = some (x, w) ∧ i.wf = true

/-- The words that 05_dibry_isa.md and 08_rakes_and_grainers.md write out for ADDI g29, g29, −32; SW lk, 28(g29); CALL +0x120;
JLR g0, lk, 0; MTSR DBK, g3; FENCE.RULE; LR g5, [g6]; BNE g7, g0, −3; SLD s2, [g9 + 32], 8; SCMP.A s7, s2, 8; HEND g12, g0 and
ENGX EC.VERIFY decode, for every processor, to those instructions with those operands. A sanity statement over a few words of
the families. -/
def Obligations.DibryWordsDecode : Prop :=
  ∀ x : Proc,
    Dibry.decode x 0x07BDFFE0 = some (.addi x 29 29 0xFFE0) ∧
    Dibry.decode x 0x6BFD001C = some (.sw x 31 29 28) ∧
    Dibry.decode x 0xA4000048 = some (.call x 0x48) ∧
    Dibry.decode x 0xA81F0000 = some (.jlr x 0 31 0) ∧
    Dibry.decode x 0xC0030019 = some (.mtsr x 1 3) ∧
    Dibry.decode x 0xC0000006 = some (.fenceRule x) ∧
    Dibry.decode x 0x70A60000 = some (.lr x 5 6) ∧
    Dibry.decode x 0x84E0FFFD = some (.bne x 7 0 (-3)) ∧
    Dibry.decode x 0xE4049420 = some (.sld x 2 9 8 32) ∧
    Dibry.decode x 0xE140E408 = some (.scmpA x 7 2 8) ∧
    Dibry.decode x 0xE480C000 = some (.hend x 12 0) ∧
    Dibry.decode x 0xEA006041 = some (.ecVerify x 0 1 0x10)

/-- Whatever the command and the state, exec answers a next state, in which the commands that wait are those that waited and
the fuse banks are a growth of the ones before. Let f0 be any content of the fuse banks that the present banks have grown from
(every bit of the life-cycle word, of the root bank, of its marks, of the one-way switches and of the anti-rollback
thermometer that f0 holds is still set, the owner slots that f0 holds stand in place, the identity fuses are equal). Then
whatever command is at the front of the queue, or with none, the banks after the step have grown from f0 as well. The case f0
= the present banks says that no step clears a fuse. -/
def Obligations.FusesOnlyGainBits : Prop :=
  (∀ (i : Instr) (s : State), ∃ t, exec i s = .next t ∧ t.pending = s.pending ∧ FusesGrow s.fuses t.fuses) ∧
  ∀ (f0 : Fuses) (s t : State), FusesGrow f0 s.fuses → step s = .next t → FusesGrow f0 t.fuses

/-- At reset the mode is WAKE; no command waits; the secure core runs privileged at address 0 with every general register zero
and no reservation; cores 0 to 3 are held in reset; every harvest thread, context, key slot and memory is empty; ACU_GEN reads
0; and the fuse banks are a growth of themselves as shipped, the invariant of FusesOnlyGainBits. The PROVISIONED fuse content
is the model's choice, log entry 6, as is zeroed memory, log entry 5. -/
def Obligations.ResetLeavesTheStatedState : Prop :=
  let p := State.reset.part
  State.reset.pending = [] ∧ FusesGrow Fuses.shipped State.reset.fuses ∧ p.sys.mode = .wake ∧ p.sys.fuses = State.reset.fuses ∧
    p.core 4 = { run := .running, pc := 0, priv := true, regs := [], resv := none } ∧
    (∀ c, c < 4 → p.core c = { run := .held }) ∧ p.acu.gen = 0 ∧ p.seq.threads = [] ∧ p.dsp.ctxs = [] ∧ p.slc.slots = [] ∧
    memoriesOk p = true ∧ p.priv = [] ∧ p.ccMem = [] ∧ p.opBuf = []

/-- For every state, slot word, and 4-bit value, for both worlds: a producer's write to word k of its ring is stored when slot
k/16 holds no unread message, else it is ignored and the writer's ERR set, where slot i is unread when it is (HEAD + j) mod 8
for some j below TAIL − HEAD modulo 16; a TAIL write takes effect when it leaves at most 8 unread messages modulo 16, else
ERR; a HEAD write takes effect when it does not pass TAIL, else ERR. The normal world produces on N2S and consumes S2N, the
secure world the reverse. Each command completes in every state and changes no other field of the part. -/
def Obligations.WorldMailboxIgnoresWritesOutOfTurn : Prop :=
  ∀ (s : State) (k : Fin 128) (v : Word) (n : BitVec 4),
    let p := s.part
    let y := p.sys
    let unread := fun (tail head : BitVec 4) => ∃ j, j < (tail - head).toNat ∧ (head.toNat + j) % 8 = k.val / 16
    (¬ unread y.n2sTail y.n2sHead →
      Yields (.wmbSlotWrite .normal k v) s { p with sys := { y with n2s := y.n2s.set 0 k.val v } }) ∧
    (unread y.n2sTail y.n2sHead → Yields (.wmbSlotWrite .normal k v) s { p with sys := { y with nErr := true } }) ∧
    (¬ unread y.s2nTail y.s2nHead →
      Yields (.wmbSlotWrite .secure k v) s { p with sys := { y with s2n := y.s2n.set 0 k.val v } }) ∧
    (unread y.s2nTail y.s2nHead → Yields (.wmbSlotWrite .secure k v) s { p with sys := { y with sErr := true } }) ∧
    ((n - y.n2sHead).toNat ≤ 8 → Yields (.wmbTailWrite .normal n) s { p with sys := { y with n2sTail := n } }) ∧
    (8 < (n - y.n2sHead).toNat → Yields (.wmbTailWrite .normal n) s { p with sys := { y with nErr := true } }) ∧
    ((n - y.s2nHead).toNat ≤ 8 → Yields (.wmbTailWrite .secure n) s { p with sys := { y with s2nTail := n } }) ∧
    (8 < (n - y.s2nHead).toNat → Yields (.wmbTailWrite .secure n) s { p with sys := { y with sErr := true } }) ∧
    ((n - y.s2nHead).toNat ≤ (y.s2nTail - y.s2nHead).toNat →
      Yields (.wmbHeadWrite .normal n) s { p with sys := { y with s2nHead := n } }) ∧
    ((y.s2nTail - y.s2nHead).toNat < (n - y.s2nHead).toNat →
      Yields (.wmbHeadWrite .normal n) s { p with sys := { y with nErr := true } }) ∧
    ((n - y.n2sHead).toNat ≤ (y.n2sTail - y.n2sHead).toNat →
      Yields (.wmbHeadWrite .secure n) s { p with sys := { y with n2sHead := n } }) ∧
    ((y.n2sTail - y.n2sHead).toNat < (n - y.n2sHead).toNat →
      Yields (.wmbHeadWrite .secure n) s { p with sys := { y with sErr := true } })

/-- SWI_N_SET, SWI_N_CLR and SWI_S_SET write their bit; SWI_S_CLR clears SWI_S when the secure world writes it and does
nothing from the normal world. RUN on a core held in reset starts it privileged with zero registers at the short address of
SYS_CC_STARTc with DBK and IBK equal to SYS_CC_STARTBKc; RUN on a core in any other run state, LOCKUP among them, is ignored.
HOLD resets the core: it reads as the reset core, held, its reservation discarded. FAULT_POP drops the first record of the
named queue. Each completes in every state; no other field of the part changes, and other cores read as before where the table
of cores is in its canonical form. -/
def Obligations.CoresStartAndStopAtTheirControls : Prop :=
  ∀ (s : State) (c : Fin 4),
    let p := s.part
    Yields .swiNSet s { p with sys := { p.sys with swiN := true } } ∧
    Yields .swiNClr s { p with sys := { p.sys with swiN := false } } ∧
    Yields .swiSSet s { p with sys := { p.sys with swiS := true } } ∧
    Yields (.swiSClr .secure) s { p with sys := { p.sys with swiS := false } } ∧
    Yields (.swiSClr .normal) s p ∧
    ((p.core c).run ≠ .held → Yields (.ccRun c) s p) ∧
    ((p.core c).run = .held →
      ∃ q, Yields (.ccRun c) s q ∧ q = { p with cores := q.cores } ∧ (∀ d, d ≠ c.val → q.core d = p.core d) ∧
        q.core c = { run := .running, priv := true, regs := [], pc := p.sys.ccStart.get 0 c, dbk := p.sys.ccStartBk.get 0 c
                     ibk := p.sys.ccStartBk.get 0 c, resv := none }) ∧
    (∃ q, Yields (.ccHold c) s q ∧ q = { p with cores := q.cores } ∧ (∀ d, d ≠ c.val → q.core d = p.core d) ∧
        q.core c = { run := .held, regs := [], resv := none }) ∧
    Yields (.faultPop .normal) s { p with acu := { p.acu with nfault := p.acu.nfault.tail } } ∧
    Yields (.faultPop .secure) s { p with acu := { p.acu with sfault := p.acu.sfault.tail } }

/-- For ACU_COMMIT of core m (its regions 16 to 31) and ACU_SEC_COMMIT of master m (regions 0 to 15 of a core, all 32 of
masters 4 and 5), let t be the regions in effect with the staged half named put in. Where no case of R436 refuses t, t takes
effect, ACU_GEN advances by 1 and OLD_INFLIGHT says whether a DMA transfer of another generation runs; where a case refuses
it, nothing but CFG_MISMATCH and the recorded cause, master and overlapping pair changes: in particular the regions in effect
and ACU_GEN stay. Each commit brings in only the half it names. A tag commit likewise sets its range of granules to its colour
with a new generation, or is refused whole. Nothing outside the ACU block changes. -/
def Obligations.AcuCommitsTakeEffectWholeOrNotAtAll : Prop :=
  (∀ (s : State) (m lo hi : Nat) (i : Instr),
    (i = .acuCommit (Fin.ofNat 4 m) ∧ m < 4 ∧ lo = 16 ∧ hi = 32) ∨
    (i = .acuRegionCommit (Fin.ofNat 6 m) ∧ m < 4 ∧ lo = 0 ∧ hi = 16) ∨
    (i = .acuRegionCommit (Fin.ofNat 6 m) ∧ 4 ≤ m ∧ m < 6 ∧ lo = 0 ∧ hi = 32) →
    let p := s.part
    let t := p.acu.merged m lo hi
    (Acu.regionFault t m = none →
      Yields i s { p with acu :=
        { p.acu with eff := t, gen := p.acu.gen + 1
                     oldInflight := p.sys.dma.any fun c => c.2.busy && c.2.gen != p.acu.gen + 1 } }) ∧
    (∀ cause a b, Acu.regionFault t m = some (cause, a, b) →
      ∃ q, Yields i s q ∧ q = { p with acu :=
        { p.acu with cfgMismatch := true, misCause := cause, misMaster := BitVec.ofNat 3 m, ovlA := q.acu.ovlA, ovlB := q.acu.ovlB } } ∧
        (cause = 1 → q.acu.ovlA = BitVec.ofNat 5 a ∧ q.acu.ovlB = BitVec.ofNat 5 b)) ∧
    ((∀ r, lo ≤ r → r < hi → t.get {} (32 * m + r) = p.acu.stage.get {} (32 * m + r)) ∧
      ∀ k, k < 32 * m + lo ∨ 32 * m + hi ≤ k → t.get {} k = p.acu.eff.get {} k)) ∧
  (∀ s : State,
    let p := s.part
    let u := p.acu
    (∀ cause, p.tagFault u.tagSpace u.tagFirst.toNat u.tagCount.toNat u.tagColour = some cause →
      Yields .acuTagCommit s { p with acu := { u with cfgMismatch := true, misCause := cause, misMaster := 7 } }) ∧
    (p.tagFault u.tagSpace u.tagFirst.toNat u.tagCount.toNat u.tagColour = none → u.tagSpace = 0 →
      ∃ q, Yields .acuTagCommit s q ∧ q.acu.gen = u.gen + 1 ∧
        q = { p with acu := { u with gen := q.acu.gen, tagOb := q.acu.tagOb, oldInflight := q.acu.oldInflight } } ∧
        ∀ g, q.acu.tagOb.get 0 g =
          if u.tagFirst.toNat ≤ g ∧ g < u.tagFirst.toNat + u.tagCount.toNat then u.tagColour else u.tagOb.get 0 g) ∧
    (p.tagFault u.tagSpace u.tagFirst.toNat u.tagCount.toNat u.tagColour = none → u.tagSpace ≠ 0 →
      ∃ q, Yields .acuTagCommit s q ∧ q.acu.gen = u.gen + 1 ∧
        q = { p with acu :=
          { u with gen := q.acu.gen, tagEs := q.acu.tagEs, tagCsr := q.acu.tagCsr, oldInflight := q.acu.oldInflight } }))

/-- FULL_RESET with cause bit k, POWER_GOOD and RESET_N_LOW_TIMEOUT each complete in every state and leave the access control,
Windpump, Sluice, sequencers, pans, engines, Salt Cellar, Brine Wells, tenants, pair block, Salt Crust and debug block, and
the three RAMs, at their values after reset, the mesh pattern as the battery domain has it (R565; log entry 193); mode WAKE,
the fuse banks sensed, the flash contents and the counter tables in it (log entry 28) kept, calendar time and Bittern Vault
kept, BACKUP_LATCH kept, HIF_RESET_CAUSE naming the cause. FULL_RESET keeps the charter FAILED bits and starts the secure
core; POWER_GOOD records POWER_ON with the AON domain lost, else the supply cause, and samples UNIT_SEL; RESET_N_LOW_TIMEOUT
holds the part with RESET_N recorded, XSPI_CS_N high, XSPI_RESET_N low and the other xSPI balls undriven. The fuse banks and
the queue stay. -/
def Obligations.FullResetRestartsThePartInWake : Prop :=
  let fresh := fun (s : State) (cause : Nat) (q : Part) =>
    q.acu = {} ∧ q.wpu = Part.reset.wpu ∧ q.dsp = {} ∧ q.seq = {} ∧ q.pan = {} ∧ q.rke = {} ∧ q.slc = {} ∧ q.ent = {} ∧
      q.tnt = {} ∧ q.mir = {} ∧ q.tmp = { meshSeed := s.part.bat.pattern } ∧ q.dbg = {} ∧ q.priv = [] ∧ q.ccMem = [] ∧ q.opBuf = [] ∧ q.sys.mode = .wake ∧
      q.sys.fuses = s.fuses ∧ q.nvm.flash = s.part.nvm.flash ∧ q.nvm.ctrTab = s.part.nvm.ctrTab ∧ q.bat.secs = s.part.bat.secs ∧ q.bat.frac = s.part.bat.frac ∧
      q.bat.vault = s.part.bat.vault ∧ q.bat.backupLatch = s.part.bat.backupLatch ∧ q.aon.resetCause = BitVec.ofNat 7 (2 ^ cause)
  ∀ (s : State) (k : Fin 7) (lost unit : Bool),
    (∃ q, Yields (.fullReset k) s q ∧ fresh s k.val q ∧ q.core 4 = Core.secureReset ∧ q.aon.failedA = s.part.aon.failedA ∧
      q.aon.failedB = s.part.aon.failedB ∧ q.sys.unitSel = s.part.sys.unitSel ∧ q.sys.resetLow = false) ∧
    (∃ q, Yields (.powerGood lost unit) s q ∧ fresh s (if lost then 0 else 5) q ∧ q.core 4 = Core.secureReset ∧
      q.sys.unitSel = unit ∧ q.bat.onCell = false ∧ (lost = true → q.aon.failedA = false ∧ q.aon.failedB = false)) ∧
    (∃ q, Yields .resetNLowTimeout s q ∧ fresh s 1 q ∧ q.sys.resetLow = true ∧ q.nvm.xspi = { csN := true, resetN := false, driven := false } ∧
      q.core 4 = { Core.secureReset with run := .held })

/-- RESET_N_RISE on a held part releases it: the part is no longer held, UNIT_SEL is sampled, the boundary register is off the
balls, the xSPI balls are driven, BACKUP_LATCH is taken from the battery domain, and the secure core stands at its reset
state; the RAMs, keys, fuses and queue stay. On a part not held a filtered pulse changes nothing, and one of 5 ns or more
latches RESET_GLITCH. MAIN_POWER_FAIL with a cell puts the battery domain on the cell with the TEMP_LOW in effect and changes
only that domain and the Tally Book; without a cell the battery domain's state is lost and nothing else changes.
SUPPLY_RESET_START leaves mode BACKUP when the battery domain runs on the cell, else WAKE, the secure core held, the level of
RESET_N as it was, the cause recorded, the RAMs and key slots empty, the flash and the Vault kept. -/
def Obligations.ResetPinAndSupplyEvents : Prop :=
  ∀ (s : State) (filtered unit : Bool),
    let p := s.part
    (p.sys.resetLow = true →
      ∃ q, Yields (.resetNRise filtered unit) s q ∧ q.sys.resetLow = false ∧ q.sys.unitSel = unit ∧
        q.sys.quarBackup = p.bat.backupLatch ∧ q.dbg.boundary = false ∧ q.dbg.outputsOff = false ∧
        q.core 4 = Core.secureReset ∧ q.priv = p.priv ∧ q.ccMem = p.ccMem ∧ q.opBuf = p.opBuf ∧ q.slc = p.slc ∧ q.nvm = { p.nvm with xspi := {} } ∧
        q.aon = p.aon ∧ q.sys.mode = p.sys.mode) ∧
    (p.sys.resetLow = false → Yields (.resetNRise true unit) s p) ∧
    (p.sys.resetLow = false →
      ∃ q, Yields (.resetNRise false unit) s q ∧ bitAt q.tmp.latched Alarm.resetGlitch.index = true ∧ q.nvm = p.nvm ∧
        q.acu = p.acu ∧ q.priv = p.priv ∧ q.ccMem = p.ccMem) ∧
    (∃ q, Yields (.mainPowerFail true) s q ∧ q = { p with bat := q.bat, evr := q.evr } ∧ q.bat.onCell = true ∧
      q.bat.tempLow = p.tmp.crust.tempLow ∧ q.bat.vault = p.bat.vault ∧ q.bat.secs = p.bat.secs ∧ q.bat.frac = p.bat.frac) ∧
    Yields (.mainPowerFail false) s { p with bat := {} } ∧
    (∃ q, Yields .supplyResetStart s q ∧ q.sys.mode = (if p.bat.onCell then .backup else .wake) ∧ q.sys.resetLow = p.sys.resetLow ∧ q.nvm.xspi = p.nvm.xspi ∧
      q.aon.resetCause = 0b0100000 ∧ q.priv = [] ∧ q.ccMem = [] ∧ q.opBuf = [] ∧ q.slc = {} ∧ q.nvm.flash = p.nvm.flash ∧
      q.bat.vault = p.bat.vault ∧ q.core 4 = { Core.secureReset with run := .held })

/-- A host-link reset takes the link down with rate and width zero, drops every IDE stream, the SPDM session, the DOE answer
and the logged errors, and clears VF Enable and NumVFs; a PF FLR clears VF Enable, NumVFs, ARI and VF Memory Space Enable and
the manager side of every mailbox; a VF FLR of an existing function clears its configuration registers and puts its interface
in ERROR when it was CONFIG_LOCKED or RUN (R66), else in CONFIG_UNLOCKED, and zeroes the function side of its mailbox;
clearing VF Enable ends in VF Enable 0. All four keep tenants' quotas and queue-pair assignment, access rules, flash, private
memory and local SRAM, and, with no ceremony session open, the key slots. A drain that still holds contexts at its time-out
leaves the function WEDGED and not draining and sets WEDGED_CHG; without contexts, or with no drain, the event changes
nothing. -/
def Obligations.FunctionAndLinkResetsClearTheirScope : Prop :=
  let kept := fun (p q : Part) => q.tnt.t = p.tnt.t ∧ q.acu = p.acu ∧ q.nvm = p.nvm ∧ q.priv = p.priv ∧ q.ccMem = p.ccMem ∧
    (p.sys.session.active = false → q.slc = p.slc)
  ∀ s : State,
    let p := s.part
    (∃ q, Yields .hostLinkReset s q ∧ kept p q ∧ q.hif.linkUp = false ∧ q.hif.rate = 0 ∧ q.hif.width = 0 ∧
      q.hif.ide = [] ∧ q.hif.spdm = false ∧ q.hif.doeOut = [] ∧ q.hif.aer = 0 ∧ q.hif.vfEnable = false ∧ q.hif.numVfs = 0) ∧
    (∃ q, Yields .pfFlr s q ∧ kept p q ∧ q.hif.vfEnable = false ∧ q.hif.numVfs = 0 ∧ q.hif.ari = false ∧ q.hif.vfMse = false ∧
      q.hif.linkUp = p.hif.linkUp ∧ ∀ n, (q.tnt.mbox.get {} n).down = [] ∧ (q.tnt.mbox.get {} n).downFull = false ∧
        (q.tnt.mbox.get {} n).acked = false) ∧
    (∀ v : Fin 1024, p.fnExists (v.val + 1) = false → Yields (.vfFlr v) s p) ∧
    (∀ v : Fin 1024, p.fnExists (v.val + 1) = true →
      ∃ q, Yields (.vfFlr v) s q ∧ kept p q ∧ q.hif.vfEnable = p.hif.vfEnable ∧ q.hif.numVfs = p.hif.numVfs ∧
        (q.fn (v.val + 1)).cfg = [] ∧ (q.fn (v.val + 1)).bme = false ∧
        (q.fn (v.val + 1)).tdi =
          (if (p.fn (v.val + 1)).tdi = .locked ∨ (p.fn (v.val + 1)).tdi = .run then .error else .unlocked) ∧
        (q.tnt.mbox.get {} (v.val + 1)).up = [] ∧ (q.tnt.mbox.get {} (v.val + 1)).upFull = false ∧
        (q.tnt.mbox.get {} (v.val + 1)).flushed = true) ∧
    (p.cfgOpen 0 = false → Yields .vfEnableClear s p) ∧
    (p.cfgOpen 0 = true → ∃ q, Yields .vfEnableClear s q ∧ kept p q ∧ q.hif.vfEnable = false ∧ q.hif.linkUp = p.hif.linkUp) ∧
    (∀ n : Fin 1025, (p.fn n).draining = false ∨ p.ctxsOf n = [] → Yields (.drainTimeout n) s p) ∧
    (∀ n : Fin 1025, (p.fn n).draining = true → p.ctxsOf n ≠ [] →
      ∃ q, Yields (.drainTimeout n) s q ∧ (q.fn n).wedged = true ∧ (q.fn n).draining = false ∧ q.hif.wedgedChg = true ∧
        q.dsp = p.dsp ∧ q.tnt = p.tnt ∧ q.slc = p.slc)

/-- With configuration space open (R504): a write to NumVFs is stored while VF Enable is 0 and ignored while it is 1; VF
Enable is set; Bus Master Enable is cleared or set, an interface in CONFIG_LOCKED or RUN entering ERROR when it is cleared; a
configuration write stores exactly the writable bits of its dword, leaves every other dword of the function, and on the
physical function gives it its bus number; D3hot is entered and left. With configuration space closed each changes nothing.
Unmasking an existing vector clears its mask, and with its PBA bit set, Function Mask clear, no drain and messages allowed,
sends its message and clears the bit. Training brings the link up at the highest rate and the highest width of R31 that both
ends have, in flit mode at 64.0 GT/s or where the partner supports it, LINK_DEGRADED exactly when below 64.0 GT/s x8; with no
rate or no width in common it changes nothing. Nothing outside the link block changes, but for the record that training posts.
-/
def Obligations.ConfigurationOfFunctions : Prop :=
  ∀ s : State,
    let p := s.part
    (∀ v, p.hif.vfEnable = true ∨ p.cfgOpen 0 = false → Yields (.numvfsWrite v) s p) ∧
    (∀ v, p.cfgOpen 0 = true → p.hif.vfEnable = false → Yields (.numvfsWrite v) s { p with hif := { p.hif with numVfs := v } }) ∧
    (p.cfgOpen 0 = true → Yields .vfEnableSet s { p with hif := { p.hif with vfEnable := true } }) ∧
    (p.cfgOpen 0 = false → Yields .vfEnableSet s p ∧ Yields .d3hotEntry s p ∧ Yields .d0Return s p) ∧
    (p.cfgOpen 0 = true →
      (∃ q, Yields .d3hotEntry s q ∧ q = { p with hif := q.hif } ∧ (q.fn 0).d3hot = true) ∧
      ∃ q, Yields .d0Return s q ∧ q = { p with hif := q.hif } ∧ (q.fn 0).d3hot = false) ∧
    (∀ n : Fin 1025, p.cfgOpen n = false →
      Yields (.busMasterEnableClear n) s p ∧ Yields (.busMasterEnableSet n) s p ∧ ∀ dw v, Yields (.configWrite n dw v) s p) ∧
    (∀ n : Fin 1025, p.cfgOpen n = true →
      (∃ q, Yields (.busMasterEnableClear n) s q ∧ q = { p with hif := q.hif } ∧ (q.fn n).bme = false ∧
        (q.fn n).tdi = (if (p.fn n).tdi = .locked ∨ (p.fn n).tdi = .run then .error else (p.fn n).tdi)) ∧
      (∃ q, Yields (.busMasterEnableSet n) s q ∧ q = { p with hif := q.hif } ∧ (q.fn n).bme = true ∧
        (q.fn n).tdi = (p.fn n).tdi) ∧
      ∀ (dw : Fin 1024) (v : Word) (bus : Byte),
        let m := Part.cfgMask n (4 * dw.val)
        ∃ q, Yields (.configWrite n dw { data := v, bus := bus }) s q ∧ q = { p with hif := q.hif } ∧
          q.cfgHeld n (4 * dw.val) = (p.cfgHeld n (4 * dw.val) &&& ~~~ m) ||| (v &&& m) ∧
          (∀ k, k ≠ 4 * dw.val → q.cfgHeld n k = p.cfgHeld n k) ∧ (q.fn n).bme = (p.fn n).bme ∧
          q.hif.bus = (if n = 0 then bus else p.hif.bus)) ∧
    (∀ (n : Fin 1025) (v : Fin 2048), p.fnExists n = true → v.val < Part.vectorCount n →
      let x := (p.fn n).vectors.get {} v
      ∃ q, Yields (.msixUnmask n v) s q ∧ q = { p with hif := q.hif } ∧ ((q.fn n).vectors.get {} v).masked = false ∧
        (x.pending = true → (p.fn n).fnMask = false → (p.fn n).draining = false → p.mayPost n = true →
          HostMsg.msix n v x.addr x.data ∈ q.hif.out ∧ ((q.fn n).vectors.get {} v).pending = false)) ∧
    ∀ (rates widths : List (BitVec 4)) (flit : Bool),
      let rated := fun (r : BitVec 4) => r ∈ rates ∧ 1 ≤ r.toNat ∧ r.toNat ≤ 6
      let wide := fun (w : BitVec 4) => w ∈ widths ∧ w ∈ [1#4, 4#4, 8#4]
      (∀ rate width : BitVec 4, rated rate → (∀ r, rated r → r.toNat ≤ rate.toNat) → wide width →
        (∀ w, wide w → w.toNat ≤ width.toNat) →
        ∃ q, Yields (.linkTrained rates widths flit) s q ∧ Recorded { p with hif := q.hif } q ∧ q.hif.linkUp = true ∧
          q.hif.rate = rate ∧ q.hif.width = width ∧ q.hif.flit = (flit || rate == 6#4) ∧
          q.hif.degraded = !(rate == 6#4 && width == 8#4)) ∧
      ((∀ r, ¬ rated r) ∨ (∀ w, ¬ wide w) → Yields (.linkTrained rates widths flit) s p)

/-- HIF_RESET_REQ with KEY 0xA5 latches the request and sets the HOST_RESET notice; any other KEY changes nothing. The
acknowledgement and the time-out carry a latched request out as a full reset with cause HOST_REQUEST, RAMs and key slots
empty, fuses and flash kept; with none latched they change nothing. An object of another vendor or type than DOE Discovery,
SPDM and Secured SPDM, or one with configuration closed, is discarded. Discovery and SPDM objects of up to 4 KiB get their
answer in the read mailbox and on the link, the measurement of block 6 with the mode and the life-cycle state; a larger object
gets an SPDM error response whose two code octets the spec leaves open; FINISH opens the secured session where it holds and
END_SESSION ends it (the octets of these messages are log entry 165). IDE_KM acts only over a secured session: it programs a
key set, makes the stream secure when a set is programmed, or stops the stream. LOCK moves an existing interface from
CONFIG_UNLOCKED to CONFIG_LOCKED unless its tenant is freezing, frozen or migrating (states 2, 3, 4), START a locked one to
RUN, STOP any to CONFIG_UNLOCKED; otherwise they change nothing. Only the link block changes but where said. -/
def Obligations.ResetRequestAndHostSecurity : Prop :=
  ∀ s : State,
    let p := s.part
    Yields (.hifResetReqFull 0xA5) s
      { p with hif := { p.hif with resetReq := true }, sys := { p.sys with notice := p.sys.notice ||| 1 } } ∧
    (∀ k, k ≠ 0xA5#8 → Yields (.hifResetReqFull k) s p) ∧
    (∀ i, i = Instr.hostResetAck ∨ i = Instr.hostResetTimeout →
      (p.hif.resetReq = false → Yields i s p) ∧
      (p.hif.resetReq = true → ∃ q, Yields i s q ∧ q.sys.mode = .wake ∧ q.aon.resetCause = 0b0000100 ∧ q.priv = [] ∧
        q.ccMem = [] ∧ q.opBuf = [] ∧ q.slc = {} ∧ q.hif.resetReq = false ∧ q.nvm.flash = p.nvm.flash ∧
        q.bat.vault = p.bat.vault ∧ q.sys.fuses = s.fuses)) ∧
    (∀ (object inner : List Byte) (good : Bool),
      let type := object.getD 2 0
      let mailbox := fun (bs : List Byte) => (Crypto.pieces 4 bs).map fun b => BitVec.ofNat 32 (ofLe b)
      let answered := fun (bs : List Byte) =>
        { p with hif := { p.hif with doeOut := mailbox bs, out := p.hif.out ++ [.doe false bs] }, free := p.free + 1 }
      (p.cfgOpen 0 = false ∨ object.take 2 ≠ [1, 0] ∨ 2 < type.toNat → Yields (.doeObject object inner good) s p) ∧
      (p.cfgOpen 0 = true → object.take 2 = [1, 0] → type.toNat ≤ 2 →
        (4096 < object.length → ∃ code : List Byte, code.length = 2 ∧
          Yields (.doeObject object inner good) s (answered (Part.doeFrame 1 ([0x12#8, 0x7F#8] ++ code)))) ∧
        (object.length ≤ 4096 →
          (type = 0 → Yields (.doeObject object inner good) s (answered (Part.doeFrame 0 (Part.discovery (object.getD 8 0))))) ∧
          (type = 1 → ∃ bs, Yields (.doeObject object inner good) s (answered (Part.doeFrame 1 bs)) ∧
            ((object.drop 8).take 4 = [0x12, 0xE0, 0, 6] →
              bs.take 17 = [0x12, 0x60, 0, 0, 1, 9, 0, 0, 6, 1, 5, 0, 0x82, 2, 0, (Part.modeCode p.sys.mode).setWidth 8,
                (Part.lifeCode p.life).setWidth 8])) ∧
          (type = 2 → ∃ bs, ∃ q, Yields (.doeObject object inner good) s q ∧
            q = { p with hif := { p.hif with spdm := q.hif.spdm, out := p.hif.out ++ [.doe true bs] }, free := p.free + 1 } ∧
            (inner.getD 1 0 = 0xE5 → q.hif.spdm = (good || p.hif.spdm)) ∧ (inner.getD 1 0 = 0xEC → q.hif.spdm = false))))) ∧
    (∀ stream op fns, p.hif.spdm = false → Yields (.ideKm stream op fns) s p) ∧
    (∀ stream fns, p.hif.spdm = true →
      Yields (.ideKm stream 0 fns) s
        { p with hif := { p.hif with ide := p.hif.ide.upd {} stream fun x => { x with keySet := true } } } ∧
      Yields (.ideKm stream 1 fns) s
        { p with hif := { p.hif with ide := p.hif.ide.upd {} stream fun x => { x with secure := x.keySet } } } ∧
      ∃ q, Yields (.ideKm stream 2 fns) s q ∧ q = { p with hif := q.hif } ∧ q.hif.ide = p.hif.ide.set {} stream {} ∧
        (∀ v ∈ fns, 0 < stream.val →
          (q.fn (v.val + 1)).tdi ≠ .locked ∧ (q.fn (v.val + 1)).tdi ≠ .run)) ∧
    (∀ v : Fin 1024,
      let n := v.val + 1
      let st := p.tnt.states.get 0 n
      (p.fnExists n = true → (p.fn n).tdi = .unlocked → st ≠ 2 → st ≠ 3 → st ≠ 4 →
        ∃ q, Yields (.lockInterface v) s q ∧ q = { p with hif := q.hif } ∧ (q.fn n).tdi = .locked) ∧
      (p.fnExists n = false ∨ (p.fn n).tdi ≠ .unlocked ∨ st = 2 ∨ st = 3 ∨ st = 4 → Yields (.lockInterface v) s p) ∧
      ((p.fn n).tdi = .locked → ∃ q, Yields (.startInterface v) s q ∧ q = { p with hif := q.hif } ∧ (q.fn n).tdi = .run) ∧
      ((p.fn n).tdi ≠ .locked → Yields (.startInterface v) s p) ∧
      ∃ q, Yields (.stopInterface v) s q ∧ q = { p with hif := q.hif } ∧ (q.fn n).tdi = .unlocked)

/-- The PLL locking to XIN1 clears CLK_SRC_LOST; locking without it, or losing XIN1, sets CLK_SRC_LOST, clears XIN1_PRESENT
and leaves the CLK_SOURCE condition of instance 0 standing, the flash, access rules and private memory kept. XIN1 present sets
XIN1_PRESENT and ends that condition. RELOCK starts the sequence only when XIN1_PRESENT and CLK_SRC_LOST read 1; its end
clears CLK_SRC_LOST and marks event 1 in WPU_NEVENT. Losing XIN2 sets RTC_DEGRADED and leaves the condition of instance 1; its
return clears neither but moves the clock back. APPLY loads the staged time into the calendar; a read of WPU_RTC_FRAC answers
the fraction and latches the seconds. Records posted change the Tally Book only. -/
def Obligations.ClockSourcesAndCalendarTime : Prop :=
  ∀ s : State,
    let p := s.part
    let w := p.wpu
    (∃ q, Yields (.pllLock true) s q ∧
      Recorded { p with wpu := { w with pllLocked := true, clkSrcLost := false, xin1Present := true } } q) ∧
    (∃ q, Yields (.pllLock false) s q ∧ q.wpu.pllLocked = true ∧ q.wpu.clkSrcLost = true ∧ q.wpu.xin1Present = false ∧
      (Alarm.clkSource.index, 0) ∈ q.tmp.conds ∧ q.nvm = p.nvm ∧ q.acu = p.acu ∧ q.priv = p.priv) ∧
    (∃ q, Yields .xin1Lost s q ∧ q.wpu.clkSrcLost = true ∧ q.wpu.xin1Present = false ∧ q.wpu.relocking = false ∧
      (Alarm.clkSource.index, 0) ∈ q.tmp.conds ∧ q.nvm = p.nvm ∧ q.acu = p.acu ∧ q.priv = p.priv) ∧
    Yields .xin1Present s
      { p with wpu := { w with xin1Present := true }
               tmp := { p.tmp with conds := p.tmp.conds.filter fun c => c != (Alarm.clkSource.index, 0) } } ∧
    (w.xin1Present = true → w.clkSrcLost = true → Yields .relock s { p with wpu := { w with relocking := true } }) ∧
    (w.xin1Present = false ∨ w.clkSrcLost = false → Yields .relock s p) ∧
    (w.relocking = true → ∃ q, Yields .relockEnd s q ∧
      Recorded { p with wpu := { w with relocking := false, clkSrcLost := false, nevent := w.nevent ||| 2 } } q) ∧
    (w.relocking = false → Yields .relockEnd s p) ∧
    (∃ q, Yields .xin2Lost s q ∧ q.wpu.xin2Lost = true ∧ q.wpu.rtcDegraded = true ∧
      (Alarm.clkSource.index, 1) ∈ q.tmp.conds ∧ q.nvm = p.nvm ∧ q.acu = p.acu ∧ q.priv = p.priv) ∧
    Yields .xin2Return s
      { p with wpu := { w with xin2Lost := false }
               tmp := { p.tmp with conds := p.tmp.conds.filter fun c => c != (Alarm.clkSource.index, 1) } } ∧
    Yields .rtcApply s
      { p with bat := { p.bat with frac := (w.rtcSet.get 0 0).setWidth 16, secs := w.rtcSet.get 0 2 ++ w.rtcSet.get 0 1 } } ∧
    Yields .rtcFracRead s
      { p with rdata := p.bat.frac.setWidth 32
               wpu := { w with latchLo := p.bat.secs.setWidth 32, latchHi := fld p.bat.secs 32 32 } }

/-- A write of the enables that R622 accepts takes effect when the secure world writes it or no lease stands; a refused field
keeps its value and sets REFUSED; only an ENGX that waits for an engine may then be sent (R293). A normal-world request that
would take a leased domain out of run is held as deferred with GATE_DEFERRED set, the enables kept. An idle unleased domain
whose enables allow it sleeps; one with RUN_EN 0 at its idle boundary goes OFF unless a lease keeps it; a demand wakes a
domain that is enabled or leased and not tripped. LEASE_SET leases every domain named and brings an untripped one to run;
LEASE_CLR releases every one but SEC, a deferred request then being written as if it arrived (R650). A thermal trip marks and
turns off every engine domain of its island, a voltage trip its domain when R622 gives it one, over any lease; clearing
removes the mark. -/
def Obligations.PowerDomainsLeasesAndTrips : Prop :=
  ∀ s : State,
    let p := s.part
    (∀ (w : World) (d : Fin 131) (run sleep dsleep : Bool),
      let m := p.dom d
      let a := p.domAccepts d
      let req : Enables := { run := run, sleep := sleep, dsleep := dsleep }
      let unsent := p.rke.waiting = [] ∨ d.val < 16 ∨ 72 ≤ d.val
      let fits := (run || !m.en.run || a.run) && (!sleep || a.sleep) && (!dsleep || a.dsleep)
      (fits = true → w = .secure ∨ m.lease = false →
        ∃ q, Yields (.domainEnableWrite w d run sleep dsleep) s q ∧ (unsent → q.rke = p.rke ∧ q.dsp = p.dsp) ∧
          q = { p with
            wpu := { p.wpu with doms := p.wpu.doms.upd {} d fun m => { m with en := req, secGate := w.bit && !run } }
            rke := q.rke, dsp := q.dsp }) ∧
      (fits = false → w = .secure ∨ m.lease = false →
        ∃ q, Yields (.domainEnableWrite w d run sleep dsleep) s q ∧ Recorded { p with wpu := q.wpu, rke := q.rke, dsp := q.dsp } q ∧
          (unsent → q.rke = p.rke ∧ q.dsp = p.dsp) ∧ (q.dom d).refused = true ∧ (q.dom d).state = m.state ∧
          (q.dom d).en = { run := if run || !m.en.run || a.run then run else m.en.run
                           sleep := if sleep && !a.sleep then m.en.sleep else sleep
                           dsleep := if dsleep && !a.dsleep then m.en.dsleep else dsleep }) ∧
      (fits = true → w = .normal → m.lease = true → m.en = { run := true, sleep := false, dsleep := false } → m.en ≠ req →
        ∃ q, Yields (.domainEnableWrite w d run sleep dsleep) s q ∧
          Recorded { p with wpu := q.wpu, sys := { p.sys with notice := p.sys.notice ||| 0x20 } } q ∧
          q.dom d = { m with held := some req })) ∧
    (∀ d : Fin 131, (p.dom d).state = .run → (p.dom d).en.run = true → (p.dom d).en.sleep = true → (p.dom d).lease = false →
      p.domIdle d = true → (116 ≤ d.val ∧ d.val < 120 → (p.core (d.val - 116)).run = .doze) →
      Yields (.domainIdleTimeout d false) s
        { p with wpu := { p.wpu with doms := p.wpu.doms.upd {} d fun m => { m with state := .sleep } } } ∧
      ((p.dom d).en.dsleep = true → ∃ q, Yields (.domainIdleTimeout d true) s q ∧ (q.dom d).state = .deepSleep ∧
        q.nvm = p.nvm ∧ q.acu = p.acu ∧ q.priv = p.priv)) ∧
    (∀ d : Fin 131, (p.dom d).en.run = false → (p.dom d).lease = false ∨ (p.dom d).secGate = true → p.domIdle d = true →
      (p.dom d).state ≠ .off → ∃ q, Yields (.domainIdleBoundary d) s q ∧ (q.dom d).state = .off ∧ (d ≠ 126 → q.nvm = p.nvm) ∧
        q.acu = p.acu ∧ q.priv = p.priv) ∧
    (∀ d : Fin 131, (p.dom d).en.run = true → Yields (.domainIdleBoundary d) s p) ∧
    (∀ d : Fin 131, (p.dom d).en.run = true ∨ (p.dom d).lease = true → (p.dom d).tripT = false → (p.dom d).tripV = false →
      ∃ q, Yields (.domainWake d) s q ∧ (q.dom d).state = .run ∧ q.nvm = p.nvm ∧ q.acu = p.acu ∧ q.priv = p.priv) ∧
    (∀ d : Fin 131, (p.dom d).tripT = true ∨ (p.dom d).tripV = true → Yields (.domainWake d) s p) ∧
    (∀ (k : Fin 5) (v : Word),
      (∃ q, Yields (.leaseSet k v) s q ∧ q.nvm = p.nvm ∧ q.acu = p.acu ∧ q.priv = p.priv ∧ ∀ d : Nat, d ≤ 130 →
        (d ∈ Part.domsOf k v → (q.dom d).lease = true ∧
          ((p.dom d).lease = false → (p.dom d).tripT = false → (p.dom d).tripV = false → (q.dom d).state = .run)) ∧
        (d ∉ Part.domsOf k v → q.dom d = p.dom d)) ∧
      ∃ q, Yields (.leaseClr k v) s q ∧ Recorded { p with wpu := q.wpu, rke := q.rke, dsp := q.dsp } q ∧
        (p.rke.waiting = [] → q.rke = p.rke ∧ q.dsp = p.dsp) ∧ ∀ d : Nat, d ≤ 130 →
        (d ∈ Part.domsOf k v → d ≠ 120 → (p.dom d).lease = true →
          ((p.dom d).held = none → q.dom d = { p.dom d with lease := false }) ∧
          ∀ e : Enables, (p.dom d).held = some e → let a := p.domAccepts d
            (e.run || !(p.dom d).en.run || a.run) && (!e.sleep || a.sleep) && (!e.dsleep || a.dsleep) →
            q.dom d = { p.dom d with lease := false, held := none, en := e, secGate := false }) ∧
        (d ∉ Part.domsOf k v ∨ d = 120 ∨ (p.dom d).lease = false → q.dom d = p.dom d)) ∧
    (∀ n : Fin 7, ∃ q, Yields (.thermalTrip n) s q ∧ q.nvm = p.nvm ∧ q.acu = p.acu ∧ q.priv = p.priv ∧
      ∀ d ∈ Part.engineDoms n, (q.dom d).tripT = true ∧ (q.dom d).state = .off) ∧
    (∀ d : Fin 131, Part.tripsVoltage d = true → ∃ q, Yields (.voltageTrip d) s q ∧ (q.dom d).tripV = true ∧
      (q.dom d).state = .off ∧ (d ≠ 126 → q.nvm = p.nvm) ∧ q.acu = p.acu ∧ q.priv = p.priv) ∧
    (∀ d : Fin 131, Part.tripsVoltage d = false → Yields (.voltageTrip d) s p) ∧
    (∀ d : Fin 131, (p.dom d).tripV = true → ∃ q, Yields (.tripClear false d) s q ∧ (q.dom d).tripV = false ∧ q.nvm = p.nvm ∧
      q.acu = p.acu ∧ q.priv = p.priv) ∧
    (∀ n : Fin 131, (∃ d ∈ Part.engineDoms n, (p.dom d).tripT = true) →
      ∃ q, Yields (.tripClear true n) s q ∧ (∀ d ∈ Part.engineDoms n, (q.dom d).tripT = false) ∧ q.nvm = p.nvm ∧ q.acu = p.acu ∧
        q.priv = p.priv)

/-- A tick brings the pending staged set into effect, reads the 24 temperatures, and leaves every engine island at a step of
at most 2, at exactly step 2 while a Throttle or AVS_FAULT stands; no tick changes CLK_SRC_LOST or the calendar. A read-back
within 15 mV of a pending command ends it as good; the third failing one sets AVS_FAULT; with none pending nothing changes. An
ageing measurement stores the 64 readings and changes no step or offset in effect; a drained island with a plan takes its step
and offset. COMMIT of a set that R638 refuses leaves no pending set and sets CFG_MISMATCH; of an accepted one makes the staged
set pending; the set in effect stays. Only the WPU block changes, and what its records change. -/
def Obligations.WindpumpTickVoltageAndAgeing : Prop :=
  ∀ s : State,
    let p := s.part
    let w := p.wpu
    (∀ temps slack power, (∀ n, n < 7 → (p.island n).step.toNat ≤ 2) →
      ∃ q, Yields (.wpuTick temps slack power) s q ∧ Recorded { p with wpu := q.wpu } q ∧
        q.wpu.st = { w.st with eff := w.st.pend.getD w.st.eff, pend := none } ∧ q.wpu.clkSrcLost = w.clkSrcLost ∧
        (∀ k, k < 24 → q.wpu.temps.get 0 k = temps.getD k 0) ∧ (∀ n, n < 7 → (q.island n).step.toNat ≤ 2) ∧
        (p.tmp.throttled = true ∨ w.avsFault = true → ∀ n, n < 7 → (q.island n).step = 2)) ∧
    (∀ mv : BitVec 10, w.avsPending = true → w.avsFault = false → mv.toNat ≤ w.command.toNat + 15 →
      w.command.toNat ≤ mv.toNat + 15 → Yields (.avsReadback true mv) s
        { p with wpu := { w with readback := mv, avsGood := w.command, avsPending := false, avsTries := 0 } }) ∧
    (∀ mv, w.avsPending = true → w.avsFault = false → w.avsTries = 2 →
      ∃ q, Yields (.avsReadback false mv) s q ∧ Recorded { p with wpu := q.wpu } q ∧ q.wpu.avsFault = true ∧
        q.wpu.avsPending = false ∧ q.wpu.command = w.command) ∧
    (∀ ans mv, w.avsPending = false → Yields (.avsReadback ans mv) s p) ∧
    (∀ hyd,
      ∃ q, Yields (.ageMeasure hyd) s q ∧ Recorded { p with wpu := q.wpu } q ∧
        (∀ k, k < 64 → q.wpu.hyd.get 0 k = hyd.getD k 0) ∧
        ∀ n, (q.island n).ageStep = (p.island n).ageStep ∧ (q.island n).ageOffset = (p.island n).ageOffset) ∧
    (∀ (n : Fin 7) st off loss, (p.island n).planned = some (st, off, loss) →
      (p.island n).drain = true → (∀ d ∈ Part.engineDoms n, p.domIdle d = true) →
      ∃ q, Yields (.ageDrainEnd n) s q ∧ Recorded { p with wpu := q.wpu } q ∧
        q.island n = { p.island n with ageStep := st, ageOffset := off, drain := false, planned := none }) ∧
    (∀ n : Fin 7, (p.island n).planned = none → Yields (.ageDrainEnd n) s p) ∧
    (Part.wpuConsistent w.st.stage = true → Yields .wpuCommit s { p with wpu := { w with st := { w.st with pend := some w.st.stage } } }) ∧
    (Part.wpuConsistent w.st.stage = false →
      Yields .wpuCommit s { p with wpu := { w with cfgMismatch := true, st := { w.st with pend := none } } })

/-- A queue that holds an operation has a next one: of class AUTH where any is, the oldest of its class and tenant, and the
rest keep their order. ENGINE_OP_START on an idle, powered, unretired engine with nothing parked, whose next operation reads a
key that may be read and needs no fresh octets, starts it with the key chain's material. A running engine, or one without
power, starts nothing. ENGINE_OP_END of an operation of R286, however it ends, clears the running operation and counts it; a
verifying one with valid operands gives its verdict: to the thread's request, or as status 0 or 1 of its context. Invalid
operands count in BN_INVALID; a signature whose release check failed counts in RELEASE_FAIL and asks for a known-answer test.
Flash, access rules and private memory stay. -/
def Obligations.EngineTakesAndEndsOperations : Prop :=
  (∀ (c : DspCfg) (share : Nat → Nat) (arb : Arb) (q : List EngOp), q ≠ [] →
    ∃ o arb', Part.takeNext c share arb q = some (o, q.erase o, arb') ∧ ((∃ a ∈ q, a.cls = 0) → o.cls = 0) ∧
      q.find? (fun a => a.cls == o.cls && a.fn == o.fn) = some o) ∧
  ∀ (s : State) (e : Fin 56),
    let p := s.part
    let x := p.eng e
    let kept := fun q : Part => q.nvm = p.nvm ∧ q.acu = p.acu ∧ q.priv = p.priv
    (∀ o rest arb ss, x.cur = none → p.engineUp e = true → x.parked = none → p.engNext e = some (o, rest, arb) →
      Part.readsKey o = true → p.cellarWaits o.handle = false → ss ≠ [] →
      let p1 := p.modEng e fun x => { x with queue := rest, arb := arb }
      (Part.opKey o p1).1 = .ok ss → Pk.freshLen o.mode.toNat (ss.head?.getD (Slc.emptySlot 0)).alg.toNat o.word3 = 0 →
      ∃ q r, Yields (.engineOpStart e) s q ∧ (q.eng e).cur = some r ∧ r.op = o ∧ r.mat = ss.flatMap Slot.mat ∧ kept q) ∧
    (x.cur ≠ none ∨ p.engineUp e = false → Yields (.engineOpStart e) s p) ∧
    (∀ rf rej, x.cur = none → Yields (.engineOpEnd e rf rej) s p) ∧
    (∀ r rf rej, x.cur = some r → r.op.mode.toNat < 0x1C0 →
      let m := r.op.mode.toNat
      let alg := (fld r.w0 24 8).toNat
      let limbs := (fld r.w3 16 9).toNat
      let ins := [r.mat, r.op.in1, r.op.in2]
      let valid := Pk.valid m alg limbs ins r.op.word3.toNat
      let verdict := Pk.verdict m alg limbs ins r.op.word3.toNat
      ∃ q, Yields (.engineOpEnd e rf rej) s q ∧ (q.eng e).cur = none ∧ (q.eng e).ops = x.ops + 1 ∧ kept q ∧
        (valid = false → (q.eng e).bnInvalid = Part.satTo e x.bnInvalid) ∧
        (valid = true → Pk.verifies m = true → ∀ n, r.op.owner = .ctx n → (p.ctx n).state = .running → (p.ctx n).discard = false →
          (q.ctx n).state = .finished ∧ (q.ctx n).status = (if verdict then 0 else 1) ∧ (q.ctx n).detail = 0) ∧
        (valid = true → Pk.verifies m = true → ∀ k id, r.op.owner = .thread k id →
          (q.seq.threads.get {} k).reqs = (p.seq.threads.get {} k).reqs.map fun a =>
            if a.id = id then { a with ready := true, verdict := some (verdict, 0) } else a) ∧
        (valid = true → Pk.signs m = true → m ≠ Pk.mldsaSign ∨ rej = false → Pk.releaseFails m alg r.mat rf = true →
          (q.eng e).katRun = true ∧ (q.eng e).releaseFail = Part.satTo e x.releaseFail))

/-- COMMIT of the RKE or GRN block brings a staged depth of 1 to 32 into effect at once and refuses any other, changing that
block only. KAT asks for a test; a passed test sets DONE and changes the engine only; a failed one, and RETIRE, leave the
engine retired with nothing running and nothing queued; a test that does not run, and a retired engine, change nothing. A
secure job given to a busy slot is ignored; one whose PARAM R312 does not list or enable, or whose ENGINE names no rake, ends
at once with BAD_DESCRIPTOR, one whose engine is unpowered or retired with ENGINE_LOST; any other sets BUSY and is queued last
on its engine with class AUTH. The end of a job that no engine runs changes nothing; the end of one that runs sets DONE,
clears BUSY, writes a generated key pair into private memory at its address, or for the RSA check gives result 0 or 1 and
writes nothing. -/
def Obligations.EngineTestsRetirementAndSecureJobs : Prop :=
  ∀ s : State,
    let p := s.part
    (let b := p.rke.rke
     (1 ≤ b.st.stage.toNat → b.st.stage.toNat ≤ 32 →
        Yields (.rkeCommit false) s { p with rke := { p.rke with rke := { b with st := { b.st with pend := none, eff := b.st.stage } } } }) ∧
      (b.st.stage.toNat = 0 ∨ 32 < b.st.stage.toNat →
        Yields (.rkeCommit false) s
          { p with rke := { p.rke with rke := { b with cfgMismatch := true, st := { b.st with pend := none } } } })) ∧
    (let b := p.rke.grn
     (1 ≤ b.st.stage.toNat → b.st.stage.toNat ≤ 32 →
        Yields (.rkeCommit true) s { p with rke := { p.rke with grn := { b with st := { b.st with pend := none, eff := b.st.stage } } } }) ∧
      (b.st.stage.toNat = 0 ∨ 32 < b.st.stage.toNat →
        Yields (.rkeCommit true) s
          { p with rke := { p.rke with grn := { b with cfgMismatch := true, st := { b.st with pend := none } } } })) ∧
    (∀ e : Fin 56,
      (∃ q, Yields (.engineKat e) s q ∧ q = { p with rke := { p.rke with engines := q.rke.engines } } ∧
        q.eng e = { p.eng e with katRun := true }) ∧
      (∀ f, (p.eng e).katRun = false → Yields (.engineKatEnd e f) s p) ∧
      ((p.eng e).katRun = true → ∃ q, Yields (.engineKatEnd e false) s q ∧
        Recorded { p with rke := { p.rke with engines := q.rke.engines } } q ∧
        q.eng e = { p.eng e with katRun := false, katDone := true, katFail := false }) ∧
      ((p.eng e).katRun = true → (p.eng e).retired = false → ∃ q, Yields (.engineKatEnd e true) s q ∧ (q.eng e).katFail = true ∧
        (q.eng e).retired = true ∧ (q.eng e).cur = none ∧ (q.eng e).queue = [] ∧ q.nvm = p.nvm ∧ q.acu = p.acu ∧ q.priv = p.priv) ∧
      ((p.eng e).retired = true → Yields (.engineRetire e) s p) ∧
      ((p.eng e).retired = false → ∃ q, Yields (.engineRetire e) s q ∧ (q.eng e).retired = true ∧ (q.eng e).cur = none ∧
        (q.eng e).queue = [] ∧ q.nvm = p.nvm ∧ q.acu = p.acu ∧ q.priv = p.priv)) ∧
    (∀ (j : Fin 4) (engine : BitVec 6) (param : BitVec 16) (i : Instr) (slot e : Nat) (kind : BitVec 4),
      (i = .sjobRsaKeygen j engine param ∧ slot = j ∧ e = engine.toNat ∧ kind = 1) ∨
      (i = .sjobEcKeygen j engine param ∧ slot = j ∧ e = engine.toNat ∧ kind = 2) ∨
      (i = .sjobRsaCheck j engine param ∧ slot = j ∧ e = engine.toNat ∧ kind = 3) ∨
      (i = .sjobMldsaKeygen j engine param ∧ slot = 4 + j ∧ e = 48 + engine.toNat % 8 ∧ kind = 4) ∨
      (i = .sjobMlkemKeygen j engine param ∧ slot = 4 + j ∧ e = 48 + engine.toNat % 8 ∧ kind = 5) →
      let x := p.rke.jobs.get {} slot
      let named : Sjob := { x with engine := engine, kind := kind, param := param }
      (x.busy = true → Yields i s p) ∧
      (x.busy = false → p.jobParamOk kind.toNat param.toNat = false ∨ (slot < 4 ∧ 48 ≤ e) → ∃ q, Yields i s q ∧
        q = { p with rke := { p.rke with jobs := q.rke.jobs } } ∧
        q.rke.jobs.get {} slot = { named with done := true, result := 0x10 }) ∧
      (x.busy = false → p.jobParamOk kind.toNat param.toNat = true → (slot < 4 → e < 48) → p.engineUp e = false → ∃ q, Yields i s q ∧
        q = { p with rke := { p.rke with jobs := q.rke.jobs } } ∧
        q.rke.jobs.get {} slot = { named with done := true, result := 0x30 }) ∧
      (x.busy = false → p.jobParamOk kind.toNat param.toNat = true → (slot < 4 → e < 48) → p.engineUp e = true → ∃ q o, Yields i s q ∧
        q = { p with rke := { p.rke with jobs := q.rke.jobs, engines := q.rke.engines }, dsp := { p.dsp with late := q.dsp.late } } ∧
        q.rke.jobs.get {} slot = { named with busy := true } ∧ q.eng e = { p.eng e with queue := (p.eng e).queue ++ [o] } ∧
        o.owner = .job slot ∧ o.cls = 0 ∧ o.mode = 0x1C0 + kind.setWidth 9 ∧ o.param = param ∧ o.handle = x.addr)) ∧
    (∀ j : Fin 8, p.jobEngine j = none → Yields (.sjobDone j) s p) ∧
    (∀ (j : Fin 8) (e : Nat) (r : Running),
      let kind := r.op.mode.toNat - 0x1C0
      p.jobEngine j = some (e, r) →
        ∃ q, Yields (.sjobDone j) s q ∧ (q.eng e).cur = none ∧ (q.rke.jobs.get {} j).busy = false ∧ (q.rke.jobs.get {} j).done = true ∧
          q.nvm = p.nvm ∧ q.acu = p.acu ∧
          (kind = 3 → q.priv = p.priv ∧ (q.rke.jobs.get {} j).result = if Standard.rsaConsistent (fld r.w3 16 9).toNat r.mat then 0 else 1) ∧
          (kind ≠ 3 → (q.rke.jobs.get {} j).result = 0 ∧
            q.priv = p.priv.write ram (r.op.handle.toNat % 0x200000) (Pk.keygen kind r.op.param.toNat r.rnd)))

/-- Each command on a local queue pair that is not assigned to its function changes nothing. On an assigned one, global number
g: ENABLE set on an idle pair zeroes its indices and sets the phase, on a busy one only ENABLE; ENABLE cleared clears that bit
only. A doorbell of a draining, WEDGED or absent function changes nothing; else a value below the ring size of an enabled pair
is stored, and any other sets DB_ERROR and stores nothing. A COMMIT whose values break R80 or R57 is refused with
CFG_MISMATCH, one that changes more than QP_IRQ also while the pair is enabled or busy; accepted, a set that changes only
QP_IRQ becomes pending and any other takes effect. ENABLE of the block and its COMMIT act on the block only: an accepted set
is in effect, under which each lane and unit runs at once where no operation is in flight, and else goes on under its own
until its boundary; a coalescing time-out with unsignalled completions sends or pends the vector and zeroes the count. -/
def Obligations.QueuePairControlsAndDoorbells : Prop :=
  ∀ s : State,
    let p := s.part
    let d := p.dsp
    (∀ (n : Fin 1025) (k : Fin 64) v, p.qpGlobal n k = none →
      Yields (.qpCommit n k) s p ∧ Yields (.qpEnableSet n k) s p ∧ Yields (.qpEnableClear n k) s p ∧ Yields (.sqTailWrite n k v) s p ∧
        Yields (.cqHeadWrite n k v) s p) ∧
    (∀ (n : Fin 1025) (k : Fin 64) (v : BitVec 16) (g : Nat), p.qpGlobal n k = some g →
      let x := p.qp g
      let only := fun q : Part => q = { p with dsp := { d with qps := q.dsp.qps } } ∧ ∀ h, h ≠ g → q.qp h = p.qp h
      (∃ q, Yields (.qpEnableSet n k) s q ∧ only q ∧ q.qp g =
        if x.enable then x
        else if p.qpIdle g then
          { x with enable := true, sqTail := 0, cqHead := 0, sqHead := 0, cqWrite := 0, phase := true }
        else { x with enable := true }) ∧
      (∃ q, Yields (.qpEnableClear n k) s q ∧ only q ∧ q.qp g = { x with enable := false }) ∧
      (p.doorbell n = false → Yields (.sqTailWrite n k v) s p ∧ Yields (.cqHeadWrite n k v) s p) ∧
      (p.doorbell n = true → x.enable = true → v.toNat < 2 ^ x.st.eff.sqLog.toNat →
        ∃ q, Yields (.sqTailWrite n k v) s q ∧ only q ∧ q.qp g = { x with sqTail := v }) ∧
      (p.doorbell n = true → x.enable = true → v.toNat < 2 ^ x.st.eff.cqLog.toNat →
        ∃ q, Yields (.cqHeadWrite n k v) s q ∧ only q ∧ q.qp g = { x with cqHead := v }) ∧
      (p.doorbell n = true → x.enable = false ∨ 2 ^ x.st.eff.sqLog.toNat ≤ v.toNat →
        ∃ q, Yields (.sqTailWrite n k v) s q ∧ q = { p with dsp := { d with qps := q.dsp.qps }, hif := q.hif } ∧
          q.qp g = { x with dbError := true }) ∧
      (p.doorbell n = true → x.enable = false ∨ 2 ^ x.st.eff.cqLog.toNat ≤ v.toNat →
        ∃ q, Yields (.cqHeadWrite n k v) s q ∧ q = { p with dsp := { d with qps := q.dsp.qps }, hif := q.hif } ∧
          q.qp g = { x with dbError := true }) ∧
      (let irqOnly := Part.withIrq x.st.eff x.st.stage = x.st.stage
       let ok := Part.qpCfgOk n x.st.stage = true ∧ (irqOnly ∨ (x.enable = false ∧ p.qpIdle g = true))
       (ok → irqOnly → ∃ q, Yields (.qpCommit n k) s q ∧ only q ∧ q.qp g = { x with st := { x.st with pend := some x.st.stage } }) ∧
       (ok → ¬ irqOnly →
         ∃ q, Yields (.qpCommit n k) s q ∧ only q ∧ q.qp g = { x with st := { x.st with pend := none, eff := x.st.stage } }) ∧
       (¬ ok → ∃ q, Yields (.qpCommit n k) s q ∧ only q ∧
         q.qp g = { x with cfgMismatch := true, st := { x.st with pend := none } }))) ∧
    (∀ on, Yields (.dspEnableWrite on) s { p with dsp := { d with enable := on } }) ∧
    (let c := d.st.stage
     let ok := 1 ≤ c.wBack.toNat ∧ c.wBack.toNat ≤ c.wBulk.toNat ∧ c.wBulk.toNat ≤ c.wStandard.toNat ∧ c.reserve.toNat ≤ 16
     (ok → ∃ q, Yields .dspCommit s q ∧
       q = { p with dsp := { d with st := { d.st with pend := none, eff := c }, late := q.dsp.late } } ∧
       ((∀ x ∈ d.ctxs, x.2.state = .free) → q.dsp.late = []) ∧
       ((∃ x ∈ d.ctxs, x.2.state ≠ .free) → ∀ k, k < 92 → q.dspOf k = p.dspOf k)) ∧
     (¬ ok → Yields .dspCommit s { p with dsp := { d with cfgMismatch := true, st := { d.st with pend := none } } })) ∧
    (∀ (g : BitVec 12) f, p.qpOwner g.toNat = some f → (p.qp g.toNat).unsignalled ≠ 0 → (p.qp g.toNat).st.eff.coalTime ≠ 0 →
      let x := p.qp g.toNat
      let e := (p.fn f).vectors.get {} x.st.eff.vector.toNat
      ∃ q, Yields (.coalTimeExpiry g) s q ∧ q = { p with dsp := { d with qps := q.dsp.qps }, hif := q.hif } ∧
        q.qp g.toNat = { x with unsignalled := 0 } ∧
        (e.masked = false → (p.fn f).fnMask = false → (p.fn f).draining = false → p.mayPost f = true →
          q.hif.out = p.hif.out ++ [.msix f x.st.eff.vector.toNat e.addr e.data])) ∧
    (∀ g : BitVec 12, (p.qp g.toNat).unsignalled = 0 → Yields (.coalTimeExpiry g) s p)

/-- With no pending set on the queue pair. A lane that may fetch n entries of the pair whose turn it is reserves the first n
free contexts of the function, issues the read of 64 n octets at the ring's fetch point, cut as R36 says, and advances it;
where R106's conditions fail or another goes first it does nothing. A decode out of order, or of a long descriptor whose
second half is not at hand, or with a handle before the Cellar is READY, waits; in QUARANTINE it ends with DEVICE_QUARANTINED,
of a read that failed with BAD_DESCRIPTOR detail 0x0C; of a descriptor that passes every check it leaves the context DECODED
with its tag, program and effective class, its input read from IN_ADDR under IN_PTR, the descriptor and input in its 512
octets and zero after them. Lists are read at their addresses; those that pass R94 and R95 are kept, a failed read ends the
operation with detail 0x0C. An operation no fence or older one holds is HELD without a candidate unit, else QUEUED on the
chosen one, which takes the DSP set in effect, a stream bound to its pan. A completion that may be sent is written to the ring
at its write index and the context freed; one that may not is marked as waiting. -/
def Obligations.OperationsAreFetchedPlacedAndCompleted : Prop :=
  ∀ s : State,
    let p := s.part
    (∀ (g : BitVec 12) (n : Fin 9) f, p.qpOwner g.toNat = some f → (p.qp g.toNat).st.pend = none →
      let p1 := p.tntApply f
      let x := p.qp g.toNat
      let may := 0 < n.val ∧ x.sqHead.toNat + n.val ≤ 2 ^ x.st.eff.sqLog.toNat ∧ n.val ≤ Part.sqPending x ∧
        p.lanesRun f = true ∧ p.powered (112 + g.toNat % 4) = true ∧ x.enable = true ∧ n.val ≤ (p1.freeCtxs f).length ∧
        (p.ctxsOf f).length + n.val ≤ p1.quotaOf f ∧ p1.laneTurn f g.toNat ≠ none
      (may → ∃ q r, Yields (.laneFetch g n) s q ∧
        ReadIssued f (x.st.eff.sqBase + BitVec.ofNat 64 (64 * x.sqHead.toNat)) (64 * n.val) p r ∧
        (q.qp g.toNat).sqHead.toNat = (x.sqHead.toNat + n.val) % 2 ^ x.st.eff.sqLog.toNat % 65536 ∧
        (∀ c ∈ (p1.freeCtxs f).take n, (q.ctx c).state = .fetched ∧ (q.ctx c).fn = f ∧ (q.ctx c).qp = g.toNat) ∧
        (∀ c, c ∉ (p1.freeCtxs f).take n → q.ctx c = p.ctx c) ∧ q = { r with dsp := q.dsp, tnt := p1.tnt }) ∧
      (¬ may → Yields (.laneFetch g n) s p)) ∧
    (∀ (c : BitVec 16) (desc : Option (List Byte)) input, (p.ctx c.toNat).state ≠ .fetched ∨ p.earlierFetched c.toNat = true →
      Yields (.descriptorDecode c desc input) s p) ∧
    (∀ c : BitVec 16, (p.ctx c.toNat).state = .fetched → p.earlierFetched c.toNat = false → (p.ctx c.toNat).discard = false →
      let x := p.ctx c.toNat
      (∀ input, ∃ q, Yields (.descriptorDecode c none input) s q ∧ (q.ctx c.toNat).state = .finished ∧
        (q.ctx c.toNat).status = 0x10 ∧ (q.ctx c.toNat).detail = 0x0C ∧ q = { p with dsp := q.dsp, pan := q.pan } ∧
        (x.unit = none → q.pan = p.pan)) ∧
      ∀ raw input,
        let h := Part.headOf (Pk.fit 128 raw)
        let d := if h.long then Pk.fit 128 raw else Pk.fit 128 ((Pk.fit 128 raw).take 64)
        let now := (h.long = true → p.secondReady c.toNat = true) ∧ (p.slc.ready = true ∨ ∀ k ∈ Part.handlesOf h d, k = 0)
        let given := if h.inPtr then Pk.fit (Part.dNum d 16 2) (input.getD []) else (Part.inlineOf h d).take (Part.dNum d 16 2)
        let p0 := p.when h.long (Part.takeSecond c.toNat)
        let cls := p0.effClassOf x.fn x.qp h.cls
        let p1 := p0.modCtx c.toNat (Part.loadCtx h d cls)
        let p2 := p1.when h.inPtr (Part.issueRead x.fn (BitVec.ofNat 64 (Part.dNum d 24 8)) (Part.dNum d 16 2))
        let st := p.tnt.states.get 0 x.fn
        (¬ now → Yields (.descriptorDecode c (some raw) input) s p) ∧
        (now → p.sys.mode = .quarantine → ∃ q, Yields (.descriptorDecode c (some raw) input) s q ∧
          (q.ctx c.toNat).state = .finished ∧ (q.ctx c.toNat).status = 0x51 ∧ q = { p0 with dsp := q.dsp, pan := q.pan } ∧
          (x.unit = none → q.pan = p.pan)) ∧
        (now → p.sys.mode = .service → st ≠ 2 → st ≠ 3 → st ≠ 4 → p1.descFault (decide (4096 ≤ x.qp)) h d = none →
          (h.inPtr = true → input.isSome = true) → p.gateOpen = true →
          ∀ e mask, p2.programEntry (h.kind == 1) h.program (BitVec.ofNat 32 (Part.dNum d 20 4)) = some (e, mask) →
          (∀ m, e.single = some m → (h.long = true ∧ Part.dNum d 90 2 ≠ 0) ∨
            p2.primitiveFits m ((Part.handlesOf h d).headD 0) (Part.dNum d 18 2) = true) →
          (Part.handleCheck (Part.colourOf x.fn) ((Part.handlesOf h d).zip (e.handles ++ List.replicate 4 [])) 0 p2).1 = none →
            ∃ q, Yields (.descriptorDecode c (some raw) input) s q ∧ (q.ctx c.toNat).state = .decoded ∧
              (q.ctx c.toNat).tag = BitVec.ofNat 32 (Part.dNum d 4 4) ∧ (q.ctx c.toNat).program = BitVec.ofNat 16 h.program ∧
              (q.ctx c.toNat).effClass = cls ∧
              q.opBuf = p.opBuf.write ram (512 * c.toNat) (Pk.fit 128 d ++ Pk.fit 384 given) ∧
              q = { p2 with dsp := q.dsp, opBuf := q.opBuf, cores := q.cores })) ∧
    (∀ c : BitVec 16, (p.ctx c.toNat).state = .decoded → (p.ctx c.toNat).lists = none →
      (p.ctx c.toNat).bulk = true ∨ (p.ctx c.toNat).sglIn.2 ≠ 0 ∨ (p.ctx c.toNat).sglOut.2 ≠ 0 → (p.ctx c.toNat).discard = false →
      let x := p.ctx c.toNat
      ∃ r1 r2, ReadIssued x.fn x.sglIn.1 (16 * x.sglIn.2) p r1 ∧ ReadIssued x.fn x.sglOut.1 (16 * x.sglOut.2) r1 r2 ∧
      (∃ q, Yields (.sglRead c none) s q ∧ (q.ctx c.toNat).status = 0x10 ∧ (q.ctx c.toNat).detail = 0x0C ∧
        q = { r2 with dsp := q.dsp, pan := q.pan }) ∧
      ∀ i o, x.bulk = true →
        let i' := Pk.fit (16 * x.sglIn.2) i
        let o' := Pk.fit (16 * x.sglOut.2) o
        Part.entriesOk i' = true → Part.entriesOk o' = true → Part.listLen (Part.listOf i') = x.streamLen →
        Part.bulkOutput x.program.toNat x.param x.param2 x.streamLen ≤ Part.listLen (Part.listOf o') →
          ∃ q, Yields (.sglRead c (some (i, o))) s q ∧ q = { r2 with dsp := { p.dsp with ctxs := q.dsp.ctxs } } ∧
            q.ctx c.toNat = { x with lists := some (Part.listOf i', Part.listOf o') }) ∧
    (∀ (c : BitVec 16) data, (p.ctx c.toNat).state = .decoded ∨ (p.ctx c.toNat).state = .held →
      ((p.ctx c.toNat).bulk = true ∨ (p.ctx c.toNat).sglIn.2 ≠ 0 ∨ (p.ctx c.toNat).sglOut.2 ≠ 0 → (p.ctx c.toNat).lists.isSome = true) →
      p.fenced c.toNat = false → p.olderHeld c.toNat = false →
      let x := p.ctx c.toNat
      (p.choose (Part.kindOf x) (x.effClass == 0) = none → ∃ q, Yields (.operationPlace c data) s q ∧
        q = { p with dsp := { p.dsp with ctxs := q.dsp.ctxs } } ∧ q.ctx c.toNat = { x with state := .held }) ∧
      (∀ u, p.choose (Part.kindOf x) (x.effClass == 0) = some u → ∃ q, Yields (.operationPlace c data) s q ∧
        q = { p with dsp := { p.dsp with ctxs := q.dsp.ctxs, late := q.dsp.late }, rke := q.rke, pan := q.pan
                     hif := { p.hif with out := q.hif.out }, free := q.free } ∧
        (q.ctx c.toNat).state = .queued ∧ q.dspOf (Part.unitKey (Part.kindOf x) u) = p.dsp.st.eff ∧
        (Part.kindOf x = .seq → q.rke = p.rke ∧ q.pan = p.pan) ∧
        (Part.kindOf x = .pan → q.rke = p.rke ∧ ∃ b, (q.pan.pans.get {} u).streams = (p.pan.pans.get {} u).streams ++ [{ ctx := c.toNat, coreB := b }]) ∧
        (q.ctx c.toNat).placed = true ∧ (q.ctx c.toNat).unit = some (match Part.kindOf x with
          | .seq => .thread u ((p.freeThreads u).headD 32) | .pan => .pan u | .rake => .rake u | .grainer => .grainer u))) ∧
    (∀ c : BitVec 16, (p.ctx c.toNat).state = .finished → (p.ctx c.toNat).qp < 4096 → p.waits c.toNat = false →
      p.earlierWaits c.toNat = false → (p.ctx c.toNat).discard = false → (p.fn (p.ctx c.toNat).fn).draining = false →
      let x := p.ctx c.toNat
      let r := p.qp x.qp
      let full := Part.cqFull r
      (p.mayPost x.fn = false ∨ full = true → ∃ q, Yields (.completionWrite c) s q ∧
        q = { p with dsp := { p.dsp with ctxs := q.dsp.ctxs } } ∧ q.ctx c.toNat = { x with wait := true }) ∧
      (p.mayPost x.fn = true → full = false → ∃ q lat, Yields (.completionWrite c) s q ∧ q.ctx c.toNat = {} ∧
        (q.qp x.qp).cqWrite.toNat = (r.cqWrite.toNat + 1) % 2 ^ r.st.eff.cqLog.toNat % 65536 ∧
        (let (st, det, res, ran) := p.postedOf x
         r.st.eff.cqBase.toNat % 32 = 0 →
         HostMsg.write x.fn (r.st.eff.cqBase + BitVec.ofNat 64 (32 * r.cqWrite.toNat))
           (Part.completion x r st det (if st == 0 || st == 1 then res.take 16 else []) lat
             (if ran then x.outCount else BitVec.ofNat 32 x.outList)) ∈ q.hif.out) ∧
        q.acu = p.acu ∧ q.nvm = p.nvm ∧ q.priv = p.priv ∧ q.slc = p.slc))

/-- A powered, unretired pan that is stalled or has masked INTERVAL blocks and has no request out asks for a MASK reseed,
which waits while the Brine Wells are not READY; a value on its wire becomes its masks, ending the stall; LIMIT blocks without
one stall it; otherwise these events change nothing. COMMIT is refused unless 16 <= INTERVAL <= LIMIT <= 28, takes effect when
no pan works and is pending otherwise. A passed test sets DONE; a failed one and RETIRE leave the pan retired with no stream
and no busy thread of its sequencer. A queued bulk stream that passes its checks takes its keys and start value on the pan it
is bound to and runs; a chunk of up to 512 octets, or of what LIMIT leaves the pan, is read from the input list, advances the
stream, counts its blocks and writes its output to the output list, and while the pan is not ready none is taken; its end
removes it and finishes the operation with the status and result of its program. -/
def Obligations.PansMaskStreamAndRetire : Prop :=
  ∀ s : State,
    let p := s.part
    (∀ n : Fin 16,
      let x := p.onePan n
      let sent := (∃ d ∈ p.ent.waiting, d.wire = n.val) ∨ p.ent.wires.get [] n ≠ []
      (¬ sent → x.retired = false → p.powered n = true → x.stall = true ∨ p.maskInterval ≤ x.maskCount →
        ∃ q, Yields (.maskReseedRequest n) s q ∧ Recorded { p with ent := q.ent } q ∧
          (p.ent.ready = false → ∃ d ∈ q.ent.waiting, d.wire = n.val ∧ d.cls = .mask ∧ d.bytes = 32)) ∧
      (sent ∨ x.retired = true ∨ p.powered n = false ∨ (x.stall = false ∧ x.maskCount < p.maskInterval) →
        Yields (.maskReseedRequest n) s p) ∧
      (p.maskLimit ≤ x.maskCount → ∃ q, Yields (.maskLimitStall n) s q ∧ q = { p with pan := { p.pan with pans := q.pan.pans } } ∧
        q.onePan n = { x with stall := true }) ∧
      (x.maskCount < p.maskLimit → Yields (.maskLimitStall n) s p) ∧
      (p.ent.wires.get [] n = [] → Yields (.maskReseedArrive n) s p) ∧
      (p.ent.wires.get [] n ≠ [] → ∃ q, Yields (.maskReseedArrive n) s q ∧
        q = { p with pan := { p.pan with pans := q.pan.pans }, ent := { p.ent with wires := p.ent.wires.set [] n [] } } ∧
        q.onePan n = { x with mask := p.ent.wires.get [] n, maskCount := 0, stall := false }) ∧
      (∃ q, Yields (.panKat n) s q ∧ q = { p with pan := { p.pan with pans := q.pan.pans } } ∧ q.onePan n = { x with katRun := true }) ∧
      (∀ f, x.katRun = false → Yields (.panKatEnd n f) s p) ∧
      (x.katRun = true → ∃ q, Yields (.panKatEnd n false) s q ∧ Recorded { p with pan := { p.pan with pans := q.pan.pans } } q ∧
        q.onePan n = { x with katRun := false, katDone := true, katFail := false }) ∧
      (x.retired = true → Yields (.panRetire n) s p) ∧
      (∀ i, i = Instr.panRetire n ∨ (i = Instr.panKatEnd n true ∧ x.katRun = true) → x.retired = false →
        ∃ q, Yields i s q ∧ (q.onePan n).retired = true ∧ (q.onePan n).streams = [] ∧ q.acu = p.acu ∧ q.nvm = p.nvm ∧
          q.priv = p.priv ∧ ∀ t, t < 32 → (q.seq.threads.get {} (32 * n.val + t)).busy = false)) ∧
    (let c := p.pan.st.stage
     let ok := 16 ≤ c.interval.toNat ∧ c.interval.toNat ≤ c.limit.toNat ∧ c.limit.toNat ≤ 28
     (ok → p.pansIdle = true → Yields .panCommit s { p with pan := { p.pan with st := { p.pan.st with pend := none, eff := c } } }) ∧
     (ok → p.pansIdle = false → Yields .panCommit s { p with pan := { p.pan with st := { p.pan.st with pend := some c } } }) ∧
     (¬ ok → Yields .panCommit s { p with pan := { p.pan with cfgMismatch := true, st := { p.pan.st with pend := none } } })) ∧
    (∀ (c : BitVec 16) (k : Nat) (key key2 : List Byte),
      let x := p.ctx c.toNat
      let num := x.program.toNat
      let hs := x.handles.take (if num = 0x0860 then 0 else if num = 0x0830 ∨ num = 0x0831 then 2 else 1)
      p.panOf c.toNat = some k → x.state = .queued → x.bulk = true → (∀ h ∈ hs, p.cellarWaits h = false) →
      p.bulkLengthOk c.toNat = true →
      (hs = [] ∧ key = [] ∧ key2 = []) ∨
        (∃ h, hs = [h] ∧ (Part.bulkKey num x.fn h 0 p).1 = .ok key ∧ key2 = []) ∨
        (∃ h h', hs = [h, h'] ∧ (Part.bulkKey num x.fn h 0 p).1 = .ok key ∧ (Part.bulkKey num x.fn h' 1 p).1 = .ok key2 ∧
          key.length = key2.length ∧ key ≠ key2) →
      ∃ q iv, Yields (.bulkStreamStart c) s q ∧ (q.onePan k).streams = (p.onePan k).streams.map (fun z =>
          if z.ctx = c.toNat then { z with started := true, key := key, key2 := key2, chain := iv } else z) ∧
        q.ctx c.toNat = { x with state := .running } ∧
        q = { p with pan := { p.pan with pans := q.pan.pans }, dsp := { p.dsp with ctxs := q.dsp.ctxs } }) ∧
    (∀ (c : BitVec 16) (data : List Byte), p.streamOf c.toNat = none →
      Yields (.bulkChunk c data) s p ∧ Yields (.bulkStreamEnd c) s p) ∧
    (∀ (c : BitVec 16) (data : List Byte) (k : Nat) (y : Stream), p.streamOf c.toNat = some (k, y) →
      let x := p.ctx c.toNat
      let len := p.panApply.chunkRoom x k y (min 512 (x.streamLen - y.pos))
      (len = 0 ∨ p.panApply.panReady k = false → Yields (.bulkChunk c data) s p) ∧
      (len ≠ 0 → p.panApply.panReady k = true →
        let r := Part.bulkStep x.program.toNat x.param x.param2.toNat (Pk.fit len data) y
        let read := Part.issueListRead x.fn ((x.lists.getD ([], [])).1) y.pos len p
        ∃ q, Yields (.bulkChunk c data) s q ∧ r.2.pos = y.pos + len ∧
          q = { p with pan := q.pan, dsp := { p.dsp with ctxs := q.dsp.ctxs }, hif := q.hif, free := read.free } ∧
          (q.onePan k).streams = (p.onePan k).streams.map (fun z => if z.ctx = c.toNat then r.2 else z) ∧
          (q.onePan k).blocks = (p.onePan k).blocks +
            BitVec.ofNat 32 (Part.bulkBlocks x (y.pos + len) false - Part.bulkBlocks x y.pos false) ∧
          (q.ctx c.toNat).outList = x.outList + r.1.length ∧
          q.hif = (if (p.fn x.fn).draining = true then read else (Part.listWrites ((x.lists.getD ([], [])).2) y.written r.1).foldl
            (fun r m => r.issueWrite x.fn m.1 m.2) read).hif) ∧
      (y.pos < x.streamLen ∨ p.panReady k = false → Yields (.bulkStreamEnd c) s p) ∧
      (x.streamLen ≤ y.pos → p.panReady k = true → x.state = .running → x.discard = false →
        let r := Part.bulkResult x y (p.inline2 c.toNat 12 16) p.free
        ∃ q, Yields (.bulkStreamEnd c) s q ∧ (q.onePan k).streams = (p.onePan k).streams.filter (fun z => z.ctx != c.toNat) ∧
          (q.ctx c.toNat).state = .finished ∧ (q.ctx c.toNat).status = r.1 ∧
          (q.ctx c.toNat).result = (if r.1 = 0 ∨ r.1 = 1 then r.2.1 else []) ∧
          (q.ctx c.toNat).outCount = BitVec.ofNat 32 (y.written + r.2.2.length) ∧
          q = { p with pan := q.pan, dsp := q.dsp, hif := q.hif, free := p.free + 1 }))

/-- A queued harvest on an idle thread of a running sequencer, its own or the lowest-numbered free one, with a fresh pan
starts: the thread takes the values of R129 and the context runs; malformed library input ends it with BAD_DESCRIPTOR 0x0A; in
any other case HARVEST_START does nothing. A ready result lands in the registers, octets and verdict that its request names,
or ends the harvest with its failure, and an engine's key of two registers ends it with INTERNAL_FAULT at an odd sd; an ML-DSA
signature only by its fixed delivery. A spent budget ends the harvest with INTERNAL_FAULT, recorded in SEQ_FAULT. A program
word is written only in ASSAY with LOAD_OPEN set and sets WRITE_LOCKED once closed; clearing LOAD_OPEN loads the programs of
the table whose segments are those that the charter lists; RUN is ignored while it is open; SEQ_COMMIT takes a legal budget
set when no thread works. A landing write that waits changes nothing; one that the slot admits writes the key under its
template. -/
def Obligations.ThreadsStartTakeResultsAndClose : Prop :=
  (∀ (p : Machine.Part) n c, let th := p.startThread n c
    th.busy = true ∧ th.ctx = n ∧ th.v = true ∧ th.vclass = 0 ∧ th.reqs = [] ∧ th.chain = none ∧ th.panField = none ∧
      th.budget = p.budgetOf c.program ∧ (∀ i, i < 16 → th.sregs.get {} i = { colour := Part.colourOf c.fn }) ∧
      (∀ i, i < 4 → th.regs.get 0 (i + 1) = c.handles.getD i 0) ∧ th.regs.get 0 5 = c.param ∧ th.regs.get 0 6 = c.param2 ∧
      ∀ r, 11 ≤ r → th.regs.get 0 r = 0) ∧
  ∀ s : State,
    let p := s.part
    (∀ c : BitVec 16,
      let n := c.toNat
      let x := p.ctx n
      let starts := fun q u t => x.unit = some (.thread q u) ∧ p.startsOn q u = some t ∧ x.state = .queued ∧ p.seq.run = true ∧
        p.panReady q = true
      ((∀ q u t, ¬ starts q u t) → Yields (.harvestStart c) s p) ∧
      ∀ q u t, starts q u t →
        let k := 32 * q + t
        let p1 := ((p.seqApply.dspNow q).modCtx n fun y => { y with unit := some (.thread q t) }).modOnePan q fun y =>
          { y with maskCount := min (2 ^ 28) (y.maskCount + 1) }
        let th := p1.startThread n x
        let fits := Library.inputOk x.program.toNat x.param (p.ctxData n 0 x.inLen ++ x.inData) = true ∧ p.emvPadded x = false
        (th.library = false ∨ fits →
          Yields (.harvestStart c) s ((p1.modThread k fun _ => th).modCtx n fun y => { y with state := .running })) ∧
        (th.library = true → ¬ fits → ∃ r, Yields (.harvestStart c) s r ∧ r.thread k = {} ∧
          (x.discard = false → (r.ctx n).state = .finished ∧ (r.ctx n).status = 0x10 ∧ (r.ctx n).detail = 0x0A))) ∧
    (∀ (q : Fin 16) (t : Fin 32),
      let k := Part.threadNo q t
      let th := p.thread k
      (∀ (n : Fin 4) (f : Bool), ∀ i, i = (if f then Instr.mldsaFixedDelivery q t n else Instr.engineResult q t n) →
        ((∀ r, th.reqs[n.val]? = some r → r.ready = false ∨ r.fixed ≠ f) → Yields i s p) ∧
        ∀ r, th.reqs[n.val]? = some r → r.ready = true → r.fixed = f → (∀ m, r.unit = .pan m → r.blocks = 0) →
          (∀ st d, r.fail = some (st, d) → th.busy = true → ∃ z, Yields i s z ∧ HarvestEnds k st d p z) ∧
          (r.fail = none → th.busy = true → (∀ m, r.unit ≠ .pan m) → (∃ a b, r.dest = [a, b] ∧ a.1 % 2 = 1) →
            ∃ z, Yields i s z ∧ HarvestEnds k 0x7F 0 p z ∧ (z.seq.units.get {} q).faultPc = r.pc) ∧
          (r.fail = none → (∃ m, r.unit = .pan m) ∨ (∀ a b, r.dest = [a, b] → a.1 % 2 = 0) →
            ∃ z, Yields i s z ∧
              z = { p with seq := { p.seq with threads := z.seq.threads }, opBuf := z.opBuf, cores := z.cores, hif := z.hif, dsp := z.dsp } ∧
              z.thread k = { th with
                reqs := th.reqs.filter fun y => y.id != r.id
                sregs := r.dest.foldl (fun a y => a.set {} y.1 y.2) th.sregs
                v := th.v && (match r.verdict with | some (v, _) => v | none => true)
                vclass := (match r.verdict with | some (_, c) => Part.join th.vclass c | none => th.vclass) } ∧
              z.opBuf = r.window.foldl (fun m y => m.write ram (Part.dataArea th.ctx + y.1) (y.2.take (384 - y.1))) p.opBuf)) ∧
      (th.busy = true → th.budget = 0 → ∃ z, Yields (.budgetExhausted q t) s z ∧ HarvestEnds k 0x7F 0 p z ∧
        (z.seq.units.get {} q).faultPc = th.pc ∧
        (z.seq.units.get {} q).fault = (at' th.program 0 ||| at' (BitVec.ofNat 5 t.val) 16 ||| at' 0x7F#8 24)) ∧
      (th.busy = false ∨ th.budget ≠ 0 → Yields (.budgetExhausted q t) s p) ∧
      (th.landing = none → Yields (.landingSlotWrite q t) s p) ∧
      (∀ f tpl key, th.landing = some (f, tpl, key) →
        let h := (p.ctx th.ctx).handles.getD f 0
        let i := hIndex h
        let y := p.slot i
        let opened := p.slc.template y.child.toNat
        let waits := p.cellarWaits h || p.commitsEarlier th.ctx
        (waits = true → Yields (.landingSlotWrite q t) s p) ∧
        (waits = false → (p.headCheck h th.colour [5]).1 = none → y.state = Slot.landing →
          (Template.ofEntry tpl).agrees opened = true →
          Yields (.landingSlotWrite q t) s
            (((p.modSlc fun c => c.putChain i y.colour opened y.notAfter 0 [key]).modThread k fun a =>
              { a with landing := none, swr := true, swrSlots := a.swrSlots ++ [i] }).modCtx th.ctx fun c => { c with classA := true })) ∧
        (waits = false → (p.headCheck h th.colour [5]).1 = none → th.busy = true →
          y.state ≠ Slot.landing ∨ (Template.ofEntry tpl).agrees opened = false →
          ∃ z, Yields (.landingSlotWrite q t) s z ∧ HarvestEnds k 0x12 (Part.keyDetail 1 f) p z))) ∧
    (let e := p.seq
     (∀ v, (e.loadOpen = true → p.sys.mode = .assay → Yields (.seqPmemDataWrite v) s
            { p with seq := { e with pmem := e.pmem.set 0 e.pmemWord.toNat v, pmemWord := e.pmemWord + 1 } }) ∧
        (e.loadOpen = true → p.sys.mode ≠ .assay → Yields (.seqPmemDataWrite v) s p) ∧
        (e.loadOpen = false → Yields (.seqPmemDataWrite v) s { p with seq := { e with writeLocked := true } })) ∧
     (e.loadOpen = true → Yields .loadOpenClear s
        { p with seq := { e with loadOpen := false, loaded := true, programs := (Part.programTable e.pmem).filterMap p.loadedProgram } } ∧
        Yields .seqRunSet s p) ∧
     (e.loadOpen = false → Yields .loadOpenClear s p ∧ Yields .seqRunSet s { p with seq := { e with run := true } }) ∧
     (let legal := e.st.stage.1.toNat ≤ e.st.stage.2.toNat ∧ e.st.stage.1 ≠ 0 ∧ e.st.stage.2 ≠ 0
      let idle := ∀ t ∈ e.threads, t.2.busy = false
      (legal → idle → Yields .seqCommit s { p with seq := { e with st := { e.st with pend := none, eff := e.st.stage } } }) ∧
      (legal → ¬ idle → Yields .seqCommit s { p with seq := { e with st := { e.st with pend := some e.st.stage } } }) ∧
      (¬ legal → Yields .seqCommit s
        { p with seq := { e with cfgMismatch := true, st := { e.st with pend := none } } })))

/-- On a core ready to execute with EXL 0, a command that raises an exception of R190 (each case named in Raises, with its
cause, EPC, EADDR and bank) leaves the core exactly as entered: EPC, ECAUSE, EADDR, FBK, EDBK, EIBK, PPRIV and PIE saved, PRIV
1, IE 0, EXL 1, both banks EVBK, no pending bank, no reservation, and the pc at BASE + CAUSE x 0x40. A fetch that its
checkpoint refuses, or from no region, does the same whatever the instruction, and so does an interrupt that may be taken,
with EPC at the next instruction. General registers, other cores and every memory stay; only the fault queues, the Tally Book
and the evidence chain record a refusal. ERET on a privileged core sets the pc to EPC, PRIV to PPRIV, IE to PIE, EXL to 0 and
the banks to EDBK and EIBK, drops the reservation and keeps everything else, a bank pending in IBANK included. -/
def Obligations.ExceptionEntryFollowsItsSteps : Prop :=
  ∀ (s : State) (c : Fin 5),
    let p := s.part
    let m := p.core c
    let enters := fun (i : Instr) (x : Trap) => ∃ q fbk, Yields i s q ∧ (∀ b, x.bank = some b → fbk = b) ∧
      q.core c = entered m x fbk ∧ (∀ d, d ≠ c.val → q.core d = p.core d) ∧
      q = { p with cores := q.cores, evr := q.evr, free := q.free
                   acu := { p.acu with nfault := q.acu.nfault, sfault := q.acu.sfault, nOverflow := q.acu.nOverflow, sOverflow := q.acu.sOverflow }
                   bat := { p.bat with evidN := q.bat.evidN, evidH := q.bat.evidH } }
    (CoreReady p c → m.exl = false → ∀ i x, Raises p c i x → enters i x) ∧
    (m.run = .running → m.fence = false → m.stepOne = false → m.exl = false → p.mayInterrupt c = false → p.sys.scanStopped = false →
      m.pc.toNat % 4 = 0 → ∀ bus, (p.coreCheck c kFetch (Part.bankAddr m.ibk m.pc) 4).1 = some bus →
      ∀ i, (∃ rd ra rb, i = .add (.core c) rd ra rb) ∨ (∃ rd ra imm, i = .lw (.core c) rd ra imm) ∨ (∃ rs ra imm, i = .sw (.core c) rs ra imm) ∨
        i = .eret (.core c) ∨ (∃ n, i = .trap (.core c) n) →
      enters i { cause := if bus then xFetchBus else xFetchAccess, epc := m.pc, addr := m.pc, bank := some m.ibk }) ∧
    (m.run = .running ∨ m.run = .doze → p.sys.scanStopped = false → p.mayInterrupt c = true →
      enters (.interruptTake c) { cause := xInterrupt, epc := if m.run = .doze then m.pc + 4 else m.pc }) ∧
    (CoreReady p c → m.priv = true → ∃ q, Yields (.eret (.core c)) s q ∧ q = { p with cores := q.cores } ∧
      (∀ d, d ≠ c.val → q.core d = p.core d) ∧
      q.core c = { m with pc := m.epc, priv := m.ppriv, ie := m.pie, exl := false, dbk := m.edbk, ibk := m.eibk
                          resv := none })

/-- On every processor ready to execute, core or thread, each command of the ALU group of R177 and each immediate form of R176
leaves rd at the value the tables give from the values ra and rb held before, every other general register as it was, g0 zero,
the program counter 4 further, and nothing else of the part changed but a thread's counts of instructions. Shifts by register
use rb[4:0]; products are taken exactly and cut; DIV and MOD follow R178. -/
def Obligations.RegisterOperationsComputeTheirResult : Prop :=
  let does := fun (i : Instr) (x : Proc) (rd : BitVec 5) (f : (BitVec 5 → Word) → Word) =>
    ∀ s : State, Ready s.part x → ∃ q, Yields i s q ∧ Computes x rd (f (reg s.part x)) (pcOf s.part x + 4) s.part q
  let one := fun (b : Bool) => if b then 1#32 else 0#32
  ∀ (x : Proc) (rd ra rb : BitVec 5) (imm : BitVec 16),
    does (.add x rd ra rb) x rd (fun r => BitVec.ofInt 32 ((r ra).toInt + (r rb).toInt)) ∧
    does (.sub x rd ra rb) x rd (fun r => BitVec.ofInt 32 ((r ra).toInt - (r rb).toInt)) ∧
    does (.and x rd ra rb) x rd (fun r => r ra &&& r rb) ∧
    does (.or x rd ra rb) x rd (fun r => r ra ||| r rb) ∧
    does (.xor x rd ra rb) x rd (fun r => r ra ^^^ r rb) ∧
    does (.slt x rd ra rb) x rd (fun r => one (decide ((r ra).toInt < (r rb).toInt))) ∧
    does (.sltu x rd ra rb) x rd (fun r => one (decide ((r ra).toNat < (r rb).toNat))) ∧
    does (.sll x rd ra rb) x rd (fun r => BitVec.ofNat 32 ((r ra).toNat * 2 ^ (fld (r rb) 0 5).toNat)) ∧
    does (.srl x rd ra rb) x rd (fun r => BitVec.ofNat 32 ((r ra).toNat / 2 ^ (fld (r rb) 0 5).toNat)) ∧
    does (.sra x rd ra rb) x rd (fun r => BitVec.ofInt 32 ((r ra).toInt / 2 ^ (fld (r rb) 0 5).toNat)) ∧
    does (.slli x rd ra rb) x rd (fun r => BitVec.ofNat 32 ((r ra).toNat * 2 ^ rb.toNat)) ∧
    does (.srli x rd ra rb) x rd (fun r => BitVec.ofNat 32 ((r ra).toNat / 2 ^ rb.toNat)) ∧
    does (.srai x rd ra rb) x rd (fun r => BitVec.ofInt 32 ((r ra).toInt / 2 ^ rb.toNat)) ∧
    does (.mul x rd ra rb) x rd (fun r => BitVec.ofNat 32 ((r ra).toNat * (r rb).toNat % 2 ^ 32)) ∧
    does (.mulhi x rd ra rb) x rd (fun r => BitVec.ofInt 32 ((r ra).toInt * (r rb).toInt / 2 ^ 32)) ∧
    does (.mulhiu x rd ra rb) x rd (fun r => BitVec.ofNat 32 ((r ra).toNat * (r rb).toNat / 2 ^ 32)) ∧
    does (.div x rd ra rb) x rd (fun r =>
      if r rb = 0 then (if (r ra).toInt < 0 then 0x80000000 else 0x7FFFFFFF)
      else if r ra = 0x80000000 ∧ r rb = 0xFFFFFFFF then 0x7FFFFFFF
      else BitVec.ofInt 32 ((r ra).toInt.tdiv (r rb).toInt)) ∧
    does (.divu x rd ra rb) x rd (fun r => if r rb = 0 then 0xFFFFFFFF else BitVec.ofNat 32 ((r ra).toNat / (r rb).toNat)) ∧
    does (.mod x rd ra rb) x rd (fun r =>
      if r rb = 0 ∨ (r ra = 0x80000000 ∧ r rb = 0xFFFFFFFF) then 0 else BitVec.ofInt 32 ((r ra).toInt.tmod (r rb).toInt)) ∧
    does (.modu x rd ra rb) x rd (fun r => if r rb = 0 then 0 else BitVec.ofNat 32 ((r ra).toNat % (r rb).toNat)) ∧
    does (.addi x rd ra imm) x rd (fun r => r ra + imm.signExtend 32) ∧
    does (.andi x rd ra imm) x rd (fun r => r ra &&& imm.setWidth 32) ∧
    does (.ori x rd ra imm) x rd (fun r => r ra ||| imm.setWidth 32) ∧
    does (.xori x rd ra imm) x rd (fun r => r ra ^^^ imm.setWidth 32) ∧
    does (.slti x rd ra imm) x rd (fun r => one (decide ((r ra).toInt < (imm.signExtend 32).toInt))) ∧
    does (.sltiu x rd ra imm) x rd (fun r => one (decide ((r ra).toNat < (imm.signExtend 32).toNat))) ∧
    does (.lih x rd imm) x rd (fun _ => BitVec.ofNat 32 (imm.toNat * 2 ^ 16))

/-- On every processor ready to execute, each of DIV, DIVU, MOD and MODU completes with the program counter 4 further and
raises nothing. DIV by zero gives 0x7FFF_FFFF when ra is zero or positive and 0x8000_0000 when it is negative, DIVU by zero
0xFFFF_FFFF, MOD and MODU by zero 0; 0x8000_0000 by 0xFFFF_FFFF signed gives 0x7FFF_FFFF with MOD 0. -/
def Obligations.DivisionSaturates : Prop :=
  ∀ (s : State) (x : Proc) (rd ra rb : BitVec 5), Ready s.part x →
    let a := reg s.part x ra
    let b := reg s.part x rb
    ∀ i, i = Instr.div x rd ra rb ∨ i = Instr.divu x rd ra rb ∨ i = Instr.mod x rd ra rb ∨ i = Instr.modu x rd ra rb →
      ∃ v q, Yields i s q ∧ Computes x rd v (pcOf s.part x + 4) s.part q ∧
        (i = .div x rd ra rb → b = 0 → 0 ≤ a.toInt → v = 0x7FFFFFFF) ∧
        (i = .div x rd ra rb → b = 0 → a.toInt < 0 → v = 0x80000000) ∧
        (i = .divu x rd ra rb → b = 0 → v = 0xFFFFFFFF) ∧
        (i = .mod x rd ra rb ∨ i = .modu x rd ra rb → b = 0 → v = 0) ∧
        (a = 0x80000000 → b = 0xFFFFFFFF → (i = .div x rd ra rb → v = 0x7FFFFFFF) ∧ (i = .mod x rd ra rb → v = 0))

/-- On every processor ready to execute. A conditional branch goes to pc + 4 x sext(off16) where its comparison holds and to
pc + 4 where it does not, and writes no register. J goes to pc + 4 x sext(off26); CALL does so after writing pc + 4 to g31;
JLR to an aligned target writes pc + 4 to rd and goes to the target formed from the value ra held before. A taken J, CALL or
JLR of a core makes a pending bank its IBK and leaves none pending. Everything else stays. A misaligned target of a thread
ends its harvest with INTERNAL_FAULT (the model's reading, log entry 46). -/
def Obligations.BranchesAndJumpsGoWhereTheyShould : Prop :=
  ∀ (s : State) (x : Proc), Ready s.part x →
    let p := s.part
    let pc := pcOf p x
    (∀ (ra rb : BitVec 5) (off : BitVec 16),
      let a := reg p x ra
      let b := reg p x rb
      let goes := fun (i : Instr) (t : Bool) => ∃ q, Yields i s q ∧
        Computes x 0 0 (if t then pc + BitVec.ofInt 32 (4 * off.toInt) else pc + 4) p q
      goes (.beq x ra rb off) (decide (a = b)) ∧ goes (.bne x ra rb off) (decide (a ≠ b)) ∧
      goes (.blt x ra rb off) (decide (a.toInt < b.toInt)) ∧ goes (.bge x ra rb off) (decide (b.toInt ≤ a.toInt)) ∧
      goes (.bltu x ra rb off) (decide (a.toNat < b.toNat)) ∧ goes (.bgeu x ra rb off) (decide (b.toNat ≤ a.toNat))) ∧
    (∀ (off : BitVec 26) (rd ra : BitVec 5) (imm : BitVec 16),
      let jt := pc + BitVec.ofInt 32 (4 * off.toInt)
      let rt := reg p x ra + imm.signExtend 32
      (∀ c, x = .core c →
        let jumped := fun (m : Core) (r : BitVec 5) (t : Word) =>
          { m with regs := if r = 0 then m.regs else m.regs.set 0 r.toNat (pc + 4), pc := t, ibk := m.pendIbk.getD m.ibk, pendIbk := none }
        Yields (.j x off) s (p.modCore c fun m => jumped m 0 jt) ∧
        Yields (.call x off) s (p.modCore c fun m => jumped m 31 jt) ∧
        (rt.toNat % 4 = 0 → Yields (.jlr x rd ra imm) s (p.modCore c fun m => jumped m rd rt))) ∧
      (∀ n t, x = .thread n t →
        (∃ q, Yields (.j x off) s q ∧ Computes x 0 0 jt p q) ∧
        (∃ q, Yields (.call x off) s q ∧ Computes x 31 (pc + 4) jt p q) ∧
        (rt.toNat % 4 = 0 → ∃ q, Yields (.jlr x rd ra imm) s q ∧ Computes x rd (pc + 4) rt p q) ∧
        (rt.toNat % 4 ≠ 0 → ∃ q, Yields (.jlr x rd ra imm) s q ∧ HarvestEnds (Part.threadNo n t) 0x7F 0 p q)))

/-- On a ready processor FENCE and FENCE.CODE only advance. On a ready privileged core FENCE.RULE advances where no older-
generation access remains and else waits, ending by its completion once none remains; DOZE stops the core with its pc in place
until a request, whose arrival with IE 0 or EXL 1 lets it go on after DOZE; with a debugger attached and the steering right,
BRK halts it (whether before or after the BRK is free, log entry 2). MFSR writes rd with the register of R168 that its index
names, CYCLE_LO reading a free value; MTSR writes the named register's writable fields only, EXL only toward 0, and IBK as
pending. On a thread every core-only system instruction and every undefined word ends the harvest with INTERNAL_FAULT. -/
def Obligations.SystemInstructionsOfProcessors : Prop :=
  ∀ (s : State),
    let p := s.part
    (∀ x i, Ready p x → i = Instr.fence x ∨ i = .fenceCode x → ∃ q, Yields i s q ∧ Computes x 0 0 (pcOf p x + 4) p q) ∧
    (∀ (n : Fin 16) (t : Fin 32) (i : Instr), ThreadReady p (Part.threadNo n t) →
      (∃ w, Dibry.decode (.thread n t) w = none ∧ i = .illegal (.thread n t) w) ∨ (∃ k, i = .trap (.thread n t) k) ∨
        i = .eret (.thread n t) ∨ i = .brk (.thread n t) ∨ i = .doze (.thread n t) ∨ i = .fenceRule (.thread n t) ∨
        (∃ rd sr, i = .mfsr (.thread n t) rd sr) ∨ (∃ sr ra, i = .mtsr (.thread n t) sr ra) →
      ∃ q, Yields i s q ∧ HarvestEnds (Part.threadNo n t) 0x7F 0 p q) ∧
    ∀ c : Fin 5,
      let m := p.core c
      let x := Proc.core c
      (CoreReady p c → m.priv = true → p.acu.oldInflight = false →
        Yields (.fenceRule x) s (p.modCore c fun m => { m with pc := m.pc + 4 })) ∧
      (CoreReady p c → m.priv = true → p.acu.oldInflight = true →
        Yields (.fenceRule x) s (p.modCore c fun m => { m with fence := true })) ∧
      (m.fence = true → m.run = .running → p.acu.oldInflight = false →
        Yields (.fenceRuleComplete c) s (p.modCore c fun m => { m with fence := false, pc := m.pc + 4 })) ∧
      (m.fence = false ∨ m.run ≠ .running ∨ p.acu.oldInflight = true → Yields (.fenceRuleComplete c) s p) ∧
      (CoreReady p c → m.priv = true → Yields (.doze x) s (p.modCore c fun m => { m with run := .doze })) ∧
      (m.run = .doze → p.sys.scanStopped = false → p.irqLine c = true → p.mayInterrupt c = false →
        Yields (.dozeWake c) s (p.modCore c fun m => { m with run := .running, pc := m.pc + 4 })) ∧
      (m.run ≠ .doze ∨ p.irqLine c = false → Yields (.dozeWake c) s p) ∧
      (p.irqLine c = false ∨ (m.run = .running ∧ p.mayInterrupt c = false) → Yields (.interruptTake c) s p) ∧
      (CoreReady p c → p.dbg.attached = true → bitAt p.reach (if c.val = 4 then 3 else 1) = true →
        ∃ q, Yields (.brk x) s q ∧ q = { p with cores := q.cores, free := p.free + 1 } ∧ (∀ d, d ≠ c.val → q.core d = p.core d) ∧
          q.core c = { m with run := .halted, pc := (q.core c).pc } ∧ ((q.core c).pc = m.pc ∨ (q.core c).pc = m.pc + 4)) ∧
      (CoreReady p c → ∀ (rd : BitVec 5) (sr : BitVec 12) (v : Word),
        m.priv = true ∧
          ((sr = 0x000 ∧ v = (bit' m.priv 0 ||| bit' m.ie 1 ||| bit' m.exl 2 ||| bit' m.ppriv 3 ||| bit' m.pie 4 ||| bit' (c.val == 4) 8)) ∨
            (sr = 0x001 ∧ v = m.dbk.setWidth 32) ∨ (sr = 0x002 ∧ v = (m.pendIbk.getD m.ibk).setWidth 32) ∨ (sr = 0x003 ∧ v = m.epc) ∨
            (sr = 0x004 ∧ v = m.ecause) ∨ (sr = 0x005 ∧ v = m.eaddr) ∨ (sr = 0x006 ∧ v = (0#8 ++ m.fbk ++ m.eibk ++ m.edbk)) ∨
            (sr = 0x007 ∧ v = m.evec) ∨ (sr = 0x008 ∧ v = m.scratch0) ∨ (sr = 0x009 ∧ v = m.scratch1)) ∨
          (sr = 0x011 ∧ v = m.cycleHi) ∨ (sr = 0x012 ∧ v = if c.val = 4 then 0x10 else BitVec.ofNat 32 c.val) →
        ∃ q, Yields (.mfsr x rd sr) s q ∧ Computes x rd v (m.pc + 4) p q) ∧
      (CoreReady p c → ∀ rd : BitVec 5, ∃ q v, Yields (.mfsr x rd 0x010) s q ∧
        Computes x rd v (m.pc + 4) (p.modCore c fun m => { m with cycleHi := (q.core c).cycleHi }) { q with free := p.free }) ∧
      (CoreReady p c → m.priv = true → ∀ (ra : BitVec 5) (sr : BitVec 12) (m' : Core),
        let v := reg p x ra
        (sr = 0x000 ∧ m' = { m with ie := bitAt v 1, exl := m.exl && bitAt v 2, ppriv := bitAt v 3, pie := bitAt v 4 }) ∨
          (sr = 0x001 ∧ m' = { m with dbk := fld v 0 8 }) ∨ (sr = 0x002 ∧ m' = { m with pendIbk := some (fld v 0 8) }) ∨
          (sr = 0x003 ∧ m' = { m with epc := v }) ∨ (sr = 0x004 ∧ m' = m) ∨ (sr = 0x005 ∧ m' = { m with eaddr := v }) ∨
          (sr = 0x006 ∧ m' = { m with edbk := fld v 0 8, eibk := fld v 8 8 }) ∨ (sr = 0x007 ∧ m' = { m with evec := v &&& 0xFFFFFCFF#32 }) ∨
          (sr = 0x008 ∧ m' = { m with scratch0 := v }) ∨ (sr = 0x009 ∧ m' = { m with scratch1 := v }) →
        Yields (.mtsr x sr ra) s (p.modCore c fun _ => { m' with pc := m.pc + 4 }))

/-- A ready core whose access at ra + sext(imm16) in bank DBK is aligned and admitted completes. A load leaves rd at the
octets read, little-endian, sign- or zero-extended, and changes nothing but what the read of a register changes itself; a read
of a memory changes nothing. A store of 1, 2 or 4 octets into the operation buffer, local SRAM or private memory, at the
offset that the map gives, leaves those octets at the low octets of rs and every other octet of every memory as it was;
besides the program counter only reservations may go. A store to a register is exactly that register's write after the core
has moved on. A ready thread does the same inside its own context of 512 octets, where its colour is admitted, and outside it
the harvest ends with INTERNAL_FAULT. -/
def Obligations.LoadsReadAndStoresWriteOnlyTheirBytes : Prop :=
  ∀ (s : State) (rd ra : BitVec 5) (imm : BitVec 16),
    let p := s.part
    let f := s.fuses
    (∀ (c : Fin 5),
      let x := Proc.core c
      let m := p.core c
      let a := reg p x ra + imm.signExtend 32
      let pa := m.dbk.toNat * 2 ^ 32 + a.toNat
      let w := if c.val = 4 then World.secure else World.normal
      CoreReady p c →
      (∀ n (sg : Bool) i, (n = 1 ∧ sg = true ∧ i = Instr.lb x rd ra imm) ∨ (n = 2 ∧ sg = true ∧ i = .lh x rd ra imm) ∨
          (n = 4 ∧ sg = false ∧ i = .lw x rd ra imm) ∨ (n = 1 ∧ sg = false ∧ i = .lbu x rd ra imm) ∨
          (n = 2 ∧ sg = false ∧ i = .lhu x rd ra imm) →
        a.toNat % n = 0 → (p.coreCheck c kRead pa n).1 = none →
        let so := spaceOf p.sys.handed (c.val == 4) pa n
        let r := p.load w so.1 so.2 n
        let b := BitVec.ofNat (8 * n) (ofLe r.1)
        (∃ q, Yields i s q ∧ Computes x rd (if sg then b.signExtend 32 else b.setWidth 32) (m.pc + 4) r.2 q) ∧
          (so.1 ≠ .csr → r.2 = p) ∧ (so.1 = .ob → r.1 = p.opBuf.read ram so.2 n) ∧ (so.1 = .cc → r.1 = p.ccMem.read ram so.2 n) ∧
          (so.1 = .priv → r.1 = p.priv.read ram so.2 n) ∧ (so.1 = .es → r.1 = p.evr.store.read ram so.2 n)) ∧
      (∀ n i, (n = 1 ∧ i = Instr.sb x rd ra imm) ∨ (n = 2 ∧ i = .sh x rd ra imm) ∨ (n = 4 ∧ i = .sw x rd ra imm) →
        a.toNat % n = 0 → (p.coreCheck c kWrite pa n).1 = none →
        let so := spaceOf p.sys.handed (c.val == 4) pa n
        let bs := leBytes n (reg p x rd).toNat
        (so.1 = .csr → exec i s = .next { s with
          fuses := (Part.csrStore w so.2 bs (f, p.modCore c fun m => { m with pc := m.pc + 4 })).1
          part := (Part.csrStore w so.2 bs (f, p.modCore c fun m => { m with pc := m.pc + 4 })).2.stepStop c }) ∧
        (so.1 = .ob ∨ so.1 = .cc ∨ so.1 = .priv → ∃ q, Yields i s q ∧
          q = { p with cores := q.cores, opBuf := q.opBuf, ccMem := q.ccMem, priv := q.priv } ∧
          (∀ d, q.core d = { p.core d with resv := (q.core d).resv, pc := if d = c.val then m.pc + 4 else (p.core d).pc }) ∧
          (so.1 = .ob → q.opBuf = p.opBuf.write ram so.2 bs) ∧ (so.1 = .cc → q.ccMem = p.ccMem.write ram so.2 bs) ∧
          (so.1 = .priv → q.priv = p.priv.write ram so.2 bs) ∧
          (so.1 ≠ .ob → q.opBuf = p.opBuf) ∧ (so.1 ≠ .cc → q.ccMem = p.ccMem) ∧ (so.1 ≠ .priv → q.priv = p.priv) ∧
          (∀ b, b < so.2 ∨ so.2 + n ≤ b → Tab.get ram q.opBuf b = Tab.get ram p.opBuf b ∧ Tab.get ram q.ccMem b = Tab.get ram p.ccMem b ∧
            Tab.get ram q.priv b = Tab.get ram p.priv b)))) ∧
    (∀ (h : Fin 16) (t : Fin 32),
      let x := Proc.thread h t
      let k := Part.threadNo h t
      let th := p.thread k
      let a := reg p x ra + imm.signExtend 32
      let inside := fun n => 0x20000000 + 512 * th.ctx ≤ a.toNat ∧ a.toNat + n ≤ 0x20000000 + 512 * th.ctx + 512
      let o := a.toNat - 0x20000000
      ThreadReady p k →
      (∀ n (sg : Bool) i, (n = 1 ∧ sg = true ∧ i = Instr.lb x rd ra imm) ∨ (n = 2 ∧ sg = true ∧ i = .lh x rd ra imm) ∨
          (n = 4 ∧ sg = false ∧ i = .lw x rd ra imm) ∨ (n = 1 ∧ sg = false ∧ i = .lbu x rd ra imm) ∨
          (n = 2 ∧ sg = false ∧ i = .lhu x rd ra imm) →
        let b := BitVec.ofNat (8 * n) (ofLe (p.opBuf.read ram o n))
        (a.toNat % n = 0 → inside n → p.colourCheck .ob o n th.colour false = none →
          ∃ q, Yields i s q ∧ Computes x rd (if sg then b.signExtend 32 else b.setWidth 32) (th.pc + 4) p q) ∧
        (a.toNat % n ≠ 0 ∨ ¬ inside n → ∃ q, Yields i s q ∧ HarvestEnds k 0x7F 0 p q ∧ q.opBuf = p.opBuf)) ∧
      (∀ n i, (n = 1 ∧ i = Instr.sb x rd ra imm) ∨ (n = 2 ∧ i = .sh x rd ra imm) ∨ (n = 4 ∧ i = .sw x rd ra imm) →
        let bs := leBytes n (reg p x rd).toNat
        (a.toNat % n = 0 → inside n → p.colourCheck .ob o n th.colour false = none →
          ∃ q, Yields i s q ∧ q.opBuf = p.opBuf.write ram o bs ∧
            (∀ b, b < o ∨ o + n ≤ b → Tab.get ram q.opBuf b = Tab.get ram p.opBuf b) ∧
            q.thread k = { counted th with pc := th.pc + 4 } ∧ (∀ j, j ≠ k → q.thread j = p.thread j) ∧
            (∀ d, q.core d = { p.core d with resv := (q.core d).resv }) ∧
            q = { p with opBuf := q.opBuf, cores := q.cores, seq := { (turned p k).seq with threads := q.seq.threads } }) ∧
        (a.toNat % n ≠ 0 ∨ ¬ inside n → ∃ q, Yields i s q ∧ HarvestEnds k 0x7F 0 p q ∧ q.opBuf = p.opBuf)))

/-- On a core ready to execute with EXL 0: an SC at an address not aligned to 4 raises STORE_MISALIGNED. Else, with no
reservation on the granule of ra, rd becomes 1 and nothing is written and nothing checked. Else, where the checkpoint admits
the store (to a region SC acts on), the word at ra becomes rs, every other octet of every memory stays, and rd becomes 0. Else
it raises STORE_ACCESS, or STORE_BUS where the address is of no region and the checkpoint does not refuse it first, and writes
nothing. In every case the core is left without a reservation. -/
def Obligations.StoreConditionalDecidesItsOutcome : Prop :=
  ∀ (s : State) (c : Fin 5) (rd ra rs : BitVec 5),
    let p := s.part
    let m := p.core c
    let x := Proc.core c
    let a := reg p x ra
    let v := reg p x rs
    let pa := m.dbk.toNat * 2 ^ 32 + a.toNat
    let so := spaceOf p.sys.handed (c.val == 4) pa 4
    let adm := (p.coreCheck c kWrite pa 4).1
    let acts := so.1 = .cc ∨ so.1 = .ob ∨ so.1 = .priv
    let i := Instr.sc x rd ra rs
    let ends := fun (q : Machine.Part) => (q.core c).resv = none ∧
      ∀ d, d ≠ c.val → q.core d = { p.core d with resv := (q.core d).resv }
    let keeps := fun (q : Machine.Part) => q.opBuf = p.opBuf ∧ q.ccMem = p.ccMem ∧ q.priv = p.priv
    CoreReady p c → m.exl = false →
      (a.toNat % 4 ≠ 0 → ∃ q fbk, Yields i s q ∧ ends q ∧ keeps q ∧ fbk = m.dbk ∧
        q.core c = entered m { cause := xStoreMis, epc := m.pc, addr := a, bank := some m.dbk, atomic := true, size := 2 } fbk) ∧
      (a.toNat % 4 = 0 → m.resv ≠ some (pa / 64) →
        Yields i s (p.modCore c fun m => { m with regs := if rd = 0 then m.regs else m.regs.set 0 rd.toNat 1, resv := none, pc := m.pc + 4 })) ∧
      (a.toNat % 4 = 0 → m.resv = some (pa / 64) → (so.1 = .none ∨ ¬ acts ∨ adm ≠ none) →
        ∃ q, Yields i s q ∧ ends q ∧ keeps q ∧
          q.core c = entered m { cause := if adm = some true then xStoreBus else xStoreAccess, epc := m.pc, addr := a, bank := some m.dbk
                                 atomic := true, size := 2 } m.dbk) ∧
      (a.toNat % 4 = 0 → m.resv = some (pa / 64) → acts → adm = none →
        ∃ q, Yields i s q ∧ ends q ∧
          (so.1 = .ob → q.opBuf = p.opBuf.write ram so.2 (leBytes 4 v.toNat) ∧ q.ccMem = p.ccMem ∧ q.priv = p.priv) ∧
          (so.1 = .cc → q.ccMem = p.ccMem.write ram so.2 (leBytes 4 v.toNat) ∧ q.opBuf = p.opBuf ∧ q.priv = p.priv) ∧
          (so.1 = .priv → q.priv = p.priv.write ram so.2 (leBytes 4 v.toNat) ∧ q.opBuf = p.opBuf ∧ q.ccMem = p.ccMem) ∧
          q.core c = { m with regs := if rd = 0 then m.regs else m.regs.set 0 rd.toNat 0, resv := none, pc := m.pc + 4 } ∧
          q = { p with cores := q.cores, opBuf := q.opBuf, ccMem := q.ccMem, priv := q.priv })

/-- On a ready core, at an aligned address of local SRAM, the operation buffer or private memory that the checkpoint admits:
LR leaves rd at the word, the reservation on its granule of 64 octets and nothing else changed; TAS leaves rd at the word and
1 in its place, every other octet staying and every reservation on the granule lost, its own core's too. RESERVATION_TIMEOUT
drops a core's reservation. A write of a core or thread to a granule ends every reservation on it and no other. On a thread
LR, SC and TAS end the harvest with INTERNAL_FAULT. -/
def Obligations.LoadReservedAndTestAndSet : Prop :=
  (∀ (p : Machine.Part) (o : Nat) (b : Byte) (bs : List Byte) (d : Fin 5),
    let n := (b :: bs).length
    let hit := fun (base : Nat) (g : Nat) => (base + o) / 64 ≤ g ∧ g ≤ (base + o + n - 1) / 64
    ∀ q base, (q = p.writeOb o (b :: bs) ∧ base = 0x20000000) ∨ (q = p.writeCc o (b :: bs) ∧ base = 0x10000000) ∨
        (q = p.writePriv o (b :: bs) ∧ base = p.privBase) →
      (∀ g, (p.core d).resv = some g → hit base g → q.core d = { p.core d with resv := none }) ∧
      ((∀ g, (p.core d).resv = some g → ¬ hit base g) → q.core d = p.core d)) ∧
  ∀ (s : State),
    let p := s.part
    (∀ (h : Fin 16) (t : Fin 32) (rd ra rs : BitVec 5) (i : Instr), ThreadReady p (Part.threadNo h t) →
      i = Instr.lr (.thread h t) rd ra ∨ i = .sc (.thread h t) rd ra rs ∨ i = .tas (.thread h t) rd ra →
      ∃ q, Yields i s q ∧ HarvestEnds (Part.threadNo h t) 0x7F 0 p q) ∧
    ∀ c : Fin 5,
      let m := p.core c
      Yields (.reservationTimeout c) s (p.modCore c fun m => { m with resv := none }) ∧
      ∀ (rd ra : BitVec 5), CoreReady p c →
        let a := reg p (.core c) ra
        let pa := m.dbk.toNat * 2 ^ 32 + a.toNat
        let so := spaceOf p.sys.handed (c.val == 4) pa 4
        let w := BitVec.ofNat 32 (ofLe
          (match so.1 with | .cc => p.ccMem.read ram so.2 4 | .priv => p.priv.read ram so.2 4 | _ => p.opBuf.read ram so.2 4))
        let out := fun (m : Core) => if rd = 0 then m.regs else m.regs.set 0 rd.toNat w
        a.toNat % 4 = 0 → so.1 = .cc ∨ so.1 = .ob ∨ so.1 = .priv →
          ((p.coreCheck c kRead pa 4).1 = none → Yields (.lr (.core c) rd ra) s
            (p.modCore c fun m => { m with regs := out m, resv := some (pa / 64), pc := m.pc + 4 })) ∧
          ((p.coreCheck c kAtomic pa 4).1 = none → ∃ q, Yields (.tas (.core c) rd ra) s q ∧
            (so.1 = .ob → q.opBuf = p.opBuf.write ram so.2 [1, 0, 0, 0] ∧ q.ccMem = p.ccMem ∧ q.priv = p.priv) ∧
            (so.1 = .cc → q.ccMem = p.ccMem.write ram so.2 [1, 0, 0, 0] ∧ q.opBuf = p.opBuf ∧ q.priv = p.priv) ∧
            (so.1 = .priv → q.priv = p.priv.write ram so.2 [1, 0, 0, 0] ∧ q.opBuf = p.opBuf ∧ q.ccMem = p.ccMem) ∧
            q.core c = { m with regs := out m, resv := (q.core c).resv, pc := m.pc + 4 } ∧
            (∀ d, d ≠ c.val → q.core d = { p.core d with resv := (q.core d).resv }) ∧
            q = { p with cores := q.cores, opBuf := q.opBuf, ccMem := q.ccMem, priv := q.priv })

/-- On a thread whose operands are settled and of its colour. SCLR writes zero with LEN 0; SMOV copies value and tag; SXOR,
SAND and SOR combine nibbles; SSHF moves nibble j + k to j for k from -31 to 31; SPERM permutes the nibbles of one half and
copies the other; SDEC looks each nibble up; SSEL takes sa where V is 1 else sb, with the join of both and VCLASS. Octets
beyond an operand's LEN count as zero; the result has no RELEASE, FORM or KSRC and the class that R145 gives. SCMP sets V by
the first n octets, SCMP.A to V and that, both joining VCLASS. SCOMB of two different CLEAR_KEY results of one KSRC in an
ADMIN_ONLY library program gives their XOR with that KSRC. Each advances the program counter by 4, counts one instruction, and
changes nothing else. SSHF by -32, SCMP with n outside 1 to 16 and any other SCOMB end the harvest. -/
def Obligations.SealedRegistersAreCombined : Prop :=
  ∀ (s : State) (h : Fin 16) (t : Fin 32),
    let p := s.part
    let k := Part.threadNo h t
    let x := Proc.thread h t
    let th := p.thread k
    let writes := fun (i : Instr) (sd : BitVec 4) (v : SReg) =>
      Yields i s ((turned p k).modThread k fun t => { counted t with sregs := t.sregs.set {} sd.toNat v, pc := t.pc + 4 })
    let ends := fun (i : Instr) => ∃ q, Yields i s q ∧ HarvestEnds k 0x7F 0 p q
    ∀ (sd sa sb : BitVec 4),
      let a := sregOf p k sa
      let b := sregOf p k sb
      let len := if a.len.toNat < b.len.toNat then b.len else a.len
      let cls := Part.join a.cls b.cls
      let na := operandNib a
      let nb := operandNib b
      (SealedReady p k [] [sd] → ∃ v, writes (.sclr x sd) sd v ∧ IsPlain v th.colour 0 0 fun _ => 0) ∧
      (SealedReady p k [sa] [sd] → writes (.smov x sd sa) sd a ∧
        (∀ n : BitVec 6, (n ≠ 32 → ∃ v, writes (.sshf x sd sa n) sd v ∧
            IsPlain v th.colour a.cls a.len fun j => if 0 ≤ (j : Int) + n.toInt then na ((j : Int) + n.toInt).toNat else 0) ∧
          (n = 32 → ends (.sshf x sd sa n)))) ∧
      (SealedReady p k [sa, sb] [sd] →
        (∃ v, writes (.sxor x sd sa sb) sd v ∧ IsPlain v th.colour cls len fun j => na j ^^^ nb j) ∧
        (∃ v, writes (.sand x sd sa sb) sd v ∧ IsPlain v th.colour cls len fun j => na j &&& nb j) ∧
        (∃ v, writes (.sor x sd sa sb) sd v ∧ IsPlain v th.colour cls len fun j => na j ||| nb j) ∧
        (∀ u : Bool, let o := if u then 16 else 0
          ∃ v, writes (.sperm x sd sa sb u) sd v ∧
            IsPlain v th.colour cls a.len fun j => if o ≤ j ∧ j < o + 16 then na (o + (nb (j - o)).toNat) else na j) ∧
        (∃ v, writes (.sdec x sd sa sb) sd v ∧ IsPlain v th.colour cls a.len fun j => nb (na j).toNat) ∧
        ((∀ r ∈ th.reqs, r.verifies = false) →
          ∃ v, writes (.ssel x sd sa sb) sd v ∧
            IsPlain v th.colour (Part.join cls th.vclass) (if th.v then a.len else b.len) (if th.v then na else nb)) ∧
        (let good := th.library = true ∧ th.admin = true ∧ a.cls = 3 ∧ b.cls = 3 ∧ a.dec ≠ none ∧ b.dec ≠ none ∧ a.dec ≠ b.dec ∧
          bitAt a.ksrc 2 = true ∧ a.ksrc = b.ksrc
        (good → ∃ v, writes (.scomb x sd sa sb) sd { v with ksrc := a.ksrc, tpl := a.tpl } ∧
          IsPlain v th.colour 3 len fun j => na j ^^^ nb j) ∧
        (¬ good → ends (.scomb x sd sa sb)))) ∧
      (SealedReady p k [sa, sb] [] → (∀ r ∈ th.reqs, r.verifies = false) → ∀ n : BitVec 5,
        let same := decide (∀ j, j < 2 * n.toNat → na j = nb j)
        let sets := fun (i : Instr) (v : Bool) =>
          Yields i s ((turned p k).modThread k fun t => { counted t with v := v, vclass := Part.join t.vclass cls, pc := t.pc + 4 })
        (1 ≤ n.toNat → n.toNat ≤ 16 → sets (.scmp x sa sb n) same ∧ sets (.scmpA x sa sb n) (th.v && same)) ∧
        (n = 0 ∨ 16 < n.toNat → ends (.scmp x sa sb n) ∧ ends (.scmpA x sa sb n)))

/-- On a settled thread of one colour. SLD takes n octets of the own context, PUBLIC with LEN n; outside it, or with n outside
1 to 16, the harvest ends. SINS replaces word w and keeps the class. SEXT writes word w to gd only from a PUBLIC register,
else the harvest ends EMIT_DENIED with the class as detail. EMIT ends EMIT_DENIED with bit 3 set where go + LEN passes
OUT_LEN; else writes LEN octets into the output window at go, and no other octet, only where the class is PUBLIC or RELEASE is
1; else ends EMIT_DENIED with the class. HEND on a thread of an owner program, or of a library program that has issued an
instruction, waits for results outstanding; then ends the harvest with DONE, VERIFY_FALSE, the verdict's of the two, or
BAD_DESCRIPTOR 0x0A by its selector, and with INTERNAL_FAULT for another selector or a length above OUT_LEN. HEND as the first
command of library program 0x0000 runs the program and ends it DONE with its input as result (that HEND stands for the program
is the model's choice, log entry 146). SWR of a usable key to a landing handle sends the key on its way; another is
KEY_USAGE_DENIED, reason 1; a register pair of the thread's colour that does not hold a key ends it with INTERNAL_FAULT. -/
def Obligations.SealedValuesMeetTheContext : Prop :=
  ∀ (s : State) (h : Fin 16) (t : Fin 32),
    let p := s.part
    let k := Part.threadNo h t
    let x := Proc.thread h t
    let th := p.thread k
    let gets := fun (i : Instr) (sd : BitVec 4) (v : SReg) =>
      Yields i s ((turned p k).modThread k fun t => { counted t with sregs := t.sregs.set {} sd.toNat v, pc := t.pc + 4 })
    let ends := fun (i : Instr) (st d : Byte) => ∃ q, Yields i s q ∧ HarvestEnds k st d p q ∧ q.opBuf = p.opBuf
    (∀ (sd : BitVec 4) (ga n : BitVec 5) (off : BitVec 7), SealedReady p k [] [sd] →
      let a := (reg p x ga + off.setWidth 32).toNat
      let inside := 0x20000000 + 512 * th.ctx ≤ a ∧ a + n.toNat ≤ 0x20000000 + 512 * th.ctx + 512
      let o := a - 0x20000000
      let octet := fun j => Tab.get ram p.opBuf (o + j)
      (1 ≤ n.toNat → n.toNat ≤ 16 → inside → p.colourCheck .ob o n.toNat th.colour false = none →
        ∃ v, gets (.sld x sd ga n off) sd v ∧
          IsPlain v th.colour 0 n fun j => if j % 2 = 0 then fld (octet (j / 2)) 4 4 else fld (octet (j / 2)) 0 4) ∧
      (n = 0 ∨ 16 < n.toNat ∨ ¬ inside → ends (.sld x sd ga n off) 0x7F 0)) ∧
    (∀ (ss : BitVec 4) (w : BitVec 2) (g : BitVec 5),
      let y := sregOf p k ss
      let v := reg p x g
      (SealedReady p k [ss] [ss] → ∃ r, gets (.sins x ss g w) ss r ∧
        IsPlain r th.colour y.cls (if y.len.toNat < 4 * w.toNat + 4 then BitVec.ofNat 5 (4 * w.toNat + 4) else y.len) fun j =>
          if 8 * w.toNat ≤ j ∧ j < 8 * w.toNat + 8 then
            (let b := fld v (8 * (j / 2 - 4 * w.toNat)) 8; if j % 2 = 0 then fld b 4 4 else fld b 0 4)
          else operandNib y j) ∧
      (SealedReady p k [ss] [] →
        (y.cls = 0 → ∃ q r, Yields (.sext x g ss w) s q ∧ Computes x g r (th.pc + 4) p q ∧
          ∀ e, e < 4 → fld r (8 * e) 8 = operandNib y (8 * w.toNat + 2 * e) ++ operandNib y (8 * w.toNat + 2 * e + 1)) ∧
        (y.cls ≠ 0 → ends (.sext x g ss w) 0x60 (y.cls.setWidth 8)) ∧
        (th.outLen < v.toNat + y.len.toNat → ends (.emit x ss g) 0x60 (8 ||| y.cls.setWidth 8)) ∧
        (v.toNat + y.len.toNat ≤ th.outLen → y.cls ≠ 0 → y.release = false → ends (.emit x ss g) 0x60 (y.cls.setWidth 8)) ∧
        (v.toNat + y.len.toNat ≤ th.outLen → y.cls = 0 ∨ y.release = true → ∃ q bs, Yields (.emit x ss g) s q ∧
          bs.length = min 16 y.len.toNat ∧ (∀ e, e < bs.length → bs[e]? = some (operandNib y (2 * e) ++ operandNib y (2 * e + 1))) ∧
          q.opBuf = p.opBuf.write ram (512 * th.ctx + 128 + v.toNat) bs ∧
          q.thread k = { counted th with pc := th.pc + 4 } ∧ (∀ j, j ≠ k → q.thread j = p.thread j) ∧
          (∀ d, q.core d = { p.core d with resv := (q.core d).resv }) ∧
          q = { p with opBuf := q.opBuf, cores := q.cores, seq := { (turned p k).seq with threads := q.seq.threads } }))) ∧
    (∀ (gs gl : BitVec 5), ThreadReady p k → (th.library = true → th.issued ≠ 0) →
      let sel := (reg p x gs).toNat
      let len := (reg p x gl).toNat
      let i := Instr.hend x gs gl
      (th.reqs ≠ [] ∨ th.landing ≠ none → Yields i s p) ∧
      (th.reqs = [] → th.landing = none →
        (3 < sel ∨ th.outLen < len → ends i 0x7F 0) ∧
        (sel = 3 → len ≤ th.outLen → ends i 0x10 0x0A) ∧
        (sel < 3 → len ≤ th.outLen →
          let st : Byte := if sel = 1 ∨ (sel = 2 ∧ th.v = false) then 1 else 0
          let c := p.ctx th.ctx
          ∃ q, Yields i s q ∧ HarvestEnds k st 0 p q ∧ q.opBuf = p.opBuf ∧
            (c.state = .running → c.discard = false →
              (c.outPtr ≠ none → (q.ctx th.ctx).outCount = BitVec.ofNat 32 len ∧ (q.ctx th.ctx).result = []) ∧
              (c.outPtr = none → (q.ctx th.ctx).outCount = BitVec.ofNat 32 c.outList ∧
                (q.ctx th.ctx).result = p.opBuf.read ram (512 * th.ctx + 128) len))))) ∧
    (∀ (gs gl : BitVec 5), ThreadReady p k → th.library = true → th.issued = 0 → th.program = 0 → th.reqs = [] →
      th.landing = none →
      let c := p.ctx th.ctx
      let a := 512 * th.ctx + 128
      c.inLen ≤ 16 → c.inData = [] → c.inLen ≤ th.outLen → c.outPtr = none → c.sglOut.2 = 0 → c.state = .running →
      c.discard = false →
        ∃ q, Yields (.hend x gs gl) s q ∧ HarvestEnds k 0 0 p q ∧ q.opBuf = p.opBuf.write ram a (p.opBuf.read ram a c.inLen) ∧
          (q.ctx th.ctx).result = q.opBuf.read ram a c.inLen) ∧
    (∀ (ss : BitVec 4) (f : BitVec 2), ThreadReady p k → th.landing = none → th.reqs.length < 4 →
      (∀ r ∈ Part.keyRegs ss.toNat, ∀ a ∈ th.reqs, r ∉ a.pendDest) →
      let y := sregOf p k ss
      let hd := (p.ctx th.ctx).handles.getD f.toNat 0
      let usable := fld hd 28 4 = 5 ∧ (y.cls = 2 ∨ y.cls = 3) ∧ bitAt y.ksrc 2 = true
      y.colour = th.colour →
      (¬ usable → ends (.swr x ss f) 0x12 (Part.keyDetail 1 f.toNat)) ∧
      (usable → let tpl := p.templateOf th y
        (∀ key, Part.keyOctets th ss.toNat (Part.keyLen tpl.alg) = some key → Yields (.swr x ss f) s
          ((turned p k).modThread k fun t =>
            { counted t with landing := some (f.toNat, KeyBlock.entryOf tpl, key), pc := t.pc + 4 })) ∧
        (Part.keyOctets th ss.toNat (Part.keyLen tpl.alg) = none → Part.pairColour th ss.toNat (Part.keyLen tpl.alg) = true → ends (.swr x ss f) 0x7F 0)))

/-- For each format 0, 1, 3, 4 and the reference layout, every PIN of 4 to 12 digits, every PAN of 13 to 19 digits and every 8
octets of fill: the block that SPIN.PACK builds from the canonical PIN is a valid block of its format whose PIN digits, as
SPIN.UNPK reads them with the same PAN, are the digits packed; and the canonical PIN of those digits is the one packed. -/
def Obligations.PinBlocksUnpackToThePinPacked : Prop :=
  ∀ (f : BitVec 3) (ds pan : List (BitVec 4)) (rnd : List Byte) (s : SReg),
    f = 0 ∨ f = 1 ∨ f = 3 ∨ f = 4 ∨ f = 7 →
    4 ≤ ds.length → ds.length ≤ 12 → (∀ d ∈ ds, d.toNat < 10) →
    13 ≤ pan.length → pan.length ≤ 19 → (∀ d ∈ pan, d.toNat < 10) → rnd.length = 8 →
    s.val = Part.pinBlock f (Part.canonical ds) pan rnd → s.len = (if f = 4 then 16 else 8) →
    Part.pinOf f s pan = some ds ∧
      (∀ j, j < 16 → fld (Part.canonical ds) (124 - 4 * j) 4 = if j = 0 then BitVec.ofNat 4 ds.length else ds.getD (j - 1) 0xF)

/-- On a thread ready for its engine group with a key that may be used. A one-shot ENC or DEC of a legal mode and length
issues a request whose register holds the cipher's output over a zero chaining value, class the join of ss with INTERMEDIATE
or with the key's DECRYPT_CLASS, RELEASE only for ENC where the mask has the class and the value is intact, KSRC only for
CLEAR_KEY. LOAD starts a chain with ss as chaining value; NEXT and LAST run it on, LAST ending it, under the chain's joined
class and intactness. A one-shot MAC gives the first 16 octets under R257, RELEASE needing usage bit 2 also; HASH the digest
in registers from sd with the class of ss; KDER the derived key with class joined with DERIVED_KEY and the key's KSRC. Each
counts its blocks, moves the program counter by 4 and changes nothing else. A slot whose read fails leaves a request that ends
the harvest with that status, the handle field in the detail, when it lands; meanwhile the thread goes on. -/
def Obligations.PanInstructionsComputeAndTag : Prop :=
  ∀ (s : State) (h : Fin 16) (t : Fin 32) (sd ss : BitVec 4) (kf : BitVec 5) (m : BitVec 9),
    let p := s.part
    let k := Part.threadNo h t
    let x := Proc.thread h t
    let th := p.thread k
    let y := sregOf p k ss
    let bs := (beBytes 16 y.val.toNat).take y.len.toNat
    let issues := fun (i : Instr) (dest : List (Nat × SReg)) (blocks : Nat) (c : Option Chain) =>
      Yields i s ((turned p k).modThread k fun t => { panIssued h dest blocks t with chain := c })
    let reg1 := fun (out : List Byte) (cls : BitVec 3) (rel : Bool) (ksrc : BitVec 3) (dec : Option Nat) =>
      ({ val := Part.blockOf out, colour := th.colour, cls := cls, len := BitVec.ofNat 5 out.length, release := rel, ksrc := ksrc
         dec := dec } : SReg)
    let intact := y.cls = 0 ∨ y.cls = 1 ∨ (y.cls = 4 ∧ y.form = 2) ∨ ((y.cls = 2 ∨ y.cls = 3) ∧ bitAt y.ksrc 2 = true)
    (∀ (enc : Bool) (i : Instr), i = (if enc then Instr.enc x sd ss kf m else Instr.dec x sd ss kf m) →
        Part.fam m ≤ 1 → Part.fun' m ≠ 5 → Part.cipherOk m = true →
        EngineReady p h t ss kf (if Part.phase m = 1 then [] else [sd.toNat]) →
        let size := if Part.fam m = 1 then 8 else 16
        let blocks := (bs.length + size - 1) / size
        (∀ f st why, Part.keyField kf = some f →
          (p.slotRead (p.fieldHandle th f) th.colour [1]).1 = .error (st, why) → Part.phase m = 0 →
          Part.pieceOk (Part.fam m) (Part.fun' m) 0 bs.length = true →
          ∃ q, Yields i s q ∧ (∀ j, j ≠ k → q.thread j = p.thread j) ∧ q.thread k = { counted th with
            reqs := th.reqs ++ [{ id := th.nextReq, dest := [], window := [], verdict := none, unit := .pan h, pc := th.pc
                                  fail := some (st, Part.keyDetail why f), pendDest := [sd.toNat] }]
            nextReq := th.nextReq + 1, pc := th.pc + 4 }) ∧
        ∀ key, (p.panKey k th [] kf (Part.famAlg m) (Part.cipherNeed enc false)).1 = .ok key →
          let out := fun (cls : BitVec 3) (ok : Bool) (o : List Byte) =>
            if enc then reg1 o (Part.join cls 1) (bitAt key.mask cls.toNat && ok) 0 none
            else reg1 o (Part.join cls key.dec) false (if Part.join cls key.dec = 3 then key.ksrc else 0) (some th.issued)
          (Part.phase m = 0 → Part.pieceOk (Part.fam m) (Part.fun' m) 0 bs.length = true →
            issues i [(sd.toNat, out y.cls (decide intact) (Part.cipherRun enc m key.key (List.replicate size 0) bs).1)] blocks th.chain) ∧
          (Part.phase m = 1 → sd = 0 → bs.length = size →
            issues i [] 0 (some { Part.newChain th (if enc then 0 else 1) kf m with
              cls := y.cls, lowOnly := Part.low y, ivPub := y.cls == 0, state := bs })) ∧
          (∀ c0, 2 ≤ Part.phase m → Part.pieceOk (Part.fam m) (Part.fun' m) (Part.phase m) bs.length = true →
            Part.chainFor th (if enc then 0 else 1) kf m = some c0 →
            let c := Part.chainData y c0
            let r := Part.cipherRun enc m key.key c.state bs
            issues i [(sd.toNat, out c.cls (Part.chainIntact c) r.1)] blocks
              (if Part.phase m = 3 then none else some { c with state := r.2 }))) ∧
      (∀ key, (p.panKey k th [] kf (Part.famAlg m) (fun u => Part.has 2 u || Part.has 3 u)).1 = .ok key →
        EngineReady p h t ss kf [sd.toNat] → Part.macOk m = true → Part.phase m = 0 →
        issues (.mac x sd ss kf m)
          [(sd.toNat, reg1 (Part.macOf m key.key bs) (Part.join (Part.join 0 y.cls) 1)
            (bitAt key.mask (Part.join 0 y.cls).toNat && (Part.low y || (decide intact && y.len != 0)) && bitAt key.usage 2) 0 none)]
          (Part.macBlocks m bs.length true) th.chain) ∧
      (kf = 0x1F → Part.fam m = 3 → Part.fun' m < 8 → Part.phase m = 0 →
        let d := Crypto.digest (Part.fun' m) (Crypto.digestLen (Part.fun' m)) bs
        let n := Crypto.digestLen (Part.fun' m)
        EngineReady p h t ss kf ((List.range ((n + 15) / 16)).map (sd.toNat + ·)) → 16 ≤ n → n ≤ 64 → sd.toNat + (n + 15) / 16 ≤ 16 →
        issues (.hash x sd ss kf m)
          ((Crypto.pieces 16 d).zipIdx.map fun z => (sd.toNat + z.2, reg1 z.1 (Part.join 0 y.cls) false 0 none))
          (Part.hashBlocks (Part.fun' m) bs.length true) th.chain) ∧
      (∀ key, (p.panKey k th [] kf (Part.kderAlg m.toNat) (Part.has 6)).1 = .ok key →
        [0x001, 0x002, 0x003, 0x010, 0x011, 0x020, 0x021, 0x030].contains m.toNat = true → m ≠ 0x003 ∨ y.cls = 0 →
        EngineReady p h t ss kf (Part.keyRegs sd.toNat) →
        let r := Part.kderRun m.toNat key bs
        r.1.length ≤ 16 ∨ sd.toNat % 2 = 0 →
        issues (.kder x sd ss kf m)
          ((Crypto.pieces 16 r.1).zipIdx.map fun z =>
            (sd.toNat + z.2, reg1 z.1 (Part.join 2 (Part.join y.cls key.cls)) false key.ksrc none)) r.2 th.chain)

/-- On a ready thread whose registers that the op reads or writes are settled and of its colour, with a free request, an ENGX
op with a handle K and a legal operand map, whose inputs lie in their sources and whose output has room, adds a pending
request (a verifying one marks the verdict, an ML-DSA signature a fixed delivery, a secret its registers), sends the operation
with its inputs, and moves on; nothing else changes. It is queued on an engine of its class that is powered, not retired and
not full, with no shallower one and none as shallow before it; where none has room it waits. An illegal map, sd for a
verifying op, or registers past s15 end the harvest with INTERNAL_FAULT, as do inputs or outputs out of range; a sealed
register as K ends it KEY_USAGE_DENIED, reason 1, and a K that names neither (0x1F) INTERNAL_FAULT (the model's choice, log
entry 174). An unused range is held to its bounds as well. -/
def Obligations.EngineOperationsAreSent : Prop :=
  (∀ (p : Machine.Part) (o : EngOp),
    let fits := fun e => e ∈ Part.enginesOf (Pk.grainer o.mode.toNat) ∧ p.engineUp e = true ∧ (p.eng e).queue.length < o.depth
    ((∀ e, ¬ fits e) → p.sendOp o = { p with rke := { p.rke with waiting := p.rke.waiting ++ [o] } }) ∧
    ((∃ e, fits e) → ∃ e, fits e ∧ p.sendOp o = (p.dspNow (Part.engKey e)).modEng e (fun x => { x with queue := x.queue ++ [o] }) ∧
      ∀ d, fits d → p.depthOf e < p.depthOf d ∨ (p.depthOf e = p.depthOf d ∧ e ≤ d))) ∧
  ∀ (s : State) (h : Fin 16) (t : Fin 32) (sd ss : BitVec 4) (kf : BitVec 5) (o : Nat) (i : Instr),
    let p := s.part
    let k := Part.threadNo h t
    let x := Proc.thread h t
    let th := p.thread k
    let y := sregOf p k ss
    (o = 0x000 ∧ i = .rsaSign x sd ss kf) ∨ (o = 0x001 ∧ i = .rsaVerify x sd ss kf) ∨ (o = 0x002 ∧ i = .rsaOaepDec x sd ss kf) ∨
      (o = 0x040 ∧ i = .ecSign x sd ss kf) ∨ (o = 0x041 ∧ i = .ecVerify x sd ss kf) ∨ (o = 0x042 ∧ i = .ecDh x sd ss kf) ∨
      (o = 0x048 ∧ i = .edSign x sd ss kf) ∨ (o = 0x049 ∧ i = .edVerify x sd ss kf) ∨ (o = 0x080 ∧ i = .mldsaSign x sd ss kf) ∨
      (o = 0x081 ∧ i = .mldsaVerify x sd ss kf) ∨ (o = 0x088 ∧ i = .mlkemEnc x sd ss kf) ∨ (o = 0x089 ∧ i = .mlkemDec x sd ss kf) ∨
      (o = 0x090 ∧ i = .slhFors x sd ss kf) ∨ (o = 0x091 ∧ i = .slhLayer x sd ss kf) ∨ (o = 0x092 ∧ i = .slhVerify x sd ss kf) →
    ThreadReady p k → th.reqs.length < 4 → y.colour = th.colour →
    (∀ r ∈ Part.mapInRegs y sd.toNat, (Part.sreg th r).colour = th.colour) →
    (∀ a ∈ th.reqs, ∀ r ∈ a.pendDest, r ∉ p.engxTouches o th sd.toNat ss.toNat kf) →
      (0x14 ≤ kf.toNat → ∃ q, Yields i s q ∧ HarvestEnds k 0x7F 0 p q) ∧
      (kf.toNat < 0x10 → ∃ q, Yields i s q ∧ HarvestEnds k 0x12 0x10 p q) ∧
      ∀ f, Part.keyField kf = some f →
        let hd := p.fieldHandle th f
        let slot := p.slot (hIndex hd)
        let regs := Part.engxRegs o slot.alg.toNat sd.toNat
        let w := Part.mapWord y
        let bad := Part.mapIllegal o th y sd.toNat slot.alg.toNat = true ∨ (Pk.verifies o = true ∧ sd ≠ 0) ∨ 16 < sd.toNat + regs ∨
          (regs = 2 ∧ sd.toNat % 2 = 1)
        let in1 := p.mapInput th (fld (w 3) 0 2).toNat (fld (w 0) 0 16).toNat (fld (w 0) 16 16).toNat sd.toNat
        let in2 := p.mapInput th (if bitAt (w 3) 3 then 1 else 0) (fld (w 1) 0 16).toNat (fld (w 1) 16 16).toNat 0
        let out := (fld (w 2) 16 16).toNat
        let off := (fld (w 2) 0 16).toNat
        let outs := Pk.signs o = true ∨ o = Pk.mlkemEnc
        let noRoom := (outs ∧ out < Pk.outLen o slot.alg.toNat slot.modLimbs.toNat) ∨
          (bitAt (w 3) 2 = true ∧ (p.ctx th.ctx).sglOut.2 = 0) ∨
          (if bitAt (w 3) 2 then Part.outListLen (p.ctx th.ctx) else 384) < off + out
        (bad ∨ in1 = none ∨ in2 = none ∨ noRoom → ∃ q, Yields i s q ∧ HarvestEnds k 0x7F 0 p q) ∧
        (¬ bad → ¬ noRoom → ∀ a b, in1 = some a → in2 = some b →
          let c := p.ctx th.ctx
          let req : EngReq := { id := th.nextReq, ready := false, fixed := o == Pk.mldsaSign, dest := [], window := []
                                verifies := Pk.verifies o, verdict := none, fail := none, pc := th.pc
                                unit := if Pk.grainer o then .grainer 0 else .rake 0
                                pendDest := (List.range regs).map (sd.toNat + ·) }
          Yields i s ((((turned p k).modThread k fun t => { counted t with reqs := t.reqs ++ [req], nextReq := t.nextReq + 1 }).sendOp
            { owner := .thread k th.nextReq, cls := th.cls, fn := c.fn, mode := BitVec.ofNat 9 o, handle := hd, field := f, colour := th.colour
              in1 := if o = Pk.mlkemEnc then [] else a, in2 := if Pk.verifies o then b else [], outLen := out, outPos := if outs then some off else none, sd := sd.toNat, word3 := w 3
              depth := if Pk.grainer o then c.depthG else c.depthR }).modThread k fun t => { t with pc := th.pc + 4 }))

/-- On a thread whose operands are settled and of its colour, with a known format and, where the format reads it, a PAN
operand of LEN 10 or 16. SPIN.UNPK writes the canonical PIN with LEN 8 and class the join of CLEAR_PIN with its operands, FORM
0b01 only for a valid block of FORM 0b00 or 0b10 whose result is CLEAR_PIN, and zero with FORM 0b00 for an invalid one; V
becomes V and valid, VCLASS its join with the block's class. SPIN.PACK writes the block of its format, its class the join of
both operands, LEN 16 for format 4 and else 8, FORM 0b10 only from FORM 0b01 in class CLEAR_PIN, zero on a malformed PAN;
formats 1, 3 and 4 take 8 octets from the Brine Wells and wait while none can be served or an earlier MASK draw waits; format
4 latches the PAN field. Nothing else changes. Another format, or PAN length, ends the harvest with INTERNAL_FAULT. -/
def Obligations.PinBlockInstructionsTagTheirResult : Prop :=
  ∀ (s : State) (h : Fin 16) (t : Fin 32) (sd sa sb : BitVec 4) (f : BitVec 3),
    let p := s.part
    let k := Part.threadNo h t
    let x := Proc.thread h t
    let th := p.thread k
    let a := sregOf p k sa
    let b := sregOf p k sb
    let reads := f = 0 ∨ f = 3 ∨ f = 4
    let legal := (f = 0 ∨ f = 1 ∨ f = 3 ∨ f = 4 ∨ f = 7) ∧ (reads → b.len = 10 ∨ b.len = 16)
    let pan := if reads then Part.panDigits b else some []
    let fill := f = 1 ∨ f = 3 ∨ f = 4
    (SealedReady p k (if reads then [sa, sb] else [sa]) [sd] → (∀ r ∈ th.reqs, r.verifies = false) →
        (¬ legal → ∃ q, Yields (.spinUnpk x sd sa sb f) s q ∧ HarvestEnds k 0x7F 0 p q) ∧
        (legal →
          let cls := Part.join 4 (if reads then Part.join a.cls b.cls else a.cls)
          let pin := pan.bind (Part.pinOf f a)
          let sets := fun (v : SReg) (ok : Bool) => Yields (.spinUnpk x sd sa sb f) s ((turned p k).modThread k fun t =>
            { counted t with sregs := t.sregs.set {} sd.toNat v, v := t.v && ok, vclass := Part.join t.vclass a.cls, pc := t.pc + 4 })
          (∀ ds, pin = some ds → ∃ v, sets { v with form := if cls = 4 ∧ (a.form = 0 ∨ a.form = 2) then 1 else 0 } true ∧
            IsPlain v th.colour cls 8 fun j => if j = 0 then BitVec.ofNat 4 ds.length else ds.getD (j - 1) 0xF) ∧
          (pin = none → ∃ v, sets v false ∧ IsPlain v th.colour cls 8 fun _ => 0))) ∧
      (SealedReady p k [sa, sb] [sd] →
       let cls := Part.join a.cls b.cls
       let i := Instr.spinPack x sd sa sb f
       (¬ legal → ¬ fill ∨ (p.entDraw .mask 8).1 ≠ none → ∃ q, Yields i s q ∧ HarvestEnds k 0x7F 0 p q) ∧
       (fill → (p.entDraw .mask 8).1 = none → Yields i s p) ∧
       (legal → ∀ rnd, (if fill then (p.entDraw .mask 8).1 else some []) = some rnd →
         ∃ q v, Yields i s q ∧
           q.thread k = { counted th with
             sregs := th.sregs.set {} sd.toNat v, pc := th.pc + 4
             panField := if f = 4 then (match pan with | some ds => some (Part.panField4 ds, b.cls) | none => th.panField) else th.panField } ∧
           (∀ j, j ≠ k → q.thread j = p.thread j) ∧
           (¬ fill → q = { p with seq := { (turned p k).seq with threads := q.seq.threads } }) ∧
           Recorded { p with ent := q.ent, seq := { (turned p k).seq with threads := q.seq.threads } } q ∧
           (pan = none → IsPlain v th.colour cls (if f = 4 then 16 else 8) fun _ => 0) ∧
           (∀ ds, pan = some ds → ∃ r, v = { r with form := if a.form = 1 ∧ cls = 4 then 2 else 0 } ∧
             IsPlain r th.colour cls (if f = 4 then 16 else 8) fun j =>
               fld (Part.pinBlock f (Part.masked a.len.toNat a.val) ds rnd) (124 - 4 * j) 4)))

/-- On a sound source of a running unit a first bit of a pair is held, an equal second drops the pair and counts starvation, a
differing one debiases to the first; one that passes its tests enters the conditioner of an active source, the 512th
completing a block of CBC-MAC under the fixed key into the buffer of eight. Bits of a source that is isolated, or of a unit
not running, change nothing. A draw of a class is served at once only behind no waiting draw of its class, with READY set and
no test running, PREDICT after a reseed from three blocks, FRESH below INTERVAL and MASK below LIMIT; else it waits; a
reserved class asks for nothing. A port without READY ends 0x21, a reserved class or PREDICT on port 0 sets REQ_ERR, a busy
port ignores GO, and a DATA word answers once. Tests start on a running unit and end with DONE; COMMIT takes 16 <= INTERVAL <=
LIMIT <= 32. The release starts the sources and chooses two sound ones. -/
def Obligations.BrineWellsTestConditionAndServe : Prop :=
  (∀ (e : Ent) (n : Nat), e.katCond = false → e.katDrbg = false → e.ready = true → e.count < e.interval →
    ∀ cls, cls ≠ .predict → e.count < e.limit →
      (e.serve cls n).1 = some (Crypto.drbgGen e.key e.v.toNat n).1 ∧
      (e.serve cls n).2 = { e with key := (Crypto.drbgGen e.key e.v.toNat n).2.1, v := BitVec.ofNat 128 (Crypto.drbgGen e.key e.v.toNat n).2.2
                                   count := e.count + 1 }) ∧
  (∀ (e : Ent) n cls, e.ready = false ∨ ((e.katCond = true ∨ e.katDrbg = true) ∧ e.count < e.interval) → (e.serve cls n) = (none, e)) ∧
  (∀ (e : Ent) n, e.seeds.length < 3 → e.serve .predict n = (none, e) ∧ (e.interval ≤ e.count → e.serve .fresh n = (none, e)) ∧
    (e.limit ≤ e.count → e.serve .mask n = (none, e))) ∧
  (∀ (p : Machine.Part) (w n : Nat) cls bs f, 0 < n → (∀ d ∈ p.ent.waiting, d.cls ≠ cls ∧ d.wire ≠ 100 + w) → p.ent.wires.get [] (100 + w) = [] →
    p.ent.serve cls n = (some bs, f) → n ≤ bs.length → (p.entDrawOn w cls n n).1 = some (bs.take n)) ∧
  ∀ s : State,
    let p := s.part
    let e := p.ent
    let ent := fun (f : Ent) => { p with ent := f }
    (∀ (k : Fin 16) (bit : Bool),
      let x := e.srcs.get {} k
      let live := e.running = true ∧ bitAt p.aon.isolated k = false
      (¬ live → Yields (.sourceBit k bit) s p) ∧
      (live → x.half = none → Yields (.sourceBit k bit) s (ent { e with srcs := e.srcs.set {} k { x with half := some bit } })) ∧
      (live → x.half = some bit → x.starve < 255 →
        Yields (.sourceBit k bit) s (ent { e with srcs := e.srcs.set {} k { x with half := none, starve := x.starve + 1 } })) ∧
      (∀ a, live → x.half = some a → a ≠ bit → (Part.testBit a { x with half := none }).2 = none →
        ∃ q y, Yields (.sourceBit k bit) s q ∧ q.acu = p.acu ∧ q.nvm = p.nvm ∧ q.aon = p.aon ∧ q.tmp = p.tmp ∧
          y = (Part.testBit a { x with half := none }).1 ∧
          (k.val ≠ e.actA → k.val ≠ e.actB → q.ent.srcs.get {} k = y) ∧
          (k.val = e.actA ∨ k.val = e.actB → x.fill < 511 →
            q.ent.srcs.get {} k = { y with blk := (x.blk <<< 1) ||| (if a then 1 else 0), fill := x.fill + 1 }) ∧
          (k.val = e.actA ∨ k.val = e.actB → 511 ≤ x.fill → q.ent.srcs.get {} k = { y with blk := 0, fill := 0, promoBlk := true }))) ∧
    (∀ (w : Fin 75) (n : Fin 65) (c : BitVec 2) cls, Part.entClass c = some cls →
      let i := Instr.entropyRequest w c n
      (Part.wireDraw w cls n = false ∨ (∃ d ∈ e.waiting, d.wire = w.val) → Yields i s p) ∧
      (Part.wireDraw w cls n = true → (∀ d ∈ e.waiting, d.wire ≠ w.val) →
        ((∃ d ∈ e.waiting, d.cls = cls) ∨ e.serve cls n = (none, e) →
          ∃ q, Yields i s q ∧ Recorded { p with ent := q.ent } q ∧
            q.ent.waiting = e.waiting ++ [{ wire := w.val, cls := cls, bytes := n.val }] ∧ q.ent.wires = e.wires) ∧
        (∀ bs f, (∀ d ∈ e.waiting, d.cls ≠ cls) → e.serve cls n = (some bs, f) →
          ∃ q, Yields i s q ∧ Recorded { p with ent := q.ent } q ∧ q.ent.wires = f.wires.set [] w bs ∧ q.ent.waiting = f.waiting ∧
            q.ent.key = f.due.key ∧ q.ent.count = f.due.count)) ∧
        Yields (.entropyRequest w 3 n) s p) ∧
    (∀ (port : Fin 2) (words : BitVec 4) (c : BitVec 2),
      let i := Instr.entSwReq port words c
      let x := e.ports.get {} port
      let port1 := fun (y : SwPort) => ent { e with ports := e.ports.set {} port y }
      let barred := Part.entClass c = none ∨ (Part.entClass c = some .predict ∧ port = 0)
      (x.busy = true → Yields i s p) ∧
      (x.busy = false → barred → Yields i s (port1 { x with reqErr := true })) ∧
      (x.busy = false → ¬ barred → e.ready = false → Yields i s (port1 { x with words := words, cls := c, data := [], valid := false, status := 0x21 })) ∧
      (∀ cls bs f, x.busy = false → ¬ barred → e.ready = true → Part.entClass c = some cls → (∀ d ∈ e.waiting, d.cls ≠ cls) →
        e.serve cls (4 * (words.toNat + 1)) = (some bs, f) → f.ports = e.ports →
        ∃ q, Yields i s q ∧ (q.ent.ports.get {} port).valid = true ∧ (q.ent.ports.get {} port).busy = false ∧
          (q.ent.ports.get {} port).status = 0 ∧
          ∀ j, j < words.toNat + 1 → bs.length = 4 * (words.toNat + 1) →
            (q.ent.ports.get {} port).data.get 0 j = BitVec.ofNat 32 (ofLe ((bs.drop (4 * j)).take 4))) ∧
      (∀ k : Fin 16, Yields (.entSwDataRead port k) s
        { port1 { x with data := x.data.set 0 k 0 } with rdata := x.data.get 0 k })) ∧
    (e.running = true → Yields .entKatCond s (ent { e with katCond := true }) ∧ Yields .entKatDrbg s (ent { e with katDrbg := true })) ∧
    (e.running = false → Yields .entKatCond s p ∧ Yields .entKatDrbg s p) ∧
    (∀ d f, (if d then e.katDrbg else e.katCond) = false → Yields (.entKatEnd d f) s p) ∧
    (∀ d, (if d then e.katDrbg else e.katCond) = true → ∃ q, Yields (.entKatEnd d false) s q ∧
      Recorded { p with ent := q.ent, free := p.free + 1 } q ∧ q.ent.katDone = true ∧ q.ent.katFailed = e.katFailed ∧
      (d = true → q.ent.katDrbg = false ∧ q.ent.drbgFail = false ∧ q.ent.katOut = Part.katWords Part.drbgKatOut) ∧
      (d = false → q.ent.katCond = false ∧ q.ent.condFail = false ∧ q.ent.katOut = Part.katWords Part.condKatOut)) ∧
    (∀ d, (if d then e.katDrbg else e.katCond) = true → ∃ q, Yields (.entKatEnd d true) s q ∧ q.ent.ready = false ∧ q.ent.dead = true) ∧
    (let i := e.st.stage.1.toNat
     let l := e.st.stage.2.toNat
     ∃ q, Yields .entCommit s q ∧ Recorded { p with ent := q.ent } q ∧
       (16 ≤ i → i ≤ l → l ≤ 32 → q.ent.st = { e.st with pend := none, eff := e.st.stage } ∧ q.ent.cfgMismatch = e.cfgMismatch) ∧
       (¬ (16 ≤ i ∧ i ≤ l ∧ l ≤ 32) → q.ent.st = { e.st with pend := none } ∧ q.ent.cfgMismatch = true)) ∧
    (∀ cf df, e.running = true ∨ p.powered 121 = false → Yields (.entResetRelease cf df) s p) ∧
    (∀ cf df, e.running = false → p.powered 121 = true → ∃ f, Yields (.entResetRelease cf df) s { ent f with free := p.free + 1 } ∧ f.running = true ∧
      f.katDone = true ∧ f.condFail = cf ∧ f.drbgFail = df ∧ f.katFailed = (e.katFailed || cf || df) ∧ f.ready = e.ready ∧
      (bitAt p.aon.isolated 0 = false → f.actA = 0) ∧ (bitAt p.aon.isolated 8 = false → bitAt p.aon.isolated 0 = false → f.actB = 8))

/-- While BUSY every command write is ignored; while READY is 0 a command ends NOT_READY. On a ready port of an unpaired part:
WRITE, OPEN_LANDING and BLOB_OPEN open a key-usage decision on their checks; a granted WRITE leaves the slot at the material
and attributes given, STATE KEY and GEN + 1, its mark clear, a granted OPEN_LANDING an open landing slot with zero material.
DESTROY destroys exactly the slot or its chain, SWEEP exactly the slots of the colour; CHAIN_OPEN holds the range, or ends
STATE while one is open; CHAIN_CLOSE releases a written range, else destroys it, and leaves one in a bank not up open with
NOT_READY; its timeout destroys it with TIMEOUT. READ_ATTR shows the attribute block and mark. A slot read whose tag fails is
marked bad and recorded. NARROW clears usage bits, sets HOLD and lowers NOT_AFTER on the chain with GEN kept, a later limit
ending STATE, and so a chain with a bad slot (the model's choice, log entry 186). An unknown CMD ends STATE at once.
SP_COMMAND_END publishes the outcome, clears the data registers and sets DONE. Other slots stay. -/
def Obligations.SecurePortCommandsActOnSlots : Prop :=
  ∀ s : State,
    let p := s.part
    let c := p.slc
    let i := c.spIndex.toNat
    let at4 := fun k => c.spAttr.get 0 k
    let cmds : List Instr := [.write, .openLanding, .destroy, .chainOpen, .chainClose, .sweep, .readAttr, .narrow, .blobOpen, .blobSeal
      , .deriveId, .vaultInit, .newSkey]
    let went := fun (f : Slc → Slc) (r g : Byte) => { p with slc := { f { c with busy := true } with op := some (r, g), spWait := none } }
    let gives := fun (i : Instr) (r : Byte) => Yields i s (went id r c.gen)
    let sound := fun (is : List Nat) => ∀ j ∈ is, c.tagOk j = true
    let marked := fun (is : List Nat) (q : Machine.Part) => (∀ j, q.slot j = p.slot j) ∧ Recorded { p with slc := q.slc } q ∧
      ∀ j, q.slc.isBad j = (c.isBad j || (is.contains j && p.bankUp (j % 32) && !c.tagOk j))
    let ends := fun (i : Instr) (is : List Nat) (r : Byte) => ∃ q, Yields i s q ∧ marked is q ∧ q.slc.op = some (r, c.gen) ∧ q.slc.busy = true
    (c.busy = true → (∀ k ∈ cmds, Yields k s p) ∧ Yields .spCmdUnknown s p) ∧
    (c.busy = false → Yields .spCommandEnd s p ∧ Yields .spCmdUnknown s
      { p with slc := { c with busy := false, done := true, result := 4, op := none, spWait := none, spData := [] } }) ∧
    (c.busy = true → c.spWait = none → ∀ r g, c.op = some (r, g) → Yields .spCommandEnd s
      { p with slc := { c with busy := false, done := true, result := r, gen := g, op := none, spData := [] } }) ∧
    (c.busy = false → c.ready = false → ∀ k ∈ cmds, gives k 1) ∧
    (c.busy = false → c.ready = true → c.ladleRetired = false → ∀ k cmd, (k, cmd) ∈ [(Instr.write, 0x01#8), (.openLanding, 0x02), (.blobOpen, 0x10)] →
      sound (p.portSpan cmd) → ∃ q, Yields k s q ∧ q.slc = { c with busy := true, op := none, spWait := none } ∧ q.tmp.due = p.tmp.due ++ [.securePort cmd (p.portCheck cmd)] ∧
        q.nvm = p.nvm ∧ q.acu = p.acu ∧ q.priv = p.priv ∧ q.bat.vault = p.bat.vault) ∧
    (p.nvm.charter.paired = false → ∀ (n : Fin 16) cmd, p.tmp.due[n.val]? = some (.securePort cmd 0) → p.portCheck cmd = 0 →
      (cmd = 0x01 → c.chain = none → ∃ q, Yields (.decisionSecondEval n) s q ∧ q.slc.op = some (0, (p.slot i).gen + 1) ∧
        (q.slot i).mat = p.spMaterial ∧ (q.slot i).state = Slot.key ∧ (q.slot i).gen = (p.slot i).gen + 1 ∧
        (q.slot i).colour = fld (at4 0) 0 12 ∧ (q.slot i).hclass = fld (at4 0) 12 4 ∧ (q.slot i).usage = fld (at4 1) 0 16 ∧
        q.slc.isBad i = false ∧ q.slc.tagOk i = true ∧ (∀ j, j ≠ i → q.slot j = p.slot j) ∧
        q = { p with slc := q.slc, tmp := { p.tmp with due := p.tmp.due.eraseIdx n } }) ∧
      (cmd = 0x02 → ∃ q, Yields (.decisionSecondEval n) s q ∧ q.slc.op = some (0, (p.slot i).gen + 1) ∧
        (q.slot i).mat = List.replicate 32 0 ∧ (q.slot i).state = Slot.landing ∧ (q.slot i).hclass = 5 ∧ (q.slot i).gen = (p.slot i).gen + 1 ∧
        (q.slot i).child = fld (at4 2) 16 8 ∧ (q.slot i).notAfter = fld (at4 3) 0 16 ∧ (∀ j, j ≠ i → q.slot j = p.slot j) ∧
        q = { p with slc := q.slc, tmp := { p.tmp with due := p.tmp.due.eraseIdx n } })) ∧
    (p.nvm.charter.paired = false → c.busy = false → c.ready = true →
      (let is := match c.chain with | some o => if o.head = i then Part.rangeOf i o.len else c.chainOf i | none => c.chainOf i
       (p.banksUp is = false → ends .destroy is 1) ∧
       (p.banksUp is = true → sound is → ∃ q, Yields .destroy s q ∧ Destroyed is p q ∧ q.slc.op = some (0, (p.slot i).gen + 1) ∧
         q.slc.chain = c.chain.filter (fun o => o.head != i) ∧ q = { p with slc := q.slc })) ∧
      (p.banksUp (List.range 32) = true → ∃ q is, Yields .sweep s q ∧ Destroyed is p q ∧ q.slc.op = some (0, c.gen) ∧
        q = { p with slc := q.slc } ∧ (∀ j, j ∈ is → (p.slot j).colour = fld (at4 0) 0 12) ∧
         ∀ j x, c.slots.get none j = some x → x.colour = fld (at4 0) 0 12 → x.state ≠ Slot.empty → j ∈ is) ∧
      (let n := (fld (at4 2) 8 8).toNat
       (c.chain ≠ none → gives .chainOpen 4) ∧
       (c.chain = none → n = 0 ∨ 0x100000 < i + n ∨ (i < 1024 ∧ 1024 < i + n) → gives .chainOpen 2) ∧
       (c.chain = none → n ≠ 0 → i + n ≤ 0x100000 → (1024 ≤ i ∨ i + n ≤ 1024) → p.banksUp (Part.rangeOf i n) = false → gives .chainOpen 1) ∧
       (c.chain = none → n ≠ 0 → i + n ≤ 0x100000 → (1024 ≤ i ∨ i + n ≤ 1024) → p.banksUp (Part.rangeOf i n) = true →
         Yields .chainOpen s (went (fun c => { c with chain := some { head := i, len := n, gen := (c.slot i).gen + 1 } }) 0 c.gen))) ∧
      (c.chain = none → gives .chainClose 4 ∧ Yields .chainOpenTimeout s p) ∧
      (∀ o, c.chain = some o → p.banksUp (Part.rangeOf o.head o.len) = false → gives .chainClose 1) ∧
      (∀ o, c.chain = some o → p.banksUp (Part.rangeOf o.head o.len) = true → (∀ j ∈ Part.rangeOf o.head o.len, j ∈ o.written) →
        Yields .chainClose s (went (fun c => { c with chain := none }) 0 c.gen)) ∧
      (∀ o, c.chain = some o → p.banksUp (Part.rangeOf o.head o.len) = true → (∃ j ∈ Part.rangeOf o.head o.len, j ∉ o.written) →
        ∃ q, Yields .chainClose s q ∧ Destroyed (Part.rangeOf o.head o.len) p q ∧ q.slc.chain = none ∧ q.slc.op = some (4, c.gen)) ∧
      (∀ o, c.chain = some o → ∃ q, Yields .chainOpenTimeout s q ∧ Destroyed (Part.rangeOf o.head o.len) p q ∧ q.slc.chain = none ∧
        q.slc.result = 9) ∧
      (p.bankUp (i % 32) = false → ends .readAttr [i] 1) ∧
      (p.bankUp (i % 32) = true → ∃ q, Yields .readAttr s q ∧ marked [i] q ∧ q.slc.spAttr.get 0 0 = (p.slot i).w0 ∧ q.slc.spAttr.get 0 1 = (p.slot i).w1 ∧
        q.slc.spAttr.get 0 2 = (p.slot i).w2 ∧ q.slc.spAttr.get 0 3 = (p.slot i).w3 ∧ q.slc.spBad = (c.isBad i || !c.tagOk i) ∧ q.slc.op = some (0, c.gen)) ∧
      (let x := p.slot i
       let lim : BitVec 16 := fld (at4 3) 0 16
       p.banksUp (c.chainOf i) = true →
       (x.state ≠ Slot.key ∨ (∃ j ∈ c.chainOf i, c.isBad j = true ∨ c.tagOk j = false) ∨
          (lim ≠ 0 ∧ x.notAfter ≠ 0 ∧ x.notAfter.toNat < lim.toNat) → ends .narrow (c.chainOf i) 4) ∧
       (sound (c.chainOf i) → (∀ j ∈ c.chainOf i, c.isBad j = false) → x.state = Slot.key → lim = 0 ∨ x.notAfter = 0 ∨ lim.toNat ≤ x.notAfter.toNat →
         ∃ q, Yields .narrow s q ∧ q = { p with slc := q.slc } ∧ (∀ j, j ∉ c.chainOf i → q.slot j = p.slot j) ∧
           ∀ j ∈ c.chainOf i, (q.slot j).gen = (p.slot j).gen ∧ (q.slot j).mat = (p.slot j).mat ∧ (q.slot j).state = (p.slot j).state ∧
             (q.slot j).usage = (p.slot j).usage &&& fld (at4 1) 0 16 ∧ (q.slot j).hold = bitAt (at4 2) 24 ∧
             (q.slot j).notAfter = (if lim = 0 then (p.slot j).notAfter else lim) ∧ q.slc.tagOk j = true)))

/-- Clearing in ASSAY or QUARANTINE draws 64 octets and empties every slot under fresh keys, its end setting READY; a
quarantine's zeroing ends without. A stripe of 1,024 marks exactly its powered slots whose tag fails or whose stored bits
changed, and no other mark moves. A repowered bank is rewritten: every slot of it EMPTY with GEN + 1, the others kept.
VAULT_INIT writes the wrapped root once and FORMAT, NEW_SKEY an owner's next key, DERIVE_ID the two derivations of R346 at
ADDR, BLOB_SEAL the sealed blob of an exportable key; each waits while its draw is not served, then ends DONE, and with VAULT,
STATE, RANGE or EXPORT where R339 says so. A window word is read or written only where the window reaches, the header reading
FORMAT and other words zero with DENIED, and WORD advances. TPL_LOCK locks the templates; SLC_COMMIT takes 1 to 3,600 at the
next stripe, or at once where none runs; a failed Ladle test retires it. -/
def Obligations.CellarClearsScrubsAndTheVaultKeeps : Prop :=
  ∀ s : State,
    let p := s.part
    let c := p.slc
    let slc := fun (f : Slc) => { p with slc := f }
    let begun := { c with busy := true, op := none, spWait := none }
    let ended := fun (r : Byte) => slc { begun with op := some (r, c.gen) }
    let asks := fun cls n => Part.entDrawOn 73 cls n n { slc begun with ent := p.ent.dropOwn 73 }
    let waits := fun (i : Instr) (cmd : Byte) => ∃ q, Yields i s q ∧ q.slc = { begun with spWait := some cmd } ∧ q.bat.vault = p.bat.vault ∧ q.priv = p.priv
    (c.ready = true ∨ c.clearing = true ∨ (p.sys.mode ≠ .assay ∧ p.sys.mode ≠ .quarantine) → Yields .cellarClearStart s p) ∧
    (c.ready = false → c.clearing = false → p.sys.mode = .assay ∨ p.sys.mode = .quarantine → ∀ bs r, p.entDrawOn 72 .fresh 64 64 = (some bs, r) →
      ∃ q, Yields .cellarClearStart s q ∧ q = { r with slc := q.slc, free := r.free + 1 } ∧ q.slc.clearing = true ∧
        q.slc.keys = some (bs.take 48) ∧ q.slc.ready = false ∧
        ∀ j, (q.slot j).state = Slot.empty ∧ (q.slot j).mat = List.replicate 32 0 ∧ q.slc.isBad j = false ∧ q.slc.tagOk j = true) ∧
    (c.ready = false → c.clearing = false → p.sys.mode = .assay ∨ p.sys.mode = .quarantine → ∀ r, p.entDrawOn 72 .fresh 64 64 = (none, r) →
      Yields .cellarClearStart s r) ∧
    (c.clearing = true → c.keys ≠ none → ∃ q, Yields .cellarClearEnd s q ∧ Recorded (slc { c with clearing := false, ready := true }) q) ∧
    (c.clearing = false ∨ c.keys = none → Yields .cellarClearEnd s p) ∧
    (c.clearing = true → c.keys = none → Yields .quarantineZeroEnd s (slc { c with clearing := false })) ∧
    (c.clearing = false ∨ c.keys ≠ none → Yields .quarantineZeroEnd s p) ∧
    (∀ up : List (Fin 1024),
      let on := c.st.apply.eff.1 = true ∧ c.ready = true
      let fails := fun j => 1024 * c.stripe ≤ j ∧ j < 1024 * c.stripe + 1024 ∧ p.bankUp ((j - 1024 * c.stripe) % 32) = true ∧
        ((∃ u ∈ up, u.val = j - 1024 * c.stripe) ∨ c.tagOk j = false)
      (¬ on → Yields (.scrubStripe up) s (slc { c with st := c.st.apply })) ∧
      (on → ∃ q, Yields (.scrubStripe up) s q ∧ Recorded (slc q.slc) q ∧ q.slc.stripe = (c.stripe + 1) % 1024 ∧ q.slc.slots = c.slots ∧
        q.slc.keys = c.keys ∧ ∀ j, q.slc.isBad j = true ↔ c.isBad j = true ∨ fails j)) ∧
    (∀ b : Fin 32,
      (bitAt c.bankDue b = false ∨ p.powered (72 + b.val) = false → Yields (.bankRestoreStart b) s p) ∧
      (bitAt c.bankDue b = true → p.powered (72 + b.val) = true → ∃ q, Yields (.bankRestoreStart b) s q ∧ Recorded (slc q.slc) q ∧
        (∀ j, j % 32 = b → (q.slot j).state = Slot.empty ∧ (q.slot j).gen = (p.slot j).gen + 1 ∧ (q.slot j).mat = List.replicate 32 0) ∧
        (∀ j, j % 32 ≠ b → q.slot j = p.slot j) ∧ bitAt q.slc.bankDue b = false ∧ bitAt q.slc.restoring b = true ∧ bitAt q.slc.bankLost b = true) ∧
      Yields (.bankRestoreEnd b) s (slc { c with restoring := c.restoring &&& ~~~ BitVec.ofNat 32 (2 ^ b.val) })) ∧
    Yields .tplLock s (slc { c with tplLocked := true }) ∧
    (let n := c.st.stage.2.toNat
     (1 ≤ n → n ≤ 3600 → c.st.eff.1 = true → c.ready = true → Yields .slcCommit s (slc { c with st := { c.st with pend := some c.st.stage } })) ∧
     (1 ≤ n → n ≤ 3600 → c.st.eff.1 = false ∨ c.ready = false →
       Yields .slcCommit s (slc { c with st := { c.st with pend := none, eff := c.st.stage } })) ∧
     (¬ (1 ≤ n ∧ n ≤ 3600) → Yields .slcCommit s (slc { c with cfgMismatch := true, st := { c.st with pend := none } }))) ∧
    (∀ v : Option Word,
      let o := 4 * c.vaultWord.toNat
      let next := { c with vaultWord := c.vaultWord + 1 }
      let i := Instr.vaultDataAccess v
      let reach := (0x100 ≤ o ∧ o < 0x900) ∨ 0xC930 ≤ o
      (o < 0x40 → Yields i s { slc next with rdata := if o = 0 then BitVec.ofNat 32 (ofLe (p.bat.vault.read ram 0 1)) else 0 }) ∧
      (0x40 ≤ o → ¬ reach → Yields i s { slc { next with vaultDenied := true } with rdata := 0 }) ∧
      (reach → v = none → Yields i s { slc next with rdata := BitVec.ofNat 32 (ofLe (p.bat.vault.read ram o 4)) }) ∧
      (∀ w, reach → v = some w → Yields i s
        { slc next with rdata := 0, bat := { p.bat with vault := p.bat.vault.write ram o (leBytes 4 w.toNat) } })) ∧
    Yields .vaultClearEnd s { p with bat := { p.bat with vaultClearing := false } } ∧
    Yields .ladleKat s (slc { c with ladleRun := true }) ∧
    (∀ f, c.ladleRun = false → Yields (.ladleKatEnd f) s p) ∧
    (∀ f, c.ladleRun = true → ∃ q, Yields (.ladleKatEnd f) s q ∧ Recorded (slc { c with
      ladleRun := false, ladleDone := true, ladleFail := f, ladleRetired := c.ladleRetired || f }) q) ∧
    (c.busy = false → c.ready = true →
      (c.ladleRetired = true → ∀ k ∈ [Instr.blobOpen, .blobSeal, .deriveId, .vaultInit, .newSkey], Yields k s (ended 4)) ∧
      (c.ladleRetired = false →
        (p.rootUsable = false → Yields .deriveId s (ended 4)) ∧
        (p.rootUsable = true → ∃ q, Yields .deriveId s q ∧
          q.priv = p.priv.write ram p.spOffset
            (beBytes 48 (1 + ofBe (p.rootDerive "HX6400 identity P-384" 64) % (Part.p384Order - 1)) ++ p.rootDerive "HX6400 identity ML-DSA-87" 32) ∧
          q = { ended 0 with priv := q.priv, cores := q.cores } ∧ ∀ d, q.core d = { p.core d with resv := (q.core d).resv }) ∧
        (p.vaultInUse = true → Yields .vaultInit s (ended 0x0A)) ∧
        (p.vaultInUse = false → p.rootUsable = false → Yields .vaultInit s (ended 4)) ∧
        (p.vaultInUse = false → p.rootUsable = true → (asks .predict 32).1 = none → waits .vaultInit 0x13) ∧
        (∀ root, p.vaultInUse = false → p.rootUsable = true → (asks .predict 32).1 = some root → ∃ q, Yields .vaultInit s q ∧
          q.slc = (ended 0).slc ∧ q.bat.vault = (p.bat.vault.write ram 0x40
            (Pk.fit 48 (Crypto.keyWrap (Crypto.aes (p.rootDerive "HX6400 vault wrap" 32)) root))).write ram 0 [0x01] ∧ q.priv = p.priv) ∧
        (Part.ownerColour p.spColour = false → Yields .newSkey s (ended 2)) ∧
        (Part.ownerColour p.spColour = true → p.storageRoot = none → Yields .newSkey s (ended 0x0A)) ∧
        (∀ root, Part.ownerColour p.spColour = true → p.storageRoot = some root → (asks .predict 32).1 = none → waits .newSkey 0x14) ∧
        (∀ root key, Part.ownerColour p.spColour = true → p.storageRoot = some root → (asks .predict 32).1 = some key →
          ∃ q, Yields .newSkey s q ∧ q.slc = { (ended 0).slc with cache := [] } ∧ q.priv = p.priv ∧
            q.bat.vault = p.bat.vault.write ram (Part.skeyOffset p.spColour)
              (leBytes 4 (ofLe (p.vaultRead (Part.skeyOffset p.spColour) 4) + 1) ++ [1, 0, 0, 0] ++ Crypto.keyWrap (Crypto.aes root) key)) ∧
        (let is := Part.rangeOf p.spIndex (max 1 (p.slot p.spIndex).chainLen.toNat)
         (is.any c.heldRange = true → waits .blobSeal 0x11) ∧ (is.any c.heldRange = false → p.banksUp is = false → Yields .blobSeal s (ended 1))) ∧
        (∀ ss, let x := p.slot p.spIndex
          (Part.rangeOf p.spIndex (max 1 x.chainLen.toNat)).any c.heldRange = false →
          (p.slotRead (mkHandle x.hclass x.gen p.spIndex) p.spColour [1, 2, 3, 4]).1 = .ok ss →
          (x.exportClass = 0 ∨ 4 ≤ x.exportClass.toNat → Yields .blobSeal s (ended 8)) ∧
          (x.exportClass ≠ 0 → x.exportClass.toNat < 4 → p.vaultInUse = false → Yields .blobSeal s (ended 0x0A)) ∧
          (∀ id key, x.exportClass ≠ 0 → x.exportClass.toNat < 4 → p.vaultInUse = true → p.storageKey p.spColour = some (id, key) →
            (asks .fresh 16).1 = none → waits .blobSeal 0x11) ∧
          (∀ id key bs, x.exportClass ≠ 0 → x.exportClass.toNat < 4 → p.vaultInUse = true → p.storageKey p.spColour = some (id, key) →
            (asks .fresh 16).1 = some bs → ∃ q, Yields .blobSeal s q ∧ q.slc.op = some (0, c.gen) ∧ (∀ j, q.slot j = p.slot j) ∧
              q.priv = p.priv.write ram p.spOffset (Part.blobHead x id p.spColour ++ bs.take 12 ++
                Crypto.sivSeal key (bs.take 12) (Part.blobHead x id p.spColour) (ss.flatMap Slot.mat))))))

/-- For every block cipher of 16 octets whose decryption inverts its encryption, unwrapping what wrapping made of two or more
whole semiblocks gives them back. Sealing any octets under any key, nonce and header, and opening the result under the same
three, gives the octets. So the storage root, the storage keys and the device blobs that the Ladle writes read back. -/
def Obligations.WrappedKeysUnwrapAndSealedBlobsOpen : Prop :=
  (∀ (c : Crypto.Cipher) (m : List Byte),
    (∀ b, b.length = 16 → (c.enc b).length = 16 ∧ c.dec (c.enc b) = b) → m.length % 8 = 0 → 16 ≤ m.length →
    Crypto.keyUnwrap c (Crypto.keyWrap c m) = some m) ∧
  (∀ key nonce head m : List Byte, Crypto.sivOpen key nonce head (Crypto.sivSeal key nonce head m) = some m)

/-- For every administrative command. A function that is absent or WEDGED accepts none. GO while BUSY sets ADM_ERR only. A
function that drains discards it. On an idle channel: in QUARANTINE, or for a tenant NONE or RESTORING, the channel is BUSY
with an outcome of DEVICE_QUARANTINED or TENANT_FROZEN; with no context or INFLIGHT left it is BUSY and waits; else it takes
the first free context, waits with it in a freeze, before service and, where it reads its buffer, for Bus Master Enable, and
else fails changing nothing else: on a standby but for QUERY and CTR_READ, for a manager opcode from a tenant, a reserved
octet, a length or address out of range, an output that does not fit, a failed read, a Class A command without the gate, a
tenant not ACTIVE. ADM_COMMAND_END writes the outcome's first eight octets, sets DONE, clears BUSY and signals vector 0,
writes the output of a command that ended well, in packets, and frees its context; it waits for the context, its ledger entry
and, to write, Bus Master Enable, and in a drain publishes nothing. The model's reading: one step runs a command, a tenant
NONE or RESTORING gets TENANT_FROZEN, a drain discards, a command of a start-up or freeze waits with its context (log entries
60, 62, 189, 190). -/
def Obligations.AdministrativeChannelRunsOneCommand : Prop :=
  (∀ (s : State) (c : AdmCmd) (input : Option (List Byte)), ∀ k ∈ admKinds s.part c input,
    let p := s.part
    let n := c.fn.val
    let a := p.adm n
    let st := p.tnt.states.get 0 n
    let len := c.head.len.toNat
    let holds := fun (e : Option AdmEnd) => { p with tnt := { p.tnt with adm := p.tnt.adm.upd {} n fun x =>
      { x with busy := true, cmd := Part.admBlock k.2.op c, tag := c.head.tag, out := [], ended := (e <|> x.ended) } } }
    let foreign := k.2.mgr = true ∧ n ≠ 0
    let reserved := (∃ j, j < 96 ∧ c.args.getD j 0 ≠ 0 ∧ j ∉ k.2.used) ∨ (n ≠ 0 ∧ c.head.target ≠ 0)
    let outside := len % 4096 ≠ 0 ∨ 0x1000000 < len ∨ c.head.buf.toNat % 4096 ≠ 0 ∨ len < k.2.reads
    let unread := 0 < k.2.reads ∧ c.buf = none
    let fails := fun (st det : Byte) => ∃ q, Yields k.1 s q ∧ AdmRefuses k.2.op c st det p q
    let fresh : Ctx := { state := .queued, fn := n, qp := 4096 + n, order := p.dsp.nextOrder, tag := c.head.tag, unit := some .secure
                         placed := true }
    let taken := fun (i : Nat) => { p with
      tnt := { p.tnt with adm := p.tnt.adm.upd {} n fun x =>
        { x with busy := true, cmd := Part.admBlock k.2.op c, tag := c.head.tag, out := [], held := true, ctx := i } },
      dsp := { p.dsp with nextOrder := p.dsp.nextOrder + 1, ctxs := p.dsp.ctxs.set {} i fresh } }
    (p.fnExists n = false ∨ (p.fn n).wedged = true ∨ (p.fn n).draining = true → Yields k.1 s p) ∧
    (p.fnExists n = true → (p.fn n).wedged = false → (p.fn n).draining = false →
      (a.busy = true → p.admBegun n = true ∨ a.cmd ≠ Part.admBlock k.2.op c →
        Yields k.1 s { p with tnt := { p.tnt with adm := p.tnt.adm.upd {} n fun x => { x with err := true } } }) ∧
      (a.busy = false → a.held = false →
        (p.sys.mode = .quarantine → Yields k.1 s (holds (some { status := 0x51, detail := 0 }))) ∧
        (p.sys.mode ≠ .quarantine →
          (n ≠ 0 → st = 0 ∨ st = 5 → p.admHeld = false → Yields k.1 s (holds (some { status := 0x50, detail := 0 }))) ∧
          (n = 0 ∨ (st ≠ 0 ∧ st ≠ 5) ∨ p.admHeld = true →
            (p.freeCtxs n = [] ∨ (p.tnt.t.get {} n).st.eff.inflight.toNat ≤ (p.ctxsOf n).length → Yields k.1 s (holds none)) ∧
            (p.freeCtxs n ≠ [] → (p.ctxsOf n).length < (p.tnt.t.get {} n).st.eff.inflight.toNat →
              p.admHeld = true ∨ (0 < k.2.reads ∧ p.mayPost n = false) → Yields k.1 s (taken (admCtx p n))) ∧
            (p.freeCtxs n ≠ [] → (p.ctxsOf n).length < (p.tnt.t.get {} n).st.eff.inflight.toNat → p.admHeld = false →
              (0 < k.2.reads → p.mayPost n = true) →
              let barred := p.sys.mode = .standby ∧ k.2.op ≠ 0x40 ∧ k.2.op ≠ 0x20
              (barred → fails (if k.2.classA then 0x41 else 0x40) 0) ∧
              (¬ barred →
                (foreign → fails 0x10 0x0A) ∧ (¬ foreign → reserved → fails 0x10 0x01) ∧
                (¬ foreign → ¬ reserved → outside → fails 0x10 0x0A) ∧
                (¬ foreign → ¬ reserved → ¬ outside → len < k.2.writes → fails 0x10 0x06) ∧
                (¬ foreign → ¬ reserved → ¬ outside → k.2.writes ≤ len → unread → fails 0x10 0x0C) ∧
                (¬ foreign → ¬ reserved → ¬ outside → k.2.writes ≤ len → ¬ unread →
                  (k.2.classA = true → p.gateOpen = false → fails 0x41 0) ∧
                  (k.2.classA = false ∨ p.gateOpen = true → n ≠ 0 → st ≠ 1 → fails 0x50 0))))))))) ∧
  (∀ (s : State) (n : Fin 1025),
    let p := s.part
    let a := p.adm n
    let x := p.ctx a.ctx
    let quiet := (p.fn n).draining = false ∧ p.mayPost n.val = true ∧ (p.fn n).fnMask = false ∧ ((p.fn n).vectors.get {} 0).masked = false
    let shown := fun (q : Part) (st det : Byte) (res : List Byte) (out : Word) =>
      (q.adm n).busy = false ∧ (q.adm n).done = true ∧ (q.adm n).result.take 8 = leBytes 4 a.tag.toNat ++ [st, det, 0, BitVec.ofNat 8 (res.take 16).length] ∧
        (q.adm n).result.drop 12 = leBytes 4 out.toNat ++ Pk.fit 16 (res.take 16) ∧
        (quiet → HostMsg.msix n 0 ((p.fn n).vectors.get {} 0).addr ((p.fn n).vectors.get {} 0).data ∈ q.hif.out)
    let wrote := fun (q : Part) (addr : BitVec 64) (bs : List Byte) =>
      ∀ y ∈ Part.packets p.maxPayload bs.length addr.toNat bs.length,
        HostMsg.write n.val (BitVec.ofNat 64 y.1) ((bs.drop (y.1 - addr.toNat)).take y.2) ∈ q.hif.out
    (a.busy = false → Yields (.admCommandEnd n) s p) ∧
    (∀ e, a.busy = true → a.ended = some e → ∃ q, Yields (.admCommandEnd n) s q ∧ shown q e.status e.detail e.result e.out ∧
      (a.held = false → q.dsp = p.dsp) ∧ (a.held = true → q.ctx a.ctx = {})) ∧
    (a.busy = true → a.ended = none → a.held = false → Yields (.admCommandEnd n) s p) ∧
    (a.busy = true → a.ended = none → a.held = true → x.fn = n.val → x.qp = 4096 + n.val → x.state ≠ .free →
      (x.state ≠ .finished ∨ p.waits a.ctx = true → Yields (.admCommandEnd n) s p) ∧
      (x.state = .finished → p.waits a.ctx = false → x.discard = true ∨ (p.fn n).draining = true → ∃ q, Yields (.admCommandEnd n) s q ∧
        (q.adm n).busy = false ∧ (q.adm n).done = a.done ∧ (q.adm n).result = a.result ∧ q.ctx a.ctx = {}) ∧
      (let sends := (x.status = 0 ∨ x.status = 1) ∧ (a.out ≠ [] ∨ (x.outPtr ≠ none ∧ x.outCount ≠ 0))
       x.state = .finished → p.waits a.ctx = false → x.discard = false → (p.fn n).draining = false →
       (sends → p.mayPost n = false → Yields (.admCommandEnd n) s p) ∧
       ((sends → p.mayPost n = true) → ∃ q, Yields (.admCommandEnd n) s q ∧ shown q x.status x.detail x.result x.outCount ∧
        q.ctx a.ctx = {} ∧ (∀ j, j ≠ a.ctx → q.ctx j = p.ctx j) ∧
        (x.status = 0 ∨ x.status = 1 → wrote q (BitVec.ofNat 64 (a.cmd.num ram 8 8)) a.out ∧
          ∀ o, x.outPtr = some o → x.outCount ≠ 0 → wrote q o (p.ctxData a.ctx 0 x.outCount.toNat)) ∧
        q.slc = p.slc ∧ q.acu = p.acu ∧ q.nvm = p.nvm ∧ q.priv = p.priv))))

/-- For a command that begins at once. KEY_LAND opens a landing slot at the chosen empty slot and counts it; KEY_GENERATE
writes a symmetric key of the drawn octets, or a key pair of a secure job with the public key for the buffer; KEY_LOAD_BLOB
lands a blob that opens; each result is the handle. KEY_SEAL_BLOB gives the sealed blob of an exportable key. KEY_DESTROY
destroys the chain of its handle and KEY_NARROW narrows it. STORAGE_ROTATE writes the next storage key and gives its id.
CTR_READ gives the readable value, CTR_ADVANCE stores and gives the sum, and writes the group's table with its MAC at the next
epoch in the sector that holds none of the present one; both end INTERNAL_FAULT on a group held unusable; an index out of the
groups ends QUOTA 2, a sum past 2^64 - 1 or no increment BAD_DESCRIPTOR. QUERY gives the report's fields in place, a tenant
NONE 64 zeros. RUN decodes its descriptor in its own context. Beyond the quota QUOTA 1 results; the six key commands of a
colour with an open session end KEY_USAGE_DENIED 0x40; a bad handle ends with its check's status; nothing else changes. -/
def Obligations.KeyCommandsCountersAndQueries : Prop :=
  ∀ (s : State) (c : AdmCmd) (input : Option (List Byte)),
    let p := s.part
    let n := c.fn.val
    let col := Part.colourOf n
    let j := Part.firstPick c
    let kind := fun (op : Nat) (cls : Bool) => ({ op := op, classA := cls } : Part.AdmKind)
    let free := ¬ (p.sys.session.active = true ∧ p.sys.session.fn = n)
    let ends := fun (i : Instr) (op : Nat) (res out : List Byte) (eff : Part → Prop) =>
      ∃ q, Yields i s q ∧ AdmEnds op c 0 0 res out p q ∧ q = { p with tnt := q.tnt, dsp := q.dsp, slc := q.slc, mir := q.mir } ∧ eff q
    let fails := fun (i : Instr) (op : Nat) (st det : Byte) => ∃ q, Yields i s q ∧ AdmRefuses op c st det p q
    let handle := fun (cls : BitVec 4) => leBytes 4 (mkHandle cls ((p.slot j).gen + 1) j).toNat
    let keep := fun (m : Nat) (q : Part) => (∀ x, x < j ∨ j + m ≤ x → q.slot x = p.slot x) ∧ q.counted n = p.counted n + m
    (∀ k ∈ admKinds p c input, k.2.op ∈ [0x10, 0x11, 0x12, 0x14, 0x15, 0x16] → AdmReady p k.2 c → ¬ free → fails k.1 k.2.op 0x12 0x40) ∧
    (AdmReady p (kind 0x10 true) c → free → c.a0 = 0 ∨ 255 < c.a0.toNat ∨ 0xFFFF < c.a1.toNat → fails (.keyLand c) 0x10 0x10 0x0A) ∧
    (AdmReady p (kind 0x10 true) c → free → c.a0 ≠ 0 → c.a0.toNat ≤ 255 → c.a1.toNat ≤ 0xFFFF →
      (p.slotsFit n 1 = false → fails (.keyLand c) 0x10 0x13 1) ∧
      (p.slotsFit n 1 = true → p.rangeFree j 1 = true → ends (.keyLand c) 0x10 (handle 5) [] fun q =>
        (q.slot j).state = Slot.landing ∧ (q.slot j).hclass = 5 ∧ (q.slot j).colour = col ∧ (q.slot j).gen = (p.slot j).gen + 1 ∧
          (q.slot j).mat = List.replicate 32 0 ∧ (q.slot j).child = c.a0.setWidth 8 ∧ (q.slot j).notAfter = c.a1.setWidth 16 ∧ keep 1 q)) ∧
    (let t := p.slc.template c.a0.toNat
     AdmReady p (kind 0x11 true) c → free → c.a0 ≠ 0 → c.a0.toNat ≤ 255 → ∀ bs, (p.entDraw .fresh 64).1 = some bs →
     let made := fun (slots : Nat) (key pub : List Byte) (limbs : Nat) => p.slotsFit n slots = true → p.rangeFree j slots = true →
       ∃ q, Yields (.keyGenerate c) s q ∧ AdmEnds 0x11 c 0 0 (handle t.hclass) pub p q ∧ q.nvm = p.nvm ∧ q.acu = p.acu ∧ q.priv = p.priv ∧
         keep slots q ∧ ∀ m, m < slots → (q.slot (j + m)).mat = Crypto.padR 32 ((key.drop (32 * m)).take 32) ∧
           (q.slot (j + m)).state = Slot.key ∧ (q.slot (j + m)).colour = col ∧ (q.slot (j + m)).alg = t.alg ∧
           (q.slot (j + m)).usage = t.usage ∧ (q.slot (j + m)).chainPos.toNat = m ∧ (q.slot (j + m)).chainLen.toNat = slots ∧
           (fld (q.slot (j + m)).w3 16 9 : BitVec 9).toNat = limbs ∧ (q.slot (j + m)).gen = (p.slot j).gen + 1
     (∀ k, Part.symLen t.alg.toNat = some k → t.hclass = 1 → c.a1 = 0 → made 1 (bs.take k) [] 0) ∧
     (∀ kd par slots pub, Part.symLen t.alg.toNat = none → Part.pairOf t.alg.toNat c.a1.toNat = some (kd, par, slots, pub) →
       (t.alg ≠ 0x20 → c.a1 = 0) → t.hclass = (if t.alg.toNat < 0x40 then 2 else 4) → p.jobParamOk kd par = true → pub ≤ c.head.len.toNat →
       let key := Pk.fit (32 * slots + pub) (Pk.keygen kd par bs)
       made slots (key.take (32 * slots)) (key.drop (32 * slots)) (c.a1.toNat % 512))) ∧
    (let bs := (c.buf.getD []).take c.a0.toNat
     let h := bs.take 36
     let m := (h.getD 7 0).toNat
     let whole := c.a0.toNat ≤ c.head.len.toNat ∧ bs.length = 64 + 32 * m ∧ Part.blobFormatOk h = true ∧ ofLe ((h.drop 24).take 4) = col.toNat
     AdmReady p { op := 0x12, classA := true, reads := 64 } c → free →
     (¬ whole ∨ p.storageKey col = none → fails (.keyLoadBlob c) 0x12 0x10 0x0A) ∧
     (∀ key, whole → p.storageKey col = some (ofLe ((h.drop 20).take 4), key) →
       (Crypto.sivOpen key ((bs.drop 36).take 12) h (bs.drop 48) = none → fails (.keyLoadBlob c) 0x12 0x10 0x0A) ∧
       (∀ mat, Crypto.sivOpen key ((bs.drop 36).take 12) h (bs.drop 48) = some mat → p.slotsFit n m = true → p.rangeFree j m = true →
         ends (.keyLoadBlob c) 0x12 (handle ((h.getD 5 0).setWidth 4)) [] fun q => keep m q ∧ ∀ x, x < m →
           (q.slot (j + x)).mat = Crypto.padR 32 ((mat.drop (32 * x)).take 32) ∧ (q.slot (j + x)).state = Slot.key ∧
           (q.slot (j + x)).colour = col ∧ (q.slot (j + x)).alg = h.getD 6 0))) ∧
    (∀ ss id key bs, AdmReady p (kind 0x13 false) c → (p.slotRead c.a0 col [1, 2, 3, 4]).1 = .ok ss → p.storageKey col = some (id, key) →
      (p.entDraw .fresh 16).1 = some bs →
      let x := p.slot (hIndex c.a0)
      (x.exportClass = 0 ∨ 4 ≤ x.exportClass.toNat → ∃ q, Yields (.keySealBlob c) s q ∧ AdmEnds 0x13 c 0x12 0x20 [] [] p q ∧ q.slc = p.slc) ∧
      (x.exportClass ≠ 0 → x.exportClass.toNat < 4 → 64 + 32 * ss.length ≤ c.head.len.toNat →
        let head := Part.blobHead x id col
        ∃ q, Yields (.keySealBlob c) s q ∧ q.slc.slots = p.slc.slots ∧
          AdmEnds 0x13 c 0 0 [] (head ++ bs.take 12 ++ Crypto.sivSeal key (bs.take 12) head (ss.flatMap Slot.mat)) p q)) ∧
    (∀ st why, (p.headCheck c.a0 col [1, 2, 3, 4, 5]).1 = some (st, why) → free →
      (AdmReady p (kind 0x14 true) c → ∃ q, Yields (.keyDestroy c) s q ∧ AdmEnds 0x14 c st (why <<< 4) [] [] p q ∧ q.slc.slots = p.slc.slots) ∧
      (AdmReady p (kind 0x15 true) c → ∃ q, Yields (.keyNarrow c) s q ∧ AdmEnds 0x15 c st (why <<< 4) [] [] p q ∧ q.slc.slots = p.slc.slots)) ∧
    ((p.headCheck c.a0 col [1, 2, 3, 4, 5]).1 = none → p.banksUp (p.slc.chainOf (hIndex c.a0)) = true → free →
      let is := p.slc.chainOf (hIndex c.a0)
      let x := p.slot (hIndex c.a0)
      let lim : BitVec 16 := c.a2.setWidth 16
      (AdmReady p (kind 0x14 true) c → ends (.keyDestroy c) 0x14 [] [] fun q => Destroyed is p q ∧ q.counted n = p.counted n - max 1 x.chainLen.toNat) ∧
      (AdmReady p (kind 0x15 true) c →
        let may := c.a1.toNat ≤ 0xFFFF ∧ c.a2.toNat ≤ 0xFFFF ∧ x.state = Slot.key ∧ (lim = 0 ∨ x.notAfter = 0 ∨ lim.toNat ≤ x.notAfter.toNat)
        (¬ may → fails (.keyNarrow c) 0x15 0x10 0x0A) ∧
        (may → ends (.keyNarrow c) 0x15 [] [] fun q => (∀ y, y ∉ is → q.slot y = p.slot y) ∧ ∀ y ∈ is,
          (q.slot y).usage = (p.slot y).usage &&& c.a1.setWidth 16 ∧ (q.slot y).notAfter = (if lim = 0 then (p.slot y).notAfter else lim) ∧
          (q.slot y).gen = (p.slot y).gen ∧ (q.slot y).mat = (p.slot y).mat))) ∧
    (∀ root key, AdmReady p (kind 0x16 true) c → free → p.storageRoot = some root → (p.entDraw .predict 32).1 = some key →
      let o := Part.skeyOffset col
      let id := (ofLe (p.vaultRead o 4) + 1) % 2 ^ 32
      ∃ q, Yields (.storageRotate c) s q ∧ AdmEnds 0x16 c 0 0 (leBytes 4 id) [] p q ∧ q.slc = { p.slc with cache := [] } ∧
        q.bat.vault = p.bat.vault.write ram o (leBytes 4 id ++ [1, 0, 0, 0] ++ Crypto.keyWrap (Crypto.aes root) key)) ∧
    (let t := (p.tnt.t.get {} n).st.eff
     let g := 256 * t.grpBase.toNat + c.a0.toNat
     (256 * t.groups.toNat ≤ c.a0.toNat → (AdmReady p (kind 0x20 false) c → fails (.ctrRead c) 0x20 0x13 2) ∧
       (AdmReady p (kind 0x21 true) c → fails (.ctrAdvance c) 0x21 0x13 2)) ∧
     (c.a0.toNat < 256 * t.groups.toNat → g / 256 ∈ p.tnt.badGroups → (AdmReady p (kind 0x20 false) c → fails (.ctrRead c) 0x20 0x7F 0) ∧
       (AdmReady p (kind 0x21 true) c → fails (.ctrAdvance c) 0x21 0x7F 0)) ∧
     (c.a0.toNat < 256 * t.groups.toNat → g / 256 ∉ p.tnt.badGroups →
       (AdmReady p (kind 0x20 false) c → ends (.ctrRead c) 0x20 (leBytes 8 (p.counterRead g).toNat) [] fun q =>
         q.slc = p.slc ∧ q.mir = p.mir ∧ q.tnt = { p.tnt with adm := q.tnt.adm }) ∧
       (AdmReady p (kind 0x21 true) c →
         let v := (p.tnt.counters.get 0 g).toNat + c.a1.toNat
         (c.a1 = 0 ∨ 2 ^ 64 ≤ v → fails (.ctrAdvance c) 0x21 0x10 0x0A) ∧
         (c.a1 ≠ 0 → v < 2 ^ 64 → ∃ q, Yields (.ctrAdvance c) s q ∧ AdmEnds 0x21 c 0 0 (leBytes 8 v) [] p q ∧
           (q.tnt.counters.get 0 g).toNat = v ∧ (∀ y, y ≠ g → q.tnt.counters.get 0 y = p.tnt.counters.get 0 y) ∧
           (p.nvm.charter.paired = false → (q.counterRead g).toNat = v) ∧
           (p.nvm.charter.paired = true → Part.alone p.mir = false → q.counterRead g = p.counterRead g) ∧
           (let epoch := p.vaultEpoch (g / 256) + 1
            let sector := 2 * (g / 256) + if (p.sectorTable (g / 256) false).isSome then 1 else 0
            q.vaultRead (0x100 + 8 * (g / 256)) 8 = leBytes 8 epoch.toNat ∧
              ∃ tab : CtrTable, q.nvm = { p.nvm with ctrTab := p.nvm.ctrTab.set none sector (some tab) } ∧ tab.epoch = epoch ∧
                tab.mac = some (p.tableMac epoch tab.values) ∧ tab.values = q.groupValues (g / 256)) ∧
           q = { p with tnt := q.tnt, dsp := q.dsp, bat := q.bat, mir := q.mir, nvm := q.nvm })))) ∧
    (AdmReady p { op := 0x40, writes := 64 } c →
      let tgt := c.head.target.toNat
      let m := if n ≠ 0 then n else if tgt = 1024 then 0 else tgt + 1
      let t := (p.tnt.t.get {} m).st.eff
      (n = 0 → 1024 < tgt → fails (.query c) 0x40 0x10 0x0A) ∧
      (n ≠ 0 ∨ tgt ≤ 1024 → ∃ out, ends (.query c) 0x40 [] out (fun q => q.slc = p.slc ∧ q.mir = p.mir) ∧
        let f := fun (o k : Nat) => ofLe ((out.drop o).take k)
        out.length = 64 ∧ (m ≠ 0 → p.tnt.states.get 0 m = 0 → out = List.replicate 64 0) ∧
        (m = 0 ∨ p.tnt.states.get 0 m ≠ 0 →
          f 0 4 = t.slots.toNat ∧ f 4 4 = p.counted m % 2 ^ 32 ∧ f 8 4 = t.inflight.toNat ∧ f 16 2 = t.granBase.toNat ∧ f 18 2 = t.grans.toNat ∧
          f 20 2 = t.qpBase.toNat ∧ f 22 1 = t.qpCount.toNat ∧ f 23 1 = t.weight.toNat ∧ f 24 1 = t.floor.toNat + 16 * (p.tntState m).toNat ∧
          f 26 2 = t.groups.toNat ∧ f 28 2 = t.grpBase.toNat ∧ f 36 2 = p.bat.frac.toNat ∧ f 38 6 = p.bat.secs.toNat % 2 ^ 48 ∧ f 44 20 = 0))) ∧
    (AdmReady p { op := 0x01, reads := 64 } c →
      let i := admCtx p n
      let d0 := Pk.fit 128 (c.buf.getD [])
      let h := Part.headOf d0
      let lands := (Part.handlesOf h d0).any fun x => hClass x == 5
      let b := (admBegun p { op := 0x01, reads := 64 } c).modCtx i fun x =>
        { x with state := .fetched, unit := none, placed := false, classA := lands }
      let q := (b.descriptorDecode i (some d0) input).modCtx i fun x => { x with classA := lands }
      (c.head.len ≠ 4096 → fails (.run c input) 0x01 0x10 0x0A) ∧
      (c.head.len = 4096 → free → Yields (.run c input) s q ∧
        (let d := if h.long then d0 else Pk.fit 128 (d0.take 64)
         let given := if h.inPtr then Pk.fit (Part.dNum d 16 2) (input.getD []) else (Part.inlineOf h d).take (Part.dNum d 16 2)
         let cls := b.effClassOf n (4096 + n) h.cls
         let b1 := (b.when h.long (Part.takeSecond i)).modCtx i (Part.loadCtx h d cls)
         b.earlierFetched i = false → p.slc.ready = true → (n = 0 → p.tnt.states.get 0 0 ∉ [2, 3, 4]) → b1.descFault true h d = none → (h.inPtr = true → input.isSome = true) → b1.gateOpen = true →
         ∀ e mask, b1.programEntry (h.kind == 1) h.program (BitVec.ofNat 32 (Part.dNum d 20 4)) = some (e, mask) → e.single = none →
         (Part.handleCheck col ((Part.handlesOf h d).zip (e.handles ++ List.replicate 4 [])) 0 b1).1 = none →
           (q.ctx i).state = .decoded ∧ (q.ctx i).program = BitVec.ofNat 16 h.program ∧
           q.opBuf = p.opBuf.write ram (512 * i) (Pk.fit 128 d ++ Pk.fit 384 given) ∧ (q.adm n).busy = true ∧ (q.adm n).ctx = i)))

/-- For a manager command that begins at once. TENANT_CREATE of a tenant NONE with allotments in R382's ranges and room in the
pools takes the lowest base free in each pool, retags the granules, zeroes the counters, writes a storage key and the fields,
and leaves it ACTIVE with the bases as RESULT. TENANT_SET stages SLOTS, INFLIGHT, WEIGHT and CLASS_FLOOR for the next fetch,
or brings them into effect where none waits. FREEZE leaves an ACTIVE tenant of a function not WEDGED FREEZING, or FROZEN where
no context of it is left; THAW leaves it ACTIVE; TENANT_DESTROY of a FROZEN or SENT one destroys exactly its slots, zeroes its
counters, storage key, tags, ranges and mailbox, and leaves it NONE. Every other target, state or allotment ends
BAD_DESCRIPTOR 0x0A and changes nothing else. TNT_COMMIT brings a set that passes R383 into effect, or leaves it pending while
a fetch waits, and records a refused one. TNT_STATE_SET writes the state. A ring sets FULL and signals, or sets ERR while
FULL; clearing DOWN_FULL sets ACKED; a mailbox of NONE ignores writes. -/
def Obligations.TenantsAreCreatedSetFrozenAndDestroyed : Prop :=
  (∀ (s : State) (c : AdmCmd), c.fn = 0 →
    let p := s.part
    let n := c.head.target.toNat + 1
    let st := p.tnt.states.get 0 n
    let old := (p.tnt.t.get {} n).st
    let bs := Pk.fit 16 c.args
    let f := fun (o k : Nat) => ofLe ((bs.drop o).take k)
    let kind := fun (op : Nat) (args : Bool) =>
      ({ op := op, mgr := true, classA := true, used := if args then Part.allotUsed else [] } : Part.AdmKind)
    let fails := fun (i : Instr) (op : Nat) => ∃ q, Yields i s q ∧ AdmRefuses op c 0x10 0x0A p q
    let ends := fun (i : Instr) (op : Nat) (res : List Byte) (eff : Part → Prop) =>
      ∃ q, Yields i s q ∧ AdmEnds op c 0 0 res [] p q ∧ (∀ m, m ≠ n → q.tnt.states.get 0 m = p.tnt.states.get 0 m ∧ q.tnt.t.get {} m = p.tnt.t.get {} m) ∧
        q.nvm = { p.nvm with ctrTab := q.nvm.ctrTab } ∧ q.priv = p.priv ∧ eff q
    let o := p.owners n
    let total := p.slotsGiven n + f 0 4
    let fits := fun (pool k b : Nat) (sel : TntCfg → Nat × Nat) => b + k ≤ pool ∧ ∀ x ∈ o, Part.rangesMeet (b, k) (sel x) = false
    let lowest := fun pool k b sel => fits pool k b sel ∧ ∀ b', fits pool k b' sel → b ≤ b'
    let h := p.nvm.charter
    let gr : TntCfg → Nat × Nat := fun x => (x.granBase.toNat, x.grans.toNat)
    let qr : TntCfg → Nat × Nat := fun x => (x.qpBase.toNat, x.qpCount.toNat)
    let cr : TntCfg → Nat × Nat := fun x => (x.grpBase.toNat, x.groups.toNat)
    (AdmReady p (kind 0x100 true) c →
      let fine := f 0 4 ≤ 1047552 ∧ 1 ≤ f 8 2 ∧ f 8 2 ≤ 8192 ∧ 1 ≤ f 4 4 ∧ f 4 4 ≤ 8 * f 8 2 ∧ 1 ≤ f 10 1 ∧ f 10 1 ≤ 64 ∧ f 12 2 ≤ 256 ∧
        1 ≤ f 14 1 ∧ f 15 1 ≤ 3
      (1024 < n ∨ st ≠ 0 ∨ ¬ fine ∨ h.slotPool.toNat < total ∨ (∀ b, ¬ fits h.granulePool.toNat (f 8 2) b gr) ∨
        (∀ b, ¬ fits h.qpPool.toNat (f 10 1) b qr) ∨ (∀ b, ¬ fits h.groupPool.toNat (f 12 2) b cr) → fails (.tenantCreate c) 0x100) ∧
      (n ≤ 1024 → st = 0 → fine → total ≤ h.slotPool.toNat → h.granulePool.toNat ≤ 8192 → h.qpPool.toNat ≤ 4096 → h.groupPool.toNat ≤ 256 →
        ∀ g k r root key, lowest h.granulePool.toNat (f 8 2) g gr → lowest h.qpPool.toNat (f 10 1) k qr →
        lowest h.groupPool.toNat (f 12 2) r cr → p.storageRoot = some root → (p.entDraw .predict 32).1 = some key →
        (admBegun p (kind 0x100 true) c).tagFault 0 g (f 8 2) (Part.colourOf n) = none →
        ends (.tenantCreate c) 0x100 (leBytes 2 g ++ leBytes 2 k ++ leBytes 1 r) fun q =>
          q.tnt.states.get 0 n = 1 ∧ (q.tnt.t.get {} n).st.pend = none ∧ q.counted n = 0 ∧ q.slc.slots = p.slc.slots ∧
          (let t := (q.tnt.t.get {} n).st.eff
           gr t = (g, f 8 2) ∧ qr t = (k, f 10 1) ∧ (0 < f 12 2 → cr t = (r, f 12 2)) ∧ t.slots.toNat = f 0 4 ∧ t.inflight.toNat = f 4 4 ∧
             t.weight.toNat = f 14 1 ∧ t.floor.toNat = f 15 1) ∧
          (∀ x, q.acu.tagOb.get 0 x = if g ≤ x ∧ x < g + f 8 2 then Part.colourOf n else p.acu.tagOb.get 0 x) ∧
          (∀ x, q.tnt.counters.get 0 x = if 256 * r ≤ x ∧ x < 256 * (r + f 12 2) then 0 else p.tnt.counters.get 0 x) ∧
          (let w := Crypto.keyWrap (Crypto.aes root) key
           q.vaultRead (Part.skeyOffset (Part.colourOf n)) (8 + w.length) = leBytes 4 (p.nextKeyId n) ++ [1, 0, 0, 0] ++ w))) ∧
    (AdmReady p (kind 0x101 true) c →
      let cur := old.pend.getD old.eff
      let fine := f 0 4 ≤ 1047552 ∧ 1 ≤ f 4 4 ∧ f 4 4 ≤ 8 * cur.grans.toNat ∧ 1 ≤ f 14 1 ∧ f 15 1 ≤ 3 ∧ total ≤ h.slotPool.toNat
      (1024 < n ∨ (st ≠ 1 ∧ st ≠ 2 ∧ st ≠ 3) ∨ ¬ fine → fails (.tenantSet c) 0x101) ∧
      (n ≤ 1024 → st = 1 ∨ st = 2 ∨ st = 3 → fine → 1 ≤ cur.grans.toNat → cur.grans.toNat ≤ 8192 → 1 ≤ cur.qpCount.toNat →
        cur.qpCount.toNat ≤ 64 → cur.groups.toNat ≤ 256 → ∃ q, Yields (.tenantSet c) s q ∧ AdmEnds 0x101 c 0 0 [] [] p q ∧
          q = { p with tnt := q.tnt, dsp := q.dsp, mir := q.mir } ∧ (∀ m, m ≠ n → q.tnt.t.get {} m = p.tnt.t.get {} m) ∧ q.tnt.states = p.tnt.states ∧
          ∃ new, (q.tnt.t.get {} n).st = (if p.fetchWaits n then { stage := new, eff := old.eff, pend := some new }
              else { stage := new, eff := new, pend := none }) ∧
            new = { cur with slots := new.slots, inflight := new.inflight, weight := new.weight, floor := new.floor } ∧
            new.slots.toNat = f 0 4 ∧ new.inflight.toNat = f 4 4 ∧ new.weight.toNat = f 14 1 ∧ new.floor.toNat = f 15 1)) ∧
    (AdmReady p (kind 0x102 false) c →
      let may := n ≤ 1024 ∧ (st = 3 ∨ st = 4) ∧ (p.fn n).wedged = false ∧ (p.fn n).tdi = .unlocked
      let is := p.slc.ownedBy (Part.colourOf n)
      (¬ may → fails (.tenantDestroy c) 0x102) ∧
      (may → (admBegun p (kind 0x102 false) c).tagFault 0 old.eff.granBase.toNat old.eff.grans.toNat 0 = none →
        ends (.tenantDestroy c) 0x102 [] fun q =>
          q.tnt.states.get 0 n = 0 ∧ q.tnt.t.get {} n = {} ∧ q.tnt.mbox.get {} n = {} ∧ q.counted n = 0 ∧ q.migOf n = none ∧
          Destroyed is p q ∧ (∀ j ∈ is, (p.slot j).colour = Part.colourOf n) ∧
          (∀ j x, p.slc.slots.get none j = some x → x.colour = Part.colourOf n → x.state ≠ Slot.empty → j ∈ is) ∧
          q.vaultRead (Part.skeyOffset (Part.colourOf n)) 48 = List.replicate 48 0 ∧
          (∀ x, q.tnt.counters.get 0 x = if 256 * old.eff.grpBase.toNat ≤ x ∧ x < 256 * (old.eff.grpBase.toNat + old.eff.groups.toNat) then 0
            else p.tnt.counters.get 0 x) ∧
          ∀ x, q.acu.tagOb.get 0 x = if old.eff.granBase.toNat ≤ x ∧ x < old.eff.granBase.toNat + old.eff.grans.toNat then 0
            else p.acu.tagOb.get 0 x)) ∧
    (AdmReady p (kind 0x110 false) c →
      let may := n ≤ 1024 ∧ st = 1 ∧ (p.fn n).wedged = false ∧ (p.fn n).tdi = .unlocked ∧ ¬ (p.sys.session.active = true ∧ p.sys.session.fn = n)
      (¬ may → fails (.freeze c) 0x110) ∧
      (may → ends (.freeze c) 0x110 [] fun q => q.tnt.states.get 0 n = (if (admBegun p (kind 0x110 false) c).ctxsOf n = [] then 3 else 2) ∧
        q.tnt.t = p.tnt.t ∧ q.slc = p.slc ∧ q.acu = p.acu)) ∧
    (AdmReady p (kind 0x111 false) c →
      (1024 < n ∨ (st ≠ 2 ∧ st ≠ 3) → fails (.thaw c) 0x111) ∧
      (n ≤ 1024 → st = 2 ∨ st = 3 → ends (.thaw c) 0x111 [] fun q => q.tnt.states.get 0 n = 1 ∧ q.tnt.t = p.tnt.t ∧ q.slc = p.slc ∧ q.acu = p.acu))) ∧
  (∀ s : State,
    let p := s.part
    (∀ t : BitVec 11, 1024 < t.toNat → Yields (.tntCommit t) s p) ∧
    (∀ t : BitVec 11, t.toNat ≤ 1024 →
      let n := if t.toNat = 1024 then 0 else t.toNat + 1
      let x := (p.tnt.t.get {} n).st
      let w := x.stage
      let h := p.nvm.charter
      let apart := fun (sel : TntCfg → Nat × Nat) => ∀ y ∈ p.owners n, Part.rangesMeet (sel w) (sel y) = false
      let ok := w.inflight.toNat ≤ 8 * w.grans.toNat ∧ w.granBase.toNat + w.grans.toNat ≤ h.granulePool.toNat ∧
        w.qpBase.toNat + w.qpCount.toNat ≤ h.qpPool.toNat ∧ w.grpBase.toNat + w.groups.toNat ≤ h.groupPool.toNat ∧ w.qpCount.toNat ≤ 64 ∧
        w.weight ≠ 0 ∧ apart (fun y => (y.granBase.toNat, y.grans.toNat)) ∧ apart (fun y => (y.qpBase.toNat, y.qpCount.toNat)) ∧
        apart (fun y => (y.grpBase.toNat, y.groups.toNat))
      let gives := fun (tn : Tnt) (y : Staged TntCfg) => ∃ q, Yields (.tntCommit t) s q ∧ q = { p with tnt := q.tnt } ∧
        q.tnt = { tn with t := q.tnt.t } ∧ (q.tnt.t.get {} n).st = y ∧ ∀ m, m ≠ n → q.tnt.t.get {} m = p.tnt.t.get {} m
      (ok → p.fetchWaits n = false → gives p.tnt { x with eff := w, pend := none }) ∧
      (ok → p.fetchWaits n = true → gives p.tnt { x with pend := some w }) ∧
      (¬ ok → gives { p.tnt with cfgMismatch := true, mismatch := t } { x with pend := none })) ∧
    (∀ (t : BitVec 11) (st : BitVec 3), (1024 ≤ t.toNat ∨ 5 < st.toNat → Yields (.tntStateSet t st) s p) ∧
      (t.toNat < 1024 → st.toNat ≤ 5 → ∃ q, Yields (.tntStateSet t st) s q ∧
        q.tnt.states.get 0 (t.toNat + 1) = (if st = 2 ∧ p.ctxsOf (t.toNat + 1) = [] ∧ (p.fn (t.toNat + 1)).wedged = false then 3 else st) ∧
        (∀ m, m ≠ t.toNat + 1 → q.tnt.states.get 0 m = p.tnt.states.get 0 m) ∧ q.tnt.t = p.tnt.t ∧ q.dsp = p.dsp ∧ q.slc = p.slc)) ∧
    (∀ t : Fin 1024,
      let n := t.val + 1
      let m := p.tnt.mbox.get {} n
      let up := p.tnt.states.get 0 n ≠ 0
      let fires := fun (f v : Nat) (q : Part) => (p.fn f).draining = false → p.mayPost f = true → (p.fn f).fnMask = false →
        ((p.fn f).vectors.get {} v).masked = false → q.hif = { p.hif with out := p.hif.out ++
          [HostMsg.msix f v ((p.fn f).vectors.get {} v).addr ((p.fn f).vectors.get {} v).data] }
      let gives := fun (i : Instr) (b : Mbox) (f v : Nat) => ∃ q, Yields i s q ∧ q.tnt.mbox.get {} n = b ∧
        (∀ y, y ≠ n → q.tnt.mbox.get {} y = p.tnt.mbox.get {} y) ∧ q = { p with tnt := { p.tnt with mbox := q.tnt.mbox }, hif := q.hif } ∧ fires f v q
      let sets := fun (i : Instr) (b : Mbox) => Yields i s { p with tnt := { p.tnt with mbox := p.tnt.mbox.upd {} n fun _ => b } }
      (¬ up → Yields (.downRing t) s p ∧ Yields (.upRing t) s p ∧ Yields (.downFullClear t) s p ∧ Yields (.upFullClear t) s p) ∧
      (up →
        (m.downFull = false → gives (.downRing t) { m with downFull := true } n 0 ∧ Yields (.downFullClear t) s p) ∧
        (m.downFull = true → sets (.downRing t) { m with downErr := true } ∧ gives (.downFullClear t) { m with downFull := false, acked := true } 0 1) ∧
        (m.upFull = false → gives (.upRing t) { m with upFull := true } 0 1 ∧ Yields (.upFullClear t) s p) ∧
        (m.upFull = true → sets (.upRing t) { m with upErr := true } ∧ gives (.upFullClear t) { m with upFull := false } n 0))))

/-- For a command that begins at once. OPEN of an open class, with arguments as R466 gives and no session open, opens the
session in mode CEREMONY with the drawn ID as RESULT and the 64-octet challenge of R467 for the buffer; a KEY_DESTROY session
holds its key with GEN kept. A step from another function, with another ID or another step number fails. APPROVE of an
uncounted custodian of the set counts a good signature, opening the quorum decision at M, and ends VERIFY_FALSE on a bad one,
undoing the session at the third. COMPONENT keeps an unwrapped component, giving its check value, and ends VERIFY_FALSE where
unwrapping fails. EXECUTE before QUORUM fails; else it writes the combined key and gives handle and check value, destroys the
held key, marks the life-cycle session executing, or commits the grant. A successful EXECUTE but that of LIFE_CYCLE closes the
session. CLOSE and the time limit undo it. -/
def Obligations.CeremoniesOpenCountAndExecute : Prop :=
  ∀ (s : State) (c : AdmCmd),
    let p := s.part
    let n := c.fn.val
    let S := p.sys.session
    let args := Pk.fit 96 c.args
    let num := fun (o k : Nat) => ofLe ((args.drop (o - 32)).take k)
    let h := BitVec.ofNat 32 (num 32 4)
    let cls := (fld c.a1 0 4).toNat
    let comps := (fld c.a1 8 8).toNat
    let kOpen : Part.AdmKind := { op := 0x30, classA := true, used := Part.openUsed cls, writes := 64 }
    let kStep := fun (reads : Nat) => ({ op := 0x30, used := Part.stepUsed, reads := reads } : Part.AdmKind)
    let fails := fun (i : Instr) => ∃ q, Yields i s q ∧ AdmRefuses 0x30 c 0x10 0x0A p q
    let ends := fun (i : Instr) (st : Byte) (res out : List Byte) (eff : Part → Prop) => ∃ q, Yields i s q ∧ AdmEnds 0x30 c st 0 res out p q ∧ eff q
    let steps : List (Instr × Part.AdmKind × Nat) := [(.approve c, kStep 2, 1), (.component c, kStep 24, 2),
      (.execute c, { kStep 0 with classA := p.executeClassA }, 3), (.ceremonyClose c, kStep 0, 4)]
    let mine := fun (k : Nat) => c.a0.toNat = k ∧ S.active = true ∧ S.fn = n ∧ S.id = BitVec.ofNat 128 (num 36 16)
    (let plain := c.a0 = 0 ∧ c.a1 &&& 0xFFFF00F0 = 0 ∧ cls ≤ 3 ∧ (2 ≤ cls → n = 0) ∧ S.active = false ∧ p.sys.mode = .service ∧
       p.classOpen cls = true ∧ (cls ≠ 0 → comps = 0)
     let found := (p.headCheck h (Part.colourOf n) [1, 2, 3, 4, 5]).1 = none
     let fine := plain ∧ (cls = 0 → 2 ≤ comps ∧ comps ≤ 9 ∧ c.a2 ≠ 0 ∧ c.a2.toNat ≤ 255) ∧ (cls = 1 → c.a2 = 0) ∧
       (cls = 2 → c.a2 = 4 ∨ c.a2 = 5) ∧
       (cls = 3 → c.a2 = 0 ∧ BitVec.ofNat 10 (num 52 2) &&& ~~~0x053 = 0 ∧ 1 ≤ num 56 4 ∧ num 56 4 ≤ 86400)
     AdmReady p kOpen c →
     (¬ fine → (cls = 3 → num 52 2 ≤ 0x3FF) → fails (.ceremonyOpen c)) ∧
     (∀ id, fine → (cls = 3 → num 52 2 ≤ 0x3FF) → (cls = 0 → found ∧ p.useCheck (p.slot (hIndex h)) (Part.isAes (p.slot (hIndex h)).alg) 0x4000 = none) →
       (cls = 1 → found) → (p.entDraw .fresh 16).1 = some id →
       let target : BitVec 3 := if cls = 2 then c.a2.setWidth 3 else 0
       let ch := Pk.fit 16 id ++ leBytes 8 p.serial.toNat ++ [BitVec.ofNat 8 cls, BitVec.ofNat 8 (if cls = 0 then comps else target.toNat)] ++
         leBytes 2 (Part.colourOf n).toNat ++ [0, 0, 0, 0] ++
         Pk.fit 32 (Standard.hash 2 (leBytes 4 c.a0.toNat ++ leBytes 4 c.a1.toNat ++ leBytes 4 c.a2.toNat ++ args))
       ends (.ceremonyOpen c) 0 (Pk.fit 16 id) ch fun q => q.sys.mode = .ceremony ∧ q.sys.cerActive = true ∧ q.sys.cerCount = 0 ∧
         q.sys.cerFails = 0 ∧ q.sys.cerQuorum = false ∧ q.sys.cerClass.toNat = cls ∧ q.sys.cerTarget = target ∧
         q.sys.session = { active := true, id := BitVec.ofNat 128 (ofLe id), fn := n, cls := BitVec.ofNat 4 cls, comps := comps
                           template := c.a2.setWidth 8, target := target, key := h, mask := BitVec.ofNat 10 (num 52 2)
                           duration := BitVec.ofNat 32 (num 56 4), challenge := ch } ∧
         (cls ≠ 1 → q.slc = p.slc) ∧
         (cls = 1 → HoldSet h true p q))) ∧
    (∀ k ∈ steps, AdmReady p k.2.1 c → ¬ mine k.2.2 → fails k.1) ∧
    (AdmReady p (kStep 2) c → mine 1 →
      let ks := p.nvm.charter.ceremonies.getD S.cls.toNat (0, 0)
      let buf := c.buf.getD []
      let sig := (buf.drop 2).take (ofLe (buf.take 2))
      let msg := KeyBlock.ascii "HX6400 ceremony" ++ S.challenge
      let who := p.nvm.charter.custodians.find? fun x => x.1.toNat == c.a1.toNat
      (who = none ∨ 15 < c.a1.toNat ∨ bitAt ks.1 c.a1.toNat = false ∨ bitAt S.counted c.a1.toNat = true → fails (.approve c)) ∧
      (∀ x alg key, who = some (x, alg, key) → c.a1.toNat ≤ 15 → bitAt ks.1 c.a1.toNat = true → bitAt S.counted c.a1.toNat = false →
        let good := if alg = 1 then sig.length = 96 ∧ Standard.verifyP384 key msg sig = true
          else sig.length = 3309 ∧ Config.verifySig 0x41 key msg sig = true
        (good → ends (.approve c) 0 [(p.sys.cerCount + 1).setWidth 8] [] fun q =>
          q.sys = { p.sys with
            cerCount := p.sys.cerCount + 1, session := { S with counted := S.counted ||| BitVec.ofNat 16 (2 ^ c.a1.toNat) } } ∧
          q.tmp.due = p.tmp.due ++ (if (p.sys.cerCount + 1).toNat = ks.2.toNat then [.quorum true] else []) ∧ q.slc = p.slc) ∧
        (¬ good → p.sys.cerFails + 1 ≠ 3 → ends (.approve c) 1 [] [] fun q => q.sys = { p.sys with cerFails := p.sys.cerFails + 1 } ∧ q.slc = p.slc) ∧
        (¬ good → p.sys.cerFails + 1 = 3 → ends (.approve c) 1 [] [] fun q => Undone p q))) ∧
    (AdmReady p (kStep 24) c → mine 2 →
      let given := (c.a2 = 24 ∨ c.a2 = 40) ∧ S.cls = 0 ∧ c.a1.toNat ≠ 0 ∧ c.a1.toNat ≤ S.comps ∧ ∀ g ∈ S.got, g.1 ≠ c.a1.toNat
      (¬ given → fails (.component c)) ∧
      (∀ ss kek, given → (p.slotRead S.key (Part.colourOf S.fn) [1]).1 = .ok ss → ss.head? = some kek →
        p.useCheck kek (Part.isAes kek.alg) 0x4000 = none →
        let key := kek.mat.take ((Part.symLen kek.alg.toNat).getD 16)
        (Crypto.keyUnwrap (Crypto.aes key) (Pk.fit c.a2.toNat (c.buf.getD [])) = none →
          ends (.component c) 1 [] [] fun q => q.sys = p.sys ∧ q.slc = p.slc) ∧
        (∀ m, Crypto.keyUnwrap (Crypto.aes key) (Pk.fit c.a2.toNat (c.buf.getD [])) = some m →
          ends (.component c) 0 (Part.checkValue (p.slc.template S.template.toNat).alg m) [] fun q =>
            q.sys = { p.sys with session := { S with got := S.got ++ [(c.a1.toNat, m)] } } ∧ q.slc = p.slc))) ∧
    (AdmReady p { kStep 0 with classA := p.executeClassA } c → mine 3 →
      let i := Instr.execute c
      let ran := p.sys.cerQuorum = true ∧ S.executing = false
      let got := S.got.map Prod.snd
      let key := got.foldl (fun a b => if a = [] then b else Crypto.xorB a b) []
      let t := p.slc.template S.template.toNat
      let j := Part.firstPick c
      (¬ ran → fails i) ∧
      (ran → S.cls = 0 → got.length < S.comps → fails i) ∧
      (ran → S.cls = 0 → S.comps ≤ got.length → S.slot = none → p.slotsFit n 1 = true → p.rangeFree j 1 = true →
        (∀ m ∈ got, m.length = key.length) → Part.symLen t.alg.toNat = some key.length → t.hclass = 1 →
        ends i 0 (leBytes 4 (mkHandle 1 ((p.slot j).gen + 2) j).toNat ++ Pk.fit 5 (Part.checkValue t.alg key)) [] fun q =>
          q.sys = closed p.sys ∧ (q.slot j).mat = Crypto.padR 32 key ∧ (q.slot j).state = Slot.key ∧ (q.slot j).colour = Part.colourOf n ∧
            (q.slot j).gen = (p.slot j).gen + 2 ∧ (q.slot j).alg = t.alg ∧ (q.slot j).usage = t.usage ∧ q.counted n = p.counted n + 1 ∧
            ∀ x, x ≠ j → q.slot x = p.slot x) ∧
      (ran → S.cls = 1 → ends i 0 [] [] fun q => q.sys = closed p.sys ∧ Destroyed (p.slc.chainOf (hIndex S.key)) p q ∧
        q.counted n = p.counted n - max 1 (p.slot (hIndex S.key)).chainLen.toNat) ∧
      (ran → S.cls = 2 → ∃ q, Yields i s q ∧ q.sys = { p.sys with session := { S with executing := true } } ∧
        (q.adm n).busy = true ∧ (q.adm n).ctx = admCtx p n ∧ (q.ctx (admCtx p n)).state = .running ∧ q.slc = p.slc ∧ q.dbg = p.dbg) ∧
      (ran → S.cls = 3 →
        let may := S.mask &&& ~~~ Part.grantCeiling p.life = 0 ∧ 1 ≤ (S.duration.setWidth 17 : BitVec 17).toNat ∧
          (S.duration.setWidth 17 : BitVec 17).toNat ≤ 86400 ∧ p.bat.scrapDue = false
        may → ends i 0 [] [] fun q => q.sys = closed p.sys ∧ q.tmp.due = p.tmp.due ++ [.debugUnlock true] ∧ q.slc = p.slc ∧
          q.dbg = { p.dbg with maskStage := S.mask, durStage := S.duration.setWidth 17, pendGrant := some (S.mask, S.duration.setWidth 17) })) ∧
    (AdmReady p (kStep 0) c → mine 4 →
      (S.executing = true → fails (.ceremonyClose c)) ∧
      (S.executing = false → ends (.ceremonyClose c) 0 [] [] fun q => Undone p q)) ∧
    (S.active = false → Yields .ceremonyTimeout s p) ∧
    (S.active = true → ∃ q, Yields .ceremonyTimeout s q ∧ Undone p q ∧ q.dsp = p.dsp ∧ q.nvm = p.nvm ∧ q.acu = p.acu)

/-- FREEZE is refused outside SERVICE and STANDBY, on a paired holder and in a session, setting REQ_REFUSED only; else
FREEZING reads 1, or the mode is FROZEN at once when no context is held but by WEDGED functions. RESUME ends the drain,
returns to the mode left, or sets REQ_REFUSED. SYS_LC_NEXT opens a transition's second decision with LC_BUSY set exactly where
R456 lists it with its precondition and mode and none runs, else sets LC_REFUSED with a record and ends a waiting EXECUTE in
BAD_DESCRIPTOR 0x0A. The fuses blown are the state's bit, ROOT_DISABLE into ANALYSIS and SCRAPPED, and SCAN_DISABLE into
SCRAPPED, entering QUARANTINE; the wipe ends LC_BUSY with LC_DONE and clears what R459 names. BURN acts once, in PROVISIONED;
its end zeroes the staged words, sets ROOT_SET, and ROOT_OK or QUARANTINE with ROOT_FAIL. NVM_ARB_ADV blows steps FV to TARGET
- 1, and an owner burn the staged hash, only where their conditions hold. -/
def Obligations.ModesLifeCycleAndFuses : Prop :=
  ∀ s : State,
    let p := s.part
    let y := p.sys
    let f := s.fuses
    let withSys := fun (x : Sys) => { p with sys := x }
    let blows := fun (i : Instr) (g : Fuses) (eff : Part → Prop) => ∃ q, exec i s = .next { s with fuses := g, part := q } ∧ eff q
    (let refused := (y.mode ≠ .service ∧ y.mode ≠ .standby) ∨ (p.nvm.charter.paired = true ∧ p.mir.gate = 2) ∨ y.session.active = true
     let still := p.dsp.ctxs.all (fun c => c.2.state == .free || (p.fn c.2.fn).wedged) = true
     (refused → Yields .modeFreeze s (withSys { y with reqRefused := true })) ∧
     (¬ refused → still → ∃ q, Yields .modeFreeze s q ∧ q.sys = { y with freezing := false, leftMode := y.mode, mode := .frozen } ∧
       q.dsp = p.dsp ∧ q.slc = p.slc ∧ q.nvm = p.nvm) ∧
     (¬ refused → ¬ still → ∃ q, Yields .modeFreeze s q ∧ q.sys = { y with freezing := true, leftMode := y.mode } ∧
       q.dsp = p.dsp ∧ q.slc = p.slc ∧ q.nvm = p.nvm)) ∧
    (∃ q, Yields .modeResume s q ∧ q = { p with sys := q.sys, hif := q.hif, mir := q.mir } ∧
      q.sys = if y.freezing = true then { y with freezing := false } else if y.mode = .frozen then { y with mode := y.leftMode }
        else { y with reqRefused := true }) ∧
    (∀ t : BitVec 3,
      let listed := (p.life = .blank ∧ t = 1 ∧ y.mode = .assay) ∨ (p.life = .tested ∧ t = 2 ∧ y.mode = .assay) ∨
        (p.life = .provisioned ∧ t = 3 ∧ y.fuses.rootOk = true ∧ (y.mode = .assay ∨ y.mode = .service)) ∨
        (p.life = .owned ∧ (t = 4 ∨ t = 5) ∧ y.cerQuorum = true ∧ y.cerClass = 2 ∧ y.cerTarget = t ∧ y.mode = .ceremony) ∨
        (p.life = .analysis ∧ t = 5 ∧ y.mode = .quarantine)
      (listed → y.lcBusy = false → ∃ q, Yields (.lcNextWrite t) s q ∧ q.sys = { y with lcBusy := true } ∧
        q.tmp.due = p.tmp.due ++ [.lifeCycle t true] ∧ q.dbg.granted = 0 ∧ q.dsp = p.dsp ∧ q.slc = p.slc ∧ q.nvm = p.nvm) ∧
      (¬ listed ∨ y.lcBusy = true → y.session.executing = false → ∃ q, Yields (.lcNextWrite t) s q ∧
        Recorded (withSys { y with lcRefused := true }) q) ∧
      (¬ listed ∨ y.lcBusy = true → y.session.executing = true →
        let x := (p.adm y.session.fn).ctx
        (p.ctx x).state = .running → (p.ctx x).discard = false → ∃ q, Yields (.lcNextWrite t) s q ∧
          q.sys = { y with lcRefused := true, session := { y.session with executing := false } } ∧
          (q.ctx x).state = .finished ∧ (q.ctx x).status = 0x10 ∧ (q.ctx x).detail = 0x0A ∧ q.slc = p.slc ∧ q.tmp = p.tmp)) ∧
    (y.lcTarget = none → exec .lcFusesBlown s = .next s ∧ Yields .lcWipeDone s p) ∧
    (∀ t, y.lcTarget = some t →
      (Part.lifeCode p.life = t → exec .lcFusesBlown s = .next s) ∧
      (Part.lifeCode p.life ≠ t → 1 ≤ t.toNat → t.toNat ≤ 5 → y.mode ≠ .wake →
        let g := { f with lcWord := f.lcWord ||| BitVec.ofNat 5 (2 ^ (t.toNat - 1)), rootDisable := f.rootDisable || decide (4 ≤ t.toNat)
                          scanDisable := f.scanDisable || decide (t = 5) }
        blows .lcFusesBlown g fun q => q.sys.fuses = g ∧ (t = 5 → q.bat.scrapDue = false) ∧
          (4 ≤ t.toNat → q.sys.mode = .quarantine ∧ (y.mode ≠ .quarantine → q.sys.session.active = false)) ∧ (t.toNat < 4 → q = withSys { y with fuses := g })) ∧
      (Part.lifeCode p.life ≠ t → Yields .lcWipeDone s p) ∧
      (Part.lifeCode p.life = t → ∃ q, Yields .lcWipeDone s q ∧ q.sys = { y with lcBusy := false, lcDone := true, lcTarget := none } ∧
        q.nvm = p.nvm ∧ q.acu = p.acu ∧
        (4 ≤ t.toNat → bitAt y.fuses.lcWord 3 = false ∨ t.toNat = 4 → q.bat.vault = [] ∧ q.slc.ready = false ∧
          ∀ j, (q.slot j).mat = List.replicate 32 0 ∧ (q.slot j).state = Slot.empty) ∧
        (t = 2 → q.bat.vault = [] ∧ q.bat.blog = []) ∧ (t = 1 ∨ t = 3 → q.bat.vault = p.bat.vault ∧ q.slc = p.slc))) ∧
    (Yields .rootBurn s (withSys (if y.fuses.rootSet = false ∧ p.life = .provisioned then { y with rootBusy := true } else y))) ∧
    (∀ weak : BitVec 256,
      let staged : BitVec 256 := p.rootStaged
      let g := { f with rootBits := f.rootBits ||| (staged &&& ~~~weak), rootSet := true, rootOk := f.rootOk || staged &&& weak == 0 }
      let z := { y with fuses := g, rootProg := [], rootBusy := false }
      (y.rootBusy = false → exec (.rootBurnEnd weak) s = .next s) ∧
      (y.rootBusy = true → g.rootOk = true → exec (.rootBurnEnd weak) s = .next { s with fuses := g, part := withSys z }) ∧
      (y.rootBusy = true → g.rootOk = false → y.mode ≠ .wake → blows (.rootBurnEnd weak) g fun q =>
        q.sys.fuses = g ∧ q.sys.rootProg = [] ∧ q.sys.quarRoot = true ∧ q.sys.mode = .quarantine)) ∧
    (∀ target : Byte,
      let c := p.nvm.charter
      let acts := c.present = true ∧ target = c.sv ∧ c.svCommit = true ∧ (y.mode = .service ∨ y.mode = .standby)
      (¬ acts → exec (.arbAdvance target) s = .next s) ∧
      (acts → ∃ a : BitVec 128, exec (.arbAdvance target) s = .next { s with
          fuses := { f with arb := a }, part := withSys { y with fuses := { f with arb := a } } } ∧
        ∀ i, i < 128 → a.getLsbD i = (f.arb.getLsbD i || decide (Part.fusedVersion f.arb ≤ i ∧ i < target.toNat)))) ∧
    (let c := p.nvm.charter
     let h := p.ownerStaged
     let zero := { p.nvm with ownerProg := [] }
     let acts := c.present = true ∧ y.fuses.owner.length < 4 ∧ h ≠ 0 ∧ ((y.fuses.owner.length = 0 ∧ h = c.ownerHash) ∨ (c.rotate = true ∧ h = c.nextHash))
     (¬ acts → Yields .ownerBurn s { p with nvm := zero }) ∧
     (acts → exec .ownerBurn s = .next { s with
       fuses := { f with owner := f.owner ++ [h] }, part := { withSys { y with fuses := { f with owner := f.owner ++ [h] } } with nvm := zero } }))

/-- GO queues a command unless its set is BUSY. At its turn it ends: a READ or PROGRAM outside one page, or an erase off its
boundary, with ALIGN; one that R480 does not allow with DENIED; a flash error with DEVICE; none of these touches a byte. Else
READ fills the page buffer (DIR reads as erased), PROGRAM clears exactly the bits of its octets that the buffer has clear (log
entry 24: NOR flash), an erase leaves its sector erased, every other byte stays, a counter table in a touched sector is gone
or loses its MAC, and a change in a charter slot clears its FAILED bit. A loader transfer ends CLOSED, RANGE or DEVICE, or
places the flash's octets in its target and leaves their SHA-384. HANDOFF, once, in WAKE, zeroes 0x18_0000 to 0x1B_FFFF,
starts the secure core privileged at its entry with only g1 kept, takes the charter body in private memory if R491 finds it
valid (log entry 191), and enters ASSAY; with a charter but no image that it lists at offset 0, it sets the slot's FAILED bit
and resets (log entry 195). SERVICE and STANDBY are accepted in ASSAY exactly on R512's conditions, else START_REFUSED is set;
from then on the counters are those of the accepted tables, and the groups with none are held unusable (log entry 28), and the
manager has its allotment (R380; log entry 31); QUARANTINE is accepted in ASSAY; the watchdog enters QUARANTINE. -/
def Obligations.FlashCommandsLoaderAndStart : Prop :=
  ∀ s : State,
    let p := s.part
    let nv := p.nvm
    let den := nv.density
    let set := fun (w : World) (x : NvmSet) (v : Nvm) => match w with | .normal => { v with normal := x } | .secure => { v with secure := x }
    let user := fun (w : World) => match w with | .normal => NvmUser.normal | .secure => NvmUser.secure
    let goes : List (Instr × World × NvmOp) := [World.normal, .secure].flatMap fun w =>
      [(.nvmRead w, w, .read), (.nvmProgram w, w, .program), (.nvmErase4k w, w, .erase4k), (.nvmErase64k w, w, .erase64k)]
    (∀ g ∈ goes,
      let x := p.nvmSet g.2.1
      (x.busy = true → Yields g.1 s p) ∧
      (x.busy = false → Yields g.1 s { p with
        nvm := { set g.2.1 { x with busy := true, op := some g.2.2 } nv with queue := nv.queue ++ [user g.2.1] } })) ∧
    (∀ (w : World) (device : Bool),
      let x := p.nvmSet w
      let i := Instr.nvmCmdEnd w device
      (x.op = none ∨ nv.queue.head? ≠ some (user w) → Yields i s p) ∧
      (∀ op, x.op = some op → nv.queue.head? = some (user w) →
        let a := x.addr.toNat
        let n := match op with | .read | .program => x.len.toNat | .erase4k => 0x1000 | .erase64k => 0x10000
        let paged := op = .read ∨ op = .program
        let aligned := (paged → 1 ≤ n ∧ n ≤ 256 ∧ a % 256 + n ≤ 256) ∧ (¬ paged → a % n = 0)
        let within := fun lo hi => lo ≤ a ∧ a < hi
        let may := if op = .read then
            within 0 0x500000 ∨ within 0x900000 0x2100000 ∨ (w = .secure ∧ a < den)
          else
            (w = .secure ∧ ((within 0x10000 0x100000 ∧ p.life = .provisioned) ∨ (within 0x100000 0x300000 ∧ nv.charter.slotB = true) ∨
              (within 0x300000 0x500000 ∧ nv.charter.slotB = false) ∨ (within 0x500000 0x700000 ∧ nv.wardenB = true) ∨
              (within 0x700000 0x900000 ∧ nv.wardenB = false) ∨ within 0x2100000 den)) ∨
            (within 0x900000 0xD00000 ∧ nv.worksB = true) ∨ (within 0xD00000 0x1100000 ∧ nv.worksB = false)
        let ends := fun (r : BitVec 2) (q : Part) => (q.nvmSet w).busy = false ∧ (q.nvmSet w).done = true ∧ (q.nvmSet w).op = none ∧
          (q.nvmSet w).result = r ∧ q.nvm.queue = nv.queue.drop 1 ∧ q = { p with nvm := q.nvm, aon := q.aon } ∧
          q.nvm = { set w (q.nvmSet w) nv with queue := q.nvm.queue, flash := q.nvm.flash, ctrTab := q.nvm.ctrTab }
        let idle := fun (r : BitVec 2) => ∃ q, Yields i s q ∧ ends r q ∧ q.nvm.flash = nv.flash ∧ q.nvm.ctrTab = nv.ctrTab ∧ q.aon = p.aon ∧ (q.nvmSet w).buf = x.buf
        (¬ aligned → idle 2) ∧ (aligned → ¬ may → idle 1) ∧ (aligned → may → device = true → idle 3) ∧
        (aligned → may → device = false → ∃ q, Yields i s q ∧ ends 0 q ∧
          (op = .read → q.nvm.flash = nv.flash ∧ q.nvm.ctrTab = nv.ctrTab ∧ q.aon = p.aon ∧ Part.nvmBuf (q.nvmSet w) n = Part.flashOctets nv.flash a n ∧
            ∀ k, n ≤ 4 * k → k < 64 → (q.nvmSet w).buf.get 0 k = x.buf.get 0 k) ∧
          (op ≠ .read → (q.nvmSet w).buf = x.buf ∧
            (∀ k, let first := 0x1000 * (0x2100 + k)
              q.nvm.ctrTab.get none k = if k < 0x200 ∧ first < a + n ∧ a < first + 0x1000 then
                (if op = .program then some { (nv.ctrTab.get none k).getD { epoch := 0, values := [], mac := none } with mac := none } else none)
                else nv.ctrTab.get none k) ∧
            (∀ b, Tab.get erased q.nvm.flash b = if a ≤ b ∧ b < a + n then
              (if op = .program then Tab.get erased nv.flash b &&& (Part.nvmBuf x n).getD (b - a) 0 else erased) else Tab.get erased nv.flash b) ∧
            q.aon = { p.aon with
              failedA := p.aon.failedA && !decide (within 0x100000 0x300000), failedB := p.aon.failedB && !decide (within 0x300000 0x500000) })))) ∧
    (∀ b : Bool, Yields (.nvmFailedSet b) s { p with
      aon := if b then { p.aon with failedB := true } else { p.aon with failedA := true } }) ∧
    (nv.blBusy = true → Yields .blGo s p) ∧
    (nv.blBusy = false → Yields .blGo s { p with nvm := { nv with blBusy := true, queue := nv.queue ++ [.loader] } }) ∧
    (∀ device : Bool,
      let i := Instr.blEnd device
      let len := nv.blLen.toNat
      let src := nv.blSrc.toNat
      let dst := nv.blDst.toNat
      let fits := 16 ≤ len ∧ len ≤ 0x400000 ∧ len % 16 = 0 ∧ src % 16 = 0 ∧ src + len ≤ den ∧ nv.blTarget ≠ 3 ∧
        (nv.blTarget = 0 ∨ (dst % 16 = 0 ∧ dst + len ≤ if nv.blTarget = 1 then 0x200000 else 0x100000))
      let done := fun (r : BitVec 2) (v : Nvm) => { v with blBusy := false, blDone := true, blResult := r, queue := nv.queue.drop 1 }
      (nv.queue.head? ≠ some .loader → Yields i s p) ∧
      (nv.queue.head? = some .loader →
        (nv.blClosed = true → Yields i s { p with nvm := done 3 nv }) ∧
        (nv.blClosed = false → ¬ fits → Yields i s { p with nvm := done 1 nv }) ∧
        (nv.blClosed = false → fits → device = true → Yields i s { p with nvm := done 2 nv }) ∧
        (nv.blClosed = false → fits → device = false →
          let bs := Part.flashOctets nv.flash src len
          ∃ q, Yields i s q ∧ q.nvm = done 0 { nv with
              blHash := BitVec.ofNat 384 (ofBe (Standard.hash 3 bs)), wardenB := q.nvm.wardenB, wardenHash := q.nvm.wardenHash
              worksB := q.nvm.worksB, worksHash := q.nvm.worksHash } ∧
            q = { p with nvm := q.nvm, priv := q.priv, ccMem := q.ccMem, cores := q.cores } ∧
            (∀ b, Tab.get ram q.priv b = if nv.blTarget = 1 ∧ dst ≤ b ∧ b < dst + len then bs.getD (b - dst) 0 else Tab.get ram p.priv b) ∧
            (∀ b, Tab.get ram q.ccMem b = if nv.blTarget = 2 ∧ dst ≤ b ∧ b < dst + len then bs.getD (b - dst) 0 else Tab.get ram p.ccMem b) ∧
            (q.nvm.wardenB ≠ nv.wardenB → nv.blTarget = 1) ∧ (q.nvm.worksB ≠ nv.worksB → nv.blTarget = 2)))) ∧
    (∀ (r : Bool) (entry : BitVec 21),
      let i := Instr.handoff r entry
      (p.sys.handed = true ∨ p.sys.mode ≠ .wake → Yields i s p) ∧
      let body := Part.charterBody p
      let w := if p.life = .analysis ∨ p.life = .scrapped then Part.finishWipe p else p
      let slotB := decide ((p.core 4).regs.get 0 1 = 1)
      let ch := if r = false ∧ body ≠ [] ∧ Part.charterValid w slotB body (Part.charterBlock p) = true then Charter.parse slotB body else {}
      let lost := ch.present = true ∧ Part.wardenOk p ch = false
      (p.sys.handed = false → p.sys.mode = .wake → lost → ∃ q, Yields i s q ∧ q.sys.mode = .wake ∧ q.sys.handed = false ∧
        q.aon.resetCause = 64 ∧ q.aon.failedA = (p.aon.failedA || !slotB) ∧ q.aon.failedB = (p.aon.failedB || slotB)) ∧
      (p.sys.handed = false → p.sys.mode = .wake → ¬ lost → ∃ q, Yields i s q ∧
        q.sys = { p.sys with handed := true, responder := r, mode := .assay, quarBackup := p.sys.quarBackup || w.bat.backupLatch } ∧
        (∀ b, Tab.get ram q.priv b = if 0x180000 ≤ b ∧ b < 0x1C0000 then ram else Tab.get ram p.priv b) ∧
        (q.core 4).pc = (entry &&& 0x1FFFFC).setWidth 32 ∧ (q.core 4).ibk = 0 ∧ (q.core 4).dbk = 0 ∧ (q.core 4).priv = true ∧
        (q.core 4).run = .running ∧ (∀ k, (q.core 4).regs.get 0 k = if k = 1 then (p.core 4).regs.get 0 1 else 0) ∧
        (∀ c, c ≠ 4 → q.core c = p.core c) ∧
        q.nvm.charter = ch ∧
        (p.life = .analysis ∨ p.life = .scrapped → q.bat.vault = [] ∧
          ∀ b, (0x100000 ≤ b ∧ b < 0x500000) ∨ (0x2100000 ≤ b ∧ b < den) → Tab.get erased q.nvm.flash b = erased) ∧
        (p.life ≠ .analysis → p.life ≠ .scrapped → q.nvm.flash = nv.flash ∧ q.bat.vault = p.bat.vault))) ∧
    (∀ (standby : Bool) (reason : Byte),
      let i := if standby then Instr.startEndStandby reason else .startEndService reason
      let ok := p.ent.ready = true ∧ p.slc.ready = true ∧ p.slc.tplLocked = true ∧ p.seq.loaded = true ∧ p.ent.startFail = false ∧
        p.ent.katFailed = false ∧
        ((p.life = .owned ∧ p.sys.fuses.rootOk = true) ∨ (p.life = .provisioned ∧ (p.sys.fuses.rootOk = true ∨ p.sys.fuses.rootSet = false))) ∧
        (standby = true → nv.charter.paired = true) ∧ (standby = false → nv.charter.paired = false ∨ p.mir.gate = 2)
      (p.sys.mode ≠ .assay → Yields i s p) ∧
      (p.sys.mode = .assay → ¬ ok → Yields i s { p with sys := { p.sys with startRefused := true } }) ∧
      (p.sys.mode = .assay → ok → ∃ q, Yields i s q ∧
        q.sys = { p.sys with mode := if standby then .standby else .service, reason := reason } ∧ q.nvm = { nv with blClosed := true } ∧
        (∀ g, g ∈ q.tnt.badGroups ↔ g < 256 ∧ p.tableAt g = none) ∧
        (∀ g t, p.tableAt g = some t → t = [] ∨ ∃ b x, p.sectorTable g b = some x ∧ t = x.values) ∧
        q.tnt = { (Part.createManager p).tnt with badGroups := q.tnt.badGroups, counters := p.tableCounters } ∧
        q.slc = p.slc ∧ q.acu = (Part.createManager p).acu ∧ q.dsp = p.dsp)) ∧
    (∀ reason : Byte, (p.sys.mode ≠ .assay → Yields (.startEndQuarantine reason) s p) ∧
      (p.sys.mode = .assay → ∃ q, Yields (.startEndQuarantine reason) s q ∧ q.sys.mode = .quarantine ∧ q.sys.reason = reason ∧
        q.nvm = { nv with blClosed := true } ∧ q.bat.backupLatch = false ∧
        (q.sys.quarStart = true ↔ p.sys.quarStart = true ∨ (p.sys.quarBackup = false ∧ p.life ≠ .analysis ∧ p.life ≠ .scrapped)))) ∧
    (p.sys.mode ≠ .assay → Yields .assayWatchdog s p) ∧
    (p.sys.mode = .assay → ∃ q, Yields .assayWatchdog s q ∧ q.sys.mode = .quarantine ∧ q.sys.assayWd = true ∧ q.sys.quarStart = true)

/-- A message of any type that is not the next in order, or comes without pairing or session, changes nothing. Enabling trains
the link of a paired part; trained with XIN1 (log entry 194), it is in HANDSHAKE with sequences at zero and step 1 sent. A
narrower width is recorded. A loss discards keys, session and unacknowledged frames, sets LINK_LOST, and abandons a handover
not yet sent. Failed tags are counted; a resend repeats every unacknowledged frame. HEARTBEAT_SEND sends R529's 48 octets; one
received renews the partner's claim, never lowering it, states and time, makes the lower of two holders LOST, and ends a
handover, a copy or SOLO. Step 1 of a partner outside the list, or step 2 that does not verify, refuses with cause IDENTITY,
equal ranks with RANK; else the next step is sent, and steps 2 and 3 stage the words of R528's keys. INSTALL puts them in use,
forming the session or flipping the phase. SHARE of 0 is refused. -/
def Obligations.CausewayTrainsShakesHandsAndBeats : Prop :=
  ∀ s : State,
    let p := s.part
    let m := p.mir
    let rank : Byte := if p.sys.unitSel then 2 else 1
    let mir := fun (x : Mir) => { p with mir := x }
    (∀ (fseq : BitVec 64) (fack : Word) (old : Bool) (bs : List Byte),
      (∀ k ∈ [(Instr.heartbeat fseq fack old bs, Part.frHeartbeat), (.ledger fseq fack old bs, Part.frLedger), (.ledgerAck fseq fack old bs, Part.frAck),
          (.resyncBegin fseq fack old bs, Part.frResync), (.resyncRecords fseq fack old bs, Part.frResync), (.resyncChunk fseq fack old bs, Part.frResync),
          (.resyncEnd fseq fack old bs, Part.frResync), (.handover fseq fack old bs, Part.frControl), (.resyncRequest fseq fack old bs, Part.frControl),
          (.stepDown fseq fack old bs, Part.frControl)], ¬ InOrder p k.2 fseq old → Yields k.1 s p) ∧
      (¬ InOrder p Part.frHandshake fseq false →
        ∀ i ∈ [Instr.handshakeStep1 fseq fack bs, .handshakeStep2 fseq fack bs, .handshakeStep3 fseq fack bs], Yields i s p)) ∧
    Yields .causewayLinkEnable s (mir { m with linkEn := true, link := if p.nvm.charter.paired = true ∧ m.link = 0 then 1 else m.link }) ∧
    (∀ lanes : BitVec 2,
      let i := Instr.causewayTrained lanes
      let lost := p.wpu.clkSrcLost = true ∧ p.wpu.xin1Present = false
      (m.linkEn = false ∨ m.link ≠ 1 ∨ lanes = 0 ∨ lost → Yields i s p) ∧
      (m.linkEn = true → m.link = 1 → lanes ≠ 0 → ¬ lost → ∃ q, Yields i s q ∧ q.mir.link = 2 ∧ q.mir.lanes = lanes ∧ q.mir.fseqRx = 0 ∧
        q.mir.sync = (if m.sync = 0 then 1 else m.sync) ∧ q.mir.gate = m.gate ∧ q.slc = p.slc ∧ q.sys = p.sys ∧
        (∀ nonce, (p.entDraw .fresh 32).1 = some nonce →
          q.mir.hsMine = [[1, rank, 0, 0] ++ leBytes 2 p.nvm.charter.compatLevel.toNat ++ leBytes 2 p.nvm.charter.compatMin.toNat ++ nonce ++
            leBytes 4 p.identChains.1.length ++ leBytes 4 p.identChains.2.length ++ p.identChains.1 ++ p.identChains.2] ∧
          q.mir.hsPeer = [] ∧ ∃ fs, q.mir.out = m.out ++ fs ∧ fs ≠ [])) ∧
      (m.link.toNat < 2 ∨ lanes = 0 ∨ m.lanes.toNat ≤ lanes.toNat → Yields (.lanesChanged lanes) s p) ∧
      (2 ≤ m.link.toNat → lanes ≠ 0 → lanes.toNat < m.lanes.toNat → ∃ q, Yields (.lanesChanged lanes) s q ∧
        Recorded (mir { m with lanes := lanes, pairEvent := true }) q)) ∧
    (∀ b : Bool, (m.link.toNat < 2 → Yields (.linkLost b) s p) ∧
      (2 ≤ m.link.toNat → ∃ q, Yields (.linkLost b) s q ∧ Noted p (mir { m with
        link := if m.linkEn then 1 else 0, lanes := 0, session := false, keyInUse := [], keyOld := [], oldPhase := false, phase := false
        tx := [], hsMine := [], hsPeer := [], hsSecret := [], resyncFrom := none, resyncEnd := none, hoStop := false, hoRx := none
        cause := m.cause ||| Part.cLinkLost ||| (if m.hoStop then Part.cHandover else 0), pairEvent := true, peerGate := 0, peerSync := 0 }) q)) ∧
    Yields .frameAuthFail s (if m.session then mir { m with authFail := satInc m.authFail } else p) ∧
    Yields .frameResend s (mir { m with
      out := m.out ++ m.tx.map (fun f => f.2.2), resent := BitVec.ofNat 16 (min 0xFFFF (m.resent.toNat + m.tx.length)) }) ∧
    (∀ hold : Word, Yields (.heartbeatSend hold) s (if m.session then mir (sent1 Part.frHeartbeat
      (leBytes 8 m.ownClaim.toNat ++ [m.gate.setWidth 8, m.sync.setWidth 8, m.line.setWidth 8, (Part.modeCode p.sys.mode).setWidth 8, 0, 0, 0, 0] ++
        leBytes 8 m.seq.toNat ++ (leBytes 2 p.bat.frac.toNat ++ leBytes 6 p.bat.secs.toNat) ++ leBytes 8 m.peerTime.toNat ++
        leBytes 4 hold.toNat ++ [0, 0, 0, 0]) m) else p)) ∧
    (∀ (fseq : BitVec 64) (fack : Word) (old : Bool) (bs : List Byte), InOrder p Part.frHeartbeat fseq old →
      let f := fun (o k : Nat) => ofLe ((bs.drop o).take k)
      let claim := BitVec.ofNat 64 (f 0 8)
      let two := m.gate = 2 ∧ f 8 1 % 4 = 2 ∧ m.ownClaim.toNat < claim.toNat
      ∃ q, Yields (.heartbeat fseq fack old bs) s q ∧
        q.mir.peerClaim = (if m.peerClaim.toNat < claim.toNat then claim else m.peerClaim) ∧ q.mir.peerGate = BitVec.ofNat 2 (f 8 1) ∧
        q.mir.peerSync = BitVec.ofNat 3 (f 9 1) ∧ q.mir.peerTime = BitVec.ofNat 64 (f 24 8) ∧ q.mir.fseqRx = (taken fack old bs m).fseqRx ∧
        (f 32 8 ≠ 0 → q.mir.timeOffset = BitVec.ofInt 32 (p.offsetOf bs) ∧
          (q.mir.timeSkew = true ↔ (p.nvm.charter.timeThresh.toNat : Int) < |p.offsetOf bs|)) ∧
        q.bat.secs = p.bat.secs ∧ q.bat.frac = p.bat.frac ∧ q.mir.ownClaim = m.ownClaim ∧
        (two → q.mir.gate = 3 ∧ q.mir.driving = false ∧ q.mir.sync = 2 ∧ q.mir.cause = m.cause ||| Part.cGap ∧
          q.sys.mode = (if p.sys.mode = .service ∨ p.sys.mode = .ceremony then .standby else p.sys.mode)) ∧
        (¬ two → q.mir.gate = m.gate ∧ q.mir.cause = m.cause ∧ q.slc = p.slc ∧
          (m.gate = 2 → f 9 1 % 8 = 4 → m.resyncFrom.isSome = true ∨ m.sync = 5 → q.mir.sync = 4 ∧ q.mir.resyncFrom = none ∧ q.sys = p.sys) ∧
          (m.gate ≠ 2 → m.hoSent = true → f 8 1 % 4 = 2 → q.mir.hoSent = false ∧ q.mir.sync = m.sync ∧
            q.sys.mode = (if p.sys.mode = .service ∨ p.sys.mode = .ceremony then .standby else p.sys.mode)) ∧
          (m.resyncFrom = none → (m.sync ≠ 5 ∨ m.gate ≠ 2 ∨ f 9 1 % 8 ≠ 4) → m.hoSent = false → q.mir.sync = m.sync ∧ q.sys = p.sys ∧ q.tnt = p.tnt))) ∧
    (∀ (fseq : BitVec 64) (fack : Word) (bs : List Byte), InOrder p Part.frHandshake fseq false →
      let n32 := fun (o : Nat) => ofLe ((bs.drop o).take 4)
      let refused := fun (i : Instr) (cause : BitVec 6) => ∃ q, Yields i s q ∧ q.mir.cause = m.cause ||| cause ∧ q.mir.hsMine = [] ∧
        q.mir.hsPeer = [] ∧ q.mir.session = m.session ∧ q.mir.keyStage = m.keyStage ∧ q.mir.sync = (if m.sync = 1 then 0 else m.sync) ∧
        q.mir.link = (if cause = Part.cRank then 3 else m.link)
      let staged := fun (mine peer : List (List Byte)) (shared : List Byte) (q : Part) =>
        let pair := fun k => if rank = 1 then mine.getD k [] ++ peer.getD k [] else peer.getD k [] ++ mine.getD k []
        let nonce := fun (x : List (List Byte)) => ((x.getD 0 []).drop 8).take 32
        let salt := if rank = 1 then nonce mine ++ nonce peer else nonce peer ++ nonce mine
        let dh := Standard.x25519 (m.hsSecret.take 32) (((peer.getD 1 []).drop 372).take 32)
        let k := Part.hkdf salt (dh ++ shared) (Part.ascii "HX6400 causeway" ++ Standard.hash 3 (pair 0 ++ pair 1 ++ pair 2)) 72
        let k12 := k.take 32 ++ (k.drop 64).take 4
        let k21 := (k.drop 32).take 32 ++ (k.drop 68).take 4
        let ks := if rank = 1 then k12 ++ k21 else k21 ++ k12
        ∀ w, w < 18 → q.mir.keyStage.get 0 w = BitVec.ofNat 32 (ofLe ((ks.drop (4 * w)).take 4))
      (m.hsMine.length = 1 → m.hsPeer = [] →
        let keys := Part.certifiedKeys ((bs.drop 48).take (n32 40)) ((bs.drop (48 + n32 40)).take (n32 44))
        (keys = none ∨ (∃ k, keys = some k ∧ Part.keyHash k.1 ∉ p.nvm.charter.partners) → refused (.handshakeStep1 fseq fack bs) Part.cIdentity) ∧
        (∀ k x seed ids, keys = some k → Part.keyHash k.1 ∈ p.nvm.charter.partners → (p.entDraw .fresh 32).1 = some x → p.identKeys = some ids →
          ((p.entDraw .fresh 32).2.entDraw .fresh 64).1 = some seed → ∃ q step2, Yields (.handshakeStep1 fseq fack bs) s q ∧
            q.mir.hsPeer = [bs] ∧ q.mir.hsMine = m.hsMine ++ [step2] ∧ q.mir.peerRank = bs.getD 1 0 ∧ q.mir.cause = m.cause ∧
            q.mir.hsSecret = x ++ seed ∧ step2.take 8 = [2, 0, 0, 0, 0, 0, 0, 0] ∧
            (step2.drop 372).take 1216 = Pk.fit 32 (Standard.x25519 x Part.x25519Base) ++ Pk.fit 1184 (Config.kemKey seed))) ∧
      (m.hsMine.length = 2 → m.hsPeer.length = 1 →
        let block := bs.drop 1588
        let peer1 := m.hsPeer.headD []
        let pl := fun (o : Nat) => ofLe ((peer1.drop o).take 4)
        let keys := Part.certifiedKeys ((peer1.drop 48).take (pl 40)) ((peer1.drop (48 + pl 40)).take (pl 44))
        let mine1 := m.hsMine.getD 0 []
        let msg := Part.signMessage "HX6400 causeway handshake" ((if rank = 1 then mine1 ++ peer1 else peer1 ++ mine1) ++ bs.take 1588)
        let good := bs.length = 9000 ∧ keys = some (Part.blockKeys block) ∧ Part.blockOk block msg = true ∧ (bs.drop 92).take 32 = (mine1.drop 8).take 32
        (¬ good → refused (.handshakeStep2 fseq fack bs) Part.cIdentity) ∧
        (good → m.peerRank = rank → refused (.handshakeStep2 fseq fack bs) Part.cRank) ∧
        (good → m.peerRank ≠ rank → rank = 2 → ∃ q, Yields (.handshakeStep2 fseq fack bs) s q ∧ q.mir.hsPeer = m.hsPeer ++ [bs] ∧
          q.mir.hsMine = m.hsMine ∧ q.mir.cause = m.cause) ∧
        (∀ r, good → m.peerRank ≠ rank → rank = 1 → (p.entDraw .fresh 32).1 = some r →
          let step3 := [3, 0, 0, 0, 0, 0, 0, 0] ++ Pk.fit 1088 (Config.kemCipher ((bs.drop 404).take 1184) r)
          ∃ q, Yields (.handshakeStep2 fseq fack bs) s q ∧ q.mir.hsMine = m.hsMine ++ [step3] ∧ q.mir.cause = m.cause ∧
            staged (m.hsMine ++ [step3]) (m.hsPeer ++ [bs]) (Config.kemShared ((bs.drop 404).take 1184) r) q)) ∧
      (rank ≠ 2 ∨ m.hsPeer.length ≠ 2 → ∃ q, Yields (.handshakeStep3 fseq fack bs) s q ∧ q = mir (taken fack false bs m)) ∧
      (rank = 2 → m.hsPeer.length = 2 → ∃ q, Yields (.handshakeStep3 fseq fack bs) s q ∧ q.mir.hsPeer = m.hsPeer ++ [bs] ∧
        staged m.hsMine (m.hsPeer ++ [bs]) (Config.kemOpen (m.hsSecret.drop 32) ((bs.drop 8).take 1088)) q)) ∧
    (p.nvm.charter.paired = false ∨ m.link.toNat < 2 → Yields .keyInstall s (mir { m with keyStage := [] })) ∧
    (p.nvm.charter.paired = true → 2 ≤ m.link.toNat → ∃ q, Yields .keyInstall s q ∧ q.mir.keyInUse = m.keyStage ∧ q.mir.keyStage = [] ∧
      q.mir.session = true ∧ q.mir.link = 3 ∧ q.mir.fseqRx = 0 ∧ q.mir.phase = (m.phase != m.session) ∧ q.mir.oldPhase = m.session ∧
      (m.session = true → q.mir.keyOld = m.keyInUse ∧ q.mir.fseqOld = m.fseqRx ∧ q.mir.sync = m.sync) ∧
      q.mir.cause = (if p.compatOk then m.cause else m.cause ||| Part.cCompat) ∧
      (m.session = false → q.mir.sync = if m.gate ≠ 2 ∧ m.sync ≠ 4 then 2 else m.sync)) ∧
    Yields .keyPhaseWindowEnd s (mir { m with oldPhase := false, keyOld := [], tx := m.tx.filter fun f => f.1 == m.phase }) ∧
    (p.nvm.charter.paired = false ∨ m.session = false → Yields .sessionRekey s p) ∧
    (∀ nonce, p.nvm.charter.paired = true → m.session = true → (p.entDraw .fresh 32).1 = some nonce → ∃ q, Yields .sessionRekey s q ∧
      q.mir.hsMine = [p.hsStep1 nonce] ∧ q.mir.hsPeer = [] ∧ q.mir.session = true ∧ q.mir.keyInUse = m.keyInUse) ∧
    (let x := m.share
     (x.stage = 0 → Yields .mirCommit s (mir { m with cfgMismatch := true, share := { x with pend := none } })) ∧
     (x.stage ≠ 0 → Yields .mirCommit s (mir { m with
       share := if m.session then { x with pend := some x.stage } else { x with pend := none, eff := x.stage } })))

/-- For a message in order. A standby that is in RESYNC or SYNCED applies an entry of the next sequence and acknowledges it;
another sequence is discarded unacknowledged and leaves it UNSYNCED with cause GAP; a holder, or a unit not in the copy,
discards it. Each item type of R530 has its effect, and nothing of another kind. LEDGER_ACK drops the entries up to its
sequence, makes their counters readable at the value of their last one, and drops nothing else. LEDGER_TIMEOUT ends the
waiting operation in MIRROR_TIMEOUT with its change kept. RESYNC_BEGIN takes the sequence and drops tenants, counters, the
owners' storage keys and the Ladle's roots; RECORDS applies items; a CHUNK leaves its slots EMPTY (with a free GEN, log entry
100), bad or as imaged, and no other slot; END sets SYNCED once its sequence is applied. A holder asked for a copy sends BEGIN
first, with its sequence, and is in RESYNC or still SOLO. -/
def Obligations.LedgerEntriesAndCopiesAreApplied : Prop :=
  ∀ (s : State) (fseq : BitVec 64) (fack : Word) (old : Bool) (bs : List Byte),
    let p := s.part
    let m := p.mir
    let t := taken fack old bs m
    let p1 := { p with mir := t }
    let f := fun (o k : Nat) => ofLe ((bs.drop o).take k)
    (InOrder p Part.frLedger fseq old →
      let i := Instr.ledger fseq fack old bs
      let seq := BitVec.ofNat 64 (f 0 8)
      let its := (bs.drop 16).take (f 12 4)
      (m.gate = 2 ∨ (m.sync ≠ 3 ∧ m.sync ≠ 4) → Yields i s p1) ∧
      (m.gate ≠ 2 → m.sync = 3 ∨ m.sync = 4 →
        (seq ≠ m.seq + 1 → ∃ q, Yields i s q ∧ q.mir.sync = 2 ∧ q.mir.cause = m.cause ||| Part.cGap ∧ q.mir.seq = m.seq ∧
          q.slc = p.slc ∧ q.tnt = p.tnt ∧ q.acu = p.acu ∧ q.bat = p.bat) ∧
        (seq = m.seq + 1 → ∃ q, Yields i s q ∧ q.mir.seq = seq ∧ q.mir.gate = m.gate ∧
          q.mir.out = m.out ++ [Part.frameOctets t Part.frAck false (leBytes 8 seq.toNat)] ∧
          (∀ x, Part.itemsOf its.length its = [x] → ItemApplied x p q) ∧
          (q.mir.sync = if (m.sync = 3 ∧ p.compatOk = true ∧ ∃ l, m.resyncEnd = some l ∧ l.toNat ≤ seq.toNat) then 4 else m.sync)))) ∧
    (InOrder p Part.frAck fseq old →
      let seq := f 0 8
      let done := m.entries.filter fun e => decide (e.seq.toNat ≤ seq)
      (done = [] → Yields (.ledgerAck fseq fack old bs) s p1) ∧
      (done ≠ [] → ∃ q, Yields (.ledgerAck fseq fack old bs) s q ∧ q.mir.seq.toNat = seq ∧
        q.mir.entries = m.entries.filter (fun e => decide (seq < e.seq.toNat)) ∧ q.tnt.counters = p.tnt.counters ∧ q.slc = p.slc ∧
        (∀ g v, (∃ e ∈ done, e.counter = some (g, v)) → (∀ e ∈ done, ∀ w, e.counter = some (g, w) → w = v) → q.counterRead g = v) ∧
        (∀ g, (∀ e ∈ done, ∀ v, e.counter ≠ some (g, v)) → q.counterRead g = p.counterRead g))) ∧
    (∀ seq : BitVec 64,
      let e := m.entries.find? fun e => e.seq == seq
      (e = none ∨ (∃ x, e = some x ∧ x.waiter = none) → Yields (.ledgerTimeout seq) s p) ∧
      (∀ x w, e = some x → x.waiter = some w → (p.ctx w).state = .finished → (p.ctx w).discard = false →
        Yields (.ledgerTimeout seq) s { p with
          dsp := { p.dsp with ctxs := p.dsp.ctxs.upd {} w fun c => { c with status := 0x42, detail := 0, result := [], outCount := 0, outPtr := none } }
          mir := { m with entries := m.entries.map fun y => if y.seq = seq then { y with waiter := none } else y } })) ∧
    (InOrder p Part.frResync fseq old →
      (m.gate = 2 → Yields (.resyncBegin fseq fack old bs) s p1) ∧
      (m.gate ≠ 2 → ∃ q, Yields (.resyncBegin fseq fack old bs) s q ∧
        (let z := BitVec.ofNat 64 (f 8 8)
         q.mir = { t with sync := 3, resyncFrom := some z, resyncEnd := none, chunks := 0, seq := z, sent := z, entries := []
                          statusEvent := q.mir.statusEvent }) ∧
        (∀ n, n ≠ 0 → q.tnt.states.get 0 n = 0 ∧ q.tnt.t.get {} n = {}) ∧ (∀ g, q.tnt.counters.get 0 g = 0) ∧ q.tnt.migs = [] ∧
        q.tnt.t.get {} 0 = p.tnt.t.get {} 0 ∧ q.slc = { p.slc with cache := [] } ∧
        (∀ n, n ≤ 1024 → q.storageKey (Part.colourOf n) = none)) ∧
      (m.sync ≠ 3 ∨ m.gate = 2 → Yields (.resyncRecords fseq fack old bs) s p1 ∧ Yields (.resyncChunk fseq fack old bs) s p1 ∧
        Yields (.resyncEnd fseq fack old bs) s p1) ∧
      (m.sync = 3 → m.gate ≠ 2 →
        (∀ x, Part.itemsOf (bs.drop 8).length (bs.drop 8) = [x] → ∃ q, Yields (.resyncRecords fseq fack old bs) s q ∧ ItemApplied x p q ∧
          q.mir.sync = 3 ∧ q.mir.seq = m.seq) ∧
        (1022 < f 4 4 → Yields (.resyncChunk fseq fack old bs) s p1) ∧
        (f 4 4 ≤ 1022 →
          let b := 1024 + 1024 * f 4 4
          let bit := fun (o j : Nat) => bitAt (bs.getD (o + j / 8) 0) (j % 8)
          let imaged := fun j => !bit 8 j && !bit 136 j
          ∃ q, Yields (.resyncChunk fseq fack old bs) s q ∧ q.mir.sync = 3 ∧ q.mir.chunks.toNat = min 1023 (m.chunks.toNat + 1) ∧ q.tnt = p.tnt ∧
            (∀ j, j < b ∨ b + 1024 ≤ j → q.slot j = p.slot j ∧ q.slc.isBad j = p.slc.isBad j) ∧
            ∀ j, j < 1024 →
              (bit 8 j = true → (q.slot (b + j)).state = Slot.empty ∧ (q.slot (b + j)).mat = List.replicate 32 0 ∧ q.slc.isBad (b + j) = false) ∧
              (bit 8 j = false → bit 136 j = true → q.slc.isBad (b + j) = true) ∧
              (imaged j = true →
                let k := 264 + 48 * ((List.range j).filter imaged).length
                (q.slot (b + j)).w0 = BitVec.ofNat 32 (f k 4) ∧ (q.slot (b + j)).w1 = BitVec.ofNat 32 (f (k + 4) 4) ∧
                (q.slot (b + j)).w2 = BitVec.ofNat 32 (f (k + 8) 4) ∧ (q.slot (b + j)).w3 = BitVec.ofNat 32 (f (k + 12) 4) ∧
                (q.slot (b + j)).mat = (bs.drop (k + 16)).take 32 ∧ q.slc.isBad (b + j) = false)) ∧
        (let l := BitVec.ofNat 64 (f 8 8)
         ∃ q, Yields (.resyncEnd fseq fack old bs) s q ∧
          (l.toNat ≤ m.seq.toNat → p.compatOk = true → q.mir.sync = 4 ∧ q.mir.resyncFrom = none ∧ q.mir.resyncEnd = none) ∧
          (m.seq.toNat < l.toNat ∨ p.compatOk = false → q = { p with mir := { t with resyncEnd := some l } })))) ∧
    (InOrder p Part.frControl fseq old →
      (m.gate ≠ 2 → Yields (.resyncRequest fseq fack old bs) s p1) ∧
      (m.gate = 2 → ∃ q fs, Yields (.resyncRequest fseq fack old bs) s q ∧
        q.mir.out = m.out ++ [Part.frameOctets t Part.frResync false ([1, 0, 0, 0, 0, 0, 0, 0] ++ leBytes 8 m.sent.toNat)] ++ fs ∧
        1025 ≤ fs.length ∧ q.mir.resyncFrom = some m.sent ∧ q.mir.sync = (if m.sync = 5 then 5 else 3) ∧ q.mir.sent = m.sent ∧
        q.mir.chunks = 1023 ∧ q.mir.gate = 2 ∧ q.slc = p.slc ∧ q.tnt = p.tnt))

/-- GATE_CLAIM_FIRST opens the double decision exactly on R536's conditions (a former holder whose HANDOVER was not taken
counts as standby: log entry 73). When the second evaluation finds them again, GATE reads HOLDING, the epoch is one more than
the largest of the own, the partner's and the floor, the claim is epoch and rank, STANDBY becomes SERVICE, SYNC reads SOLO
without a link, and a FREEZING tenant with nothing in flight is FROZEN unless its function is WEDGED; else a claiming unit is
IDLE. A holder that reads its release low is LOST, standby and UNSYNCED with GAP. A change of the line is stored, a fault
recorded, and STUCK resets a holder. Lost links: 250 us leave a standby UNSYNCED, 300 us a holder SOLO with every entry ended.
MIR_HANDOVER releases and sends HANDOVER with the last sequence; after its time-out the unit claims again, or without a link
is an UNSYNCED standby. -/
def Obligations.TheGateIsClaimedKeptAndHandedOver : Prop :=
  (∀ s : State,
    let p := s.part
    let m := p.mir
    let mir := fun (x : Mir) => { p with mir := x }
    let rank : Byte := if p.sys.unitSel then 2 else 1
    let may := p.nvm.charter.paired = true ∧ m.gateEn = true ∧
      (p.sys.mode = .standby ∨ p.sys.mode = .assay ∨ (m.hoSent = true ∧ p.sys.mode = .service)) ∧
      (m.sync = 4 ∨ (m.link ≠ 3 ∧ m.seenPartner = false)) ∧
      ((m.line = 1 ∧ (m.seenPartner = true ∨ rank = 1 ∨ m.freeLong = true)) ∨ (m.hoRx = some m.seq ∧ m.highFive = true))
    let asStandby := if p.sys.mode = .service ∨ p.sys.mode = .ceremony then Mode.standby else p.sys.mode
    (m.gate = 2 ∨ m.gate = 1 ∨ ¬ may → Yields .gateClaimFirst s p) ∧
    (m.gate ≠ 2 → m.gate ≠ 1 → may → ∃ q, Yields .gateClaimFirst s q ∧ q.mir = { m with gate := 1 } ∧
      q.tmp.due = p.tmp.due ++ [.gateClaim true] ∧ q.sys = p.sys ∧ q.slc = p.slc) ∧
    (∀ (n : Fin 16) b, p.tmp.due[n.val]? = some (.gateClaim b) →
      (¬ may → m.gate ≠ 2 → ∃ q, Yields (.decisionSecondEval n) s q ∧ q.mir.gate ≠ 2 ∧ q.mir.ownClaim = m.ownClaim) ∧
      (may → p.sys.freezing = false → ∃ q, Yields (.decisionSecondEval n) s q ∧
        let epoch := max (max (m.ownClaim.toNat / 65536) (m.peerClaim.toNat / 65536)) (m.floorHi.toNat * 2 ^ 32 + m.floorLo.toNat) + 1
        q.mir.gate = 2 ∧ q.mir.driving = true ∧ (epoch < 2 ^ 48 → q.mir.ownClaim.toNat = epoch * 65536 + rank.toNat * 256) ∧
        q.mir.lastHeld.toNat = epoch % 2 ^ 48 % 2 ^ 18 ∧ q.mir.pairEvent = true ∧ q.mir.sync = (if m.link = 3 then m.sync else 5) ∧
        q.mir.hoSent = false ∧ q.sys.mode = (if p.sys.mode = .standby then .service else p.sys.mode) ∧ q.nvm = p.nvm ∧
        ((∀ x ∈ p.tnt.states, x.2 ≠ 5) → q.slc = p.slc ∧ (∀ k, p.tnt.states.get 0 k = 2 →
          q.tnt.states.get 0 k = if p.ctxsOf k = [] ∧ (p.fn k).wedged = false then 3 else 2)))) ∧
    (∀ low : Bool, (m.gate ≠ 2 ∨ low = false → Yields (.gatePeriod low) s p) ∧
      (m.gate = 2 → low = true → ∃ q, Yields (.gatePeriod low) s q ∧ q.mir.gate = 3 ∧ q.mir.driving = false ∧ q.mir.sync = 2 ∧
        q.mir.cause = m.cause ||| Part.cGap ∧ q.mir.ownClaim = m.ownClaim ∧ q.sys.mode = asStandby ∧ q.sys.session.active = false)) ∧
    (∀ (line : BitVec 2) (long high : Bool),
      let i := Instr.lineStateChange line long high
      (p.nvm.charter.paired = false → Yields i s p) ∧
      (p.nvm.charter.paired = true → ¬ (line = 2 ∧ m.gate = 2) → ∃ q, Yields i s q ∧
        Noted p (mir { m with line := line, freeLong := long && line == 1, highFive := high, pairEvent := true }) q) ∧
      (p.nvm.charter.paired = true → line = 2 → m.gate = 2 → ∃ q, Yields i s q ∧ q.sys.mode = .wake ∧ q.mir = {} ∧ q.slc = {} ∧
        q.nvm.flash = p.nvm.flash ∧ q.bat.vault = p.bat.vault)) ∧
    (let i := Instr.standbyLinkTimeout
     let out := m.link ≠ 3 ∧ m.gate ≠ 2 ∧ (m.line = 0 ∨ m.line = 3) ∧ (m.sync = 4 ∨ m.sync = 3)
     (¬ out → Yields i s p) ∧
     (out → ∃ q, Yields i s q ∧ q.mir.sync = 2 ∧ q.mir.cause = m.cause ||| Part.cLinkLost ∧ q.mir.resyncFrom = none ∧
       q = { p with mir := q.mir, hif := q.hif })) ∧
    (let i := Instr.holderSoloTimeout
     let alone := m.link ≠ 3 ∧ m.gate = 2 ∧ m.soloAuto = true
     (¬ alone → Yields i s p) ∧
     (alone → ∃ q, Yields i s q ∧ q.mir.sync = 5 ∧ q.mir.entries = [] ∧ q.mir.gate = 2 ∧ q.tnt.counters = p.tnt.counters ∧ q.slc = p.slc ∧
       (∀ g, q.counterRead g = p.tnt.counters.get 0 g) ∧
       ∀ e ∈ m.entries, ∀ w, e.waiter = some w → (p.ctx w).state = .finished → (p.ctx w).discard = false →
         (q.ctx w).state = .finished ∧ (q.ctx w).status = 0x42 ∧ q.waits w = false)) ∧
    (m.gate ≠ 2 → Yields .mirHandover s p) ∧
    (m.gate = 2 → ∃ q, Yields .mirHandover s q ∧ q.mir.gate = 0 ∧ q.mir.driving = false ∧ q.mir.hoSent = true ∧ q.mir.sync = m.sync ∧
      q.mir.ownClaim = m.ownClaim ∧ q.sys.session.active = false ∧
      (p.sys.session.active = false → m.session = true → q.mir.out =
        m.out ++ [Part.frameOctets m Part.frControl false ([1, 0, 0, 0, 0, 0, 0, 0] ++ leBytes 8 m.sent.toNat)])) ∧
    Yields .handoverRequest s (mir { m with pairEvent := true, hoStop := m.hoStop || (m.gate == 2 && m.sync == 4 && m.session) }) ∧
    (let i := Instr.handoverTimeout
     (m.hoSent = false ∨ m.gate = 2 → Yields i s p) ∧
     (m.hoSent = true → m.gate ≠ 2 → m.gate ≠ 1 →
       (may → ∃ q, Yields i s q ∧ q.mir.gate = 1 ∧ q.tmp.due = p.tmp.due ++ [.gateClaim true] ∧ q.mir.cause = m.cause ||| Part.cHandover) ∧
       (¬ may → m.link ≠ 3 → ∃ q, Yields i s q ∧ q.mir.hoSent = false ∧ q.mir.sync = 2 ∧ q.mir.gate = m.gate ∧
         q.mir.cause = m.cause ||| Part.cHandover ||| Part.cLinkLost ∧ q.sys.mode = asStandby) ∧
       (¬ may → m.link = 3 → ∃ q, Yields i s q ∧ Recorded (mir { m with cause := m.cause ||| Part.cHandover }) q)))) ∧
  (∀ (s : State) (fseq : BitVec 64) (fack : Word) (old : Bool) (bs : List Byte), InOrder s.part Part.frControl fseq old →
    let v := BitVec.ofNat 64 (ofLe ((bs.drop 8).take 8))
    let t := taken fack old bs s.part.mir
    Yields (.handover fseq fack old bs) s { s.part with mir := { t with hoRx := some v, pairEvent := true } } ∧
    Yields (.stepDown fseq fack old bs) s { s.part with mir := { t with
      peerGate := if t.peerClaim = v ∨ t.peerGate = 2 then 3 else t.peerGate, pairEvent := true } })

/-- For a manager command that begins at once, on a tenant in the state that its step needs; any other state, a missing
session or a step out of turn ends BAD_DESCRIPTOR 0x0A. MIG_OFFER leaves a session OFFERED with fresh id and secrets and gives
the offer; MIG_ACCEPT of an offer that R401 admits reserves TARGET as RESTORING and gives the answer; MIG_BIND of its answer
derives the key. SNAPSHOT seals the next part of the stream, destroying on segment 0 exactly the keys not carried (EXPORT is
EPHEMERAL or reserved) and unwritten landings, and on the last leaves the tenant SENT with RESULT 1. RESTORE keeps a good
segment and remembers a bad one; the last one, after a fault, ends VERIFY_FALSE and writes nothing, else leaves the tenant
FROZEN with its keys, counters and storage key and gives map and receipt. ABANDON, REFUSE and CLOSE end the session as R408
says. An admitted peer stands on the charter's list and signed the octets. -/
def Obligations.MigrationMovesAFrozenTenant : Prop :=
  ∀ (s : State) (c : AdmCmd), c.fn = 0 →
    let p := s.part
    let n := c.head.target.toNat + 1
    let st := p.tnt.states.get 0 n
    let col := Part.colourOf n
    let buf := c.buf.getD []
    let kind := fun (op : Nat) (cls : Bool) (used : List Nat) (reads writes : Nat) =>
      ({ op := op, mgr := true, classA := cls, used := used, reads := reads, writes := writes } : Part.AdmKind)
    let fails := fun (i : Instr) (op : Nat) => ∃ q, Yields i s q ∧ AdmRefuses op c 0x10 0x0A p q
    let ends := fun (i : Instr) (op : Nat) (st : Byte) (res out : List Byte) (eff : Part → Prop) =>
      ∃ q, Yields i s q ∧ AdmEnds op c st 0 res out p q ∧ (∀ m, m ≠ n → q.tnt.states.get 0 m = p.tnt.states.get 0 m ∧ q.migOf m = p.migOf m) ∧ eff q
    let none? := 1024 < n ∨ p.migOf n = none
    let room := fun (k : Nat) => 2768 + p.identChains.1.length + p.identChains.2.length + 7412 ≤ k
    (∀ magic text extra bs peer, p.exchangePeer magic text extra bs = some peer →
      let k := Part.exchangeLen bs
      let block := (bs.drop k).take 7412
      Part.keyHash peer.1 ∈ p.nvm.charter.migPeers ∧ Part.blockKeys block = peer ∧
        Part.blockOk block (Part.signMessage text (bs.take k) ++ extra) = true ∧ bs.take 5 = Part.ascii magic ++ [1]) ∧
    (AdmReady p (kind 0x120 false [] 0 0) c →
      (1024 < n ∨ st ≠ 3 ∨ (p.migOf n).isSome = true ∨ 16 ≤ p.tnt.migs.length → fails (.migOffer c) 0x120) ∧
      (∀ r seed ids, n ≤ 1024 → st = 3 → p.migOf n = none → p.tnt.migs.length < 16 → p.identKeys = some ids → room c.head.len.toNat →
        (p.entDraw .fresh 48).1 = some r → ((p.entDraw .fresh 48).2.entDraw .fresh 64).1 = some seed → ∃ out,
        ends (.migOffer c) 0x120 0 [] out fun q => q.slc = p.slc ∧ q.tnt.states = p.tnt.states ∧
          out.take 12 = Part.ascii "HXMO" ++ [1, 0, 0, 0] ++ leBytes 2 (n - 1) ++ [0, 0] ∧ (out.drop 12).take 16 = Pk.fit 16 (r.take 16) ∧
          (out.drop 36).take 32 = Pk.fit 32 (Standard.x25519 (r.drop 16) Part.x25519Base) ∧ (out.drop 68).take 1184 = Pk.fit 1184 (Config.kemKey seed) ∧
          q.migOf n = some { stage := .offered, id := r.take 16, secret := r.drop 16 ++ seed, offer := out })) ∧
    (AdmReady p (kind 0x121 true Part.allotUsed 10180 0) c →
      let offer := Part.exchangeWhole buf
      let a := Pk.fit 16 c.args
      let peer := p.exchangePeer "HXMO" "HX6400 migration offer" [] offer
      (1024 < n ∨ st ≠ 0 ∨ peer = none → fails (.migAccept c) 0x121) ∧
      (∀ pk ids t r, n ≤ 1024 → st = 0 → peer = some pk → p.identKeys = some ids → p.takeRanges n (Part.allotOf a) = some t →
        Part.allotOk a = true → p.tnt.migs.length < 16 → room c.head.len.toNat →
        (admBegun p (kind 0x121 true Part.allotUsed 10180 0) c).tagFault 0 t.granBase.toNat t.grans.toNat col = none →
        (p.entDraw .fresh 64).1 = some r → ∃ out, ends (.migAccept c) 0x121 0 [] out fun q =>
          q.tnt.states.get 0 n = 5 ∧ (q.tnt.t.get {} n).st.eff = t ∧ q.slc = p.slc ∧
          out.take 12 = Part.ascii "HXMA" ++ [1, 0, 0, 0] ++ leBytes 2 (n - 1) ++ [0, 0] ∧
          (out.drop 1252).take 1088 = Pk.fit 1088 (Config.kemCipher ((offer.drop 68).take 1184) (r.drop 32)) ∧
          q.migOf n = some { stage := .accepted, id := (offer.drop 12).take 16, peer := Part.keyHash pk.1, peerKeys := pk.1 ++ pk.2
                             key := Part.hkdf ((offer.drop 12).take 16) (Standard.x25519 (r.take 32) ((offer.drop 36).take 32) ++
                               Config.kemShared ((offer.drop 68).take 1184) (r.drop 32))
                               (Part.ascii "HX6400 migration" ++ Standard.hash 3 (offer ++ out)) 32 })) ∧
    (AdmReady p (kind 0x122 false [] 10180 0) c →
      (none? ∨ st ≠ 3 → fails (.migBind c) 0x122) ∧
      (∀ m, n ≤ 1024 → st = 3 → p.migOf n = some m →
        let answer := Part.exchangeWhole buf
        let peer := p.exchangePeer "HXMA" "HX6400 migration answer" (Standard.hash 3 m.offer) answer
        (peer = none ∨ m.stage ≠ .offered ∨ (answer.drop 12).take 16 ≠ m.id → fails (.migBind c) 0x122) ∧
        (∀ pk, peer = some pk → m.stage = .offered → (answer.drop 12).take 16 = m.id → ends (.migBind c) 0x122 0 [] [] fun q =>
          q.migOf n = some { m with
            stage := .bound, peer := Part.keyHash pk.1, peerKeys := pk.1 ++ pk.2, secret := []
            key := Part.hkdf m.id (Standard.x25519 (m.secret.take 32) ((answer.drop 36).take 32) ++
              Config.kemOpen (m.secret.drop 32) ((answer.drop 1252).take 1088)) (Part.ascii "HX6400 migration" ++ Standard.hash 3 (m.offer ++ answer)) 32 } ∧
          q.slc = p.slc ∧ q.tnt.states = p.tnt.states))) ∧
    (AdmReady p (kind 0x123 true [] 0 0) c →
      (none? ∨ st ≠ 3 → fails (.snapshot c) 0x123) ∧
      (∀ m, n ≤ 1024 → st = 3 → p.migOf n = some m →
        ((m.stage ≠ .bound ∧ m.stage ≠ .sending) ∨ c.a0.toNat ≠ m.seg → fails (.snapshot c) 0x123) ∧
        (∀ id key, m.stage = .bound ∨ m.stage = .sending → c.a0.toNat = m.seg → c.head.len ≠ 0 → p.storageKey col = some (id, key) →
          let first := m.stage = .bound
          let gone := (p.ephemeral n).flatMap p.slc.chainOf ++ p.landings n
          let stream := if first then (Part.stateStream (p.tenantRecords n id key)).1 else m.stream
          let size := min stream.length (c.head.len.toNat - 64)
          let last := stream.length ≤ c.head.len.toNat - 64
          let head := Part.ascii "HXMS" ++ [1, if last then 1 else 0, 0, 0] ++ Pk.fit 16 m.id ++ leBytes 4 m.seg ++ leBytes 4 size ++ List.replicate 16 0
          let ct := Crypto.gcmCrypt m.key (beBytes 12 m.seg) 0 (stream.take size)
          ends (.snapshot c) 0x123 0 [if last then 1 else 0] (head ++ ct ++ Crypto.gcmTag m.key (beBytes 12 m.seg) head ct) fun q =>
            (first → Destroyed gone p q) ∧ (¬ first → q.slc = p.slc) ∧ q.tnt.states.get 0 n = (if last then 4 else 3) ∧
            ∃ m', q.migOf n = some m' ∧ m'.stage = (if last then .sent else .sending) ∧ m'.seg = m.seg + 1 ∧ m'.stream = stream.drop size ∧
              m'.id = m.id ∧ m'.peer = m.peer)) ∧
      (∀ j, j ∈ p.ephemeral n → ((p.slot j).exportClass = 0 ∨ 4 ≤ (p.slot j).exportClass.toNat) ∧ (p.slot j).state = Slot.key ∧ (p.slot j).colour = col) ∧
      (∀ j, j ∈ p.landings n → (p.slot j).state = Slot.landing ∧ (p.slot j).colour = col) ∧
      (∀ x ∈ p.carried n, x.2 = p.slot x.1 ∧ x.2.state = Slot.key ∧ 1 ≤ x.2.exportClass.toNat ∧ x.2.exportClass.toNat ≤ 3 ∧ x.2.colour = col)) ∧
    (AdmReady p (kind 0x124 true [] 64 0) c →
      (none? ∨ st ≠ 5 → fails (.restore c) 0x124) ∧
      (∀ m, n ≤ 1024 → st = 5 → p.migOf n = some m →
        let seg := c.a0.toNat
        let size := ofLe ((buf.drop 28).take 4)
        let last := bitAt (buf.getD 5 0) 0 = true
        let head := buf.take 48
        let ct := (buf.drop 48).take size
        let sealed' := head = Part.ascii "HXMS" ++ [1, if last then 1 else 0, 0, 0] ++ Pk.fit 16 m.id ++ leBytes 4 seg ++ leBytes 4 size ++ List.replicate 16 0 ∧
          64 + size ≤ buf.length ∧ Crypto.gcmTag m.key (beBytes 12 seg) head ct = (buf.drop (48 + size)).take 16
        let why : Byte := if ¬ sealed' then 1 else if seg ≠ m.seg then 2 else 0
        let bad := if m.bad = 0 then why else m.bad
        let stream := if why = 0 then m.stream ++ Crypto.gcmCrypt m.key (beBytes 12 seg) 0 ct else m.stream
        let m' := { m with stage := .restoring, seg := m.seg + 1, bad := bad, stream := stream }
        let fault := if bad = 0 then p.streamFault n stream else bad
        (¬ last → ends (.restore c) 0x124 0 [] [] fun q => q.migOf n = some m' ∧ q.slc = p.slc ∧ q.tnt.states = p.tnt.states) ∧
        (last → fault ≠ 0 → ends (.restore c) 0x124 1 [] [] fun q => q.migOf n = some { m' with bad := fault, stream := [] } ∧ q.slc = p.slc ∧
          q.tnt.states = p.tnt.states ∧ q.tnt.counters = p.tnt.counters ∧ q.bat = p.bat) ∧
        (∀ ids root map p', last → fault = 0 →
          let rs := Part.recordsOf stream.length stream
          let ks := Part.bodies 5 rs
          let skey := (Part.bodies 3 rs).headD []
          p.identKeys = some ids → p.storageRoot = some root → p.restoreKeys n ks (c.pick.map BitVec.toNat) = some (map, p') →
          16 * ((8 + 8 * ks.length + 15) / 16) + 7508 ≤ c.head.len.toNat → ∃ out, ends (.restore c) 0x124 0 [] out fun q =>
            q.tnt.states.get 0 n = 3 ∧ q.migOf n = none ∧ q.slc.slots = p'.slc.slots ∧
            (out.take (8 + 8 * ks.length)).take (8 + map.length) = leBytes 4 ks.length ++ [0, 0, 0, 0] ++ map.take (8 * ks.length) ∧
            q.vaultRead (Part.skeyOffset col) 4 = leBytes 4 (ofLe (skey.take 4))))) ∧
    (AdmReady p (kind 0x125 false [] 0 0) c →
      let stage := (p.migOf n).map Mig.stage
      (1024 < n ∨ (st ≠ 3 ∧ st ≠ 5) ∨ (stage ≠ some .offered ∧ stage ≠ some .bound ∧ stage ≠ some .accepted) → fails (.migAbandon c) 0x125) ∧
      (n ≤ 1024 → st = 3 ∨ st = 5 → stage = some .offered ∨ stage = some .bound → ends (.migAbandon c) 0x125 0 [] [] fun q =>
        q.migOf n = none ∧ q.slc = p.slc ∧ q.tnt.states = p.tnt.states) ∧
      (n ≤ 1024 → st = 3 ∨ st = 5 → stage = some .accepted → ends (.migAbandon c) 0x125 0 [] [] fun q =>
        q.migOf n = none ∧ q.tnt.states.get 0 n = 0 ∧ Destroyed (p.slc.ownedBy col) p q)) ∧
    (AdmReady p (kind 0x126 true [] 0 7508) c →
      (none? ∨ st ≠ 5 → fails (.migRefuse c) 0x126) ∧
      (∀ m ids, n ≤ 1024 → st = 5 → p.migOf n = some m → p.identKeys = some ids → ∃ out, ends (.migRefuse c) 0x126 0 [] out fun q =>
        q.migOf n = none ∧ q.tnt.states.get 0 n = 0 ∧ Destroyed (p.slc.ownedBy col) p q ∧
        out.take 96 = Part.ascii "HXMC" ++ [1, 2, if m.bad = 0 then 5 else m.bad, 0] ++ Pk.fit 16 m.id ++ leBytes 4 m.seg ++ [0, 0, 0, 0] ++
          Pk.fit 48 [] ++ List.replicate 16 0)) ∧
    (AdmReady p (kind 0x127 true [] 7508 0) c →
      let bs := buf.take 7508
      (none? ∨ st ≠ 4 → fails (.migClose c) 0x127) ∧
      (∀ m, n ≤ 1024 → st = 4 → p.migOf n = some m →
        (Part.closeOk m bs = false → fails (.migClose c) 0x127) ∧
        (Part.closeOk m bs = true → bs.getD 5 0 = 1 → p.mayDestroy n = true → ends (.migClose c) 0x127 0 [] [] fun q =>
          q.tnt.states.get 0 n = 0 ∧ q.migOf n = none ∧ Destroyed (p.slc.ownedBy col) p q) ∧
        (Part.closeOk m bs = true → bs.getD 5 0 ≠ 1 → ends (.migClose c) 0x127 0 [] [] fun q =>
          q.tnt.states.get 0 n = 3 ∧ q.migOf n = none ∧ q.slc = p.slc)))

/-- A record's octets stand as R584 to R586 say, the CRC last. A record posted, at the present time, loses its payload where
records are fixed. Past its code's limit it is only counted in its entry. Else, while frozen it waits in the queue of 64; at a
full queue it is counted as dropped, or, if critical, ends the freeze. Unfrozen, past its severity's share of the ring it is
counted as dropped; else its octets stand at the write pointer, and a critical record's also in the critical area, SEQ
advances by 1 (by 2 with a DROPPED record ahead of it), PENDING follows IRQ_SEV, and no other octet of its area changes; an
alarm's octets extend the evidence chain. RECORD_POST posts with the code's severity. A flood's end posts the summary; a
window's end drops the entry or restarts the count. EVR_FREEZE_SET freezes unless frozen; CLEAR by the owner and the timeout
end the freeze, and the queue drains, each record HELD. EVR_SW_GO posts its set's record and zeroes its payload words, or only
sets SW_ERR. Nothing but the Tally Book and the chain changes. -/
def Obligations.RecordsReachTheTallyBook : Prop :=
  let len := fun (x : Rec) (e : Evr) => (x.bytes e.seq).length
  let put := fun (x : Rec) (e e' : Evr) =>
    e'.seq = e.seq + 1 ∧ e'.wp = (e.wp + len x e) % Evr.ringSize ∧ e'.hold = e.hold ∧ e'.frozen = e.frozen ∧
      e'.pending = (e.pending || decide (e.irqSev.toNat ≤ x.sev.toNat)) ∧ e'.st = e.st ∧
      { off := e.wp, len := len x e, persisted := !e.persistEn, closes := x.critical } ∈ e'.ring ∧
      (∀ a, a < Evr.ringSize → Tab.get ram e'.store a =
        if e.wp ≤ a ∧ a < e.wp + len x e then (x.bytes e.seq).getD (a - e.wp) 0 else Tab.get ram e.store a) ∧
      (x.critical = false → e'.critWp = e.critWp ∧ ∀ a, Evr.ringSize ≤ a → Tab.get ram e'.store a = Tab.get ram e.store a) ∧
      (x.critical = true → e.critWp + len x e ≤ Evr.critEnd → ∀ a, Evr.ringSize ≤ a → Tab.get ram e'.store a =
        if e.critWp ≤ a ∧ a < e.critWp + len x e then (x.bytes e.seq).getD (a - e.critWp) 0 else Tab.get ram e.store a)
  let takes := fun (x : Rec) (e e' : Evr) =>
    let fits := x.critical = true ∨ e.unpersisted + x.len ≤ Evr.share x
    (e.frozen = true → e.hold.length < 64 → e' = { e with hold := e.hold ++ [x] }) ∧
    (e.frozen = true → 64 ≤ e.hold.length → x.critical = false →
      e' = { e with holdDropped := satInc e.holdDropped, holdNow := e.holdNow + 1 }) ∧
    (e.frozen = true → 64 ≤ e.hold.length → x.critical = true → e'.frozen = false ∧ e'.freezeBroken = true ∧ e'.hold = []) ∧
    (e.frozen = false → ¬ fits → e' = { e with
      dropPend := e.dropPend.upd 0 x.sev.toNat (· + 1)
      dropInfo := if x.sev = 0 then satInc e.dropInfo else e.dropInfo
      dropNotice := if x.sev = 1 then satInc e.dropNotice else e.dropNotice
      dropWarning := if x.sev = 2 then satInc e.dropWarning else e.dropWarning }) ∧
    (e.frozen = false → fits → e.dropPend.get 0 x.sev.toNat = 0 → e.wp + len x e ≤ Evr.ringSize → Evr.ringSize ≤ e.critWp → put x e e') ∧
    (e.frozen = false → fits → e.dropPend.get 0 x.sev.toNat ≠ 0 → e'.seq = e.seq + 2 ∧ e'.dropPend = e.dropPend.set 0 x.sev.toNat 0)
  (∀ (r : Rec) (n : Word), r.payload.length ≤ 224 →
    let b := r.bytes n
    b.length = r.len ∧ b.take 2 = leBytes 2 r.code.toNat ∧ (b.getD 2 0).setWidth 2 = r.sev ∧ b.getD 3 0 = 0xA5 ∧
      (b.drop 4).take 4 = leBytes 4 n.toNat ∧ (b.drop 10).take 6 = leBytes 6 r.secs.toNat ∧ (b.drop 16).take 4 = leBytes 4 r.detail.toNat ∧
      (b.drop 20).take 4 = leBytes 4 r.aux.toNat ∧ (r.payload = [] → r.len = 32 ∧ (b.drop 24).take 4 = leBytes 4 r.count.toNat) ∧
      (r.payload ≠ [] → r.len = 16 * ((47 + r.payload.length) / 16) ∧ (b.drop 24).take 4 = leBytes 2 r.len ++ leBytes 2 r.payload.length ∧
        (b.drop 28).take r.payload.length = r.payload) ∧ b.drop (r.len - 4) = leBytes 4 (crc32 (b.take (r.len - 4))).toNat) ∧
  (∀ (r : Rec) (p : Part),
    let e := p.evr
    let q := p.postRec r
    let x : Rec := { r with
      secs := p.bat.secs, frac := p.bat.frac, trunc := decide (r.payload ≠ []) && p.fixedOnly
      payload := if p.fixedOnly then [] else r.payload }
    let lim := evLimit e.st.eff r.code r.sev
    let entry := e.limiter.find? fun y => y.code == r.code
    let passes := lim = 0 ∨ entry = none ∨ ∃ y, entry = some y ∧ y.written < lim
    Recorded p q ∧
    (e.folds = [] → ¬ passes → ∃ y, entry = some y ∧
      let y' := { y with
        suppressed := y.suppressed + 1, inWindow := y.inWindow + 1, lastDetail := r.detail, flood := true, sev := r.sev
        firstSecs := if y.flood then y.firstSecs else p.bat.secs.setWidth 32 }
      q = { p with evr := { e with limiter := e.limiter.map fun z => if z.code == r.code then y' else z } }) ∧
    (e.folds = [] → passes →
      ∃ e', takes x { e with limiter := q.evr.limiter, untracked := q.evr.untracked } e' ∧ q.evr = { e' with folds := [] }) ∧
    (e.folds = [] → passes → e.frozen = false → Evr.alarmRecord x = true → e.dropPend.get 0 x.sev.toNat = 0 →
      q.bat.evidN = p.bat.evidN + 1 ∧
        q.bat.evidH = BitVec.ofNat 384 (ofBe (Standard.hash 3 (beBytes 48 p.bat.evidH.toNat ++ x.bytes e.seq)))) ∧
    (e.folds = [] → e.frozen = false → Evr.alarmRecord x = false → q.bat = p.bat)) ∧
  (∀ (p : Part) (i : Nat), i < 19 →
    p.sevOf (BitVec.ofNat 16 (0xD100 + i)) = if p.rank i = 0 then 1 else if p.rank i = 1 then 2 else 3) ∧
  ∀ s : State,
    let p := s.part
    let e := p.evr
    (∀ code detail aux payload, Yields (.recordPost code detail aux payload) s
      (p.postRec { code := code, sev := p.sevOf code, detail := detail, aux := aux, payload := payload })) ∧
    (∀ (code : BitVec 16) (sixty : Bool),
      let entry := e.limiter.find? fun y => y.code == code
      (entry = none → Yields (.rateWindowEnd code sixty) s p) ∧
      ∀ x, entry = some x →
        let sum : Rec := { code := code, sev := x.sev, detail := x.lastDetail, aux := x.firstSecs, count := BitVec.ofNat 32 x.suppressed
                           secs := p.bat.secs, frac := p.bat.frac, summary := true }
        let put' := fun (y : LimEntry) => { e with limiter := e.limiter.map fun z => if z.code == code then y else z }
        let gone := { e with limiter := e.limiter.filter fun z => z.code != code }
        (x.flood = false → Yields (.rateWindowEnd code true) s p ∧ Yields (.rateWindowEnd code false) s { p with evr := gone }) ∧
        (x.flood = true → (∃ q, Yields (.rateWindowEnd code true) s q ∧ q = { p with evr := q.evr } ∧
            takes sum (put' { x with suppressed := 0, inWindow := 0, flood := false }) q.evr) ∧
          (x.inWindow = 0 → ∃ q, Yields (.rateWindowEnd code false) s q ∧ q = { p with evr := q.evr } ∧ takes sum gone q.evr) ∧
          (x.inWindow ≠ 0 → Yields (.rateWindowEnd code false) s { p with evr := put' { x with written := 0, inWindow := 0 } }))) ∧
    (∀ w : World,
      (e.frozen = true → Yields (.evrFreezeSet w) s p) ∧
      (e.frozen = false → Yields (.evrFreezeSet w) s { p with evr := { e with frozen := true, freezeWorld := w.bit } }) ∧
      (e.frozen = false ∨ e.freezeWorld ≠ w.bit → Yields (.evrFreezeClear w) s p) ∧
      (e.frozen = false → Yields .evrFreezeTimeout s p) ∧
      (e.frozen = true → ∀ i, i = Instr.evrFreezeTimeout ∨ (i = .evrFreezeClear w ∧ e.freezeWorld = w.bit) → ∃ q, Yields i s q ∧
        Recorded p q ∧ q.evr.frozen = false ∧ q.evr.hold = [] ∧ q.evr.holdNow = 0 ∧
        (e.hold = [] → e.holdNow = 0 → e.folds = [] → q = { p with evr := { e with frozen := false } }) ∧
        (e.dropPend = [] → (∀ r ∈ e.hold, r.critical = true) →
          q.evr.seq = e.seq + BitVec.ofNat 32 (e.hold.length + if e.holdNow = 0 then 0 else 1)) ∧
        (∀ r, e.hold = [r] → e.holdNow = 0 → ∃ e', takes { r with held := true } { e with frozen := false, hold := [] } e' ∧
          q.evr = { e' with folds := [] })) ∧
      let x := if w = .normal then e.swN else e.swS
      let ok := (if w = .normal then 0x400 ≤ x.number.toNat ∧ x.number.toNat ≤ 0x7FF else 0x800 ≤ x.number.toNat) ∧ x.plen.toNat ≤ 224
      let e' := if w = .normal then { e with swN := { x with pay := [] } } else { e with swS := { x with pay := [] } }
      (¬ ok → Yields (.evrSwGo w) s { p with evr := { e with swErr := true } }) ∧
      (ok → Yields (.evrSwGo w) s (Part.postRec
        { code := BitVec.ofNat 16 (0xE000 + x.number.toNat), sev := if w = .normal ∧ x.sev = 3 then 2 else x.sev, detail := x.detail, aux := x.aux
          payload := ((List.range 56).flatMap fun k => leBytes 4 (x.pay.get 0 k).toNat).take x.plen.toNat } { p with evr := e' })))

/-- PERSIST_EN starts the scan unless it is set. The scan's end resumes in the sector after the valid one of highest
SECTOR_SEQ (sector 0 with none), with every record of the ring to be copied, and records PERSIST_RESUMED. LOG_PAGE_PROGRAM
acts on a closed page while persistence runs: with DEVICE the sector is abandoned, the next begun, FLASH_ERR set and recorded;
else one 256-octet page of LOG holds, from its start, the sector's header if it is the first (its ERASES, SECTOR_SEQ and the
hash of the last valid sector) and the next unpersisted records whole, zero after them; the first page leaves the rest of its
sector erased; no other octet of flash changes; the records copied are marked. A FLUSH and the timeout close the partial page.
EVR_RD_DATA and EVR_BLOG_DATA give the word at their address and advance it. A COMMIT is accepted exactly when the rates rise
from 1, BUDGET and FLUSH_MS are not 0, and no two valid overrides name one code; else CFG_MISMATCH is set and the set in
effect stays. -/
def Obligations.ThePersistentLogAndItsRegisters : Prop :=
  (∀ (cap : Nat) (l : List RingEntry), let t := Part.pageTake cap l; t.1 <+: l ∧ (t.1.map RingEntry.len).sum ≤ cap) ∧
  ∀ s : State,
    let p := s.part
    let e := p.evr
    let valid := fun (k : Nat) => p.nvm.flash.read erased (0x1100000 + k * 0x1000) 4 = Part.ascii "HXLG"
    let seqOf := fun (k : Nat) => p.nvm.flash.num erased (0x1100000 + k * 0x1000 + 8) 8
    ((p.logLast = none ↔ ∀ k < 4096, ¬ valid k) ∧
      ∀ k, p.logLast = some k → k < 4096 ∧ valid k ∧ ∀ j < 4096, valid j → seqOf j ≤ seqOf k) ∧
    (e.persistEn = true → Yields .persistEnable s p) ∧
    (e.persistEn = false → Yields .persistEnable s { p with evr := { e with persistEn := true, scanning := true } }) ∧
    (e.scanning = false → Yields .persistScanEnd s p) ∧
    (e.scanning = true →
      let n := match p.logLast with | some k => seqOf k | none => 0
      let next := match p.logLast with | some k => (k + 1) % 4096 | none => 0
      Yields .persistScanEnd s (Part.post 0xE003 (BitVec.ofNat 32 n) (BitVec.ofNat 32 next)
        { p with evr := { e with
          scanning := false, persistOn := true, sector := BitVec.ofNat 12 next, sectorSeq := BitVec.ofNat 64 (n + 1), page := 0
          ring := e.ring.map fun x => { x with persisted := false } } })) ∧
    (let cap := if e.page = 0 then 192 else 256
     let t := Part.pageTake cap (e.ring.filter fun x => !x.persisted)
     let next := { e with sector := e.sector + 1, page := 0 }
     let base := 0x1100000 + e.sector.toNat * 0x1000
     let body := t.1.flatMap fun x => e.store.read ram x.off x.len
     let erases := if valid e.sector.toNat then p.nvm.flash.num erased (base + 4) 4 + 1 else 1
     let prev := match p.logLast with | some k => Standard.hash 3 (p.nvm.flash.read erased (0x1100000 + k * 0x1000) 4096) | none => []
     let head := Part.ascii "HXLG" ++ leBytes 4 erases ++ leBytes 8 e.sectorSeq.toNat ++ prev ++ List.replicate (48 - prev.length) 0
     let page := if e.page = 0 then head ++ body else body
     (∀ d, e.persistOn = false ∨ t.2 = false → Yields (.logPageProgram d) s p) ∧
     (e.persistOn = true → t.2 = true →
       Yields (.logPageProgram true) s (Part.post 0xE002 (e.sector.setWidth 32) 3
         { p with evr := { next with flashErr := true, sectorSeq := if e.page = 0 then e.sectorSeq else e.sectorSeq + 1 } }) ∧
       ∃ q, Yields (.logPageProgram false) s q ∧ q = { p with evr := q.evr, nvm := { p.nvm with flash := q.nvm.flash } } ∧
         (prev.length ≤ 48 → ∀ b, Tab.get erased q.nvm.flash b =
           if base + 256 * e.page ≤ b ∧ b < base + 256 * e.page + 256 then page.getD (b - (base + 256 * e.page)) 0
           else if e.page = 0 ∧ base ≤ b ∧ b < base + 0x1000 then erased else Tab.get erased p.nvm.flash b) ∧
         q.evr = { (if e.page = 15 then { next with sectorSeq := e.sectorSeq + 1 } else { e with page := e.page + 1 }) with
           ring := e.ring.map fun x => if x ∈ t.1 then { x with persisted := true } else x })) ∧
    (∀ i, i = Instr.evrFlush ∨ i = .flushTimeout →
      ((∀ x ∈ e.ring, x.persisted = true) → Yields i s p) ∧
      ∀ l x, e.ring = l ++ [x] → (∃ y ∈ e.ring, y.persisted = false) →
        Yields i s { p with evr := { e with ring := l ++ [{ x with closes := true }] } }) ∧
    Yields .evrRdDataRead s { p with
      rdata := BitVec.ofNat 32 (ofLe (e.store.read ram (4 * e.rdWord.toNat) 4)), evr := { e with rdWord := e.rdWord + 1 } } ∧
    (∃ q, Yields .evrBlogDataRead s q ∧ q = { p with rdata := q.rdata, evr := { e with blogWord := e.blogWord + 1 } } ∧
      ((∀ b ∈ p.bat.blog, b.slot ≠ e.blogWord.toNat / 8) → q.rdata = 0) ∧
      ∀ b, p.bat.blog.find? (fun b => b.slot == e.blogWord.toNat / 8) = some b →
        q.rdata = BitVec.ofNat 32 (ofLe (((Part.blogBytes b).drop (4 * (e.blogWord.toNat % 8))).take 4))) ∧
    let c := e.st.stage
    let o := fun (k : Nat) => c.ovr.get 0 k
    let ok := 1 ≤ (fld c.rate 0 8).toNat ∧ (fld c.rate 0 8).toNat ≤ (fld c.rate 8 8).toNat ∧ (fld c.rate 8 8).toNat ≤ (fld c.rate 16 8).toNat ∧
      fld c.cfg 0 8 ≠ 0 ∧ fld c.cfg 8 8 ≠ 0 ∧
      ∀ j k, j < k → k < 16 → bitAt (o j) 31 = true → bitAt (o k) 31 = true → fld (o j) 0 16 ≠ fld (o k) 0 16
    (ok → Yields .evrCommit s { p with evr := { e with st := { e.st with pend := none, eff := c } } }) ∧
    (¬ ok → Yields .evrCommit s { p with evr := { e with cfgMismatch := true, st := { e.st with pend := none } } })

/-- An alarm raised is latched and recorded with its index, rank, instance and value. Observe does no more, Throttle holds the
islands below Quarantine; a rank not above the one applied starts no response. With no session open, Suspend ends every
harvest and erases every pan, rake and grainer, leaving slots, Vault and mode, while fewer than eight earlier responses are
remembered; Quarantine and Obliterate enter QUARANTINE (except in WAKE), destroy the Cellar's slots and keys and set ALARM,
Obliterate clears the Vault. A supply outside R566's window or band for as long as R562 says, a light sensor, a clock, the
cell or a crust sensor at its tenth reading past a bound raises its alarm when that newly holds; while it holds nothing more
happens. A mesh net raises MESH_BREAK at its second mismatch in a row or its third within 3,125 steps, once until it matches,
and MESH_TRANSIENT at the step after a lone mismatch. MESH_RESEED takes a drawn seed. THRESHOLD_DRIFT moves each threshold one
step at most towards its clamped target. -/
def Obligations.SensorsRaiseAlarmsThatAreAnswered : Prop :=
  (∀ (a : Alarm) (inst : Nat) (v : BitVec 16) (p : Part), inst < 256 →
    let i := a.index
    let r := p.rank i
    let q := p.raiseOne a inst v
    let p1 := { p with tmp := { p.tmp with latched := p.tmp.latched ||| BitVec.ofNat 19 (2 ^ i) } }
    let p2 := p1.postRec { code := BitVec.ofNat 16 (0xD100 + i), sev := if r = 0 then 1 else if r = 1 then 2 else 3
                           detail := BitVec.ofNat 32 (i + 32 * r.toNat + 256 * inst + 65536 * v.toNat) }
    i < 19 ∧ bitAt q.tmp.latched i = true ∧
    (r.toNat < 2 → q = { p2 with tmp := { p2.tmp with
      applied := if r = 1 ∧ p.tmp.applied = 0 then 1 else p.tmp.applied
      throttled := p.tmp.throttled || (decide (r = 1) && decide (p.tmp.applied.toNat < 3)) } }) ∧
    (2 ≤ r.toNat → r.toNat ≤ p.tmp.applied.toNat → p.dbg.granted = 0 → q = p2) ∧
    (r = 2 → p.tmp.applied.toNat < 2 → p.sys.session.active = false → p.tmp.suspends.length < 8 →
      q.tmp.applied = 2 ∧ (∀ k, (q.thread k).busy = false) ∧
      (∀ n < 16, (q.onePan n).stall = true ∧ (q.onePan n).mask = [] ∧ (q.onePan n).streams = []) ∧
      (∀ e < 56, (q.eng e).queue = [] ∧ (q.eng e).cur = none ∧ (q.eng e).parked = none) ∧
      q.slc.slots = p.slc.slots ∧ q.slc.cache = [] ∧ q.bat.vault = p.bat.vault ∧ q.sys.mode = p.sys.mode) ∧
    (3 ≤ r.toNat → r.toNat ≤ 4 → p.tmp.applied.toNat < r.toNat →
      q.sys.quarAlarm = true ∧ q.slc.slots = [] ∧ q.slc.keys = none ∧ q.tmp.applied = r ∧
      q.sys.mode = (if p.sys.mode = .wake then .wake else .quarantine) ∧ q.bat.vault = if r = 4 then [] else p.bat.vault)) ∧
  (∀ (p : Part) (x : Raise), p.raiseAll [] = p ∧ p.raiseAll [x] = p.raiseOne x.alarm x.inst x.value) ∧
  let cond := fun (a : Alarm) (inst : Nat) (v : BitVec 16) (now : Prop) (p q : Part) =>
    let had := (a.index, inst) ∈ p.tmp.conds
    (now → had → q = p) ∧
    (now → ¬ had → q = Part.raiseOne a inst v { p with tmp := { p.tmp with conds := p.tmp.conds ++ [(a.index, inst)] } }) ∧
    (¬ now → q = { p with tmp := { p.tmp with conds := p.tmp.conds.filter (· != (a.index, inst)) } })
  (∀ (p : Part) (k : Nat) (t : BitVec 12), k < 4 →
    let lo := t.toInt < 4 * p.tmp.crust.tempLow.toInt
    let hi := 4 * p.tmp.crust.tempHigh.toInt < t.toInt
    let nl := if lo then min 10 (p.tmp.tempRuns.get 0 k + 1) else 0
    let nh := if hi then min 10 (p.tmp.tempRuns.get 0 (k + 4) + 1) else 0
    let p1 := { p with tmp := { p.tmp with temps := p.tmp.temps.set 0 k t, tempRuns := (p.tmp.tempRuns.set 0 k nl).set 0 (k + 4) nh } }
    ∃ q1, cond .tempLow k (t.signExtend 16) (nl = 10) p1 q1 ∧ cond .tempHigh k (t.signExtend 16) (nh = 10) q1 (p.tempSample k t)) ∧
  ∀ s : State,
    let p := s.part
    let t := p.tmp
    (∀ t0 t1 t2 t3, Yields (.crustTempSample t0 t1 t2 t3) s ((((p.tempSample 0 t0).tempSample 1 t1).tempSample 2 t2).tempSample 3 t3)) ∧
    (∀ (k : Fin 5) (static long : Bool) (mv : BitVec 16),
      let v := mv.toNat
      let cs := (if p.wpu.avsPending then p.wpu.command.toNat else p.wpu.avsGood.toNat) :: p.wpu.covered.map fun c => c.1.toNat
      let far := fun (w : Nat) => (∀ c ∈ cs, v + w < c) ∨ ∀ c ∈ cs, c + w < v
      let range := [(0, 0), (680, 830), (810, 990), (1080, 1320), (1620, 1980)].getD k.val (0, 0)
      let centre := [0, 750, 900, 1200, 1800].getD k.val 0
      let out := if static = true then (if k = 0 then v < 500 ∨ 900 < v ∨ far 100 else v < range.1 ∨ range.2 < v)
        else if k = 0 then far t.vgl.toNat else v + t.vgl.toNat < centre ∨ centre + t.vgl.toNat < v
      (p.sys.resetLow = true ∨ long = false → out → Yields (.supplyExcursion k static long mv) s p) ∧
      ((p.sys.resetLow = false ∧ long = true) ∨ ¬ out → ∃ q, Yields (.supplyExcursion k static long mv) s q ∧
        cond (if static then .voltRange else .voltGlitch) k mv out p q)) ∧
    (∀ (k : Fin 32) (n : Byte), ∃ q, Yields (.lightSample k n) s q ∧ cond .light k (n.setWidth 16) (t.light.toNat < n.toNat) p q) ∧
    (∀ (k : Fin 11) (drift now : Bool), ∃ q, Yields (.clockFault k drift now) s q ∧
      cond (if drift then .clkDrift else .clkGlitch) k 0 (now = true) p q) ∧
    (∀ mv : BitVec 16, ∃ q, Yields (.vbatSample mv) s q ∧ cond .batLow 0 mv (mv.toNat < 2500) p q) ∧
    (∀ mis : BitVec 64,
      let n := t.meshStep + 1
      let m := fun (i : Nat) => bitAt mis i = true
      let h := fun (i : Nat) => t.nets.get {} i
      let recent := fun (i : Nat) => (if bitAt mis i then [n] else []) ++ (h i).recent.filter fun x => decide (n < x + 3125)
      let fresh := fun (i : Nat) => m i ∧ (h i).broken = false ∧ ((t.meshStep ∈ (h i).recent ∧ 0 < n) ∨ 3 ≤ (recent i).length)
      ∃ l q0, Yields (.meshStep mis) s (Part.raiseAll l q0) ∧
        q0 = { p with tmp := { t with meshStep := n, meshFail := t.meshFail ||| mis, nets := q0.tmp.nets, conds := q0.tmp.conds } } ∧
        (∀ x, x ∈ l ↔ ∃ i < 64, (x = { alarm := .meshBreak, inst := i } ∧ fresh i) ∨
          (x = { alarm := .meshTransient, inst := i } ∧ ¬ m i ∧ (h i).lone = true)) ∧
        (∀ i < 64, let g := q0.tmp.nets.get {} i
          g.recent = recent i ∧ (g.broken = true ↔ fresh i ∨ (m i ∧ (h i).broken = true)) ∧
          ((0, i) ∈ q0.tmp.conds ↔ g.broken = true) ∧
          (¬ m i → g.lone = false) ∧ (m i → (h i).broken = false → (g.lone = true ↔ ¬ fresh i)))) ∧
    ((p.entDraw .mask 8).1 = none → Yields .meshReseed s (p.entDraw .mask 8).2) ∧
    (∀ bs, (p.entDraw .mask 8).1 = some bs → ∃ q, Yields .meshReseed s q ∧ Recorded { p with ent := q.ent, tmp := q.tmp } q ∧
      q.tmp = { t with meshSeed := BitVec.ofNat 64 (ofBe bs) }) ∧
    let d := p.medianTemp - 100
    let drift := fun (now base slope : Int) (lo hi : Nat) =>
      let target := max (lo : Int) (min (base + slope * d / 1000) hi)
      if now < target then now + 1 else if target < now then now - 1 else now
    t.crust.vglMin.toNat < 256 → t.crust.vglMax.toNat < 256 → ∃ q, Yields .thresholdDrift s q ∧
      q = { p with tmp := { t with light := q.tmp.light, vgl := q.tmp.vgl } } ∧
      (q.tmp.light.toNat : Int) = drift t.light.toNat Config.lightAt25 Config.lightSlope t.crust.lightMin.toNat t.crust.lightMax.toNat ∧
      (q.tmp.vgl.toNat : Int) = drift t.vgl.toNat Config.glitchAt25 Config.glitchSlope t.crust.vglMin.toNat t.crust.vglMax.toNat

/-- ALARM_CLEAR clears exactly the latches that its mask names and whose condition is not present, and with the last of them
the rank applied falls to Observe. THROTTLE_RELEASE is ignored while a latched alarm has rank Throttle, else it ends the
Throttle. A check on the cell with the latch clear and a net mismatching, a low temperature or a low cell clears the Vault,
latches the cause and the lowest such net, and where the battery log has a free slot logs BACKUP_ALARM with them, the next
battery SEQ and the present time; with the latch set, with nothing found, or under main power it changes nothing. BAT_POR
leaves the Vault clear, BAT_POR set, calendar time zero, the chain restarted from the serial number at count 0, its pattern
state a free value (log entry 193), and the first record alone in the log. RESET_SENSE_DISAGREE raises RESET_GLITCH with the
sense point, counted from 1, as instance. Nothing else of the part changes. -/
def Obligations.LatchesClearAndTheBatteryDomainWatches : Prop :=
  ∀ s : State,
    let p := s.part
    let t := p.tmp
    let b := p.bat
    (∀ mask : BitVec 19, ∃ q, Yields (.alarmClear mask) s q ∧ q = { p with tmp := { t with latched := q.tmp.latched, applied := q.tmp.applied } } ∧
      (∀ i < 19, bitAt q.tmp.latched i = true ↔ bitAt t.latched i = true ∧ (bitAt mask i = false ∨ ∃ k, (i, k) ∈ t.conds)) ∧
      q.tmp.applied = if q.tmp.latched = 0 then 0 else t.applied) ∧
    (let held := ∃ i < 19, bitAt t.latched i = true ∧ p.rank i = 1
     (held → Yields .throttleRelease s p) ∧ (¬ held → Yields .throttleRelease s { p with tmp := { t with throttled := false } })) ∧
    (∀ (mis : BitVec 64) (cold low : Bool),
      let i := Instr.backupMeshCheck mis cold low
      let alarm := mis ≠ 0 ∨ cold = true ∨ low = true
      (b.onCell = false ∨ b.backupLatch = true ∨ ¬ alarm → Yields i s p) ∧
      (b.onCell = true → b.backupLatch = false → alarm → ∃ q, Yields i s q ∧
        q = { p with bat := q.bat, evr := { p.evr with blogOverrun := q.evr.blogOverrun } } ∧
        q.bat = { b with vault := [], vaultClearing := true, backupLatch := true, blog := q.bat.blog, blogSeq := q.bat.blogSeq, overrun := q.bat.overrun
                         causeMesh := decide (mis ≠ 0), causeTemp := cold, causeVolt := low, causeNet := q.bat.causeNet } ∧
        (mis = 0 → q.bat.causeNet = 0) ∧
        (mis ≠ 0 → bitAt mis q.bat.causeNet.toNat = true ∧ ∀ j < q.bat.causeNet.toNat, bitAt mis j = false) ∧
        (∀ k < 256, (∀ x ∈ b.blog, x.slot ≠ k) → q.bat.blogSeq = b.blogSeq + 1 ∧ q.evr.blogOverrun = p.evr.blogOverrun ∧ q.bat.overrun = b.overrun ∧
          (∀ x ∈ b.blog, x ∈ q.bat.blog) ∧
          ∃ x ∈ q.bat.blog, x.seq = b.blogSeq ∧ x.folded = false ∧ (∀ y ∈ b.blog, y.slot ≠ x.slot) ∧
            let bits := (if mis ≠ 0 then 1 else 0) + (if cold then 2 else 0) + if low then 4 else 0
            x.item = { code := 0xD1F1, sev := 3, secs := b.secs, frac := b.frac, detail := BitVec.ofNat 32 (bits + 256 * q.bat.causeNet.toNat) }))) ∧
    Yields .batPor s { p with free := p.free + 1, bat :=
      { onCell := b.onCell, pattern := Config.freeLong p.free, batPor := true, vaultClearing := true, blogSeq := 1
        blog := [{ slot := 0, item := { code := 0xD1FF, sev := 1 }, seq := 0, folded := false }]
        evidH := BitVec.ofNat 384 (ofBe (Standard.hash 3 (Part.ascii "HX6400 evidence" ++ leBytes 8 p.serial.toNat))) } } ∧
    ∀ point : Fin 8, Yields (.resetSenseDisagree point) s (Part.raiseOne .resetGlitch (point.val + 1) 0 p)

/-- A write through a running core's port that its checkpoint admits is the register's write by that core's world; one refused
changes only the fault queues and the Tally Book; a core that does not run writes nothing; a secure register is refused to
cores 0 to 3. A write through the host aperture needs Memory Space Enable and a link, and is the normal world's write where
every granule carries the manager's colour and no secure register is touched, else a refusal recorded as the DMA engine's
lane. A staged register keeps the bits of its fields, reads them back, and leaves the set in effect and every other block as
they are; a status register clears the bits written 1. Host pages: a queue-pair word stages, a command word of an idle channel
and a mailbox word not yet full are stored, a table word is stored; with the BAR closed nothing changes. A memory request at
an offset of a BAR reaches the page, mailbox, table or aperture that R50 puts there; a reserved range reads 0 and ignores
writes; one that crosses 4 KiB, or an AtomicOp, is an Unsupported Request. STAGED_SET_APPLY puts the accepted pending set of
its block in effect, if there is one, and nothing else. -/
def Obligations.RegisterWritesAndStagedSets : Prop :=
  let staged : List (Nat × Nat × Nat × Word) :=
    [(0x1, 0x10, 0x14, 0x000FFFFF), (0x4, 0x80010, 0x80014, 0xFFFFFFFF), (0x5, 0x80010, 0x80014, 0x00001F1F),
     (0x6, 0xC0010, 0xC0014, 0x3F), (0x7, 0x80010, 0x80014, 0x3F), (0x8, 0x10, 0x14, 0x1FFF), (0x9, 0x10, 0x14, 0x3F3F),
     (0xD, 0x10, 0x14, 0xF), (0xF, 0x10, 0x14, 0xFFFF), (0xF, 0x18, 0x1C, 0x00FFFFFF)]
  (∀ (w : World) (f : Fuses) (p : Part) (v : Word),
    (∀ x ∈ staged, (x.1 = 0xD → p.mir.chunks = 0) →
      let y := Part.csrWrite w x.1 x.2.1 v (f, p)
      y.1 = f ∧ (Part.csrRead w x.1 x.2.1 y.2).1 = v &&& x.2.2.2 ∧
        (Part.csrRead w x.1 x.2.2.1 y.2).1 = (Part.csrRead w x.1 x.2.2.1 p).1 ∧
        y.2 = { p with wpu := y.2.wpu, seq := y.2.seq, pan := y.2.pan, rke := y.2.rke, slc := y.2.slc, ent := y.2.ent, mir := y.2.mir, evr := y.2.evr }) ∧
    Part.csrWrite w 0x5 0x80004 v (f, p) = (f, { p with pan :=
      { p.pan with cfgMismatch := p.pan.cfgMismatch && !bitAt v 0, erased := p.pan.erased && !bitAt v 1 } }) ∧
    Part.csrWrite w 0x2 0x44 v (f, p) = (f, { p with aon := { p.aon with resetCause := p.aon.resetCause &&& ~~~ v.setWidth 7 } }) ∧
    Part.csrWrite w 0x3 0x10 v (f, p) = (f, { p with dsp := { p.dsp with st := { p.dsp.st with
      stage := { p.dsp.st.stage with wStandard := fld v 0 8, wBulk := fld v 8 8, wBack := fld v 16 8 } } } }) ∧
    (∀ t ≤ 1024, ∃ q, Part.csrWrite w 0xC (0x40 * t + 8) v (f, p) = (f, q) ∧ q = { p with tnt := { p.tnt with t := q.tnt.t } } ∧
      let n := if t = 1024 then 0 else t + 1
      let x := (p.tnt.t.get {} n).st
      (q.tnt.t.get {} n).st = { x with stage := { x.stage with inflight := fld v 0 17 } } ∧ ∀ m, m ≠ n → q.tnt.t.get {} m = p.tnt.t.get {} m) ∧
    Part.csrWrite w 0x11 0x10 v (f, p) = (f, { p with dbg := { p.dbg with maskStage := fld v 0 10 } })) ∧
  ∀ (s : State) (v : Word),
    let p := s.part
    let put := fun (t : RegTarget) (y : Fuses × Part) => exec (.registerWrite t v) s = .next { s with fuses := y.1, part := y.2 }
    (∀ (c : Fin 5) (b : Fin 18) (w : Fin 0x40000),
      let x := p.coreCheck c.val kWrite (0x100000000 + b.val * 0x100000 + 4 * w.val) 4
      ((p.core c.val).run ≠ .running → Yields (.registerWrite (.core c b w) v) s p) ∧
      ((p.core c.val).run = .running → x.1 = none →
        put (.core c b w) (Part.csrWrite (if c = 4 then .secure else .normal) b.val (4 * w.val) v (s.fuses, p))) ∧
      ((p.core c.val).run = .running → x.1 ≠ none → ∃ q, Yields (.registerWrite (.core c b w) v) s q ∧
        Recorded { p with acu := { p.acu with nfault := q.acu.nfault, nOverflow := q.acu.nOverflow, sfault := q.acu.sfault
                                              sOverflow := q.acu.sOverflow } } q) ∧
      (c ≠ 4 → secureReg p.dmaSecure b.val (4 * w.val) = true → x.1 ≠ none)) ∧
    (∀ (b : Fin 18) (w : Fin 0x40000),
      let off := b.val * 0x100000 + 4 * w.val
      let fine := p.acu.tagCsr.get 0xFFF (off / 4096) = 0xFFE ∧ secureReg p.dmaSecure b.val (4 * w.val) = false
      let shut := p.hif.linkUp = false ∨ (p.fn 0).mse = false
      (shut → Yields (.registerWrite (.aperture b w) v) s p) ∧
      (¬ shut → fine → put (.aperture b w) (Part.csrWrite .normal b.val (4 * w.val) v (s.fuses, p))) ∧
      (¬ shut → ¬ fine → ∃ q, Yields (.registerWrite (.aperture b w) v) s q ∧
        Recorded { p with acu := { p.acu with nfault := q.acu.nfault, nOverflow := q.acu.nOverflow, sfault := q.acu.sfault
                                              sOverflow := q.acu.sOverflow } } q)) ∧
    (∀ (n : Fin 1025) (w : Fin 0x4000),
      (p.barOpen n.val = false → Yields (.registerWrite (.page n w) v) s p ∧ Yields (.registerWrite (.table n w) v) s p) ∧
      (p.barOpen n.val = true →
        (∀ j < 64, ∀ g, w.val = 0x200 + 8 * j → p.qpGlobal n.val j = some g → ∃ q, Yields (.registerWrite (.page n w) v) s q ∧
          q = { p with dsp := { p.dsp with qps := q.dsp.qps } } ∧ (∀ i, i ≠ g → q.qp i = p.qp i) ∧
          let x := (p.qp g).st
          q.qp g = { p.qp g with st := { x with stage := { x.stage with sqBase := Part.setWord x.stage.sqBase 0 (v &&& 0xFFFFF000) } } }) ∧
        (∀ j < 32, w.val = 0x800 + j → ∃ q, Yields (.registerWrite (.page n w) v) s q ∧
          q = { p with tnt := { p.tnt with adm := q.tnt.adm } } ∧ (∀ i, i ≠ n.val → q.adm i = p.adm i) ∧
          q.adm n.val = if (p.adm n.val).busy then { p.adm n.val with err := true }
            else { p.adm n.val with cmd := (p.adm n.val).cmd.write ram (4 * j) (leBytes 4 v.toNat) }) ∧
        (∀ j < Part.vectorCount n.val, w.val = 4 * j + 2 → ∃ q, Yields (.registerWrite (.table n w) v) s q ∧ q = { p with hif := q.hif } ∧
          (q.fn n.val).vectors.get {} j = { (p.fn n.val).vectors.get {} j with data := v } ∧
          ∀ i, i ≠ j → (q.fn n.val).vectors.get {} i = (p.fn n.val).vectors.get {} i))) ∧
    (∀ (t : Fin 1024) (w : Fin 0x100),
      let n := t.val + 1
      let x := p.tnt.mbox.get {} n
      (p.barOpen 0 = false ∨ p.tnt.states.get 0 n = 0 → Yields (.registerWrite (.mailbox t w) v) s p) ∧
      (p.barOpen 0 = true → p.tnt.states.get 0 n ≠ 0 → w.val < 16 → ∃ q, Yields (.registerWrite (.mailbox t w) v) s q ∧
        q = { p with tnt := { p.tnt with mbox := q.tnt.mbox } } ∧ (∀ m, m ≠ n → q.tnt.mbox.get {} m = p.tnt.mbox.get {} m) ∧
        q.tnt.mbox.get {} n = if x.downFull then { x with downErr := true } else { x with down := x.down.set 0 w.val v })) ∧
    (∀ (n : Fin 1025) (two : Bool) (o : BitVec 28) (acc : BarAccess),
      let i := Instr.registerWrite (.bar n two o acc) v
      let a := o.toNat
      let len := match acc with | .read k => k.val | .write bs => bs.length | .atomic bs => bs.length
      let size := if n = 0 then (if two then 0x10000 else 0x10000000) else if two then 0x1000 else 0x10000
      let opened := p.barOpen n.val = true ∧ a + len ≤ size
      let out := fun (m : HostMsg) (h : Hif) => { h with out := h.out ++ [m] }
      let sent := fun (x : Word) (q : Part) => { q with hif := out (.completion true (leBytes 4 x.toNat)) q.hif }
      let p0 := p.draw.2
      let word := leBytes 4 v.toNat
      let put' := fun (y : Fuses × Part) => exec i s = .next { s with fuses := y.1, part := y.2 }
      (¬ opened → Yields i s p) ∧
      (opened → 4096 < a % 4096 + len ∨ (∃ bs, acc = .atomic bs) →
        Yields i s { p with hif := out (.completion false []) { p.hif with aer := p.hif.aer ||| 0x00100000 } }) ∧
      (opened → a % 4 = 0 →
        (acc = .read 4 →
          (two = true → Yields i s (sent (p.tableRead n.val a) p)) ∧
          (two = false → n ≠ 0 ∨ a < 0x10000 → Yields i s (sent (p.pageRead n.val a) p)) ∧
          (two = false → n = 0 → 0x100000 ≤ a → a < 0x200000 →
            Yields i s (sent (p.mboxRead ((a - 0x100000) / 0x400 + 1) (a % 0x400)) p)) ∧
          (two = false → n = 0 → (0x10000 ≤ a ∧ a < 0x100000) ∨ (0x200000 ≤ a ∧ a < 0x4000000) ∨ 0x5200000 ≤ a → Yields i s (sent 0 p))) ∧
        (acc = .write word →
          (two = true → Yields i s (p0.tableWrite n.val a v)) ∧
          (two = false → n ≠ 0 ∨ a < 0x10000 → Yields i s (p0.pageWrite n.val a v)) ∧
          (two = false → n = 0 → 0x100000 ≤ a → a < 0x200000 →
            Yields i s (p0.mboxWrite false ((a - 0x100000) / 0x400 + 1) (a % 0x400) v)) ∧
          (two = false → n = 0 → (0x10000 ≤ a ∧ a < 0x100000) ∨ (0x200000 ≤ a ∧ a < 0x4000000) ∨ 0x5200000 ≤ a → Yields i s p0)) ∧
        (two = false → n = 0 → 0x4000000 ≤ a → a < 0x5200000 →
          let off := a - 0x4000000
          let b := off / 0x100000
          let r := off % 0x100000
          let fine := p.acu.tagCsr.get 0xFFF (off / 4096) = 0xFFE ∧ secureReg p.dmaSecure b r = false
          let refused := fun (p q : Part) => Recorded { p with acu := { p.acu with
            nfault := q.acu.nfault, nOverflow := q.acu.nOverflow, sfault := q.acu.sfault, sOverflow := q.acu.sOverflow } } q
          (acc = .read 4 → fine → Yields i s (let y := p.csrRead .normal b r; sent y.1 y.2)) ∧
          (acc = .read 4 → ¬ fine → ∃ q, Yields i s (sent 0 q) ∧ refused p q) ∧
          (acc = .write word → fine → put' (Part.csrWrite .normal b r v (s.fuses, p0))) ∧
          (acc = .write word → ¬ fine → ∃ q, Yields i s q ∧ refused p q)))) ∧
    Yields (.stagedSetApply .dsp) s { p with dsp := { p.dsp with st := { p.dsp.st with eff := p.dsp.st.pend.getD p.dsp.st.eff, pend := none }, late := [] } } ∧
    Yields (.stagedSetApply .seq) s { p with seq := { p.seq with st := { p.seq.st with eff := p.seq.st.pend.getD p.seq.st.eff, pend := none } } } ∧
    Yields (.stagedSetApply .pan) s { p with pan := { p.pan with st := { p.pan.st with eff := p.pan.st.pend.getD p.pan.st.eff, pend := none } } } ∧
    Yields (.stagedSetApply .slc) s { p with slc := { p.slc with st := { p.slc.st with eff := p.slc.st.pend.getD p.slc.st.eff, pend := none } } } ∧
    Yields (.stagedSetApply .ent) s { p with ent := { p.ent with st := { p.ent.st with eff := p.ent.st.pend.getD p.ent.st.eff, pend := none } } } ∧
    Yields (.stagedSetApply .wpu) s { p with wpu := { p.wpu with st := { p.wpu.st with eff := p.wpu.st.pend.getD p.wpu.st.eff, pend := none } } } ∧
    Yields (.stagedSetApply .evr) s { p with evr := { p.evr with st := { p.evr.st with eff := p.evr.st.pend.getD p.evr.st.eff, pend := none } } } ∧
    Yields (.stagedSetApply .mir) s
      { p with mir := { p.mir with share := { p.mir.share with eff := p.mir.share.pend.getD p.mir.share.eff, pend := none } } } ∧
    (let x := p.rke.rke.st
     Yields (.stagedSetApply .rke) s { p with rke := { p.rke with rke := { p.rke.rke with st := { x with eff := x.pend.getD x.eff, pend := none } } } }) ∧
    (let x := p.rke.grn.st
     Yields (.stagedSetApply .grn) s { p with rke := { p.rke with grn := { p.rke.grn with st := { x with eff := x.pend.getD x.eff, pend := none } } } }) ∧
    (∀ n : Fin 1025, ∃ q, Yields (.stagedSetApply (.tenant n)) s q ∧ q = { p with tnt := { p.tnt with t := q.tnt.t } } ∧
      let x := (p.tnt.t.get {} n.val).st
      (q.tnt.t.get {} n.val).st = { x with eff := x.pend.getD x.eff, pend := none } ∧ ∀ m, m ≠ n.val → q.tnt.t.get {} m = p.tnt.t.get {} m) ∧
    ∀ g : BitVec 12, ∃ q, Yields (.stagedSetApply (.qp g)) s q ∧ q = { p with dsp := { p.dsp with qps := q.dsp.qps } } ∧
      let x := (p.qp g.toNat).st
      q.qp g.toNat = { p.qp g.toNat with st := { x with eff := x.pend.getD x.eff, pend := none } } ∧ ∀ i, i ≠ g.toNat → q.qp i = p.qp i

/-- GO is ignored while BUSY. The first failing check of R418, in its order (length, both ends host, an end outside its
regions or past the address space, Bus Master Enable, the checkpoint of an internal end), ends the transfer at once with DONE,
ERR and its cause, count 0, nothing moved; a checkpoint's refusal is recorded. Else the channel is BUSY under the present rule
generation, and a host source's reads are issued. A range of the operation buffer is admitted exactly when each of its
granules carries the channel's colour, which is the manager's on a normal channel. At its end a transfer between host and
operation buffer, or between disjoint ranges of it, has put exactly the source's octets at the destination (a host destination
in the pieces that one request carries), DONE is set with cause 0 and the whole count. A host error or Bus Master Enable
cleared stops it after n octets, which stay, with cause 5 or 6 and count n. Nothing else changes but for reservations of cores
on the octets written; an end that no transfer fits changes nothing. -/
def Obligations.DmaTransfersAreCheckedWholeAndMove : Prop :=
  (∀ (p : Part) (o n : Nat) (col : BitVec 12) (sec : Bool), 1 ≤ n → (p.colourCheck .ob o n col sec = none ↔
    ∀ g, o / 4096 ≤ g → g ≤ (o + n - 1) / 4096 → p.acu.tagOb.get 0 g = col ∧ col ≠ 0)) ∧
  ∀ (s : State) (c : Fin 64),
    let p := s.part
    let d := p.dma c
    let rest := fun (q : Part) => (∀ j, j ≠ c.val → q.dma j = p.dma j) ∧ q.sys = { p.sys with dma := q.sys.dma } ∧
      q.acu = { p.acu with oldInflight := q.acu.oldInflight }
    let ends := fun (cause : BitVec 4) (n : Nat) (q : Part) =>
      q.dma c = { d with busy := false, done := true, err := d.err || decide (cause ≠ 0), cause := cause, count := BitVec.ofNat 25 n, run := none }
    let secure := bitAt p.acu.dmaWorld c
    let colour := if secure then p.acu.dmaColour.get 0xFFF c else 0xFFE
    (let n := d.len.toNat
     let place := fun (a : BitVec 64) => spaceOf p.sys.handed false a.toNat n
     let bad := fun (host dst : Bool) (a : BitVec 64) =>
       if host then 2 ^ 64 < a.toNat + n else (place a).1 ≠ .ob ∧ (place a).1 ≠ .csr ∧ ((place a).1 ≠ .es ∨ dst = true)
     let check := fun (host : Bool) (a : BitVec 64) => host = true ∨ p.colourCheck (place a).1 (place a).2 n colour secure = none
     let cause : BitVec 4 :=
       if n = 0 ∨ 0x1000000 < n then 1
       else if d.srcHost = true ∧ d.dstHost = true then 2
       else if bad d.srcHost false d.src ∨ bad d.dstHost true d.dst then 3
       else if (d.srcHost = true ∨ d.dstHost = true) ∧ (p.fn 0).bme = false then 6
       else if ¬ (check d.srcHost d.src ∧ check d.dstHost d.dst) then 4
       else 0
     (d.busy = true → Yields (.dmaGo c) s p) ∧
     (d.busy = false → cause ≠ 0 → cause ≠ 4 → ∃ q, Yields (.dmaGo c) s q ∧ ends cause 0 q ∧ rest q ∧ q = { p with sys := q.sys, acu := q.acu }) ∧
     (d.busy = false → cause = 4 → ∃ q, Yields (.dmaGo c) s q ∧ ends 4 0 q ∧ Recorded { p with sys := q.sys, acu := q.acu } q ∧
       (∀ j, j ≠ c.val → q.dma j = p.dma j) ∧ q.acu.eff = p.acu.eff ∧ q.acu.tagOb = p.acu.tagOb ∧
       (p.acu.sfault.length < 16 → q.acu.sfault.length = p.acu.sfault.length + 1) ∧ (secure = true → q.acu.nfault = p.acu.nfault)) ∧
     (d.busy = false → cause = 0 → ∃ q r, Yields (.dmaGo c) s q ∧ (if d.srcHost = true then ReadIssued 0 d.src n p r else r = p) ∧ q = { r with sys := q.sys } ∧
       (∀ j, j ≠ c.val → q.dma j = p.dma j) ∧ q.sys = { p.sys with dma := q.sys.dma } ∧
       q.dma c = { d with
         busy := true, gen := p.acu.gen
         run := some { src := d.src, dst := d.dst, len := n, srcHost := d.srcHost, dstHost := d.dstHost } })) ∧
    (∀ n data, d.run = none → Yields (.dmaTransferEnd c data) s p ∧ Yields (.dmaHostError c n data) s p) ∧
    ∀ t, d.run = some t →
      let at0 := fun (n : Nat) (a : BitVec 64) (o : Nat) => spaceOf p.sys.handed false a.toNat n = (Space.ob, o)
      let moved := fun (n : Nat) (data : List Byte) (q : Part) => q = { p with sys := q.sys, acu := q.acu, opBuf := q.opBuf, hif := q.hif, cores := q.cores } ∧ rest q ∧
        (∀ k, q.core k = p.core k ∨ q.core k = { p.core k with resv := none }) ∧
        (∀ o, t.srcHost = true → t.dstHost = false → at0 n t.dst o → q.hif = p.hif ∧
          ∀ a, Tab.get ram q.opBuf a = if o ≤ a ∧ a < o + n then data.getD (a - o) 0 else Tab.get ram p.opBuf a) ∧
        (∀ i, t.srcHost = false → t.dstHost = true → at0 n t.src i → q.opBuf = p.opBuf ∧
          let bs := p.opBuf.read ram i n
          q.hif = { p.hif with out := p.hif.out ++ ((Part.packets p.maxPayload n t.dst.toNat n).map fun x =>
            HostMsg.write 0 (BitVec.ofNat 64 x.1) ((bs.drop (x.1 - t.dst.toNat)).take x.2)) }) ∧
        (∀ i o, t.srcHost = false → t.dstHost = false → at0 n t.src i → at0 n t.dst o → i + n ≤ o ∨ o + n ≤ i → q.hif = p.hif ∧
          ∀ a, Tab.get ram q.opBuf a = if o ≤ a ∧ a < o + n then Tab.get ram p.opBuf (i + (a - o)) else Tab.get ram p.opBuf a)
      let inOb := fun (n : Nat) =>
        (∃ o, t.srcHost = true ∧ t.dstHost = false ∧ at0 n t.dst o) ∨ (∃ i, t.srcHost = false ∧ t.dstHost = true ∧ at0 n t.src i) ∨
        ∃ i o, t.srcHost = false ∧ t.dstHost = false ∧ at0 n t.src i ∧ at0 n t.dst o ∧ (i + n ≤ o ∨ o + n ≤ i)
      (∀ data,
        let unfit := (t.srcHost = true ∧ data.length ≠ t.len) ∨ ((t.srcHost = true ∨ t.dstHost = true) ∧ (p.fn 0).bme = false)
        (unfit → Yields (.dmaTransferEnd c data) s p) ∧
        (¬ unfit → inOb t.len → 1 ≤ t.len → ∃ q, Yields (.dmaTransferEnd c data) s q ∧ ends 0 t.len q ∧ moved t.len data q)) ∧
      ∀ (n : BitVec 25) (data : List Byte),
        let fits := n.toNat < t.len ∧ (t.srcHost = true → data.length = n.toNat) ∧ (t.srcHost = true ∨ (t.dstHost = true ∧ (p.fn 0).bme = false))
        (¬ fits → Yields (.dmaHostError c n data) s p) ∧
        (fits → n ≠ 0 → inOb n.toNat → ∃ q, Yields (.dmaHostError c n data) s q ∧ ends (if (p.fn 0).bme then 5 else 6) n.toNat q ∧ moved n.toNat data q) ∧
        (fits → n = 0 → ∃ q, Yields (.dmaHostError c n data) s q ∧ ends (if (p.fn 0).bme then 5 else 6) 0 q ∧ rest q ∧ q = { p with sys := q.sys, acu := q.acu })

/-- Each TAP instruction selects its data register with what it captures; EXTEST, CLAMP and HIGHZ act on the balls exactly
while RESET_N is low. A TOKEN word takes the next place unless READY stands; an Update-DR under another instruction sets READY
once words stand. TRST_N resets the TAP and disconnects the chains. A debug read or write of memory is answered with the
octets, or stores them, where its world's port is in effect and its checkpoint as master 5 admits it; otherwise it is answered
with an error, and a checkpoint's refusal is recorded. A pc sample and an SRAM test read answer exactly under their reach, the
Salt Cellar's as zero while READY, the boot ROM's in BLANK and TESTED. SCAN without its reach, or with scan disabled, selects
the bypass register; a first SCAN ends in SCAN_ACTIVE with the clocks stopped, recorded, under a grant with RESET_GLITCH
latched and the grant ended, in QUARANTINE except in WAKE. HALT, STEP and RESUME act on a core under its STEER reach alone. -/
def Obligations.TestAccessPortAndDebugPort : Prop :=
  ∀ s : State,
    let p := s.part
    let d := p.dbg
    let tap := fun (ir : Byte) (dr : List Bool) => { d with attached := true, tapIr := ir, tapDr := dr, boundary := false, outputsOff := false }
    let sel := fun (ir : Byte) (dr : List Bool) => { p with dbg := tap ir dr }
    let reply := fun (m : List Byte) (x : Part) => { x with hif := { x.hif with out := x.hif.out ++ [HostMsg.debug m] } }
    let bits := fun (v : Word) => (List.range 32).map fun i => bitAt v i
    (∀ pins bits',
      Yields (.extest pins bits') s { p with dbg := { tap 0x00 pins with boundReg := bits', boundary := p.sys.resetLow } } ∧
      Yields (.samplePreload pins bits') s { p with dbg := { tap 0x01 pins with boundReg := bits' } }) ∧
    Yields .idcode s (sel 0x02 (bits (0xB6400001 ||| Config.jedecId.setWidth 32 <<< 1))) ∧
    Yields .clamp s { p with dbg := { tap 0x03 [false] with boundary := p.sys.resetLow } } ∧
    Yields .highz s { p with dbg := { tap 0x04 [false] with outputsOff := p.sys.resetLow } } ∧
    Yields .challenge s (sel 0x10 ((List.range 8).flatMap fun k => bits (d.challenge.get 0 k))) ∧
    Yields .tapStatus s (sel 0x13 (bits p.dbgStatus)) ∧
    (∀ ir, Yields (.bypass ir) s (sel ir [false])) ∧
    Yields .trstNFall s { p with dbg := { tap 0x02 [] with attached := false, scanOn := false } } ∧
    (∀ w : Word,
      (d.tokenReady = true ∨ d.tokenWords = 2047 → Yields (.token w) s (sel 0x11 (bits w))) ∧
      (d.tokenReady = false → d.tokenWords ≠ 2047 → Yields (.token w) s { p with dbg :=
        { tap 0x11 (bits w) with tokenData := d.tokenData.set 0 d.tokenWords.toNat w, tokenWords := d.tokenWords + 1 } })) ∧
    (∀ ir : Byte,
      let now := ir ≠ 0x11 ∧ d.tokenReady = false ∧ d.tokenWords ≠ 0
      (¬ now → Yields (.tokenSubmit ir) s p) ∧
      (now → Yields (.tokenSubmit ir) s { p with dbg := { tap ir [] with tokenReady := true }, sys := { p.sys with swiS := true } })) ∧
    (∀ k < 10, bitAt p.reach k = true ↔ bitAt d.granted k = true ∨ (k < 9 ∧ (p.life = .blank ∨ p.life = .tested))) ∧
    (∀ (w : World) (priv : Bool) (a : BitVec 40) (size : Fin 3) (v : Word),
      let n := 2 ^ size.val
      let p1 := sel 0x12 []
      let port := bitAt p.reach (if w = .secure then 5 else 4) = true
      let place := spaceOf p.sys.handed false a.toNat n
      let check := fun (kind : BitVec 3) => p.regionCheck 5 (decide (w = .secure)) priv kind a.toNat n
      let refused := fun (i : Instr) => ∃ q, Yields i s q ∧ q.hif = { p.hif with out := p.hif.out ++ [HostMsg.debug [1]] } ∧
        Recorded { p1 with hif := q.hif, acu := { p.acu with nfault := q.acu.nfault, nOverflow := q.acu.nOverflow
                                                             sfault := q.acu.sfault, sOverflow := q.acu.sOverflow } } q
      (¬ port ∨ place.1 = .none → Yields (.dbgAccess (.read w priv a size)) s (reply [1] p1) ∧
        Yields (.dbgAccess (.write w priv a size v)) s (reply [1] p1)) ∧
      (port → place.1 ≠ .none → (check kRead ≠ none → refused (.dbgAccess (.read w priv a size))) ∧
        (check kWrite ≠ none → refused (.dbgAccess (.write w priv a size v)))) ∧
      (port → check kRead = none →
        (place.1 = .ob → Yields (.dbgAccess (.read w priv a size)) s (reply (0 :: p.opBuf.read ram place.2 n) p1)) ∧
        (place.1 = .es → Yields (.dbgAccess (.read w priv a size)) s (reply (0 :: p.evr.store.read ram place.2 n) p1)) ∧
        (place.1 = .cc → Yields (.dbgAccess (.read w priv a size)) s (reply (0 :: p.ccMem.read ram place.2 n) p1))) ∧
      (port → check kWrite = none → place.1 = .ob → ∃ q, Yields (.dbgAccess (.write w priv a size v)) s q ∧
        q = reply [0] { p1 with opBuf := q.opBuf, cores := q.cores } ∧
        (∀ k, q.core k = p.core k ∨ q.core k = { p.core k with resv := none }) ∧
        ∀ b, Tab.get ram q.opBuf b = if place.2 ≤ b ∧ b < place.2 + n then (leBytes n v.toNat).getD (b - place.2) 0 else Tab.get ram p.opBuf b)) ∧
    (∀ c : Fin 5,
      let watch := bitAt p.reach (if c = 4 then 2 else 0) = true
      (watch → Yields (.dbgAccess (.pc c)) s (reply (0 :: leBytes 4 (p.core c).pc.toNat) (sel 0x12 [])) ∧
        ∃ m, Yields (.dbgAccess (.cycle c)) s { reply m (sel 0x12 []) with free := p.free + 1 } ∧ m.length = 9 ∧ m.getD 0 1 = 0) ∧
      (¬ watch → Yields (.dbgAccess (.pc c)) s (reply [1] (sel 0x12 [])) ∧ Yields (.dbgAccess (.cycle c)) s (reply [1] (sel 0x12 []))) ∧
      let m := p.core c
      let put := fun (i : Core) (q : Part) => q = { p with cores := q.cores } ∧ q.core c = i ∧ ∀ k, k ≠ c.val → q.core k = p.core k
      let may := d.attached = true ∧ bitAt p.reach (if c = 4 then 3 else 1) = true
      (¬ may → ∀ act, Yields (.debugHaltStepResume c act) s p) ∧
      (may → (m.run = .running ∨ m.run = .doze →
          (∃ q, Yields (.debugHaltStepResume c .halt) s q ∧ put { m with run := .halted, fence := false } q) ∧
          Yields (.debugHaltStepResume c .step) s p ∧ Yields (.debugHaltStepResume c .resume) s p) ∧
        (m.run = .halted → Yields (.debugHaltStepResume c .halt) s p ∧
          (∃ q, Yields (.debugHaltStepResume c .step) s q ∧ put { m with run := .running, stepOne := true } q) ∧
          ∃ q, Yields (.debugHaltStepResume c .resume) s q ∧ put { m with run := .running } q))) ∧
    (∀ (t : TestArray) (word : BitVec 24),
      let q := sel 0x12 []
      let may := if t = .bootRom then p.life = .blank ∨ p.life = .tested
        else bitAt p.reach (if t = .opBuf ∨ t = .eventStore ∨ t = .ccSram then 6 else 7) = true
      (¬ may → Yields (.dbgAccess (.sram t word)) s (reply [1] q)) ∧
      (may → (t = .opBuf → Yields (.dbgAccess (.sram t word)) s (reply (0 :: leBytes 4 (ofLe (p.opBuf.read ram (4 * word.toNat) 4))) q)) ∧
        (t = .vault → Yields (.dbgAccess (.sram t word)) s (reply (0 :: leBytes 4 (ofLe (p.vaultRead (4 * word.toNat) 4))) q)) ∧
        (t = .progMem → Yields (.dbgAccess (.sram t word)) s (reply (0 :: leBytes 4 (p.seq.pmem.get 0 word.toNat).toNat) q)) ∧
        (t = .bootRom → Yields (.dbgAccess (.sram t word)) s
          (reply (0 :: leBytes 4 (ofLe ((List.range 4).map fun i => Config.bootOctet (4 * word.toNat + i)))) q)) ∧
        (t = .cellar → p.slc.ready = true → Yields (.dbgAccess (.sram t word)) s (reply [0, 0, 0, 0, 0] q)))) ∧
    (d.scanOn = true → Yields .scan s (sel 0x20 [])) ∧
    (d.scanOn = false → bitAt p.reach 8 = false ∨ p.sys.fuses.scanDisable = true → Yields .scan s (sel 0x20 [false])) ∧
    (d.scanOn = false → bitAt p.reach 8 = true → p.sys.fuses.scanDisable = false → ∃ q, Yields .scan s q ∧
      q.dbg.scanActive = true ∧ q.dbg.scanOn = true ∧ q.sys.scanStopped = true ∧ q.dbg.tapIr = 0x20 ∧ q.tmp.crust = p.tmp.crust ∧
      (bitAt d.granted 8 = true → q.dbg.granted = 0 ∧ bitAt q.tmp.latched 9 = true ∧
        (p.tmp.applied.toNat < 3 → q.sys.mode = if p.sys.mode = .wake then .wake else .quarantine)) ∧
      (bitAt d.granted 8 = false → Recorded { p with sys := { p.sys with scanStopped := true }
                                                     dbg := { tap 0x20 [] with scanActive := true, scanOn := true } } q))

/-- DBG_COMMIT takes the first evaluation on the staged mask and duration. DECISION_SECOND_EVAL takes the decision due that it
names and judges its condition again on the part as it is now: a debug unlock that both evaluations allow puts the mask into
GRANTED and the duration into REMAIN, its condition being that R662 allows each bit in the life-cycle state, that the duration
lies between 1 and 86,400, and that SCRAP_DUE is clear; where both refuse, CFG_MISMATCH is set and the grant stays; a secure-
port command both allow runs, and one both refuse ends with the first RESULT; a life-cycle transition, a quorum and a gate
claim take their effect where the condition still holds. Where the two differ, DECISION_SPLIT is latched and counted and the
action is not taken. An index with no decision due changes nothing, nor does the second evaluation of a protective decision.
REVOKE, and GRANT_EXPIRY with REMAIN 0, end a grant: GRANTED and REMAIN zero, every halted core running again, SCRAP_DUE set
when bit 9 stood in ANALYSIS; with no grant they change nothing. That an operand of the command names which due decision it
is, is the model's form of the event (log entry 97). -/
def Obligations.GrantsAndSecondDecisions : Prop :=
  ∀ s : State,
    let p := s.part
    let d := p.dbg
    let ends := fun (i : Instr) =>
      (d.granted = 0 → Yields i s p) ∧
      (d.granted ≠ 0 → ∃ q, Yields i s q ∧
        Recorded { p with dbg := { d with granted := 0, remain := 0 }, cores := q.cores
                          bat := { p.bat with scrapDue := p.bat.scrapDue || (bitAt d.granted 9 && decide (p.life = .analysis)) } } q ∧
        ∀ c, q.core c = if (p.core c).run = .halted then { p.core c with run := .running } else p.core c)
    let allowed := fun (k : Nat) => match p.life with
      | .blank | .tested => k < 9
      | .provisioned | .owned => k = 0 ∨ k = 1 ∨ k = 4 ∨ k = 6
      | .analysis => k < 10
      | .scrapped => False
    let may := fun (mask : BitVec 10) (secs : BitVec 17) =>
      (∀ k < 10, bitAt mask k = true → allowed k) ∧ 1 ≤ secs.toNat ∧ secs.toNat ≤ 86400 ∧ p.bat.scrapDue = false
    ends .revoke ∧ (d.remain = 0 → ends .grantExpiry) ∧ (d.remain ≠ 0 → Yields .grantExpiry s p) ∧
    (∃ q first, Yields .dbgCommit s q ∧ (first = true ↔ may d.maskStage d.durStage) ∧
      Recorded { p with dbg := { d with pendGrant := some (d.maskStage, d.durStage) }, ent := q.ent, free := q.free
                        tmp := { p.tmp with due := p.tmp.due ++ [.debugUnlock first], decisions := p.tmp.decisions + 1
                                            lastR := q.tmp.lastR, draw := q.tmp.draw } } q) ∧
    (∀ i : Fin 16,
      let run := Yields (.decisionSecondEval i) s
      let p1 := { p with tmp := { p.tmp with due := p.tmp.due.eraseIdx i } }
      let parted := fun q : Part => bitAt q.tmp.latched Alarm.decisionSplit.index = true ∧ q.tmp.splits = satInc p.tmp.splits
      (p.tmp.due[i.val]? = none → run p) ∧
      (∀ first, p.tmp.due[i.val]? = some (.debugUnlock first) →
        let g := d.pendGrant.getD (0, 0)
        (first = true → may g.1 g.2 → ∃ q, run q ∧
          Recorded { p1 with dbg := { d with granted := g.1, remain := g.2, pendGrant := none } } q) ∧
        (first = false → ¬ may g.1 g.2 → ∃ q, run q ∧ Recorded { p1 with dbg := { d with cfgMismatch := true, pendGrant := none } } q) ∧
        (¬ (first = true ↔ may g.1 g.2) → ∃ q, run q ∧ parted q ∧ q.dbg.cfgMismatch = true ∧ q.dbg.pendGrant = none ∧
          (q.dbg.granted = d.granted ∧ q.dbg.remain = d.remain ∨ q.dbg.granted = 0))) ∧
      (∀ cmd first, p.tmp.due[i.val]? = some (.securePort cmd first) →
        let second := p.portCheck cmd
        (first = 0 → second = 0 → run (p1.portAct cmd)) ∧
        (first ≠ 0 → second ≠ 0 → run { p1 with slc := { p.slc with op := some (first, p.slc.gen), spWait := none } }) ∧
        (¬ (first = 0 ↔ second = 0) → ∃ q, run q ∧ parted q ∧
          (q.slc.busy = true → q.slc.op.map Prod.fst = some (if first = 0 then second else first) ∧ q.slc.spWait = none))) ∧
      (∀ target first, p.tmp.due[i.val]? = some (.lifeCycle target first) →
        (p.lcOk target = true → run { p1 with sys := { p.sys with lcTarget := some target } }) ∧
        (p.lcOk target = false → ∃ q, run q ∧ parted q ∧ q.sys.lcBusy = false ∧ q.sys.lcTarget = p.sys.lcTarget)) ∧
      (∀ first, p.tmp.due[i.val]? = some (.quorum first) →
        let m := (p.nvm.charter.ceremonies.getD p.sys.cerClass.toNat (0, 0)).2.toNat
        let met := p.sys.cerActive = true ∧ 0 < m ∧ m ≤ p.sys.cerCount.toNat
        (met → run { p1 with sys := { p.sys with cerQuorum := true } }) ∧
        (¬ met → ∃ q, run q ∧ parted q ∧ (q.sys.cerQuorum = true → p.sys.cerQuorum = true))) ∧
      (∀ first, p.tmp.due[i.val]? = some (.gateClaim first) →
        (p.claimOk = true → ∃ q, run q ∧ q.mir.gate = 2 ∧ q.mir.driving = true) ∧
        (p.claimOk = false → ∃ q, run q ∧ parted q ∧ q.mir.gate ≠ 1)) ∧
      (p.tmp.due[i.val]? = some .zeroise → run p1))
end

