-- ==== Sys2Proof/Laws/Tab.lean ====
section
/-! SUPPORT. Tables and memories: a read after a write, and that every operation keeps the canonical form. -/

namespace Sys2Proof.Machine

variable {α : Type} [DecidableEq α]

/-- The canonical form of a table that is not empty: its first entry is not the default, its key is below every later one, and
the rest is canonical. -/
theorem Tab.wf_cons (d : α) (k : Nat) (v : α) (t : Tab α) :
    Tab.wf d ((k, v) :: t) = true ↔ v ≠ d ∧ (∀ x ∈ t, k < x.1) ∧ Tab.wf d t = true := by
  induction t generalizing k v with
  | nil => simp [Tab.wf]
  | cons y t ih =>
    obtain ⟨k', v'⟩ := y
    rw [Tab.wf, Bool.and_eq_true, Bool.and_eq_true, ih]
    constructor
    · rintro ⟨⟨h1, h2⟩, h3, h4, h5⟩
      have h1 : k < k' := by simpa using h1
      refine ⟨by simpa using h2, ?_, h3, h4, h5⟩
      rintro x (_ | ⟨_, hx⟩)
      · exact h1
      · exact h1.trans (h4 x hx)
    · rintro ⟨h1, h2, h3, h4, h5⟩
      exact ⟨⟨by simpa using h2 (k', v') (by simp), by simpa using h1⟩, h3, h4, h5⟩

omit [DecidableEq α] in
/-- A key that every listed key exceeds is not listed. -/
theorem Tab.get_below (d : α) (t : Tab α) (i : Nat) (h : ∀ x ∈ t, i < x.1) : t.get d i = d := by
  induction t with
  | nil => rfl
  | cons y t ih =>
    obtain ⟨k, v⟩ := y
    have hk : i < k := h (k, v) (by simp)
    rw [Tab.get, if_neg (by omega), ih fun x hx => h x (by simp [hx])]

omit [DecidableEq α] in
theorem Tab.mem_drop (t : Tab α) (i : Nat) (x : Nat × α) : x ∈ t.drop i ↔ x ∈ t ∧ x.1 ≠ i := by
  simp [Tab.drop, List.mem_filter]

/-- Dropping a key keeps the canonical form. -/
theorem Tab.drop_wf (d : α) (t : Tab α) (i : Nat) (h : Tab.wf d t = true) : Tab.wf d (t.drop i) = true := by
  induction t with
  | nil => rfl
  | cons y t ih =>
    obtain ⟨k, w⟩ := y
    obtain ⟨hw, hk, ht⟩ := (Tab.wf_cons d k w t).1 h
    rw [Tab.drop, List.filter_cons]
    split
    · exact (Tab.wf_cons ..).2 ⟨hw, fun x hx => hk x (List.mem_filter.1 hx).1, ih ht⟩
    · exact ih ht

omit [DecidableEq α] in
theorem Tab.mem_ins (t : Tab α) (i : Nat) (v : α) (x : Nat × α) : x ∈ t.ins i v ↔ x = (i, v) ∨ x ∈ t := by
  induction t with
  | nil => simp [Tab.ins]
  | cons y t ih =>
    obtain ⟨k, w⟩ := y
    rw [Tab.ins]
    split
    · simp
    · simp only [List.mem_cons, ih]
      exact or_left_comm

theorem Tab.ins_wf (d : α) (t : Tab α) (i : Nat) (v : α) (h : Tab.wf d t = true) (hi : ∀ x ∈ t, x.1 ≠ i) (hv : v ≠ d) :
    Tab.wf d (t.ins i v) = true := by
  induction t with
  | nil => simp [Tab.ins, Tab.wf, hv]
  | cons y t ih =>
    obtain ⟨k, w⟩ := y
    obtain ⟨hw, hk, ht⟩ := (Tab.wf_cons d k w t).1 h
    have hki : k ≠ i := hi (k, w) (by simp)
    rw [Tab.ins]
    split
    · next hik =>
      refine (Tab.wf_cons ..).2 ⟨hv, ?_, h⟩
      rintro x (_ | ⟨_, hx⟩)
      · exact hik
      · exact hik.trans (hk x hx)
    · next hik =>
      refine (Tab.wf_cons ..).2 ⟨hw, fun x hx => ?_, ih ht fun x hx => hi x (by simp [hx])⟩
      rcases (Tab.mem_ins t i v x).1 hx with rfl | hx
      · exact lt_of_le_of_ne (by omega) hki
      · exact hk x hx

/-- A write keeps the canonical form. -/
theorem Tab.set_wf (d : α) (t : Tab α) (i : Nat) (v : α) (h : Tab.wf d t = true) : Tab.wf d (t.set d i v) = true := by
  rw [Tab.set]
  split
  · exact Tab.drop_wf d t i h
  · next hv => exact Tab.ins_wf d _ i v (Tab.drop_wf d t i h) (fun x hx => ((Tab.mem_drop t i x).1 hx).2) hv

omit [DecidableEq α] in
theorem Tab.get_drop (d : α) (t : Tab α) (i j : Nat) : (t.drop i).get d j = if j = i then d else t.get d j := by
  induction t with
  | nil => simp [Tab.drop, Tab.get]
  | cons y t ih =>
    obtain ⟨k, w⟩ := y
    rw [Tab.drop] at ih ⊢
    by_cases hk : k = i
    · subst hk
      simp only [List.filter_cons, ne_eq, not_true_eq_false, decide_false, Bool.false_eq_true, if_false, ih, Tab.get]
      split <;> rfl
    · rw [List.filter_cons, if_pos (by simpa using hk), Tab.get, Tab.get, ih]
      split
      · subst_vars; rw [if_neg hk]
      · rfl

omit [DecidableEq α] in
theorem Tab.get_ins (d : α) (t : Tab α) (i j : Nat) (v : α) (h : ∀ x ∈ t, x.1 ≠ i) :
    (t.ins i v).get d j = if j = i then v else t.get d j := by
  induction t with
  | nil => rfl
  | cons y t ih =>
    obtain ⟨k, w⟩ := y
    have hki : k ≠ i := h (k, w) (by simp)
    rw [Tab.ins]
    split
    · rfl
    · rw [Tab.get, Tab.get, ih fun x hx => h x (by simp [hx])]
      split
      · next hjk => rw [if_neg (by omega)]
      · rfl

/-- What a table reads as after a write. -/
theorem Tab.get_set (d : α) (t : Tab α) (i j : Nat) (v : α) : (t.set d i v).get d j = if j = i then v else t.get d j := by
  have hi : ∀ x ∈ t.drop i, x.1 ≠ i := fun x hx => ((Tab.mem_drop t i x).1 hx).2
  rw [Tab.set]
  split
  · next hv => rw [Tab.get_drop, hv]
  · rw [Tab.get_ins d _ i j v hi, Tab.get_drop]
    split <;> rfl

/-- A read of the entry just written. -/
@[simp] theorem Tab.get_set_self (d : α) (t : Tab α) (i : Nat) (v : α) : (t.set d i v).get d i = v := by
  rw [Tab.get_set, if_pos rfl]

/-- A read of another entry. -/
theorem Tab.get_set_other (d : α) (t : Tab α) (i j : Nat) (v : α) (hij : j ≠ i) : (t.set d i v).get d j = t.get d j := by
  rw [Tab.get_set, if_neg hij]

omit [DecidableEq α] in
theorem Tab.drop_drop (t : Tab α) (i : Nat) : (t.drop i).drop i = t.drop i := by simp [Tab.drop]

omit [DecidableEq α] in
theorem Tab.drop_ins (t : Tab α) (i : Nat) (v : α) : (t.ins i v).drop i = t.drop i := by
  induction t with
  | nil => simp [Tab.ins, Tab.drop]
  | cons y t ih =>
    obtain ⟨k, w⟩ := y
    rw [Tab.ins]
    split
    · simp [Tab.drop]
    · simp only [Tab.drop, List.filter_cons] at ih ⊢
      rw [ih]

/-- Of two writes of one entry the later stands. -/
@[simp] theorem Tab.set_set (d : α) (t : Tab α) (i : Nat) (v w : α) : (t.set d i v).set d i w = t.set d i w := by
  have h : (t.set d i v).drop i = t.drop i := by
    rw [Tab.set]
    split
    · exact Tab.drop_drop t i
    · rw [Tab.drop_ins, Tab.drop_drop]
  show (if w = d then (t.set d i v).drop i else ((t.set d i v).drop i).ins i w) = _
  rw [h, Tab.set]

/-- A changed entry, and that a change keeps the canonical form. -/
theorem Tab.upd_wf (d : α) (t : Tab α) (i : Nat) (g : α → α) (h : Tab.wf d t = true) : Tab.wf d (t.upd d i g) = true :=
  Tab.set_wf d t i _ h

theorem Tab.get_upd (d : α) (t : Tab α) (i j : Nat) (g : α → α) :
    (t.upd d i g).get d j = if j = i then g (t.get d i) else t.get d j := Tab.get_set d t i j _

@[simp] theorem Tab.get_upd_self (d : α) (t : Tab α) (i : Nat) (g : α → α) : (t.upd d i g).get d i = g (t.get d i) :=
  Tab.get_set_self d t i _

theorem Tab.get_upd_other (d : α) (t : Tab α) (i j : Nat) (g : α → α) (hij : j ≠ i) : (t.upd d i g).get d j = t.get d j :=
  Tab.get_set_other d t i j _ hij

/-- Two changes of one entry are one. -/
@[simp] theorem Tab.upd_upd (d : α) (t : Tab α) (i : Nat) (g f : α → α) :
    (t.upd d i g).upd d i f = t.upd d i fun v => f (g v) := by
  simp [Tab.upd]

/-- What a table reads as after a change of every entry. -/
theorem Tab.get_mapV (d : α) (g : Nat → α → α) (t : Tab α) (i : Nat) (h : g i d = d) :
    (t.mapV d g).get d i = g i (t.get d i) := by
  induction t with
  | nil => exact h.symm
  | cons y t ih =>
    obtain ⟨k, w⟩ := y
    rw [Tab.mapV, Tab.get]
    split
    · next hg =>
      rw [Tab.get_drop, ih]
      split
      · next hik => rw [hik, hg]
      · rfl
    · rw [Tab.get, ih]
      split
      · subst_vars; rfl
      · rfl

theorem Tab.mem_mapV (d : α) (g : Nat → α → α) (t : Tab α) (x : Nat × α) (hx : x ∈ t.mapV d g) : ∃ y ∈ t, x.1 = y.1 := by
  induction t with
  | nil => cases hx
  | cons y t ih =>
    rw [Tab.mapV] at hx
    split at hx
    · obtain ⟨z, hz, e⟩ := ih ((Tab.mem_drop _ _ _).1 hx).1
      exact ⟨z, List.mem_cons_of_mem _ hz, e⟩
    · rcases List.mem_cons.1 hx with rfl | hx
      · exact ⟨y, by simp, rfl⟩
      · obtain ⟨z, hz, e⟩ := ih hx
        exact ⟨z, List.mem_cons_of_mem _ hz, e⟩

/-- A change of every entry keeps the canonical form. -/
theorem Tab.mapV_wf (d : α) (g : Nat → α → α) (t : Tab α) (h : Tab.wf d t = true) : Tab.wf d (t.mapV d g) = true := by
  induction t with
  | nil => rfl
  | cons y t ih =>
    obtain ⟨k, w⟩ := y
    obtain ⟨_, hk, ht⟩ := (Tab.wf_cons d k w t).1 h
    rw [Tab.mapV]
    split
    · exact Tab.drop_wf d _ k (ih ht)
    · next hg =>
      refine (Tab.wf_cons ..).2 ⟨hg, fun x hx => ?_, ih ht⟩
      obtain ⟨z, hz, e⟩ := Tab.mem_mapV d g t x hx
      rw [e]
      exact hk z hz

/-- A memory keeps its canonical form under a write of octets and under a clearing. -/
theorem Mem.write_wf (d : Byte) (m : Mem) (a : Nat) (bs : List Byte) (h : Tab.wf d m = true) : Tab.wf d (m.write d a bs) = true := by
  induction bs generalizing m a with
  | nil => exact h
  | cons b bs ih => exact ih _ _ (Tab.set_wf d m a b h)

theorem Mem.clear_wf (d : Byte) (m : Mem) (a n : Nat) (h : Tab.wf d m = true) : Tab.wf d (m.clear a n) = true := by
  induction m with
  | nil => rfl
  | cons y m ih =>
    obtain ⟨k, w⟩ := y
    obtain ⟨hw, hk, ht⟩ := (Tab.wf_cons d k w m).1 h
    rw [Mem.clear, List.filter_cons]
    split
    · exact (Tab.wf_cons ..).2 ⟨hw, fun x hx => hk x (List.mem_filter.1 hx).1, ih ht⟩
    · exact ih ht

/-- An octet outside the range written reads as before. -/
theorem Mem.get_write_other (d : Byte) (m : Mem) (a i : Nat) (bs : List Byte)
    (hi : i < a ∨ a + bs.length ≤ i) : Tab.get d (m.write d a bs) i = Tab.get d m i := by
  induction bs generalizing m a with
  | nil => rfl
  | cons b bs ih =>
    simp only [List.length_cons] at hi
    rw [Mem.write, ih _ _ (by omega), Tab.get_set_other d m a i b (by omega)]

/-- The octets written read back. -/
theorem Mem.get_write_self (d : Byte) (m : Mem) (a i : Nat) (bs : List Byte) (hi : i < bs.length) :
    Tab.get d (m.write d a bs) (a + i) = bs[i] := by
  induction bs generalizing m a i with
  | nil => cases hi
  | cons b bs ih =>
    rw [Mem.write]
    cases i with
    | zero =>
      rw [Mem.get_write_other d _ _ _ _ (by omega), Nat.add_zero, Tab.get_set_self d m a b]
      rfl
    | succ i =>
      have := ih (Tab.set d m a b) (a + 1) i (by simpa using hi)
      rw [Nat.add_right_comm] at this
      simpa [Nat.add_assoc, Nat.add_comm 1 i] using this

/-- The memories of the part after reset are in their canonical form. -/
theorem State.reset_memories :
    Tab.wf ram State.reset.part.priv = true ∧ Tab.wf ram State.reset.part.ccMem = true ∧ Tab.wf ram State.reset.part.opBuf = true
      ∧ Tab.wf ram State.reset.part.evr.store = true ∧ Tab.wf ram State.reset.part.bat.vault = true
      ∧ Tab.wf erased State.reset.part.nvm.flash = true := ⟨rfl, rfl, rfl, rfl, rfl, rfl⟩

end Sys2Proof.Machine
end

