-- ==== Sys2Proof/Laws/Acu.lean ====
section
/-! SUPPORT. The regions of a master after a commit: those staged in the range committed, and every other as it was (R436, R439). -/

namespace Sys2Proof.Safety

open Sys2Proof.Machine

theorem acu_merged (u : Acu) (m lo hi : Nat) (h : Tab.wf {} u.eff = true) :
    Tab.wf {} (u.merged m lo hi) = true ∧ ∀ k, (u.merged m lo hi).get {} k =
      if 32 * m + lo ≤ k ∧ k < 32 * m + lo + (hi - lo) then u.stage.get {} k else u.eff.get {} k := by
  unfold Acu.merged
  induction hi - lo with
  | zero => exact ⟨h, fun k => by rw [if_neg (by omega)]; rfl⟩
  | succ n ih =>
    rw [List.range_succ, List.foldl_append, List.foldl_cons, List.foldl_nil]
    refine ⟨Tab.set_wf _ _ _ _ ih.1, fun k => ?_⟩
    by_cases hk : k = 32 * m + lo + n
    · subst hk; rw [Tab.get_set_self, if_pos (by omega)]
    · rw [Tab.get_set_other _ _ _ _ _ hk, ih.2]
      by_cases h2 : 32 * m + lo ≤ k ∧ k < 32 * m + lo + n
      · rw [if_pos h2, if_pos (by omega)]
      · rw [if_neg h2, if_neg (by omega)]

end Sys2Proof.Safety
end

