-- ==== Sys2Proof/Laws/State.lean ====
section
/-! SUPPORT. What each update of a block leaves: one lemma for each field and each update, true by computation, so that no proof
unfolds a record update. -/

namespace Sys2Proof.Machine.Part

@[simp] theorem modSys_sys (g : Sys → Sys) (p : Part) : (p.modSys g).sys = g p.sys := rfl
@[simp] theorem modSys_acu (g : Sys → Sys) (p : Part) : (p.modSys g).acu = p.acu := rfl
@[simp] theorem modSys_wpu (g : Sys → Sys) (p : Part) : (p.modSys g).wpu = p.wpu := rfl
@[simp] theorem modSys_hif (g : Sys → Sys) (p : Part) : (p.modSys g).hif = p.hif := rfl
@[simp] theorem modSys_dsp (g : Sys → Sys) (p : Part) : (p.modSys g).dsp = p.dsp := rfl
@[simp] theorem modSys_seq (g : Sys → Sys) (p : Part) : (p.modSys g).seq = p.seq := rfl
@[simp] theorem modSys_pan (g : Sys → Sys) (p : Part) : (p.modSys g).pan = p.pan := rfl
@[simp] theorem modSys_rke (g : Sys → Sys) (p : Part) : (p.modSys g).rke = p.rke := rfl
@[simp] theorem modSys_slc (g : Sys → Sys) (p : Part) : (p.modSys g).slc = p.slc := rfl
@[simp] theorem modSys_ent (g : Sys → Sys) (p : Part) : (p.modSys g).ent = p.ent := rfl
@[simp] theorem modSys_tnt (g : Sys → Sys) (p : Part) : (p.modSys g).tnt = p.tnt := rfl
@[simp] theorem modSys_mir (g : Sys → Sys) (p : Part) : (p.modSys g).mir = p.mir := rfl
@[simp] theorem modSys_tmp (g : Sys → Sys) (p : Part) : (p.modSys g).tmp = p.tmp := rfl
@[simp] theorem modSys_evr (g : Sys → Sys) (p : Part) : (p.modSys g).evr = p.evr := rfl
@[simp] theorem modSys_nvm (g : Sys → Sys) (p : Part) : (p.modSys g).nvm = p.nvm := rfl
@[simp] theorem modSys_dbg (g : Sys → Sys) (p : Part) : (p.modSys g).dbg = p.dbg := rfl
@[simp] theorem modSys_aon (g : Sys → Sys) (p : Part) : (p.modSys g).aon = p.aon := rfl
@[simp] theorem modSys_bat (g : Sys → Sys) (p : Part) : (p.modSys g).bat = p.bat := rfl
@[simp] theorem modSys_cores (g : Sys → Sys) (p : Part) : (p.modSys g).cores = p.cores := rfl
@[simp] theorem modSys_priv (g : Sys → Sys) (p : Part) : (p.modSys g).priv = p.priv := rfl
@[simp] theorem modSys_ccMem (g : Sys → Sys) (p : Part) : (p.modSys g).ccMem = p.ccMem := rfl
@[simp] theorem modSys_opBuf (g : Sys → Sys) (p : Part) : (p.modSys g).opBuf = p.opBuf := rfl
@[simp] theorem modSys_rdata (g : Sys → Sys) (p : Part) : (p.modSys g).rdata = p.rdata := rfl
@[simp] theorem modSys_free (g : Sys → Sys) (p : Part) : (p.modSys g).free = p.free := rfl

@[simp] theorem modAcu_sys (g : Acu → Acu) (p : Part) : (p.modAcu g).sys = p.sys := rfl
@[simp] theorem modAcu_acu (g : Acu → Acu) (p : Part) : (p.modAcu g).acu = g p.acu := rfl
@[simp] theorem modAcu_wpu (g : Acu → Acu) (p : Part) : (p.modAcu g).wpu = p.wpu := rfl
@[simp] theorem modAcu_hif (g : Acu → Acu) (p : Part) : (p.modAcu g).hif = p.hif := rfl
@[simp] theorem modAcu_dsp (g : Acu → Acu) (p : Part) : (p.modAcu g).dsp = p.dsp := rfl
@[simp] theorem modAcu_seq (g : Acu → Acu) (p : Part) : (p.modAcu g).seq = p.seq := rfl
@[simp] theorem modAcu_pan (g : Acu → Acu) (p : Part) : (p.modAcu g).pan = p.pan := rfl
@[simp] theorem modAcu_rke (g : Acu → Acu) (p : Part) : (p.modAcu g).rke = p.rke := rfl
@[simp] theorem modAcu_slc (g : Acu → Acu) (p : Part) : (p.modAcu g).slc = p.slc := rfl
@[simp] theorem modAcu_ent (g : Acu → Acu) (p : Part) : (p.modAcu g).ent = p.ent := rfl
@[simp] theorem modAcu_tnt (g : Acu → Acu) (p : Part) : (p.modAcu g).tnt = p.tnt := rfl
@[simp] theorem modAcu_mir (g : Acu → Acu) (p : Part) : (p.modAcu g).mir = p.mir := rfl
@[simp] theorem modAcu_tmp (g : Acu → Acu) (p : Part) : (p.modAcu g).tmp = p.tmp := rfl
@[simp] theorem modAcu_evr (g : Acu → Acu) (p : Part) : (p.modAcu g).evr = p.evr := rfl
@[simp] theorem modAcu_nvm (g : Acu → Acu) (p : Part) : (p.modAcu g).nvm = p.nvm := rfl
@[simp] theorem modAcu_dbg (g : Acu → Acu) (p : Part) : (p.modAcu g).dbg = p.dbg := rfl
@[simp] theorem modAcu_aon (g : Acu → Acu) (p : Part) : (p.modAcu g).aon = p.aon := rfl
@[simp] theorem modAcu_bat (g : Acu → Acu) (p : Part) : (p.modAcu g).bat = p.bat := rfl
@[simp] theorem modAcu_cores (g : Acu → Acu) (p : Part) : (p.modAcu g).cores = p.cores := rfl
@[simp] theorem modAcu_priv (g : Acu → Acu) (p : Part) : (p.modAcu g).priv = p.priv := rfl
@[simp] theorem modAcu_ccMem (g : Acu → Acu) (p : Part) : (p.modAcu g).ccMem = p.ccMem := rfl
@[simp] theorem modAcu_opBuf (g : Acu → Acu) (p : Part) : (p.modAcu g).opBuf = p.opBuf := rfl
@[simp] theorem modAcu_rdata (g : Acu → Acu) (p : Part) : (p.modAcu g).rdata = p.rdata := rfl
@[simp] theorem modAcu_free (g : Acu → Acu) (p : Part) : (p.modAcu g).free = p.free := rfl

@[simp] theorem modWpu_sys (g : Wpu → Wpu) (p : Part) : (p.modWpu g).sys = p.sys := rfl
@[simp] theorem modWpu_acu (g : Wpu → Wpu) (p : Part) : (p.modWpu g).acu = p.acu := rfl
@[simp] theorem modWpu_wpu (g : Wpu → Wpu) (p : Part) : (p.modWpu g).wpu = g p.wpu := rfl
@[simp] theorem modWpu_hif (g : Wpu → Wpu) (p : Part) : (p.modWpu g).hif = p.hif := rfl
@[simp] theorem modWpu_dsp (g : Wpu → Wpu) (p : Part) : (p.modWpu g).dsp = p.dsp := rfl
@[simp] theorem modWpu_seq (g : Wpu → Wpu) (p : Part) : (p.modWpu g).seq = p.seq := rfl
@[simp] theorem modWpu_pan (g : Wpu → Wpu) (p : Part) : (p.modWpu g).pan = p.pan := rfl
@[simp] theorem modWpu_rke (g : Wpu → Wpu) (p : Part) : (p.modWpu g).rke = p.rke := rfl
@[simp] theorem modWpu_slc (g : Wpu → Wpu) (p : Part) : (p.modWpu g).slc = p.slc := rfl
@[simp] theorem modWpu_ent (g : Wpu → Wpu) (p : Part) : (p.modWpu g).ent = p.ent := rfl
@[simp] theorem modWpu_tnt (g : Wpu → Wpu) (p : Part) : (p.modWpu g).tnt = p.tnt := rfl
@[simp] theorem modWpu_mir (g : Wpu → Wpu) (p : Part) : (p.modWpu g).mir = p.mir := rfl
@[simp] theorem modWpu_tmp (g : Wpu → Wpu) (p : Part) : (p.modWpu g).tmp = p.tmp := rfl
@[simp] theorem modWpu_evr (g : Wpu → Wpu) (p : Part) : (p.modWpu g).evr = p.evr := rfl
@[simp] theorem modWpu_nvm (g : Wpu → Wpu) (p : Part) : (p.modWpu g).nvm = p.nvm := rfl
@[simp] theorem modWpu_dbg (g : Wpu → Wpu) (p : Part) : (p.modWpu g).dbg = p.dbg := rfl
@[simp] theorem modWpu_aon (g : Wpu → Wpu) (p : Part) : (p.modWpu g).aon = p.aon := rfl
@[simp] theorem modWpu_bat (g : Wpu → Wpu) (p : Part) : (p.modWpu g).bat = p.bat := rfl
@[simp] theorem modWpu_cores (g : Wpu → Wpu) (p : Part) : (p.modWpu g).cores = p.cores := rfl
@[simp] theorem modWpu_priv (g : Wpu → Wpu) (p : Part) : (p.modWpu g).priv = p.priv := rfl
@[simp] theorem modWpu_ccMem (g : Wpu → Wpu) (p : Part) : (p.modWpu g).ccMem = p.ccMem := rfl
@[simp] theorem modWpu_opBuf (g : Wpu → Wpu) (p : Part) : (p.modWpu g).opBuf = p.opBuf := rfl
@[simp] theorem modWpu_rdata (g : Wpu → Wpu) (p : Part) : (p.modWpu g).rdata = p.rdata := rfl
@[simp] theorem modWpu_free (g : Wpu → Wpu) (p : Part) : (p.modWpu g).free = p.free := rfl

@[simp] theorem modHif_sys (g : Hif → Hif) (p : Part) : (p.modHif g).sys = p.sys := rfl
@[simp] theorem modHif_acu (g : Hif → Hif) (p : Part) : (p.modHif g).acu = p.acu := rfl
@[simp] theorem modHif_wpu (g : Hif → Hif) (p : Part) : (p.modHif g).wpu = p.wpu := rfl
@[simp] theorem modHif_hif (g : Hif → Hif) (p : Part) : (p.modHif g).hif = g p.hif := rfl
@[simp] theorem modHif_dsp (g : Hif → Hif) (p : Part) : (p.modHif g).dsp = p.dsp := rfl
@[simp] theorem modHif_seq (g : Hif → Hif) (p : Part) : (p.modHif g).seq = p.seq := rfl
@[simp] theorem modHif_pan (g : Hif → Hif) (p : Part) : (p.modHif g).pan = p.pan := rfl
@[simp] theorem modHif_rke (g : Hif → Hif) (p : Part) : (p.modHif g).rke = p.rke := rfl
@[simp] theorem modHif_slc (g : Hif → Hif) (p : Part) : (p.modHif g).slc = p.slc := rfl
@[simp] theorem modHif_ent (g : Hif → Hif) (p : Part) : (p.modHif g).ent = p.ent := rfl
@[simp] theorem modHif_tnt (g : Hif → Hif) (p : Part) : (p.modHif g).tnt = p.tnt := rfl
@[simp] theorem modHif_mir (g : Hif → Hif) (p : Part) : (p.modHif g).mir = p.mir := rfl
@[simp] theorem modHif_tmp (g : Hif → Hif) (p : Part) : (p.modHif g).tmp = p.tmp := rfl
@[simp] theorem modHif_evr (g : Hif → Hif) (p : Part) : (p.modHif g).evr = p.evr := rfl
@[simp] theorem modHif_nvm (g : Hif → Hif) (p : Part) : (p.modHif g).nvm = p.nvm := rfl
@[simp] theorem modHif_dbg (g : Hif → Hif) (p : Part) : (p.modHif g).dbg = p.dbg := rfl
@[simp] theorem modHif_aon (g : Hif → Hif) (p : Part) : (p.modHif g).aon = p.aon := rfl
@[simp] theorem modHif_bat (g : Hif → Hif) (p : Part) : (p.modHif g).bat = p.bat := rfl
@[simp] theorem modHif_cores (g : Hif → Hif) (p : Part) : (p.modHif g).cores = p.cores := rfl
@[simp] theorem modHif_priv (g : Hif → Hif) (p : Part) : (p.modHif g).priv = p.priv := rfl
@[simp] theorem modHif_ccMem (g : Hif → Hif) (p : Part) : (p.modHif g).ccMem = p.ccMem := rfl
@[simp] theorem modHif_opBuf (g : Hif → Hif) (p : Part) : (p.modHif g).opBuf = p.opBuf := rfl
@[simp] theorem modHif_rdata (g : Hif → Hif) (p : Part) : (p.modHif g).rdata = p.rdata := rfl
@[simp] theorem modHif_free (g : Hif → Hif) (p : Part) : (p.modHif g).free = p.free := rfl

@[simp] theorem modDsp_sys (g : Dsp → Dsp) (p : Part) : (p.modDsp g).sys = p.sys := rfl
@[simp] theorem modDsp_acu (g : Dsp → Dsp) (p : Part) : (p.modDsp g).acu = p.acu := rfl
@[simp] theorem modDsp_wpu (g : Dsp → Dsp) (p : Part) : (p.modDsp g).wpu = p.wpu := rfl
@[simp] theorem modDsp_hif (g : Dsp → Dsp) (p : Part) : (p.modDsp g).hif = p.hif := rfl
@[simp] theorem modDsp_dsp (g : Dsp → Dsp) (p : Part) : (p.modDsp g).dsp = g p.dsp := rfl
@[simp] theorem modDsp_seq (g : Dsp → Dsp) (p : Part) : (p.modDsp g).seq = p.seq := rfl
@[simp] theorem modDsp_pan (g : Dsp → Dsp) (p : Part) : (p.modDsp g).pan = p.pan := rfl
@[simp] theorem modDsp_rke (g : Dsp → Dsp) (p : Part) : (p.modDsp g).rke = p.rke := rfl
@[simp] theorem modDsp_slc (g : Dsp → Dsp) (p : Part) : (p.modDsp g).slc = p.slc := rfl
@[simp] theorem modDsp_ent (g : Dsp → Dsp) (p : Part) : (p.modDsp g).ent = p.ent := rfl
@[simp] theorem modDsp_tnt (g : Dsp → Dsp) (p : Part) : (p.modDsp g).tnt = p.tnt := rfl
@[simp] theorem modDsp_mir (g : Dsp → Dsp) (p : Part) : (p.modDsp g).mir = p.mir := rfl
@[simp] theorem modDsp_tmp (g : Dsp → Dsp) (p : Part) : (p.modDsp g).tmp = p.tmp := rfl
@[simp] theorem modDsp_evr (g : Dsp → Dsp) (p : Part) : (p.modDsp g).evr = p.evr := rfl
@[simp] theorem modDsp_nvm (g : Dsp → Dsp) (p : Part) : (p.modDsp g).nvm = p.nvm := rfl
@[simp] theorem modDsp_dbg (g : Dsp → Dsp) (p : Part) : (p.modDsp g).dbg = p.dbg := rfl
@[simp] theorem modDsp_aon (g : Dsp → Dsp) (p : Part) : (p.modDsp g).aon = p.aon := rfl
@[simp] theorem modDsp_bat (g : Dsp → Dsp) (p : Part) : (p.modDsp g).bat = p.bat := rfl
@[simp] theorem modDsp_cores (g : Dsp → Dsp) (p : Part) : (p.modDsp g).cores = p.cores := rfl
@[simp] theorem modDsp_priv (g : Dsp → Dsp) (p : Part) : (p.modDsp g).priv = p.priv := rfl
@[simp] theorem modDsp_ccMem (g : Dsp → Dsp) (p : Part) : (p.modDsp g).ccMem = p.ccMem := rfl
@[simp] theorem modDsp_opBuf (g : Dsp → Dsp) (p : Part) : (p.modDsp g).opBuf = p.opBuf := rfl
@[simp] theorem modDsp_rdata (g : Dsp → Dsp) (p : Part) : (p.modDsp g).rdata = p.rdata := rfl
@[simp] theorem modDsp_free (g : Dsp → Dsp) (p : Part) : (p.modDsp g).free = p.free := rfl

@[simp] theorem modSeq_sys (g : Seq → Seq) (p : Part) : (p.modSeq g).sys = p.sys := rfl
@[simp] theorem modSeq_acu (g : Seq → Seq) (p : Part) : (p.modSeq g).acu = p.acu := rfl
@[simp] theorem modSeq_wpu (g : Seq → Seq) (p : Part) : (p.modSeq g).wpu = p.wpu := rfl
@[simp] theorem modSeq_hif (g : Seq → Seq) (p : Part) : (p.modSeq g).hif = p.hif := rfl
@[simp] theorem modSeq_dsp (g : Seq → Seq) (p : Part) : (p.modSeq g).dsp = p.dsp := rfl
@[simp] theorem modSeq_seq (g : Seq → Seq) (p : Part) : (p.modSeq g).seq = g p.seq := rfl
@[simp] theorem modSeq_pan (g : Seq → Seq) (p : Part) : (p.modSeq g).pan = p.pan := rfl
@[simp] theorem modSeq_rke (g : Seq → Seq) (p : Part) : (p.modSeq g).rke = p.rke := rfl
@[simp] theorem modSeq_slc (g : Seq → Seq) (p : Part) : (p.modSeq g).slc = p.slc := rfl
@[simp] theorem modSeq_ent (g : Seq → Seq) (p : Part) : (p.modSeq g).ent = p.ent := rfl
@[simp] theorem modSeq_tnt (g : Seq → Seq) (p : Part) : (p.modSeq g).tnt = p.tnt := rfl
@[simp] theorem modSeq_mir (g : Seq → Seq) (p : Part) : (p.modSeq g).mir = p.mir := rfl
@[simp] theorem modSeq_tmp (g : Seq → Seq) (p : Part) : (p.modSeq g).tmp = p.tmp := rfl
@[simp] theorem modSeq_evr (g : Seq → Seq) (p : Part) : (p.modSeq g).evr = p.evr := rfl
@[simp] theorem modSeq_nvm (g : Seq → Seq) (p : Part) : (p.modSeq g).nvm = p.nvm := rfl
@[simp] theorem modSeq_dbg (g : Seq → Seq) (p : Part) : (p.modSeq g).dbg = p.dbg := rfl
@[simp] theorem modSeq_aon (g : Seq → Seq) (p : Part) : (p.modSeq g).aon = p.aon := rfl
@[simp] theorem modSeq_bat (g : Seq → Seq) (p : Part) : (p.modSeq g).bat = p.bat := rfl
@[simp] theorem modSeq_cores (g : Seq → Seq) (p : Part) : (p.modSeq g).cores = p.cores := rfl
@[simp] theorem modSeq_priv (g : Seq → Seq) (p : Part) : (p.modSeq g).priv = p.priv := rfl
@[simp] theorem modSeq_ccMem (g : Seq → Seq) (p : Part) : (p.modSeq g).ccMem = p.ccMem := rfl
@[simp] theorem modSeq_opBuf (g : Seq → Seq) (p : Part) : (p.modSeq g).opBuf = p.opBuf := rfl
@[simp] theorem modSeq_rdata (g : Seq → Seq) (p : Part) : (p.modSeq g).rdata = p.rdata := rfl
@[simp] theorem modSeq_free (g : Seq → Seq) (p : Part) : (p.modSeq g).free = p.free := rfl

@[simp] theorem modPan_sys (g : PanBlock → PanBlock) (p : Part) : (p.modPan g).sys = p.sys := rfl
@[simp] theorem modPan_acu (g : PanBlock → PanBlock) (p : Part) : (p.modPan g).acu = p.acu := rfl
@[simp] theorem modPan_wpu (g : PanBlock → PanBlock) (p : Part) : (p.modPan g).wpu = p.wpu := rfl
@[simp] theorem modPan_hif (g : PanBlock → PanBlock) (p : Part) : (p.modPan g).hif = p.hif := rfl
@[simp] theorem modPan_dsp (g : PanBlock → PanBlock) (p : Part) : (p.modPan g).dsp = p.dsp := rfl
@[simp] theorem modPan_seq (g : PanBlock → PanBlock) (p : Part) : (p.modPan g).seq = p.seq := rfl
@[simp] theorem modPan_pan (g : PanBlock → PanBlock) (p : Part) : (p.modPan g).pan = g p.pan := rfl
@[simp] theorem modPan_rke (g : PanBlock → PanBlock) (p : Part) : (p.modPan g).rke = p.rke := rfl
@[simp] theorem modPan_slc (g : PanBlock → PanBlock) (p : Part) : (p.modPan g).slc = p.slc := rfl
@[simp] theorem modPan_ent (g : PanBlock → PanBlock) (p : Part) : (p.modPan g).ent = p.ent := rfl
@[simp] theorem modPan_tnt (g : PanBlock → PanBlock) (p : Part) : (p.modPan g).tnt = p.tnt := rfl
@[simp] theorem modPan_mir (g : PanBlock → PanBlock) (p : Part) : (p.modPan g).mir = p.mir := rfl
@[simp] theorem modPan_tmp (g : PanBlock → PanBlock) (p : Part) : (p.modPan g).tmp = p.tmp := rfl
@[simp] theorem modPan_evr (g : PanBlock → PanBlock) (p : Part) : (p.modPan g).evr = p.evr := rfl
@[simp] theorem modPan_nvm (g : PanBlock → PanBlock) (p : Part) : (p.modPan g).nvm = p.nvm := rfl
@[simp] theorem modPan_dbg (g : PanBlock → PanBlock) (p : Part) : (p.modPan g).dbg = p.dbg := rfl
@[simp] theorem modPan_aon (g : PanBlock → PanBlock) (p : Part) : (p.modPan g).aon = p.aon := rfl
@[simp] theorem modPan_bat (g : PanBlock → PanBlock) (p : Part) : (p.modPan g).bat = p.bat := rfl
@[simp] theorem modPan_cores (g : PanBlock → PanBlock) (p : Part) : (p.modPan g).cores = p.cores := rfl
@[simp] theorem modPan_priv (g : PanBlock → PanBlock) (p : Part) : (p.modPan g).priv = p.priv := rfl
@[simp] theorem modPan_ccMem (g : PanBlock → PanBlock) (p : Part) : (p.modPan g).ccMem = p.ccMem := rfl
@[simp] theorem modPan_opBuf (g : PanBlock → PanBlock) (p : Part) : (p.modPan g).opBuf = p.opBuf := rfl
@[simp] theorem modPan_rdata (g : PanBlock → PanBlock) (p : Part) : (p.modPan g).rdata = p.rdata := rfl
@[simp] theorem modPan_free (g : PanBlock → PanBlock) (p : Part) : (p.modPan g).free = p.free := rfl

@[simp] theorem modRke_sys (g : Rke → Rke) (p : Part) : (p.modRke g).sys = p.sys := rfl
@[simp] theorem modRke_acu (g : Rke → Rke) (p : Part) : (p.modRke g).acu = p.acu := rfl
@[simp] theorem modRke_wpu (g : Rke → Rke) (p : Part) : (p.modRke g).wpu = p.wpu := rfl
@[simp] theorem modRke_hif (g : Rke → Rke) (p : Part) : (p.modRke g).hif = p.hif := rfl
@[simp] theorem modRke_dsp (g : Rke → Rke) (p : Part) : (p.modRke g).dsp = p.dsp := rfl
@[simp] theorem modRke_seq (g : Rke → Rke) (p : Part) : (p.modRke g).seq = p.seq := rfl
@[simp] theorem modRke_pan (g : Rke → Rke) (p : Part) : (p.modRke g).pan = p.pan := rfl
@[simp] theorem modRke_rke (g : Rke → Rke) (p : Part) : (p.modRke g).rke = g p.rke := rfl
@[simp] theorem modRke_slc (g : Rke → Rke) (p : Part) : (p.modRke g).slc = p.slc := rfl
@[simp] theorem modRke_ent (g : Rke → Rke) (p : Part) : (p.modRke g).ent = p.ent := rfl
@[simp] theorem modRke_tnt (g : Rke → Rke) (p : Part) : (p.modRke g).tnt = p.tnt := rfl
@[simp] theorem modRke_mir (g : Rke → Rke) (p : Part) : (p.modRke g).mir = p.mir := rfl
@[simp] theorem modRke_tmp (g : Rke → Rke) (p : Part) : (p.modRke g).tmp = p.tmp := rfl
@[simp] theorem modRke_evr (g : Rke → Rke) (p : Part) : (p.modRke g).evr = p.evr := rfl
@[simp] theorem modRke_nvm (g : Rke → Rke) (p : Part) : (p.modRke g).nvm = p.nvm := rfl
@[simp] theorem modRke_dbg (g : Rke → Rke) (p : Part) : (p.modRke g).dbg = p.dbg := rfl
@[simp] theorem modRke_aon (g : Rke → Rke) (p : Part) : (p.modRke g).aon = p.aon := rfl
@[simp] theorem modRke_bat (g : Rke → Rke) (p : Part) : (p.modRke g).bat = p.bat := rfl
@[simp] theorem modRke_cores (g : Rke → Rke) (p : Part) : (p.modRke g).cores = p.cores := rfl
@[simp] theorem modRke_priv (g : Rke → Rke) (p : Part) : (p.modRke g).priv = p.priv := rfl
@[simp] theorem modRke_ccMem (g : Rke → Rke) (p : Part) : (p.modRke g).ccMem = p.ccMem := rfl
@[simp] theorem modRke_opBuf (g : Rke → Rke) (p : Part) : (p.modRke g).opBuf = p.opBuf := rfl
@[simp] theorem modRke_rdata (g : Rke → Rke) (p : Part) : (p.modRke g).rdata = p.rdata := rfl
@[simp] theorem modRke_free (g : Rke → Rke) (p : Part) : (p.modRke g).free = p.free := rfl

@[simp] theorem modSlc_sys (g : Slc → Slc) (p : Part) : (p.modSlc g).sys = p.sys := rfl
@[simp] theorem modSlc_acu (g : Slc → Slc) (p : Part) : (p.modSlc g).acu = p.acu := rfl
@[simp] theorem modSlc_wpu (g : Slc → Slc) (p : Part) : (p.modSlc g).wpu = p.wpu := rfl
@[simp] theorem modSlc_hif (g : Slc → Slc) (p : Part) : (p.modSlc g).hif = p.hif := rfl
@[simp] theorem modSlc_dsp (g : Slc → Slc) (p : Part) : (p.modSlc g).dsp = p.dsp := rfl
@[simp] theorem modSlc_seq (g : Slc → Slc) (p : Part) : (p.modSlc g).seq = p.seq := rfl
@[simp] theorem modSlc_pan (g : Slc → Slc) (p : Part) : (p.modSlc g).pan = p.pan := rfl
@[simp] theorem modSlc_rke (g : Slc → Slc) (p : Part) : (p.modSlc g).rke = p.rke := rfl
@[simp] theorem modSlc_slc (g : Slc → Slc) (p : Part) : (p.modSlc g).slc = g p.slc := rfl
@[simp] theorem modSlc_ent (g : Slc → Slc) (p : Part) : (p.modSlc g).ent = p.ent := rfl
@[simp] theorem modSlc_tnt (g : Slc → Slc) (p : Part) : (p.modSlc g).tnt = p.tnt := rfl
@[simp] theorem modSlc_mir (g : Slc → Slc) (p : Part) : (p.modSlc g).mir = p.mir := rfl
@[simp] theorem modSlc_tmp (g : Slc → Slc) (p : Part) : (p.modSlc g).tmp = p.tmp := rfl
@[simp] theorem modSlc_evr (g : Slc → Slc) (p : Part) : (p.modSlc g).evr = p.evr := rfl
@[simp] theorem modSlc_nvm (g : Slc → Slc) (p : Part) : (p.modSlc g).nvm = p.nvm := rfl
@[simp] theorem modSlc_dbg (g : Slc → Slc) (p : Part) : (p.modSlc g).dbg = p.dbg := rfl
@[simp] theorem modSlc_aon (g : Slc → Slc) (p : Part) : (p.modSlc g).aon = p.aon := rfl
@[simp] theorem modSlc_bat (g : Slc → Slc) (p : Part) : (p.modSlc g).bat = p.bat := rfl
@[simp] theorem modSlc_cores (g : Slc → Slc) (p : Part) : (p.modSlc g).cores = p.cores := rfl
@[simp] theorem modSlc_priv (g : Slc → Slc) (p : Part) : (p.modSlc g).priv = p.priv := rfl
@[simp] theorem modSlc_ccMem (g : Slc → Slc) (p : Part) : (p.modSlc g).ccMem = p.ccMem := rfl
@[simp] theorem modSlc_opBuf (g : Slc → Slc) (p : Part) : (p.modSlc g).opBuf = p.opBuf := rfl
@[simp] theorem modSlc_rdata (g : Slc → Slc) (p : Part) : (p.modSlc g).rdata = p.rdata := rfl
@[simp] theorem modSlc_free (g : Slc → Slc) (p : Part) : (p.modSlc g).free = p.free := rfl

@[simp] theorem modEnt_sys (g : Ent → Ent) (p : Part) : (p.modEnt g).sys = p.sys := rfl
@[simp] theorem modEnt_acu (g : Ent → Ent) (p : Part) : (p.modEnt g).acu = p.acu := rfl
@[simp] theorem modEnt_wpu (g : Ent → Ent) (p : Part) : (p.modEnt g).wpu = p.wpu := rfl
@[simp] theorem modEnt_hif (g : Ent → Ent) (p : Part) : (p.modEnt g).hif = p.hif := rfl
@[simp] theorem modEnt_dsp (g : Ent → Ent) (p : Part) : (p.modEnt g).dsp = p.dsp := rfl
@[simp] theorem modEnt_seq (g : Ent → Ent) (p : Part) : (p.modEnt g).seq = p.seq := rfl
@[simp] theorem modEnt_pan (g : Ent → Ent) (p : Part) : (p.modEnt g).pan = p.pan := rfl
@[simp] theorem modEnt_rke (g : Ent → Ent) (p : Part) : (p.modEnt g).rke = p.rke := rfl
@[simp] theorem modEnt_slc (g : Ent → Ent) (p : Part) : (p.modEnt g).slc = p.slc := rfl
@[simp] theorem modEnt_ent (g : Ent → Ent) (p : Part) : (p.modEnt g).ent = g p.ent := rfl
@[simp] theorem modEnt_tnt (g : Ent → Ent) (p : Part) : (p.modEnt g).tnt = p.tnt := rfl
@[simp] theorem modEnt_mir (g : Ent → Ent) (p : Part) : (p.modEnt g).mir = p.mir := rfl
@[simp] theorem modEnt_tmp (g : Ent → Ent) (p : Part) : (p.modEnt g).tmp = p.tmp := rfl
@[simp] theorem modEnt_evr (g : Ent → Ent) (p : Part) : (p.modEnt g).evr = p.evr := rfl
@[simp] theorem modEnt_nvm (g : Ent → Ent) (p : Part) : (p.modEnt g).nvm = p.nvm := rfl
@[simp] theorem modEnt_dbg (g : Ent → Ent) (p : Part) : (p.modEnt g).dbg = p.dbg := rfl
@[simp] theorem modEnt_aon (g : Ent → Ent) (p : Part) : (p.modEnt g).aon = p.aon := rfl
@[simp] theorem modEnt_bat (g : Ent → Ent) (p : Part) : (p.modEnt g).bat = p.bat := rfl
@[simp] theorem modEnt_cores (g : Ent → Ent) (p : Part) : (p.modEnt g).cores = p.cores := rfl
@[simp] theorem modEnt_priv (g : Ent → Ent) (p : Part) : (p.modEnt g).priv = p.priv := rfl
@[simp] theorem modEnt_ccMem (g : Ent → Ent) (p : Part) : (p.modEnt g).ccMem = p.ccMem := rfl
@[simp] theorem modEnt_opBuf (g : Ent → Ent) (p : Part) : (p.modEnt g).opBuf = p.opBuf := rfl
@[simp] theorem modEnt_rdata (g : Ent → Ent) (p : Part) : (p.modEnt g).rdata = p.rdata := rfl
@[simp] theorem modEnt_free (g : Ent → Ent) (p : Part) : (p.modEnt g).free = p.free := rfl

@[simp] theorem modTnt_sys (g : Tnt → Tnt) (p : Part) : (p.modTnt g).sys = p.sys := rfl
@[simp] theorem modTnt_acu (g : Tnt → Tnt) (p : Part) : (p.modTnt g).acu = p.acu := rfl
@[simp] theorem modTnt_wpu (g : Tnt → Tnt) (p : Part) : (p.modTnt g).wpu = p.wpu := rfl
@[simp] theorem modTnt_hif (g : Tnt → Tnt) (p : Part) : (p.modTnt g).hif = p.hif := rfl
@[simp] theorem modTnt_dsp (g : Tnt → Tnt) (p : Part) : (p.modTnt g).dsp = p.dsp := rfl
@[simp] theorem modTnt_seq (g : Tnt → Tnt) (p : Part) : (p.modTnt g).seq = p.seq := rfl
@[simp] theorem modTnt_pan (g : Tnt → Tnt) (p : Part) : (p.modTnt g).pan = p.pan := rfl
@[simp] theorem modTnt_rke (g : Tnt → Tnt) (p : Part) : (p.modTnt g).rke = p.rke := rfl
@[simp] theorem modTnt_slc (g : Tnt → Tnt) (p : Part) : (p.modTnt g).slc = p.slc := rfl
@[simp] theorem modTnt_ent (g : Tnt → Tnt) (p : Part) : (p.modTnt g).ent = p.ent := rfl
@[simp] theorem modTnt_tnt (g : Tnt → Tnt) (p : Part) : (p.modTnt g).tnt = g p.tnt := rfl
@[simp] theorem modTnt_mir (g : Tnt → Tnt) (p : Part) : (p.modTnt g).mir = p.mir := rfl
@[simp] theorem modTnt_tmp (g : Tnt → Tnt) (p : Part) : (p.modTnt g).tmp = p.tmp := rfl
@[simp] theorem modTnt_evr (g : Tnt → Tnt) (p : Part) : (p.modTnt g).evr = p.evr := rfl
@[simp] theorem modTnt_nvm (g : Tnt → Tnt) (p : Part) : (p.modTnt g).nvm = p.nvm := rfl
@[simp] theorem modTnt_dbg (g : Tnt → Tnt) (p : Part) : (p.modTnt g).dbg = p.dbg := rfl
@[simp] theorem modTnt_aon (g : Tnt → Tnt) (p : Part) : (p.modTnt g).aon = p.aon := rfl
@[simp] theorem modTnt_bat (g : Tnt → Tnt) (p : Part) : (p.modTnt g).bat = p.bat := rfl
@[simp] theorem modTnt_cores (g : Tnt → Tnt) (p : Part) : (p.modTnt g).cores = p.cores := rfl
@[simp] theorem modTnt_priv (g : Tnt → Tnt) (p : Part) : (p.modTnt g).priv = p.priv := rfl
@[simp] theorem modTnt_ccMem (g : Tnt → Tnt) (p : Part) : (p.modTnt g).ccMem = p.ccMem := rfl
@[simp] theorem modTnt_opBuf (g : Tnt → Tnt) (p : Part) : (p.modTnt g).opBuf = p.opBuf := rfl
@[simp] theorem modTnt_rdata (g : Tnt → Tnt) (p : Part) : (p.modTnt g).rdata = p.rdata := rfl
@[simp] theorem modTnt_free (g : Tnt → Tnt) (p : Part) : (p.modTnt g).free = p.free := rfl

@[simp] theorem modMir_sys (g : Mir → Mir) (p : Part) : (p.modMir g).sys = p.sys := rfl
@[simp] theorem modMir_acu (g : Mir → Mir) (p : Part) : (p.modMir g).acu = p.acu := rfl
@[simp] theorem modMir_wpu (g : Mir → Mir) (p : Part) : (p.modMir g).wpu = p.wpu := rfl
@[simp] theorem modMir_hif (g : Mir → Mir) (p : Part) : (p.modMir g).hif = p.hif := rfl
@[simp] theorem modMir_dsp (g : Mir → Mir) (p : Part) : (p.modMir g).dsp = p.dsp := rfl
@[simp] theorem modMir_seq (g : Mir → Mir) (p : Part) : (p.modMir g).seq = p.seq := rfl
@[simp] theorem modMir_pan (g : Mir → Mir) (p : Part) : (p.modMir g).pan = p.pan := rfl
@[simp] theorem modMir_rke (g : Mir → Mir) (p : Part) : (p.modMir g).rke = p.rke := rfl
@[simp] theorem modMir_slc (g : Mir → Mir) (p : Part) : (p.modMir g).slc = p.slc := rfl
@[simp] theorem modMir_ent (g : Mir → Mir) (p : Part) : (p.modMir g).ent = p.ent := rfl
@[simp] theorem modMir_tnt (g : Mir → Mir) (p : Part) : (p.modMir g).tnt = p.tnt := rfl
@[simp] theorem modMir_mir (g : Mir → Mir) (p : Part) : (p.modMir g).mir = g p.mir := rfl
@[simp] theorem modMir_tmp (g : Mir → Mir) (p : Part) : (p.modMir g).tmp = p.tmp := rfl
@[simp] theorem modMir_evr (g : Mir → Mir) (p : Part) : (p.modMir g).evr = p.evr := rfl
@[simp] theorem modMir_nvm (g : Mir → Mir) (p : Part) : (p.modMir g).nvm = p.nvm := rfl
@[simp] theorem modMir_dbg (g : Mir → Mir) (p : Part) : (p.modMir g).dbg = p.dbg := rfl
@[simp] theorem modMir_aon (g : Mir → Mir) (p : Part) : (p.modMir g).aon = p.aon := rfl
@[simp] theorem modMir_bat (g : Mir → Mir) (p : Part) : (p.modMir g).bat = p.bat := rfl
@[simp] theorem modMir_cores (g : Mir → Mir) (p : Part) : (p.modMir g).cores = p.cores := rfl
@[simp] theorem modMir_priv (g : Mir → Mir) (p : Part) : (p.modMir g).priv = p.priv := rfl
@[simp] theorem modMir_ccMem (g : Mir → Mir) (p : Part) : (p.modMir g).ccMem = p.ccMem := rfl
@[simp] theorem modMir_opBuf (g : Mir → Mir) (p : Part) : (p.modMir g).opBuf = p.opBuf := rfl
@[simp] theorem modMir_rdata (g : Mir → Mir) (p : Part) : (p.modMir g).rdata = p.rdata := rfl
@[simp] theorem modMir_free (g : Mir → Mir) (p : Part) : (p.modMir g).free = p.free := rfl

@[simp] theorem modTmp_sys (g : Tmp → Tmp) (p : Part) : (p.modTmp g).sys = p.sys := rfl
@[simp] theorem modTmp_acu (g : Tmp → Tmp) (p : Part) : (p.modTmp g).acu = p.acu := rfl
@[simp] theorem modTmp_wpu (g : Tmp → Tmp) (p : Part) : (p.modTmp g).wpu = p.wpu := rfl
@[simp] theorem modTmp_hif (g : Tmp → Tmp) (p : Part) : (p.modTmp g).hif = p.hif := rfl
@[simp] theorem modTmp_dsp (g : Tmp → Tmp) (p : Part) : (p.modTmp g).dsp = p.dsp := rfl
@[simp] theorem modTmp_seq (g : Tmp → Tmp) (p : Part) : (p.modTmp g).seq = p.seq := rfl
@[simp] theorem modTmp_pan (g : Tmp → Tmp) (p : Part) : (p.modTmp g).pan = p.pan := rfl
@[simp] theorem modTmp_rke (g : Tmp → Tmp) (p : Part) : (p.modTmp g).rke = p.rke := rfl
@[simp] theorem modTmp_slc (g : Tmp → Tmp) (p : Part) : (p.modTmp g).slc = p.slc := rfl
@[simp] theorem modTmp_ent (g : Tmp → Tmp) (p : Part) : (p.modTmp g).ent = p.ent := rfl
@[simp] theorem modTmp_tnt (g : Tmp → Tmp) (p : Part) : (p.modTmp g).tnt = p.tnt := rfl
@[simp] theorem modTmp_mir (g : Tmp → Tmp) (p : Part) : (p.modTmp g).mir = p.mir := rfl
@[simp] theorem modTmp_tmp (g : Tmp → Tmp) (p : Part) : (p.modTmp g).tmp = g p.tmp := rfl
@[simp] theorem modTmp_evr (g : Tmp → Tmp) (p : Part) : (p.modTmp g).evr = p.evr := rfl
@[simp] theorem modTmp_nvm (g : Tmp → Tmp) (p : Part) : (p.modTmp g).nvm = p.nvm := rfl
@[simp] theorem modTmp_dbg (g : Tmp → Tmp) (p : Part) : (p.modTmp g).dbg = p.dbg := rfl
@[simp] theorem modTmp_aon (g : Tmp → Tmp) (p : Part) : (p.modTmp g).aon = p.aon := rfl
@[simp] theorem modTmp_bat (g : Tmp → Tmp) (p : Part) : (p.modTmp g).bat = p.bat := rfl
@[simp] theorem modTmp_cores (g : Tmp → Tmp) (p : Part) : (p.modTmp g).cores = p.cores := rfl
@[simp] theorem modTmp_priv (g : Tmp → Tmp) (p : Part) : (p.modTmp g).priv = p.priv := rfl
@[simp] theorem modTmp_ccMem (g : Tmp → Tmp) (p : Part) : (p.modTmp g).ccMem = p.ccMem := rfl
@[simp] theorem modTmp_opBuf (g : Tmp → Tmp) (p : Part) : (p.modTmp g).opBuf = p.opBuf := rfl
@[simp] theorem modTmp_rdata (g : Tmp → Tmp) (p : Part) : (p.modTmp g).rdata = p.rdata := rfl
@[simp] theorem modTmp_free (g : Tmp → Tmp) (p : Part) : (p.modTmp g).free = p.free := rfl

@[simp] theorem modEvr_sys (g : Evr → Evr) (p : Part) : (p.modEvr g).sys = p.sys := rfl
@[simp] theorem modEvr_acu (g : Evr → Evr) (p : Part) : (p.modEvr g).acu = p.acu := rfl
@[simp] theorem modEvr_wpu (g : Evr → Evr) (p : Part) : (p.modEvr g).wpu = p.wpu := rfl
@[simp] theorem modEvr_hif (g : Evr → Evr) (p : Part) : (p.modEvr g).hif = p.hif := rfl
@[simp] theorem modEvr_dsp (g : Evr → Evr) (p : Part) : (p.modEvr g).dsp = p.dsp := rfl
@[simp] theorem modEvr_seq (g : Evr → Evr) (p : Part) : (p.modEvr g).seq = p.seq := rfl
@[simp] theorem modEvr_pan (g : Evr → Evr) (p : Part) : (p.modEvr g).pan = p.pan := rfl
@[simp] theorem modEvr_rke (g : Evr → Evr) (p : Part) : (p.modEvr g).rke = p.rke := rfl
@[simp] theorem modEvr_slc (g : Evr → Evr) (p : Part) : (p.modEvr g).slc = p.slc := rfl
@[simp] theorem modEvr_ent (g : Evr → Evr) (p : Part) : (p.modEvr g).ent = p.ent := rfl
@[simp] theorem modEvr_tnt (g : Evr → Evr) (p : Part) : (p.modEvr g).tnt = p.tnt := rfl
@[simp] theorem modEvr_mir (g : Evr → Evr) (p : Part) : (p.modEvr g).mir = p.mir := rfl
@[simp] theorem modEvr_tmp (g : Evr → Evr) (p : Part) : (p.modEvr g).tmp = p.tmp := rfl
@[simp] theorem modEvr_evr (g : Evr → Evr) (p : Part) : (p.modEvr g).evr = g p.evr := rfl
@[simp] theorem modEvr_nvm (g : Evr → Evr) (p : Part) : (p.modEvr g).nvm = p.nvm := rfl
@[simp] theorem modEvr_dbg (g : Evr → Evr) (p : Part) : (p.modEvr g).dbg = p.dbg := rfl
@[simp] theorem modEvr_aon (g : Evr → Evr) (p : Part) : (p.modEvr g).aon = p.aon := rfl
@[simp] theorem modEvr_bat (g : Evr → Evr) (p : Part) : (p.modEvr g).bat = p.bat := rfl
@[simp] theorem modEvr_cores (g : Evr → Evr) (p : Part) : (p.modEvr g).cores = p.cores := rfl
@[simp] theorem modEvr_priv (g : Evr → Evr) (p : Part) : (p.modEvr g).priv = p.priv := rfl
@[simp] theorem modEvr_ccMem (g : Evr → Evr) (p : Part) : (p.modEvr g).ccMem = p.ccMem := rfl
@[simp] theorem modEvr_opBuf (g : Evr → Evr) (p : Part) : (p.modEvr g).opBuf = p.opBuf := rfl
@[simp] theorem modEvr_rdata (g : Evr → Evr) (p : Part) : (p.modEvr g).rdata = p.rdata := rfl
@[simp] theorem modEvr_free (g : Evr → Evr) (p : Part) : (p.modEvr g).free = p.free := rfl

@[simp] theorem modNvm_sys (g : Nvm → Nvm) (p : Part) : (p.modNvm g).sys = p.sys := rfl
@[simp] theorem modNvm_acu (g : Nvm → Nvm) (p : Part) : (p.modNvm g).acu = p.acu := rfl
@[simp] theorem modNvm_wpu (g : Nvm → Nvm) (p : Part) : (p.modNvm g).wpu = p.wpu := rfl
@[simp] theorem modNvm_hif (g : Nvm → Nvm) (p : Part) : (p.modNvm g).hif = p.hif := rfl
@[simp] theorem modNvm_dsp (g : Nvm → Nvm) (p : Part) : (p.modNvm g).dsp = p.dsp := rfl
@[simp] theorem modNvm_seq (g : Nvm → Nvm) (p : Part) : (p.modNvm g).seq = p.seq := rfl
@[simp] theorem modNvm_pan (g : Nvm → Nvm) (p : Part) : (p.modNvm g).pan = p.pan := rfl
@[simp] theorem modNvm_rke (g : Nvm → Nvm) (p : Part) : (p.modNvm g).rke = p.rke := rfl
@[simp] theorem modNvm_slc (g : Nvm → Nvm) (p : Part) : (p.modNvm g).slc = p.slc := rfl
@[simp] theorem modNvm_ent (g : Nvm → Nvm) (p : Part) : (p.modNvm g).ent = p.ent := rfl
@[simp] theorem modNvm_tnt (g : Nvm → Nvm) (p : Part) : (p.modNvm g).tnt = p.tnt := rfl
@[simp] theorem modNvm_mir (g : Nvm → Nvm) (p : Part) : (p.modNvm g).mir = p.mir := rfl
@[simp] theorem modNvm_tmp (g : Nvm → Nvm) (p : Part) : (p.modNvm g).tmp = p.tmp := rfl
@[simp] theorem modNvm_evr (g : Nvm → Nvm) (p : Part) : (p.modNvm g).evr = p.evr := rfl
@[simp] theorem modNvm_nvm (g : Nvm → Nvm) (p : Part) : (p.modNvm g).nvm = g p.nvm := rfl
@[simp] theorem modNvm_dbg (g : Nvm → Nvm) (p : Part) : (p.modNvm g).dbg = p.dbg := rfl
@[simp] theorem modNvm_aon (g : Nvm → Nvm) (p : Part) : (p.modNvm g).aon = p.aon := rfl
@[simp] theorem modNvm_bat (g : Nvm → Nvm) (p : Part) : (p.modNvm g).bat = p.bat := rfl
@[simp] theorem modNvm_cores (g : Nvm → Nvm) (p : Part) : (p.modNvm g).cores = p.cores := rfl
@[simp] theorem modNvm_priv (g : Nvm → Nvm) (p : Part) : (p.modNvm g).priv = p.priv := rfl
@[simp] theorem modNvm_ccMem (g : Nvm → Nvm) (p : Part) : (p.modNvm g).ccMem = p.ccMem := rfl
@[simp] theorem modNvm_opBuf (g : Nvm → Nvm) (p : Part) : (p.modNvm g).opBuf = p.opBuf := rfl
@[simp] theorem modNvm_rdata (g : Nvm → Nvm) (p : Part) : (p.modNvm g).rdata = p.rdata := rfl
@[simp] theorem modNvm_free (g : Nvm → Nvm) (p : Part) : (p.modNvm g).free = p.free := rfl

@[simp] theorem modDbg_sys (g : Dbg → Dbg) (p : Part) : (p.modDbg g).sys = p.sys := rfl
@[simp] theorem modDbg_acu (g : Dbg → Dbg) (p : Part) : (p.modDbg g).acu = p.acu := rfl
@[simp] theorem modDbg_wpu (g : Dbg → Dbg) (p : Part) : (p.modDbg g).wpu = p.wpu := rfl
@[simp] theorem modDbg_hif (g : Dbg → Dbg) (p : Part) : (p.modDbg g).hif = p.hif := rfl
@[simp] theorem modDbg_dsp (g : Dbg → Dbg) (p : Part) : (p.modDbg g).dsp = p.dsp := rfl
@[simp] theorem modDbg_seq (g : Dbg → Dbg) (p : Part) : (p.modDbg g).seq = p.seq := rfl
@[simp] theorem modDbg_pan (g : Dbg → Dbg) (p : Part) : (p.modDbg g).pan = p.pan := rfl
@[simp] theorem modDbg_rke (g : Dbg → Dbg) (p : Part) : (p.modDbg g).rke = p.rke := rfl
@[simp] theorem modDbg_slc (g : Dbg → Dbg) (p : Part) : (p.modDbg g).slc = p.slc := rfl
@[simp] theorem modDbg_ent (g : Dbg → Dbg) (p : Part) : (p.modDbg g).ent = p.ent := rfl
@[simp] theorem modDbg_tnt (g : Dbg → Dbg) (p : Part) : (p.modDbg g).tnt = p.tnt := rfl
@[simp] theorem modDbg_mir (g : Dbg → Dbg) (p : Part) : (p.modDbg g).mir = p.mir := rfl
@[simp] theorem modDbg_tmp (g : Dbg → Dbg) (p : Part) : (p.modDbg g).tmp = p.tmp := rfl
@[simp] theorem modDbg_evr (g : Dbg → Dbg) (p : Part) : (p.modDbg g).evr = p.evr := rfl
@[simp] theorem modDbg_nvm (g : Dbg → Dbg) (p : Part) : (p.modDbg g).nvm = p.nvm := rfl
@[simp] theorem modDbg_dbg (g : Dbg → Dbg) (p : Part) : (p.modDbg g).dbg = g p.dbg := rfl
@[simp] theorem modDbg_aon (g : Dbg → Dbg) (p : Part) : (p.modDbg g).aon = p.aon := rfl
@[simp] theorem modDbg_bat (g : Dbg → Dbg) (p : Part) : (p.modDbg g).bat = p.bat := rfl
@[simp] theorem modDbg_cores (g : Dbg → Dbg) (p : Part) : (p.modDbg g).cores = p.cores := rfl
@[simp] theorem modDbg_priv (g : Dbg → Dbg) (p : Part) : (p.modDbg g).priv = p.priv := rfl
@[simp] theorem modDbg_ccMem (g : Dbg → Dbg) (p : Part) : (p.modDbg g).ccMem = p.ccMem := rfl
@[simp] theorem modDbg_opBuf (g : Dbg → Dbg) (p : Part) : (p.modDbg g).opBuf = p.opBuf := rfl
@[simp] theorem modDbg_rdata (g : Dbg → Dbg) (p : Part) : (p.modDbg g).rdata = p.rdata := rfl
@[simp] theorem modDbg_free (g : Dbg → Dbg) (p : Part) : (p.modDbg g).free = p.free := rfl

@[simp] theorem modAon_sys (g : Aon → Aon) (p : Part) : (p.modAon g).sys = p.sys := rfl
@[simp] theorem modAon_acu (g : Aon → Aon) (p : Part) : (p.modAon g).acu = p.acu := rfl
@[simp] theorem modAon_wpu (g : Aon → Aon) (p : Part) : (p.modAon g).wpu = p.wpu := rfl
@[simp] theorem modAon_hif (g : Aon → Aon) (p : Part) : (p.modAon g).hif = p.hif := rfl
@[simp] theorem modAon_dsp (g : Aon → Aon) (p : Part) : (p.modAon g).dsp = p.dsp := rfl
@[simp] theorem modAon_seq (g : Aon → Aon) (p : Part) : (p.modAon g).seq = p.seq := rfl
@[simp] theorem modAon_pan (g : Aon → Aon) (p : Part) : (p.modAon g).pan = p.pan := rfl
@[simp] theorem modAon_rke (g : Aon → Aon) (p : Part) : (p.modAon g).rke = p.rke := rfl
@[simp] theorem modAon_slc (g : Aon → Aon) (p : Part) : (p.modAon g).slc = p.slc := rfl
@[simp] theorem modAon_ent (g : Aon → Aon) (p : Part) : (p.modAon g).ent = p.ent := rfl
@[simp] theorem modAon_tnt (g : Aon → Aon) (p : Part) : (p.modAon g).tnt = p.tnt := rfl
@[simp] theorem modAon_mir (g : Aon → Aon) (p : Part) : (p.modAon g).mir = p.mir := rfl
@[simp] theorem modAon_tmp (g : Aon → Aon) (p : Part) : (p.modAon g).tmp = p.tmp := rfl
@[simp] theorem modAon_evr (g : Aon → Aon) (p : Part) : (p.modAon g).evr = p.evr := rfl
@[simp] theorem modAon_nvm (g : Aon → Aon) (p : Part) : (p.modAon g).nvm = p.nvm := rfl
@[simp] theorem modAon_dbg (g : Aon → Aon) (p : Part) : (p.modAon g).dbg = p.dbg := rfl
@[simp] theorem modAon_aon (g : Aon → Aon) (p : Part) : (p.modAon g).aon = g p.aon := rfl
@[simp] theorem modAon_bat (g : Aon → Aon) (p : Part) : (p.modAon g).bat = p.bat := rfl
@[simp] theorem modAon_cores (g : Aon → Aon) (p : Part) : (p.modAon g).cores = p.cores := rfl
@[simp] theorem modAon_priv (g : Aon → Aon) (p : Part) : (p.modAon g).priv = p.priv := rfl
@[simp] theorem modAon_ccMem (g : Aon → Aon) (p : Part) : (p.modAon g).ccMem = p.ccMem := rfl
@[simp] theorem modAon_opBuf (g : Aon → Aon) (p : Part) : (p.modAon g).opBuf = p.opBuf := rfl
@[simp] theorem modAon_rdata (g : Aon → Aon) (p : Part) : (p.modAon g).rdata = p.rdata := rfl
@[simp] theorem modAon_free (g : Aon → Aon) (p : Part) : (p.modAon g).free = p.free := rfl

@[simp] theorem modBat_sys (g : Bat → Bat) (p : Part) : (p.modBat g).sys = p.sys := rfl
@[simp] theorem modBat_acu (g : Bat → Bat) (p : Part) : (p.modBat g).acu = p.acu := rfl
@[simp] theorem modBat_wpu (g : Bat → Bat) (p : Part) : (p.modBat g).wpu = p.wpu := rfl
@[simp] theorem modBat_hif (g : Bat → Bat) (p : Part) : (p.modBat g).hif = p.hif := rfl
@[simp] theorem modBat_dsp (g : Bat → Bat) (p : Part) : (p.modBat g).dsp = p.dsp := rfl
@[simp] theorem modBat_seq (g : Bat → Bat) (p : Part) : (p.modBat g).seq = p.seq := rfl
@[simp] theorem modBat_pan (g : Bat → Bat) (p : Part) : (p.modBat g).pan = p.pan := rfl
@[simp] theorem modBat_rke (g : Bat → Bat) (p : Part) : (p.modBat g).rke = p.rke := rfl
@[simp] theorem modBat_slc (g : Bat → Bat) (p : Part) : (p.modBat g).slc = p.slc := rfl
@[simp] theorem modBat_ent (g : Bat → Bat) (p : Part) : (p.modBat g).ent = p.ent := rfl
@[simp] theorem modBat_tnt (g : Bat → Bat) (p : Part) : (p.modBat g).tnt = p.tnt := rfl
@[simp] theorem modBat_mir (g : Bat → Bat) (p : Part) : (p.modBat g).mir = p.mir := rfl
@[simp] theorem modBat_tmp (g : Bat → Bat) (p : Part) : (p.modBat g).tmp = p.tmp := rfl
@[simp] theorem modBat_evr (g : Bat → Bat) (p : Part) : (p.modBat g).evr = p.evr := rfl
@[simp] theorem modBat_nvm (g : Bat → Bat) (p : Part) : (p.modBat g).nvm = p.nvm := rfl
@[simp] theorem modBat_dbg (g : Bat → Bat) (p : Part) : (p.modBat g).dbg = p.dbg := rfl
@[simp] theorem modBat_aon (g : Bat → Bat) (p : Part) : (p.modBat g).aon = p.aon := rfl
@[simp] theorem modBat_bat (g : Bat → Bat) (p : Part) : (p.modBat g).bat = g p.bat := rfl
@[simp] theorem modBat_cores (g : Bat → Bat) (p : Part) : (p.modBat g).cores = p.cores := rfl
@[simp] theorem modBat_priv (g : Bat → Bat) (p : Part) : (p.modBat g).priv = p.priv := rfl
@[simp] theorem modBat_ccMem (g : Bat → Bat) (p : Part) : (p.modBat g).ccMem = p.ccMem := rfl
@[simp] theorem modBat_opBuf (g : Bat → Bat) (p : Part) : (p.modBat g).opBuf = p.opBuf := rfl
@[simp] theorem modBat_rdata (g : Bat → Bat) (p : Part) : (p.modBat g).rdata = p.rdata := rfl
@[simp] theorem modBat_free (g : Bat → Bat) (p : Part) : (p.modBat g).free = p.free := rfl

@[simp] theorem modCores_sys (g : Tab Core → Tab Core) (p : Part) : (p.modCores g).sys = p.sys := rfl
@[simp] theorem modCores_acu (g : Tab Core → Tab Core) (p : Part) : (p.modCores g).acu = p.acu := rfl
@[simp] theorem modCores_wpu (g : Tab Core → Tab Core) (p : Part) : (p.modCores g).wpu = p.wpu := rfl
@[simp] theorem modCores_hif (g : Tab Core → Tab Core) (p : Part) : (p.modCores g).hif = p.hif := rfl
@[simp] theorem modCores_dsp (g : Tab Core → Tab Core) (p : Part) : (p.modCores g).dsp = p.dsp := rfl
@[simp] theorem modCores_seq (g : Tab Core → Tab Core) (p : Part) : (p.modCores g).seq = p.seq := rfl
@[simp] theorem modCores_pan (g : Tab Core → Tab Core) (p : Part) : (p.modCores g).pan = p.pan := rfl
@[simp] theorem modCores_rke (g : Tab Core → Tab Core) (p : Part) : (p.modCores g).rke = p.rke := rfl
@[simp] theorem modCores_slc (g : Tab Core → Tab Core) (p : Part) : (p.modCores g).slc = p.slc := rfl
@[simp] theorem modCores_ent (g : Tab Core → Tab Core) (p : Part) : (p.modCores g).ent = p.ent := rfl
@[simp] theorem modCores_tnt (g : Tab Core → Tab Core) (p : Part) : (p.modCores g).tnt = p.tnt := rfl
@[simp] theorem modCores_mir (g : Tab Core → Tab Core) (p : Part) : (p.modCores g).mir = p.mir := rfl
@[simp] theorem modCores_tmp (g : Tab Core → Tab Core) (p : Part) : (p.modCores g).tmp = p.tmp := rfl
@[simp] theorem modCores_evr (g : Tab Core → Tab Core) (p : Part) : (p.modCores g).evr = p.evr := rfl
@[simp] theorem modCores_nvm (g : Tab Core → Tab Core) (p : Part) : (p.modCores g).nvm = p.nvm := rfl
@[simp] theorem modCores_dbg (g : Tab Core → Tab Core) (p : Part) : (p.modCores g).dbg = p.dbg := rfl
@[simp] theorem modCores_aon (g : Tab Core → Tab Core) (p : Part) : (p.modCores g).aon = p.aon := rfl
@[simp] theorem modCores_bat (g : Tab Core → Tab Core) (p : Part) : (p.modCores g).bat = p.bat := rfl
@[simp] theorem modCores_cores (g : Tab Core → Tab Core) (p : Part) : (p.modCores g).cores = g p.cores := rfl
@[simp] theorem modCores_priv (g : Tab Core → Tab Core) (p : Part) : (p.modCores g).priv = p.priv := rfl
@[simp] theorem modCores_ccMem (g : Tab Core → Tab Core) (p : Part) : (p.modCores g).ccMem = p.ccMem := rfl
@[simp] theorem modCores_opBuf (g : Tab Core → Tab Core) (p : Part) : (p.modCores g).opBuf = p.opBuf := rfl
@[simp] theorem modCores_rdata (g : Tab Core → Tab Core) (p : Part) : (p.modCores g).rdata = p.rdata := rfl
@[simp] theorem modCores_free (g : Tab Core → Tab Core) (p : Part) : (p.modCores g).free = p.free := rfl

@[simp] theorem when_true (g : Part → Part) (p : Part) : p.when true g = g p := rfl
@[simp] theorem when_false (g : Part → Part) (p : Part) : p.when false g = p := rfl

end Sys2Proof.Machine.Part
end

