-- ==== Sys2Proof/Laws/Processors.lean ====
section
/-! SUPPORT. What one instruction does on a processor that executes it: the checks before it change nothing, its body acts, and an
instruction that computes one general register changes that register, the program counter, and nothing else. -/

namespace Sys2Proof.Safety

open Sys2Proof.Machine

/-- A checkpoint that admits an access changes nothing (R181, R438). -/
theorem coreCheck_admitted {p : Part} {c : Nat} {kind : BitVec 3} {a n : Nat} (h : (p.coreCheck c kind a n).1 = none) :
    p.coreCheck c kind a n = (none, p) := by
  unfold Part.coreCheck at h ⊢
  simp only at h ⊢
  cases hr : p.regionCheck c (c == 4) (p.core c).priv kind a n with
  | none => rw [hr] at h; simp only at h ⊢; exact Prod.ext h rfl
  | some d => rw [hr] at h; simp only at h; split at h <;> cases h

theorem CoreReady.coreEnter {p : Part} {c : Nat} (h : CoreReady p c) : p.coreEnter c = (true, p) := by
  have k := coreCheck_admitted h.fetched
  unfold Part.coreEnter
  rw [if_neg (by simp [h.running, h.unfenced, h.undivided, h.scanOff]), if_neg (by simp [h.aligned]), k]

/-- On a ready core the body of an instruction is what the instruction does. -/
theorem CoreReady.coreStep {p : Part} {c : Nat} (h : CoreReady p c) (body : Core → Part → Part)
    (hb : ((body (p.core c) p).core c).stepOne = false) : p.coreStep c body = body (p.core c) p := by
  simp [Part.coreStep, h.coreEnter, Part.stepStop, hb]

/-- A turn changes no thread. -/
@[simp] theorem turned_thread (p : Part) (k j : Nat) : (turned p k).thread j = p.thread j := rfl

/-- On a ready thread the body of an instruction that need not wait acts on the part in which the thread has had its turn and counted it. -/
theorem ThreadReady.threadStep {p : Part} {k : Nat} (h : ThreadReady p k) (wait : Thread → Part → Bool) (body : Thread → Part → Part)
    (hw : wait (p.thread k) p = false) : p.threadStep k wait body = body (p.thread k) ((turned p k).modThread k counted) := by
  have := h.inside
  obtain ⟨arb, ht⟩ := Option.isSome_iff_exists.mp h.turn
  have hs : ¬ (p.thread k).segLen < (p.thread k).pc.toNat + 4 := by omega
  simp [Part.threadStep, turned, ht, h.busy, h.budget, h.aligned, hs, hw]
  rfl

theorem ThreadReady.onProc {p : Part} {n : Fin 16} {t : Fin 32} (h : ThreadReady p (Part.threadNo n t)) (core : Nat → Core → Part → Part)
    (thread : Nat → Thread → Part → Part) : p.onProc (.thread n t) core thread =
      thread (Part.threadNo n t) (p.thread (Part.threadNo n t)) ((turned p (Part.threadNo n t)).modThread (Part.threadNo n t) counted) := by
  simp only [Part.onProc, h.scanOff]
  exact h.threadStep (fun _ _ => false) _ rfl

theorem CoreReady.onProc {p : Part} {c : Fin 5} (h : CoreReady p c) (core : Nat → Core → Part → Part) (thread : Nat → Thread → Part → Part)
    (hb : ((core c (p.core c) p).core c).stepOne = false) : p.onProc (.core c) core thread = core c (p.core c) p :=
  h.coreStep _ hb

theorem core_modCore (p : Part) (c d : Nat) (g : Core → Core) : (p.modCore c g).core d = if d = c then g (p.core c) else p.core d := by
  by_cases h : d = c
  · subst h; simp [Part.modCore, Part.core, Tab.get_upd_self]
  · rw [if_neg h]; exact Tab.get_upd_other _ _ _ _ _ h

theorem thread_modThread (p : Part) (k j : Nat) (g : Thread → Thread) :
    (p.modThread k g).thread j = if j = k then g (p.thread k) else p.thread j := by
  by_cases h : j = k
  · subst h; simp [Part.modThread, Part.thread, Part.modSeq, Tab.get_upd_self]
  · rw [if_neg h]; exact Tab.get_upd_other _ _ _ _ _ h

theorem coreReg_eq (p : Part) (c : Fin 5) : (fun r : BitVec 5 => Part.coreReg (p.core c) r.toNat) = reg p (.core c) := by
  funext r
  by_cases h : r = 0
  · simp [Part.coreReg, reg, h]
  · have : r.toNat ≠ 0 := fun e => h (BitVec.eq_of_toNat_eq (by simpa using e))
    simp only [Part.coreReg, reg, if_neg h, if_neg this]

theorem threadReg_eq (p : Part) (n : Fin 16) (t : Fin 32) :
    (fun r : BitVec 5 => Part.threadReg (p.thread (Part.threadNo n t)) r.toNat) = reg p (.thread n t) := by
  funext r
  by_cases h : r = 0
  · simp [Part.threadReg, reg, h]
  · have : r.toNat ≠ 0 := fun e => h (BitVec.eq_of_toNat_eq (by simpa using e))
    simp only [Part.threadReg, reg, if_neg h, if_neg this]

/-- The general registers after a write of `rd`; g0 discards it. -/
theorem regs_written (m : Tab Word) (rd r : BitVec 5) (v : Word) :
    (if r = 0 then 0 else (if rd.toNat = 0 then m else m.set 0 rd.toNat v).get 0 r.toNat) =
      if r ≠ 0 ∧ r = rd then v else if r = 0 then 0 else m.get 0 r.toNat := by
  by_cases h0 : r = 0
  · simp [h0]
  · rw [if_neg h0]
    by_cases h1 : r = rd
    · subst h1
      have : r.toNat ≠ 0 := fun e => h0 (BitVec.eq_of_toNat_eq (by simpa using e))
      rw [if_neg this, if_pos ⟨h0, rfl⟩, Tab.get_set_self]
    · rw [if_neg (c := r ≠ 0 ∧ r = rd) fun e => h1 e.2, if_neg h0]
      by_cases h3 : rd.toNat = 0
      · rw [if_pos h3]
      · rw [if_neg h3, Tab.get_set_other _ _ _ _ _ fun e => h1 (BitVec.eq_of_toNat_eq e)]

/-- An instruction that computes one general register, on a processor that executes it (R166, R176, R177). -/
theorem regOp_computes {p : Part} {x : Proc} (h : Ready p x) (rd : BitVec 5) (f : (BitVec 5 → Word) → Word) :
    Computes x rd (f (reg p x)) (pcOf p x + 4) p (p.regOp x rd f) := by
  cases x with
  | core c =>
    have e : p.regOp (.core c) rd f = p.modCore c fun m =>
        { m with regs := if rd.toNat = 0 then m.regs else m.regs.set 0 rd.toNat (f (reg p (.core c))), pc := (p.core c).pc + 4 } := by
      unfold Part.regOp
      rw [CoreReady.onProc h]
      · rw [coreReg_eq]; unfold Part.setCoreReg Part.coreGo
        split <;> simp [Part.modCore, Tab.upd_upd, *]
      · unfold Part.setCoreReg Part.coreGo
        split <;> simp [core_modCore, h.unstepped]
    rw [e]
    refine ⟨⟨rfl, fun d hd => by simp [core_modCore, hd], by simp [core_modCore]⟩, by simp [pcOf, core_modCore], fun r => ?_⟩
    simp only [reg, core_modCore, if_true]
    exact regs_written _ _ _ _
  | thread n t =>
    have e : p.regOp (.thread n t) rd f = (turned p (Part.threadNo n t)).modThread (Part.threadNo n t) fun m =>
        { counted m with regs := if rd.toNat = 0 then m.regs else m.regs.set 0 rd.toNat (f (reg p (.thread n t)))
                         pc := (p.thread (Part.threadNo n t)).pc + 4 } := by
      unfold Part.regOp
      rw [ThreadReady.onProc h, threadReg_eq]
      unfold Part.setThreadReg Part.threadGo
      split <;> simp [Part.modThread, Part.modSeq, Tab.upd_upd, counted, *]
    rw [e]
    refine ⟨⟨rfl, fun d hd => by simp [thread_modThread, hd], by simp [thread_modThread]⟩, by simp [pcOf, thread_modThread], fun r => ?_⟩
    simp only [reg, thread_modThread, turned_thread, if_true]
    exact regs_written _ _ _ _

theorem vector_offset (n : BitVec 5) : at' n 6 = 0x40#32 * n.setWidth 32 := by
  apply BitVec.eq_of_toNat_eq
  simp [at', Nat.shiftLeft_eq, Nat.mul_comm]

theorem vector_bank (v : Word) : v.setWidth 8 = fld v 0 8 := by
  apply BitVec.eq_of_toNat_eq
  simp [fld]

/-- Taking an exception with EXL 0 enters it in the core, and changes no other core (R192). -/
theorem takeTrap_entered (p : Part) (c : Nat) (x : Trap) (h : (p.core c).exl = false) :
    (∃ fbk, (∀ b, x.bank = some b → fbk = b) ∧ (p.takeTrap c x).core c = entered (p.core c) x fbk) ∧
      ∀ d, d ≠ c → (p.takeTrap c x).core d = p.core d := by
  obtain ⟨k, q, e, hq⟩ : ∃ k q, p.takeTrap c x = Part.modCore c (fun m => entered m x (x.bank.getD (Config.freeByte k 0))) q ∧
      q.cores = p.cores := by
    unfold Part.takeTrap
    rw [if_neg (by simp [h])]
    cases hb : x.bank with
    | none => exact ⟨p.free, { p with free := p.free + 1 }, by simp [Part.draw, entered, vector_offset, vector_bank], rfl⟩
    | some b => exact ⟨0, p, by simp [entered, vector_offset, vector_bank], rfl⟩
  have hc : ∀ d, q.core d = p.core d := fun d => by unfold Part.core; rw [hq]
  rw [e]
  refine ⟨⟨x.bank.getD (Config.freeByte k 0), fun b hb => by rw [hb]; rfl, by rw [core_modCore, if_pos rfl, hc]⟩, fun d hd => ?_⟩
  rw [core_modCore, if_neg hd, hc]

end Sys2Proof.Safety
end

