-- ==== Sys2Proof/Laws/Tally.lean ====
section
/-! SUPPORT. What posting a record changes: the Tally Book and the head and count of the evidence chain, and nothing else. -/

namespace Sys2Proof.Safety

open Sys2Proof.Machine

theorem Recorded.refl (p : Part) : Recorded p p := rfl

theorem Recorded.trans {p q r : Part} (h : Recorded p q) (k : Recorded q r) : Recorded p r := by
  unfold Recorded at *
  rw [k, h]

theorem Recorded.modEvr (g : Evr → Evr) (p : Part) : Recorded p (p.modEvr g) := rfl

theorem Recorded.chainExtend (bs : List Byte) (p : Part) : Recorded p (p.chainExtend bs) := rfl

theorem Recorded.foldl {α : Type} (f : Part → α → Part) (h : ∀ p a, Recorded p (f p a)) (l : List α) (p : Part) :
    Recorded p (l.foldl f p) := by
  induction l generalizing p with
  | nil => exact .refl p
  | cons a l ih => exact (h p a).trans (ih _)

theorem Recorded.foldChain (p : Part) : Recorded p p.foldChain :=
  (Recorded.foldl _ (fun p bs => .chainExtend bs p) _ p).trans (.modEvr _ _)

/-- A record posted, of any kind. -/
theorem Recorded.postRec (r : Rec) (p : Part) : Recorded p (p.postRec r) :=
  (Recorded.modEvr _ p).trans (.foldChain _)

theorem Recorded.post (code : BitVec 16) (detail aux : Word) (p : Part) : Recorded p (p.post code detail aux) :=
  .postRec _ p

/-! ### Field by field -/

theorem Recorded.sys {p q : Part} (h : Recorded p q) : q.sys = p.sys := by rw [h]
theorem Recorded.acu {p q : Part} (h : Recorded p q) : q.acu = p.acu := by rw [h]
theorem Recorded.wpu {p q : Part} (h : Recorded p q) : q.wpu = p.wpu := by rw [h]
theorem Recorded.hif {p q : Part} (h : Recorded p q) : q.hif = p.hif := by rw [h]
theorem Recorded.dsp {p q : Part} (h : Recorded p q) : q.dsp = p.dsp := by rw [h]
theorem Recorded.seq {p q : Part} (h : Recorded p q) : q.seq = p.seq := by rw [h]
theorem Recorded.pan {p q : Part} (h : Recorded p q) : q.pan = p.pan := by rw [h]
theorem Recorded.rke {p q : Part} (h : Recorded p q) : q.rke = p.rke := by rw [h]
theorem Recorded.slc {p q : Part} (h : Recorded p q) : q.slc = p.slc := by rw [h]
theorem Recorded.ent {p q : Part} (h : Recorded p q) : q.ent = p.ent := by rw [h]
theorem Recorded.tnt {p q : Part} (h : Recorded p q) : q.tnt = p.tnt := by rw [h]
theorem Recorded.mir {p q : Part} (h : Recorded p q) : q.mir = p.mir := by rw [h]
theorem Recorded.tmp {p q : Part} (h : Recorded p q) : q.tmp = p.tmp := by rw [h]
theorem Recorded.nvm {p q : Part} (h : Recorded p q) : q.nvm = p.nvm := by rw [h]
theorem Recorded.dbg {p q : Part} (h : Recorded p q) : q.dbg = p.dbg := by rw [h]
theorem Recorded.aon {p q : Part} (h : Recorded p q) : q.aon = p.aon := by rw [h]
theorem Recorded.cores {p q : Part} (h : Recorded p q) : q.cores = p.cores := by rw [h]
theorem Recorded.priv {p q : Part} (h : Recorded p q) : q.priv = p.priv := by rw [h]
theorem Recorded.ccMem {p q : Part} (h : Recorded p q) : q.ccMem = p.ccMem := by rw [h]
theorem Recorded.opBuf {p q : Part} (h : Recorded p q) : q.opBuf = p.opBuf := by rw [h]
theorem Recorded.rdata {p q : Part} (h : Recorded p q) : q.rdata = p.rdata := by rw [h]
theorem Recorded.free {p q : Part} (h : Recorded p q) : q.free = p.free := by rw [h]

theorem Recorded.secs {p q : Part} (h : Recorded p q) : q.bat.secs = p.bat.secs := by rw [h]
theorem Recorded.frac {p q : Part} (h : Recorded p q) : q.bat.frac = p.bat.frac := by rw [h]
theorem Recorded.batPor {p q : Part} (h : Recorded p q) : q.bat.batPor = p.bat.batPor := by rw [h]
theorem Recorded.causeMesh {p q : Part} (h : Recorded p q) : q.bat.causeMesh = p.bat.causeMesh := by rw [h]
theorem Recorded.causeTemp {p q : Part} (h : Recorded p q) : q.bat.causeTemp = p.bat.causeTemp := by rw [h]
theorem Recorded.causeVolt {p q : Part} (h : Recorded p q) : q.bat.causeVolt = p.bat.causeVolt := by rw [h]
theorem Recorded.causeNet {p q : Part} (h : Recorded p q) : q.bat.causeNet = p.bat.causeNet := by rw [h]
theorem Recorded.backupLatch {p q : Part} (h : Recorded p q) : q.bat.backupLatch = p.bat.backupLatch := by rw [h]
theorem Recorded.scrapDue {p q : Part} (h : Recorded p q) : q.bat.scrapDue = p.bat.scrapDue := by rw [h]
theorem Recorded.onCell {p q : Part} (h : Recorded p q) : q.bat.onCell = p.bat.onCell := by rw [h]
theorem Recorded.tempLow {p q : Part} (h : Recorded p q) : q.bat.tempLow = p.bat.tempLow := by rw [h]
theorem Recorded.blog {p q : Part} (h : Recorded p q) : q.bat.blog = p.bat.blog := by rw [h]
theorem Recorded.blogSeq {p q : Part} (h : Recorded p q) : q.bat.blogSeq = p.bat.blogSeq := by rw [h]
theorem Recorded.vault {p q : Part} (h : Recorded p q) : q.bat.vault = p.bat.vault := by rw [h]
theorem Recorded.vaultClearing {p q : Part} (h : Recorded p q) : q.bat.vaultClearing = p.bat.vaultClearing := by rw [h]

@[simp] theorem postRec_sys (r : Rec) (p : Part) : (p.postRec r).sys = p.sys := (Recorded.postRec r p).sys
@[simp] theorem postRec_acu (r : Rec) (p : Part) : (p.postRec r).acu = p.acu := (Recorded.postRec r p).acu
@[simp] theorem postRec_wpu (r : Rec) (p : Part) : (p.postRec r).wpu = p.wpu := (Recorded.postRec r p).wpu
@[simp] theorem postRec_hif (r : Rec) (p : Part) : (p.postRec r).hif = p.hif := (Recorded.postRec r p).hif
@[simp] theorem postRec_dsp (r : Rec) (p : Part) : (p.postRec r).dsp = p.dsp := (Recorded.postRec r p).dsp
@[simp] theorem postRec_seq (r : Rec) (p : Part) : (p.postRec r).seq = p.seq := (Recorded.postRec r p).seq
@[simp] theorem postRec_pan (r : Rec) (p : Part) : (p.postRec r).pan = p.pan := (Recorded.postRec r p).pan
@[simp] theorem postRec_rke (r : Rec) (p : Part) : (p.postRec r).rke = p.rke := (Recorded.postRec r p).rke
@[simp] theorem postRec_slc (r : Rec) (p : Part) : (p.postRec r).slc = p.slc := (Recorded.postRec r p).slc
@[simp] theorem postRec_ent (r : Rec) (p : Part) : (p.postRec r).ent = p.ent := (Recorded.postRec r p).ent
@[simp] theorem postRec_tnt (r : Rec) (p : Part) : (p.postRec r).tnt = p.tnt := (Recorded.postRec r p).tnt
@[simp] theorem postRec_mir (r : Rec) (p : Part) : (p.postRec r).mir = p.mir := (Recorded.postRec r p).mir
@[simp] theorem postRec_tmp (r : Rec) (p : Part) : (p.postRec r).tmp = p.tmp := (Recorded.postRec r p).tmp
@[simp] theorem postRec_nvm (r : Rec) (p : Part) : (p.postRec r).nvm = p.nvm := (Recorded.postRec r p).nvm
@[simp] theorem postRec_dbg (r : Rec) (p : Part) : (p.postRec r).dbg = p.dbg := (Recorded.postRec r p).dbg
@[simp] theorem postRec_aon (r : Rec) (p : Part) : (p.postRec r).aon = p.aon := (Recorded.postRec r p).aon
@[simp] theorem postRec_cores (r : Rec) (p : Part) : (p.postRec r).cores = p.cores := (Recorded.postRec r p).cores
@[simp] theorem postRec_priv (r : Rec) (p : Part) : (p.postRec r).priv = p.priv := (Recorded.postRec r p).priv
@[simp] theorem postRec_ccMem (r : Rec) (p : Part) : (p.postRec r).ccMem = p.ccMem := (Recorded.postRec r p).ccMem
@[simp] theorem postRec_opBuf (r : Rec) (p : Part) : (p.postRec r).opBuf = p.opBuf := (Recorded.postRec r p).opBuf
@[simp] theorem postRec_rdata (r : Rec) (p : Part) : (p.postRec r).rdata = p.rdata := (Recorded.postRec r p).rdata
@[simp] theorem postRec_free (r : Rec) (p : Part) : (p.postRec r).free = p.free := (Recorded.postRec r p).free
@[simp] theorem postRec_secs (r : Rec) (p : Part) : (p.postRec r).bat.secs = p.bat.secs := (Recorded.postRec r p).secs
@[simp] theorem postRec_frac (r : Rec) (p : Part) : (p.postRec r).bat.frac = p.bat.frac := (Recorded.postRec r p).frac
@[simp] theorem postRec_batPor (r : Rec) (p : Part) : (p.postRec r).bat.batPor = p.bat.batPor := (Recorded.postRec r p).batPor
@[simp] theorem postRec_causeMesh (r : Rec) (p : Part) : (p.postRec r).bat.causeMesh = p.bat.causeMesh := (Recorded.postRec r p).causeMesh
@[simp] theorem postRec_causeTemp (r : Rec) (p : Part) : (p.postRec r).bat.causeTemp = p.bat.causeTemp := (Recorded.postRec r p).causeTemp
@[simp] theorem postRec_causeVolt (r : Rec) (p : Part) : (p.postRec r).bat.causeVolt = p.bat.causeVolt := (Recorded.postRec r p).causeVolt
@[simp] theorem postRec_causeNet (r : Rec) (p : Part) : (p.postRec r).bat.causeNet = p.bat.causeNet := (Recorded.postRec r p).causeNet
@[simp] theorem postRec_backupLatch (r : Rec) (p : Part) : (p.postRec r).bat.backupLatch = p.bat.backupLatch := (Recorded.postRec r p).backupLatch
@[simp] theorem postRec_scrapDue (r : Rec) (p : Part) : (p.postRec r).bat.scrapDue = p.bat.scrapDue := (Recorded.postRec r p).scrapDue
@[simp] theorem postRec_onCell (r : Rec) (p : Part) : (p.postRec r).bat.onCell = p.bat.onCell := (Recorded.postRec r p).onCell
@[simp] theorem postRec_tempLow (r : Rec) (p : Part) : (p.postRec r).bat.tempLow = p.bat.tempLow := (Recorded.postRec r p).tempLow
@[simp] theorem postRec_blog (r : Rec) (p : Part) : (p.postRec r).bat.blog = p.bat.blog := (Recorded.postRec r p).blog
@[simp] theorem postRec_blogSeq (r : Rec) (p : Part) : (p.postRec r).bat.blogSeq = p.bat.blogSeq := (Recorded.postRec r p).blogSeq
@[simp] theorem postRec_vault (r : Rec) (p : Part) : (p.postRec r).bat.vault = p.bat.vault := (Recorded.postRec r p).vault
@[simp] theorem postRec_vaultClearing (r : Rec) (p : Part) : (p.postRec r).bat.vaultClearing = p.bat.vaultClearing := (Recorded.postRec r p).vaultClearing

@[simp] theorem post_sys (c : BitVec 16) (d a : Word) (p : Part) : (p.post c d a).sys = p.sys := (Recorded.post c d a p).sys
@[simp] theorem post_acu (c : BitVec 16) (d a : Word) (p : Part) : (p.post c d a).acu = p.acu := (Recorded.post c d a p).acu
@[simp] theorem post_wpu (c : BitVec 16) (d a : Word) (p : Part) : (p.post c d a).wpu = p.wpu := (Recorded.post c d a p).wpu
@[simp] theorem post_hif (c : BitVec 16) (d a : Word) (p : Part) : (p.post c d a).hif = p.hif := (Recorded.post c d a p).hif
@[simp] theorem post_dsp (c : BitVec 16) (d a : Word) (p : Part) : (p.post c d a).dsp = p.dsp := (Recorded.post c d a p).dsp
@[simp] theorem post_seq (c : BitVec 16) (d a : Word) (p : Part) : (p.post c d a).seq = p.seq := (Recorded.post c d a p).seq
@[simp] theorem post_pan (c : BitVec 16) (d a : Word) (p : Part) : (p.post c d a).pan = p.pan := (Recorded.post c d a p).pan
@[simp] theorem post_rke (c : BitVec 16) (d a : Word) (p : Part) : (p.post c d a).rke = p.rke := (Recorded.post c d a p).rke
@[simp] theorem post_slc (c : BitVec 16) (d a : Word) (p : Part) : (p.post c d a).slc = p.slc := (Recorded.post c d a p).slc
@[simp] theorem post_ent (c : BitVec 16) (d a : Word) (p : Part) : (p.post c d a).ent = p.ent := (Recorded.post c d a p).ent
@[simp] theorem post_tnt (c : BitVec 16) (d a : Word) (p : Part) : (p.post c d a).tnt = p.tnt := (Recorded.post c d a p).tnt
@[simp] theorem post_mir (c : BitVec 16) (d a : Word) (p : Part) : (p.post c d a).mir = p.mir := (Recorded.post c d a p).mir
@[simp] theorem post_tmp (c : BitVec 16) (d a : Word) (p : Part) : (p.post c d a).tmp = p.tmp := (Recorded.post c d a p).tmp
@[simp] theorem post_nvm (c : BitVec 16) (d a : Word) (p : Part) : (p.post c d a).nvm = p.nvm := (Recorded.post c d a p).nvm
@[simp] theorem post_dbg (c : BitVec 16) (d a : Word) (p : Part) : (p.post c d a).dbg = p.dbg := (Recorded.post c d a p).dbg
@[simp] theorem post_aon (c : BitVec 16) (d a : Word) (p : Part) : (p.post c d a).aon = p.aon := (Recorded.post c d a p).aon
@[simp] theorem post_cores (c : BitVec 16) (d a : Word) (p : Part) : (p.post c d a).cores = p.cores := (Recorded.post c d a p).cores
@[simp] theorem post_priv (c : BitVec 16) (d a : Word) (p : Part) : (p.post c d a).priv = p.priv := (Recorded.post c d a p).priv
@[simp] theorem post_ccMem (c : BitVec 16) (d a : Word) (p : Part) : (p.post c d a).ccMem = p.ccMem := (Recorded.post c d a p).ccMem
@[simp] theorem post_opBuf (c : BitVec 16) (d a : Word) (p : Part) : (p.post c d a).opBuf = p.opBuf := (Recorded.post c d a p).opBuf
@[simp] theorem post_rdata (c : BitVec 16) (d a : Word) (p : Part) : (p.post c d a).rdata = p.rdata := (Recorded.post c d a p).rdata
@[simp] theorem post_free (c : BitVec 16) (d a : Word) (p : Part) : (p.post c d a).free = p.free := (Recorded.post c d a p).free
@[simp] theorem post_secs (c : BitVec 16) (d a : Word) (p : Part) : (p.post c d a).bat.secs = p.bat.secs := (Recorded.post c d a p).secs
@[simp] theorem post_frac (c : BitVec 16) (d a : Word) (p : Part) : (p.post c d a).bat.frac = p.bat.frac := (Recorded.post c d a p).frac
@[simp] theorem post_batPor (c : BitVec 16) (d a : Word) (p : Part) : (p.post c d a).bat.batPor = p.bat.batPor := (Recorded.post c d a p).batPor
@[simp] theorem post_causeMesh (c : BitVec 16) (d a : Word) (p : Part) : (p.post c d a).bat.causeMesh = p.bat.causeMesh := (Recorded.post c d a p).causeMesh
@[simp] theorem post_causeTemp (c : BitVec 16) (d a : Word) (p : Part) : (p.post c d a).bat.causeTemp = p.bat.causeTemp := (Recorded.post c d a p).causeTemp
@[simp] theorem post_causeVolt (c : BitVec 16) (d a : Word) (p : Part) : (p.post c d a).bat.causeVolt = p.bat.causeVolt := (Recorded.post c d a p).causeVolt
@[simp] theorem post_causeNet (c : BitVec 16) (d a : Word) (p : Part) : (p.post c d a).bat.causeNet = p.bat.causeNet := (Recorded.post c d a p).causeNet
@[simp] theorem post_backupLatch (c : BitVec 16) (d a : Word) (p : Part) : (p.post c d a).bat.backupLatch = p.bat.backupLatch := (Recorded.post c d a p).backupLatch
@[simp] theorem post_scrapDue (c : BitVec 16) (d a : Word) (p : Part) : (p.post c d a).bat.scrapDue = p.bat.scrapDue := (Recorded.post c d a p).scrapDue
@[simp] theorem post_onCell (c : BitVec 16) (d a : Word) (p : Part) : (p.post c d a).bat.onCell = p.bat.onCell := (Recorded.post c d a p).onCell
@[simp] theorem post_tempLow (c : BitVec 16) (d a : Word) (p : Part) : (p.post c d a).bat.tempLow = p.bat.tempLow := (Recorded.post c d a p).tempLow
@[simp] theorem post_blog (c : BitVec 16) (d a : Word) (p : Part) : (p.post c d a).bat.blog = p.bat.blog := (Recorded.post c d a p).blog
@[simp] theorem post_blogSeq (c : BitVec 16) (d a : Word) (p : Part) : (p.post c d a).bat.blogSeq = p.bat.blogSeq := (Recorded.post c d a p).blogSeq
@[simp] theorem post_vault (c : BitVec 16) (d a : Word) (p : Part) : (p.post c d a).bat.vault = p.bat.vault := (Recorded.post c d a p).vault
@[simp] theorem post_vaultClearing (c : BitVec 16) (d a : Word) (p : Part) : (p.post c d a).bat.vaultClearing = p.bat.vaultClearing := (Recorded.post c d a p).vaultClearing


end Sys2Proof.Safety
end

