-- ==== Sys2Proof/Tests/Slice0.lean ====
section
/-! SUPPORT. The author's own tests: a refused term for each check of well-formedness, words of the spec's examples, worked values,
and for each statement with hypotheses a state and operands that meet those of each of its clauses (`witness_…`, in the order of the
statement's clauses). -/

open Sys2Proof Sys2Proof.Machine Sys2Proof.Safety

namespace Sys2Proof.Tests

/-- A state that differs from reset in the part alone. -/
def on (g : Part → Part) : State := { State.reset with part := g State.reset.part }

/-! ### Well-formedness: one refused term for each check -/

theorem test_wf_sshf : (Instr.sshf (.core 0) 1 2 0x20).wf = false := by decide
theorem test_wf_scmp : (Instr.scmp (.core 0) 1 2 0).wf = false ∧ (Instr.scmpA (.core 0) 1 2 17).wf = false := by decide
theorem test_wf_spin : (Instr.spinUnpk (.core 0) 1 2 3 2).wf = false ∧ (Instr.spinPack (.core 0) 1 2 3 5).wf = false := by decide
theorem test_wf_sld : (Instr.sld (.core 0) 1 2 0 0).wf = false := by decide
theorem test_wf_pan : (Instr.enc (.core 0) 1 2 0x14 0).wf = false ∧ (Instr.mac (.core 0) 1 2 0x1F 0).wf = false := by decide
theorem test_wf_hash : (Instr.hash (.core 0) 1 2 0 0).wf = false := by decide
theorem test_wf_engx : (Instr.ecVerify (.core 0) 1 2 0x14).wf = false ∧ (Instr.ecVerify (.core 0) 1 2 0x1F).wf = true := by decide
theorem test_wf_msix : (Instr.msixUnmask 1 8).wf = false ∧ (Instr.msixUnmask 0 2047).wf = true := by decide
theorem test_wf_tick : (Instr.wpuTick [] [] 0).wf = false ∧ (Instr.ageMeasure []).wf = false := by decide
theorem test_wf_illegal : (Instr.illegal (.core 0) 0xC0000006).wf = false := by decide

/-! ### Words that the chapters write out (05_dibry_isa.md, 08_rakes_and_grainers.md) -/

theorem test_word_addi (x : Proc) : Dibry.decode x 0x07BDFFE0 = some (.addi x 29 29 0xFFE0) := rfl
theorem test_word_addi_up (x : Proc) : Dibry.decode x 0x07BD0020 = some (.addi x 29 29 32) := rfl
theorem test_word_sw (x : Proc) : Dibry.decode x 0x6BFD001C = some (.sw x 31 29 28) := rfl
theorem test_word_lw (x : Proc) : Dibry.decode x 0x4BFD001C = some (.lw x 31 29 28) := rfl
theorem test_word_call (x : Proc) : Dibry.decode x 0xA4000048 = some (.call x 0x48) := rfl
theorem test_word_jlr (x : Proc) : Dibry.decode x 0xA81F0000 = some (.jlr x 0 31 0) := rfl
theorem test_word_mtsr (x : Proc) : Dibry.decode x 0xC0030019 = some (.mtsr x 1 3) := rfl
theorem test_word_fence (x : Proc) : Dibry.decode x 0xC0000006 = some (.fenceRule x) := rfl
theorem test_word_lr (x : Proc) : Dibry.decode x 0x70A60000 = some (.lr x 5 6) := rfl
theorem test_word_sc (x : Proc) : Dibry.decode x 0x74E62800 = some (.sc x 7 6 5) := rfl
theorem test_word_bne (x : Proc) : Dibry.decode x 0x84E0FFFD = some (.bne x 7 0 (-3)) := rfl
theorem test_word_sld (x : Proc) : Dibry.decode x 0xE4049420 = some (.sld x 2 9 8 32) := rfl
theorem test_word_scmp (x : Proc) : Dibry.decode x 0xE140E408 = some (.scmpA x 7 2 8) := rfl
theorem test_word_hend (x : Proc) : Dibry.decode x 0xE480C000 = some (.hend x 12 0) ∧ Dibry.decode x 0xE480D000 = some (.hend x 13 0) :=
  ⟨rfl, rfl⟩
theorem test_word_engx (x : Proc) : Dibry.decode x 0xEA006041 = some (.ecVerify x 0 1 0x10) := rfl
/-- An unused field that is not zero makes a word ILLEGAL (R175). -/
theorem test_word_illegal (x : Proc) : Dibry.decode x 0xC0000016 = none ∧ Dibry.decode x 0xFC000000 = none := ⟨rfl, rfl⟩

/-! ### Worked values -/

/-- The check value of CRC-32, as IEEE 802.3 publishes it. -/
theorem test_crc32 : crc32 [0x31, 0x32, 0x33, 0x34, 0x35, 0x36, 0x37, 0x38, 0x39] = 0xCBF43926 := by decide +kernel
/-- The example of R576: LIGHT, rank 3, sensor 13, count 180. -/
theorem test_alarm_detail :
    Part.alarmDetail { Part.reset with tmp := { Part.reset.tmp with crust := { ranks := (List.replicate 19 0xFF#8).set 1 3 } } }
      { alarm := .light, inst := 13, value := 180 } = 0x00B40D61 := by decide

/-! ### Witnesses -/

theorem witness_IdleStepTicksCalendar :
    State.reset.pending = [] ∧
    (let s := on fun p => { p with bat := { p.bat with frac := 0xFFFF }, dbg := { p.dbg with remain := 1 } }
     s.pending = [] ∧ s.part.bat.frac = 0xFFFF ∧ s.part.dbg.remain ≠ 0) := by decide +kernel

theorem witness_DibryDecodeReadsBackEveryEncoding :
    (Instr.addi (.core 0) 31 31 0xFFFF).wf = true ∧ Dibry.encode (.addi (.core 0) 31 31 0xFFFF) = some (.core 0, 0x07FFFFFF) := by
  decide

theorem witness_DibryWordHasOneMeaning : Dibry.decode (.core 0) 0x07FFFFFF = some (.addi (.core 0) 31 31 0xFFFF) := rfl

theorem witness_FusesOnlyGainBits : FusesGrow Fuses.shipped State.reset.fuses ∧ ∃ t, step State.reset = .next t :=
  ⟨⟨rfl, by decide, by decide, rfl, by decide, by decide, rfl, by decide, ⟨rfl, rfl, rfl, rfl, rfl⟩⟩, _, rfl⟩

namespace WWorldMailboxIgnoresWritesOutOfTurn
def y := State.reset.part.sys
def u := { y with n2sTail := 8, s2nTail := 8 }
end WWorldMailboxIgnoresWritesOutOfTurn

open WWorldMailboxIgnoresWritesOutOfTurn in
theorem witness_WorldMailboxIgnoresWritesOutOfTurn :
    (∀ j < (y.n2sTail - y.n2sHead).toNat, (y.n2sHead.toNat + j) % 8 ≠ 127 / 16) ∧
    (∃ j < (u.n2sTail - u.n2sHead).toNat, (u.n2sHead.toNat + j) % 8 = 127 / 16) ∧
    (∀ j < (y.s2nTail - y.s2nHead).toNat, (y.s2nHead.toNat + j) % 8 ≠ 127 / 16) ∧
    (∃ j < (u.s2nTail - u.s2nHead).toNat, (u.s2nHead.toNat + j) % 8 = 127 / 16) ∧
    (8#4 - y.n2sHead).toNat ≤ 8 ∧ 8 < (9#4 - y.n2sHead).toNat ∧ (8#4 - y.s2nHead).toNat ≤ 8 ∧ 8 < (9#4 - y.s2nHead).toNat ∧
    (8#4 - u.s2nHead).toNat ≤ (u.s2nTail - u.s2nHead).toNat ∧ (u.s2nTail - u.s2nHead).toNat < (9#4 - u.s2nHead).toNat ∧
    (8#4 - u.n2sHead).toNat ≤ (u.n2sTail - u.n2sHead).toNat ∧ (u.n2sTail - u.n2sHead).toNat < (9#4 - u.n2sHead).toNat := by
  and_intros <;> decide +kernel

theorem witness_CoresStartAndStopAtTheirControls :
    (State.reset.part.core 3).run = .held ∧
    ((on fun p => { p with cores := p.cores.set {} 3 { run := .running } }).part.core 3).run ≠ .held := by decide +kernel

namespace WAcuCommitsTakeEffectWholeOrNotAtAll
def p := State.reset.part
def bad := (on fun p => { p with acu := { p.acu with stage := p.acu.stage.set {} 127 { base := 1, limit := 0, perm := 0x1FF } } }).part
end WAcuCommitsTakeEffectWholeOrNotAtAll

open WAcuCommitsTakeEffectWholeOrNotAtAll in
theorem witness_AcuCommitsTakeEffectWholeOrNotAtAll :
    Acu.regionFault (p.acu.merged 3 16 32) 3 = none ∧ (Acu.regionFault (bad.acu.merged 3 16 32) 3).isSome = true ∧
    (p.tagFault 3 0 0 0).isSome = true ∧ p.tagFault 0 0 8192 0 = none ∧ p.tagFault 1 0 1 0xFFF = none := by
  and_intros <;> decide +kernel

/-! States a host has opened: link up, Memory Space Enable, two virtual functions of the manager. -/

/-- The link is up after hand-off, and `n` virtual functions exist. -/
def linked (n : Nat) (p : Part) : Part :=
  (p.modSys fun y => { y with handed := true }).modHif fun h =>
    { h with linkUp := true, vfEnable := true, numVfs := BitVec.ofNat 16 n, vfMse := true }

theorem witness_ResetPinAndSupplyEvents :
    (on (Part.modSys fun y => { y with resetLow := true })).part.sys.resetLow = true ∧ State.reset.part.sys.resetLow = false := by
  decide

namespace WFunctionAndLinkResetsClearTheirScope
def p := State.reset.part
def u := (on (linked 1024)).part
def d := fun (c : Ctx) => (on fun p => ((linked 1024 p).modFn 1024 fun f => { f with draining := true }).modDsp fun x =>
  { x with ctxs := x.ctxs.set {} 65535 c }).part
end WFunctionAndLinkResetsClearTheirScope

open WFunctionAndLinkResetsClearTheirScope in
theorem witness_FunctionAndLinkResetsClearTheirScope :
    p.fnExists 1024 = false ∧ u.fnExists 1024 = true ∧ u.sys.session.active = false ∧ p.cfgOpen 0 = false ∧ u.cfgOpen 0 = true ∧
    (p.fn 1024).draining = false ∧ (d {}).ctxsOf 1024 = [] ∧ ((d {}).fn 1024).draining = true ∧
    (d { state := .fetched, fn := 1024 }).ctxsOf 1024 ≠ [] := by
  and_intros <;> decide +kernel

namespace WConfigurationOfFunctions
def p := State.reset.part
def u := (on (linked 1024)).part
def l := (on fun p => (linked 0 p).modHif fun h => { h with vfEnable := false }).part
def x := (on fun p => (linked 1024 p).modFn 1024 fun f =>
  { f with bme := true, vectors := f.vectors.set {} 7 { pending := true } }).part
end WConfigurationOfFunctions

open WConfigurationOfFunctions in
theorem witness_ConfigurationOfFunctions :
    u.hif.vfEnable = true ∧ l.cfgOpen 0 = true ∧ l.hif.vfEnable = false ∧ p.cfgOpen 0 = false ∧ p.cfgOpen 1024 = false ∧
    u.cfgOpen 0 = true ∧ u.cfgOpen 1024 = true ∧ (¬ ((1024 : Fin 1025) = 0 ∧ (0x60 : Fin 1024) = 0x60)) ∧
    x.fnExists 1024 = true ∧ 7 < Part.vectorCount 1024 ∧ ((x.fn 1024).vectors.get {} 7).pending = true ∧
    (x.fn 1024).fnMask = false ∧ (x.fn 1024).draining = false ∧ x.mayPost 1024 = true ∧
    u.fnExists 0 = true ∧ 2047 < Part.vectorCount 0 ∧ 6#4 ∈ [2#4, 6#4] ∧ (∀ r ∈ [2#4, 6#4], 1 ≤ r.toNat ∧ r.toNat ≤ 6) ∧
    (∀ w ∈ [8#4, 15#4], w ∈ [1#4, 4#4, 8#4] → w.toNat ≤ (8#4).toNat) ∧ (∀ r ∈ [0#4, 7#4], ¬ (1 ≤ r.toNat ∧ r.toNat ≤ 6)) := by
  and_intros <;> decide +kernel

namespace WResetRequestAndHostSecurity
def p := State.reset.part
def u := (on (linked 1024)).part
def k := fun t => (on fun p => (linked 1024 p).modFn 1024 fun f => { f with tdi := t }).part
end WResetRequestAndHostSecurity

open WResetRequestAndHostSecurity in
theorem witness_ResetRequestAndHostSecurity :
    (0xA4#8 ≠ 0xA5#8) ∧ p.hif.resetReq = false ∧ (on (Part.modHif fun h => { h with resetReq := true })).part.hif.resetReq = true ∧
    u.cfgOpen 0 = true ∧ (List.replicate 4096 0#8).length ≤ 4096 ∧ 4096 < (List.replicate 4097 0#8).length ∧ p.cfgOpen 0 = false ∧
    p.hif.spdm = false ∧ (on (Part.modHif fun h => { h with spdm := true })).part.hif.spdm = true ∧
    u.fnExists 1024 = true ∧ (u.fn 1024).tdi = .unlocked ∧ u.tnt.states.get 0 1024 ≠ 2 ∧ u.tnt.states.get 0 1024 ≠ 3 ∧
    u.tnt.states.get 0 1024 ≠ 4 ∧ p.fnExists 1024 = false ∧ ((k .run).fn 1024).tdi ≠ .unlocked ∧
    ((k .locked).fn 1024).tdi = .locked ∧ ((k .run).fn 1024).tdi ≠ .locked ∧
    (let o := fun (t : Byte) => ([1, 0, t, 0, 3, 0, 0, 0, 0x12, 0xE0, 0, 6] : List Byte)
     (o 1).take 2 = [1, 0] ∧ (o 3).getD 2 0 = 3 ∧ 2 < (3 : Byte).toNat ∧ ((o 1).drop 8).take 4 = [0x12, 0xE0, 0, 6] ∧ (o 2).length ≤ 4096) ∧
    ([0x12, 0xE5] : List Byte).getD 1 0 = 0xE5 ∧ ([0x12, 0xEC] : List Byte).getD 1 0 = 0xEC := by
  and_intros <;> decide +kernel

namespace WClockSourcesAndCalendarTime
def p := State.reset.part
def w := fun (lost here relock : Bool) =>
  (on (Part.modWpu fun w => { w with clkSrcLost := lost, xin1Present := here, relocking := relock })).part.wpu
end WClockSourcesAndCalendarTime

open WClockSourcesAndCalendarTime in
theorem witness_ClockSourcesAndCalendarTime :
    (w true true false).xin1Present = true ∧ (w true true false).clkSrcLost = true ∧ (w true false false).xin1Present = false ∧
    p.wpu.clkSrcLost = false ∧ (w true true true).relocking = true ∧ p.wpu.relocking = false := by
  and_intros <;> decide +kernel

/-! States of domains, engines and the Salt Cellar. A Cellar without its per-boot keys has empty tags, so that a slot written with none
holds without a value of the block cipher. -/

/-- A key slot of owner `colour`: handle class, algorithm, usage bits, GEN 0. -/
def keySlot (colour : BitVec 12) (cls : BitVec 4) (alg : Byte) (usage : BitVec 16) : Slot :=
  { mat := List.replicate 32 0, w0 := Slot.word0 colour cls 0 alg, w1 := Slot.word1 usage 0 0 3 Slot.key, w2 := Slot.word2 0 1 0 false
    w3 := 0, tag := [] }

/-- The Cellar READY with slot `i`. -/
def celled (i : Nat) (x : Slot) : Part → Part :=
  Part.modSlc fun c => { c with ready := true, slots := c.slots.set none i (some x) }

namespace WPowerDomainsLeasesAndTrips
def p := State.reset.part
def d := fun n g => (on (Part.modDom n g)).part
end WPowerDomainsLeasesAndTrips

open WPowerDomainsLeasesAndTrips in
theorem witness_PowerDomainsLeasesAndTrips :
    (let a := p.domAccepts 130; (true || !(p.dom 130).en.run || a.run) && (!false || a.sleep) && (!false || a.dsleep)) = true ∧
    (p.dom 130).lease = false ∧
    (let a := p.domAccepts 130; (false || !(p.dom 130).en.run || a.run) && (!false || a.sleep) && (!false || a.dsleep)) = false ∧
    (let m := (d 71 fun m => { m with lease := true }).dom 71
     m.lease = true ∧ m.en = { run := true, sleep := false, dsleep := false } ∧
       m.en ≠ { run := false, sleep := false, dsleep := false }) ∧
    (let q := d 71 fun m => { m with en := { run := true, sleep := true, dsleep := true } }
     (q.dom 71).state = .run ∧ (q.dom 71).en.run = true ∧ (q.dom 71).en.sleep = true ∧ (q.dom 71).lease = false ∧
       q.domIdle 71 = true ∧ (116 ≤ 71 ∧ 71 < 120 → (q.core (71 - 116)).run = .doze) ∧ (q.dom 71).en.dsleep = true) ∧
    (let q := d 71 fun m => { m with en := { run := false, sleep := false, dsleep := false } }
     (q.dom 71).en.run = false ∧ (q.dom 71).lease = false ∧ q.domIdle 71 = true ∧ (q.dom 71).state ≠ .off) ∧
    (p.dom 0).en.run = true ∧ (p.dom 0).tripT = false ∧ (p.dom 0).tripV = false ∧
    ((d 0 fun m => { m with tripT := true }).dom 0).tripT = true ∧
    130 ∈ Part.domsOf 4 4 ∧ (p.dom 130).lease = false ∧ (p.dom 130).tripT = false ∧ (p.dom 130).tripV = false ∧
    129 ∉ Part.domsOf 4 4 ∧ ((d 130 fun m => { m with lease := true }).dom 130).lease = true ∧
    71 ∈ Part.engineDoms 6 ∧ Part.tripsVoltage 128 = true ∧ Part.tripsVoltage 120 = false ∧
    ((d 128 fun m => { m with tripV := true }).dom 128).tripV = true ∧
    (∃ x ∈ Part.engineDoms 6, ((d 71 fun m => { m with tripT := true }).dom x).tripT = true) := by
  and_intros <;> decide +kernel

namespace WWindpumpTickVoltageAndAgeing
def p := State.reset.part
def w := fun g => (on (Part.modWpu g)).part.wpu
end WWindpumpTickVoltageAndAgeing

open WWindpumpTickVoltageAndAgeing in
theorem witness_WindpumpTickVoltageAndAgeing :
    (∀ n < 7, (p.island n).step.toNat ≤ 2) ∧ (w fun w => { w with avsFault := true }).avsFault = true ∧
    (let x := w fun w => { w with avsPending := true, avsTries := 2 }
     x.avsPending = true ∧ x.avsFault = false ∧ (815#10).toNat ≤ x.command.toNat + 15 ∧ x.command.toNat ≤ (785#10).toNat + 15 ∧
       x.avsTries = 2) ∧
    p.wpu.avsPending = false ∧
    (let q := (on (Part.modIsland 6 fun i => { i with planned := some (1, 2, 3), drain := true })).part
     (q.island 6).planned = some (1, 2, 3) ∧ (q.island 6).drain = true ∧ ∀ d ∈ Part.engineDoms 6, q.domIdle d = true) ∧
    (p.island 6).planned = none ∧ Part.wpuConsistent p.wpu.st.stage = true ∧
    Part.wpuConsistent (w fun w => { w with st := { w.st with stage := { w.st.stage with step1 := 110 } } }).st.stage = false := by
  and_intros <;> decide +kernel

namespace WEngineTakesAndEndsOperations
def o : EngOp := { owner := .ctx 65535, cls := 0, mode := 0x001, handle := mkHandle 3 0 1048575, colour := 0xFFE }
def p := (on fun p => (celled 1048575 { keySlot 0xFFE 3 0x20 0x0100 with w3 := 0x00100000 } p).modEng 47 fun x => { x with queue := [o] }).part
def p1 := p.modEng 47 fun x => { x with queue := [], arb := ((p.engNext 47).map (·.2.2)).getD x.arb }
def ss := [{ keySlot 0xFFE 3 0x20 0x0100 with w3 := 0x00100000 }]
def r := (on fun p => (p.modEng 55 fun x => { x with cur := some { op := o } }).modCtx 65535 fun c => { c with state := .running }).part
def v : EngOp := { o with mode := 0x041, in1 := List.replicate 20 1, in2 := beBytes 64 (2 ^ 256 + 1) }
def e := fun (o : EngOp) => (on fun p => (p.modEng 55 fun x => { x with cur := some { op := o, w0 := 0x30000000 } }).modCtx 65535 fun c =>
  { c with state := .running }).part
def ok := fun (o : EngOp) => Pk.valid o.mode.toNat (fld (0x30000000#32) 24 8).toNat 0 [[], o.in1, o.in2] o.word3.toNat
end WEngineTakesAndEndsOperations

open WEngineTakesAndEndsOperations in
theorem witness_EngineTakesAndEndsOperations :
    (ok v = true ∧ ((e v).eng 55).cur = some { op := v, w0 := 0x30000000 } ∧ ((e v).ctx 65535).state = .running) ∧
    (ok { v with in1 := [] } = false ∧ ((e { v with in1 := [] }).eng 55).cur ≠ none) ∧
    (ok { v with mode := 0x040 } = true ∧ Pk.signs (0x040#9).toNat = true) ∧
    (ok { v with owner := .thread 511 0 } = true ∧ ((e { v with owner := .thread 511 0 }).eng 55).cur = some { op := { v with owner := .thread 511 0 }, w0 := 0x30000000 }) ∧
    (Part.takeNext {} (fun _ => 1) {} [{ o with cls := 1 }, o]).map (fun x => (x.1, x.2.1)) = some (o, [{ o with cls := 1 }]) ∧
    (p.eng 47).cur = none ∧ p.engineUp 47 = true ∧ (p.eng 47).parked = none ∧
    (p.engNext 47).map (fun x => (x.1, x.2.1)) = some (o, []) ∧ Part.readsKey o = true ∧ p.cellarWaits o.handle = false ∧
    ss ≠ [] ∧ ((Part.opKey o p1).1.toOption = some ss) ∧
    Pk.freshLen o.mode.toNat (ss.head?.getD (Slc.emptySlot 0)).alg.toNat o.word3 = 0 ∧
    (r.eng 55).cur ≠ none ∧ (r.eng 55).cur = some { op := o } ∧ o.mode.toNat < 0x1C0 ∧ Pk.verifies o.mode.toNat = true ∧
    (r.ctx 65535).state = .running ∧ (r.ctx 65535).discard = false ∧ Pk.signs Pk.ecSign = true ∧ Pk.ecSign ≠ Pk.mldsaSign ∧
    Pk.releaseFails 0x040 0x30 [] true = true := by
  and_intros <;> decide +kernel

namespace WEngineTestsRetirementAndSecureJobs
def p := State.reset.part
def e := fun g => (on (Part.modEng 55 g)).part
def c := (on (Part.modNvm fun n => { n with charter := { n.charter with minModLimbs := 16, curveEn := 127, setEn := 4095 } })).part
def j : EngOp := { owner := .job 7, cls := 0, mode := 0x1C5 }
def b := (on fun p => (p.modEng 55 fun x => { x with cur := some { op := j } }).modRke fun r =>
  { r with jobs := r.jobs.set {} 7 { engine := 7, kind := 5, busy := true } }).part
end WEngineTestsRetirementAndSecureJobs

open WEngineTestsRetirementAndSecureJobs in
theorem witness_EngineTestsRetirementAndSecureJobs :
    (1 ≤ p.rke.rke.st.stage.toNat ∧ p.rke.rke.st.stage.toNat ≤ 32) ∧
    32 < (on (Part.modRke fun r => { r with rke := { r.rke with st := { r.rke.st with stage := 33 } } })).part.rke.rke.st.stage.toNat ∧
    (1 ≤ p.rke.grn.st.stage.toNat ∧ p.rke.grn.st.stage.toNat ≤ 32) ∧
    (on (Part.modRke fun r => { r with grn := { r.grn with st := { r.grn.st with stage := 0 } } })).part.rke.grn.st.stage.toNat = 0 ∧
    (p.eng 55).katRun = false ∧ ((e fun x => { x with katRun := true }).eng 55).katRun = true ∧
    ((e fun x => { x with katRun := true }).eng 55).retired = false ∧ ((e fun x => { x with retired := true }).eng 55).retired = true ∧
    (b.rke.jobs.get {} 7).busy = true ∧ (p.rke.jobs.get {} 7).busy = false ∧ c.jobParamOk 1 15 = false ∧ c.jobParamOk 1 256 = true ∧
    c.jobParamOk 5 2 = true ∧ (e fun x => { x with retired := true }).engineUp 55 = false ∧ c.engineUp 55 = true ∧
    b.jobEngine 7 = some (55, { op := j }) ∧ p.jobEngine 7 = none := by
  and_intros <;> decide +kernel

/-! States in which the manager has a granule of contexts and 64 queue pairs, and the lanes run. -/

/-- The part in SERVICE, function 0 with Bus Master Enable, granule 0 and queue pairs 0 to 63. -/
def serving (p : Part) : Part :=
  let c : TntCfg := { grans := 1, inflight := 65536, qpCount := 64 }
  let p := (linked 1024 p).modSys fun y => { y with mode := .service }
  let p := (p.modFn 0 fun f => { f with bme := true }).modDsp fun d => { d with enable := true, entHold := false }
  (p.modTnt fun t => { t with t := t.t.set {} 0 { st := { stage := c, eff := c } } }).modAcu fun u =>
    { u with tagOb := u.tagOb.set 0 0 0xFFE }

/-- Context `n` of the manager. -/
def ctxed (n : Nat) (c : Ctx) (p : Part) : Part := (serving p).modDsp fun d => { d with ctxs := d.ctxs.set {} n c }

namespace WQueuePairControlsAndDoorbells
def p := (on serving).part
def qp := fun g => (on fun p => (serving p).modQp 63 g).part
def busy := (on (ctxed 7 { state := .fetched, qp := 63 })).part
end WQueuePairControlsAndDoorbells

open WQueuePairControlsAndDoorbells in
theorem witness_QueuePairControlsAndDoorbells :
    State.reset.part.qpGlobal 0 63 = none ∧ p.qpGlobal 0 63 = some 63 ∧ (p.qp 63).enable = false ∧ p.qpIdle 63 = true ∧
    busy.qpIdle 63 = false ∧ State.reset.part.doorbell 1024 = false ∧ p.doorbell 0 = true ∧
    ((qp fun q => { q with enable := true }).qp 63).enable = true ∧
    63 < 2 ^ (p.qp 63).st.eff.sqLog.toNat ∧ 63 < 2 ^ (p.qp 63).st.eff.cqLog.toNat ∧
    2 ^ (p.qp 63).st.eff.sqLog.toNat ≤ 64 ∧ 2 ^ (p.qp 63).st.eff.cqLog.toNat ≤ 64 ∧
    (let x := (qp fun q => { q with st := { q.st with stage := { q.st.stage with vector := 4 } } }).qp 63
     Part.qpCfgOk 0 x.st.stage = true ∧ Part.withIrq x.st.eff x.st.stage = x.st.stage) ∧
    (let r := qp fun q => { q with st := { q.st with stage := { q.st.stage with vector := 4, cqLog := 16 } } }
     Part.qpCfgOk 0 (r.qp 63).st.stage = true ∧ Part.withIrq (r.qp 63).st.eff (r.qp 63).st.stage ≠ (r.qp 63).st.stage ∧
       (r.qp 63).enable = false ∧ r.qpIdle 63 = true) ∧
    Part.qpCfgOk 0 (p.qp 63).st.stage = false ∧
    (let c := p.dsp.st.stage
     1 ≤ c.wBack.toNat ∧ c.wBack.toNat ≤ c.wBulk.toNat ∧ c.wBulk.toNat ≤ c.wStandard.toNat ∧ c.reserve.toNat ≤ 16) ∧
    (let c := { p.dsp.st.stage with reserve := 17 }; ¬ c.reserve.toNat ≤ 16) ∧
    (∀ x ∈ p.dsp.ctxs, x.2.state = .free) ∧ (∃ x ∈ busy.dsp.ctxs, x.2.state ≠ .free) ∧
    (let r := (qp fun q => { q with unsignalled := 1, st := { q.st with eff := { q.st.eff with coalTime := 1 } } }).modFn 0 fun f =>
       { f with vectors := [(0, { masked := false })] }
     r.qpOwner 63 = some 0 ∧ (r.qp 63).unsignalled ≠ 0 ∧ (r.qp 63).st.eff.coalTime ≠ 0 ∧
       ((r.fn 0).vectors.get {} (r.qp 63).st.eff.vector.toNat).masked = false ∧ (r.fn 0).fnMask = false ∧
       (r.fn 0).draining = false ∧ r.mayPost 0 = true) ∧
    (p.qp 63).unsignalled = 0 := by
  and_intros <;> decide +kernel

namespace WOperationsAreFetchedPlacedAndCompleted
def p := (on fun p => (serving p).modQp 63 fun q => { q with enable := true, sqTail := 8 }).part
def x := p.qp 63
def c := fun (c : Ctx) => (on (ctxed 7 c)).part
def i' : List Byte := Pk.fit 16 ([0, 0, 0, 0, 0, 0, 0, 0] ++ [1])
def pf := c { state := .fetched }
def hh := Part.headOf (Pk.fit 128 [])
def dd := Pk.fit 128 ((Pk.fit 128 ([] : List Byte)).take 64)
def p1 := (pf.when hh.long (Part.takeSecond 7)).modCtx 7 (Part.loadCtx hh dd (pf.effClassOf 0 (pf.ctx 7).qp hh.cls))
end WOperationsAreFetchedPlacedAndCompleted

open WOperationsAreFetchedPlacedAndCompleted in
theorem witness_OperationsAreFetchedPlacedAndCompleted :
    (p.qpOwner 63 = some 0 ∧ x.st.pend = none ∧
      x.sqHead.toNat + 8 ≤ 2 ^ x.st.eff.sqLog.toNat ∧ 8 ≤ Part.sqPending x ∧ p.lanesRun 0 = true ∧ p.powered 115 = true ∧ x.enable = true ∧
      8 ≤ ((p.tntApply 0).freeCtxs 0).length ∧ (p.ctxsOf 0).length + 8 ≤ (p.tntApply 0).quotaOf 0 ∧ ((p.tntApply 0).laneTurn 0 63).isSome = true) ∧
    (¬ 9 ≤ Part.sqPending x) ∧
    ((pf.ctx 7).state = .fetched ∧ pf.earlierFetched 7 = false ∧ (pf.ctx 7).discard = false) ∧
    hh.long = false ∧ Part.handlesOf hh dd = List.replicate 4 0 ∧ hh.inPtr = false ∧ pf.sys.mode = .service ∧ pf.tnt.states.get 0 0 = 0 ∧
    p1.descFault (decide (4096 ≤ (pf.ctx 7).qp)) hh dd = none ∧ p1.gateOpen = true ∧
    (hh.kind = 0 ∧ hh.program = 0 ∧ Part.dNum dd 20 4 = 0 ∧ (p1.programEntry false 0 0).isSome = true) ∧
    (on fun p => (ctxed 7 { state := .fetched, qp := 4096 } p)).part.secondReady 7 = true ∧ pf.secondReady 7 = false ∧
    (Part.handleCheck 0xFFE ((Part.handlesOf hh dd).zip (List.replicate 4 [])) 0 p1).1 = none ∧
    (let p := (on fun p => (ctxed 7 { state := .fetched } p).modSys fun y => { y with mode := .quarantine }).part
     p.sys.mode = .quarantine ∧ (p.ctx 7).state = .fetched ∧ p.earlierFetched 7 = false) ∧
    (let p := c { state := .decoded, bulk := true, program := 0x0860, param := 2, sglIn := (0, 1), sglOut := (0, 2), streamLen := 1 }
     let o' : List Byte := Pk.fit 32 ([0, 0, 0, 0, 0, 0, 0, 0] ++ [32, 0, 0, 0, 0, 0, 0, 0] ++ [0, 0, 0, 0, 0, 0, 0, 0] ++ [1])
     let x := p.ctx 7
     x.state = .decoded ∧ x.lists = none ∧ x.bulk = true ∧ x.discard = false ∧ Part.entriesOk i' = true ∧ Part.entriesOk o' = true ∧
       Part.listLen (Part.listOf i') = x.streamLen ∧
       Part.bulkOutput x.program.toNat x.param x.param2 x.streamLen ≤ Part.listLen (Part.listOf o')) ∧
    (let p := c { state := .held }
     (p.ctx 7).state = .held ∧ (p.ctx 7).bulk = false ∧ (p.ctx 7).sglIn.2 = 0 ∧ (p.ctx 7).sglOut.2 = 0 ∧ p.fenced 7 = false ∧
       p.olderHeld 7 = false ∧ p.choose (Part.kindOf (p.ctx 7)) ((p.ctx 7).effClass == 0) = none) ∧
    (let p := (on fun p => (ctxed 7 { state := .decoded } p).modSeq fun e => { e with run := true }).part
     p.choose (Part.kindOf (p.ctx 7)) ((p.ctx 7).effClass == 0) = some 0) ∧
    (let p := c { state := .finished, qp := 63 }
     (p.ctx 7).state = .finished ∧ (p.ctx 7).qp < 4096 ∧ p.waits 7 = false ∧ p.earlierWaits 7 = false ∧ (p.ctx 7).discard = false ∧
       (p.fn 0).draining = false ∧ p.mayPost 0 = true ∧ Part.cqFull (p.qp 63) = false) ∧
    (let p := (on fun p => (ctxed 7 { state := .finished, qp := 63 } p).modFn 0 fun f => { f with bme := false }).part
     p.mayPost 0 = false) := by
  and_intros <;> decide +kernel

/-- A bulk stream of program `num` placed on pan 15, one key in slot 31. -/
def bulked (num : BitVec 16) (hs : List (BitVec 32)) : Part :=
  (on fun p => celled 31 (keySlot 0xFFE 1 0x11 0x2004) (ctxed 7
    { state := .queued, unit := some (.pan 15), bulk := true, program := num, handles := hs, streamLen := 513 } (p.modOnePan 15 fun x =>
      { x with streams := [{ ctx := 7, coreB := false, started := false }] }))).part

namespace WPansMaskStreamAndRetire
def p := State.reset.part
def n := fun g => (on (Part.modOnePan 15 g)).part
def k := bulked 0x0868 [mkHandle 1 0 31]
def y : Stream := { ctx := 7, coreB := false, started := true }
def run := fun (pos : Nat) => (on fun p => (ctxed 7 { state := .running, unit := some (.pan 15), bulk := true, program := 0x0860
                                                      streamLen := 513, lists := some ([], []) } p).modOnePan 15 fun x =>
  { x with stall := false, streams := [{ y with pos := pos }] }).part
end WPansMaskStreamAndRetire

open WPansMaskStreamAndRetire in
theorem witness_PansMaskStreamAndRetire :
    ((∀ d ∈ p.ent.waiting, d.wire ≠ 15) ∧ p.ent.wires.get [] 15 = [] ∧ (p.onePan 15).retired = false ∧ p.powered 15 = true ∧
      (p.onePan 15).stall = true ∧ p.ent.ready = false) ∧
    (n fun x => { x with retired := true }).onePan 15 = { retired := true } ∧
    (let q := n fun x => { x with maskCount := 2 ^ 24 }; q.maskLimit ≤ (q.onePan 15).maskCount) ∧
    (let q := n fun x => { x with maskCount := 2 ^ 24 - 1 }; (q.onePan 15).maskCount < q.maskLimit) ∧
    (on (Part.modEnt fun e => { e with wires := e.wires.set [] 15 [1] })).part.ent.wires.get [] 15 ≠ [] ∧
    (p.onePan 15).katRun = false ∧ ((n fun x => { x with katRun := true }).onePan 15).katRun = true ∧
    (let c := p.pan.st.stage; 16 ≤ c.interval.toNat ∧ c.interval.toNat ≤ c.limit.toNat ∧ c.limit.toNat ≤ 28) ∧ p.pansIdle = true ∧
    (n fun x => { x with streams := [y] }).pansIdle = false ∧ (¬ 16 ≤ ({ interval := 15 } : PanCfg).interval.toNat) ∧
    (let q := bulked 0x0860 []
     q.panOf 7 = some 15 ∧ (q.ctx 7).state = .queued ∧ (q.ctx 7).bulk = true ∧ q.bulkLengthOk 7 = true) ∧
    (k.panOf 7 = some 15 ∧ k.cellarWaits (mkHandle 1 0 31) = false ∧ k.bulkLengthOk 7 = true ∧
      (Part.bulkKey 0x0868 0 (mkHandle 1 0 31) 0 k).1.toOption.isSome = true) ∧
    (let q := { bulked 0x0830 [mkHandle 1 0 31, mkHandle 1 0 32] with free := 0 }.modSlc fun c =>
       { c with slots := (c.slots.set none 31 (some (keySlot 0xFFE 1 0x11 0x2001))).set none 32 (some { keySlot 0xFFE 1 0x11 0x2001 with mat := List.replicate 32 1 }) }
     let a := (Part.bulkKey 0x0830 0 (mkHandle 1 0 31) 0 q).1.toOption
     let b := (Part.bulkKey 0x0830 0 (mkHandle 1 0 32) 1 q).1.toOption
     a.isSome = true ∧ a.map List.length = b.map List.length ∧ a ≠ b) ∧
    ((run 0).streamOf 7 = some (15, y) ∧ (run 0).panApply.panReady 15 = true ∧ (run 0).panApply.chunkRoom ((run 0).ctx 7) 15 y (min 512 (513 - 0)) ≠ 0 ∧
      ((run 0).ctx 7).lists = some ([], []) ∧ ((run 0).fn 0).draining = false) ∧
    ((run 513).streamOf 7 = some (15, { y with pos := 513 }) ∧ ((run 513).ctx 7).streamLen ≤ 513 ∧ (run 513).panReady 15 = true ∧ p.streamOf 7 = none ∧
      ((run 513).ctx 7).state = .running ∧ ((run 513).ctx 7).discard = false) := by
  and_intros <;> decide +kernel

namespace WThreadsStartTakeResultsAndClose
def p := State.reset.part
def t := fun (th : Thread) => (on (Part.modThread 511 fun _ => th)).part
def h := fun num (th : Thread) => (on fun p => ((ctxed 7 { state := .queued, unit := some (.thread 15 31), program := num } p).modOnePan
  15 fun x => { x with stall := false }).modSeq fun e =>
  { e with run := true, threads := e.threads.set {} 511 th
           programs := [{ number := 0x1000, mask := 0, minOut := 0, budget := 1, admin := false, entry := 0, offset := 0, len := 4 }] }).part
def r : EngReq := { dest := [(2, {}), (3, {})], window := [(383, [1, 2])], verdict := none, fail := none, unit := .rake 0, pendDest := [], pc := 0 }
def land := fun (x : Slot) => (on fun p => celled 31 x ((ctxed 7 { state := .running, handles := [mkHandle 5 0 31] } p).modThread 511 fun _ =>
  { busy := true, ctx := 7, colour := 0xFFE, landing := some (0, 0, []) })).part
def ls : Slot := { keySlot 0xFFE 5 0 0 with w1 := Slot.word1 0 0 0 0 Slot.landing }
end WThreadsStartTakeResultsAndClose

open WThreadsStartTakeResultsAndClose in
theorem witness_ThreadsStartTakeResultsAndClose :
    (h 0 { busy := true }).thread 511 = { busy := true } ∧
    (let q := h 0x1000 {}
     (q.ctx 7).unit = some (.thread 15 31) ∧ (q.ctx 7).state = .queued ∧ (q.thread 511).busy = false ∧ q.seq.run = true ∧
       q.panReady 15 = true ∧ q.startsOn 15 31 = some 31 ∧ ((q.seqApply.modOnePan 15 id).startThread 7 (q.ctx 7)).library = false) ∧
    (h 0x1000 {}).startsOn 15 32 = some 0 ∧ ({ r with dest := [(3, {}), (4, {})] }).dest.length = 2 ∧ ({ r with unit := .pan 15 }).blocks = 0 ∧
    ({ r with dest := [(3, {}), (4, {})] }).dest = [(3, {}), (4, {})] ∧ 3 % 2 = 1 ∧
    (let q := h 0x0010 {}
     ((q.seqApply.modOnePan 15 id).startThread 7 (q.ctx 7)).library = true ∧
       Library.inputOk 0x0010 (q.ctx 7).param (q.ctxData 7 0 (q.ctx 7).inLen ++ (q.ctx 7).inData) = false ∧ (q.ctx 7).discard = false) ∧
    ((t { busy := true, reqs := [r] }).thread 511).reqs[0]? = some r ∧ r.ready = true ∧ r.fixed = false ∧ r.fail = none ∧
    ((t { busy := true, reqs := [{ r with ready := false }] }).thread 511).reqs[0]? = some { r with ready := false } ∧
    ({ r with fail := some (0x30, 1) }).fail = some (0x30, 1) ∧
    (((t { busy := true }).thread 511).busy = true ∧ ((t { busy := true }).thread 511).budget = 0) ∧
    (p.thread 511).busy = false ∧ (p.thread 511).landing = none ∧
    (let q := land ls
     (q.thread 511).landing = some (0, 0, []) ∧ (q.cellarWaits (mkHandle 5 0 31) || q.commitsEarlier 7) = false ∧ (q.headCheck (mkHandle 5 0 31) 0xFFE [5]).1 = none ∧
       (q.slot 31).state = Slot.landing ∧ (Template.ofEntry 0).agrees (q.slc.template (q.slot 31).child.toNat) = true) ∧
    ((on (Part.modThread 511 fun _ => { landing := some (0, 0, []) })).part.cellarWaits 31 = true) ∧ p.sys.mode ≠ .quarantine ∧
    (let q := land (keySlot 0xFFE 5 0 0); (q.headCheck (mkHandle 5 0 31) 0xFFE [5]).1 = none ∧ (q.slot 31).state ≠ Slot.landing) ∧
    (p.seq.loadOpen = true ∧ p.sys.mode ≠ .assay) ∧ (on (Part.modSys fun y => { y with mode := .assay })).part.sys.mode = .assay ∧
    (on (Part.modSeq fun e => { e with loadOpen := false })).part.seq.loadOpen = false ∧
    (p.seq.st.stage.1.toNat ≤ p.seq.st.stage.2.toNat ∧ p.seq.st.stage.1 ≠ 0 ∧ p.seq.st.stage.2 ≠ 0) ∧ (∀ x ∈ p.seq.threads, x.2.busy = false) ∧
    (¬ ∀ x ∈ (t { busy := true }).seq.threads, x.2.busy = false) ∧
    ((0 : BitVec 16) = 0) := by
  and_intros <;> decide +kernel

/-! States in which a core or a thread executes. -/

/-- Core `c` as `m`, and region 0 of core 3 covering Code Clamp with every right. -/
def cored (c : Nat) (m : Core) : Part :=
  (on fun p => { p with
    cores := p.cores.set {} c m
    acu := { p.acu with eff := p.acu.eff.set {} 96 { base := 0x10000, limit := 0x100FF, perm := 0x1FF } } }).part

/-- A running core of the normal world at the start of Code Clamp. -/
def runs : Core := { run := .running, pc := 0x10000000 }

/-- Thread 31 of pan 15 as `t`, of colour 0xFFE on context 7. -/
def threaded (t : Thread) : Part :=
  (on fun p => Part.modThread 511 (fun _ => { t with busy := true, ctx := 7, colour := 0xFFE, budget := 1, segLen := 4 })
    (serving p)).part

theorem core_ready {p : Part} {c : Nat} (h : (p.core c).run = .running ∧ (p.core c).fence = false ∧ (p.core c).stepOne = false ∧
    p.mayInterrupt c = false ∧ p.sys.scanStopped = false ∧ (p.core c).pc.toNat % 4 = 0 ∧
    (p.coreCheck c kFetch (Part.bankAddr (p.core c).ibk (p.core c).pc) 4).1 = none) : CoreReady p c :=
  ⟨h.1, h.2.1, h.2.2.1, h.2.2.2.1, h.2.2.2.2.1, h.2.2.2.2.2.1, h.2.2.2.2.2.2⟩

theorem thread_ready {p : Part} {k : Nat} (h : (p.thread k).busy = true ∧ (p.threadTurn k).isSome = true ∧ (p.thread k).budget ≠ 0 ∧ p.sys.scanStopped = false ∧
    (p.thread k).pc.toNat % 4 = 0 ∧ (p.thread k).pc.toNat + 4 ≤ (p.thread k).segLen) : ThreadReady p k :=
  ⟨h.1, h.2.1, h.2.2.1, h.2.2.2.1, h.2.2.2.2.1, h.2.2.2.2.2⟩

/-- The secure core after reset, a core of the normal world in user mode, and the last thread. -/
theorem witness_ready :
    CoreReady State.reset.part 4 ∧ CoreReady (cored 3 { runs with priv := false }) 3 ∧ CoreReady (cored 3 runs) 3 ∧
    ThreadReady (threaded {}) 511 :=
  ⟨core_ready (by decide +kernel), core_ready (by decide +kernel), core_ready (by decide +kernel), thread_ready (by decide +kernel)⟩

namespace WExceptionEntryFollowsItsSteps
def p := cored 3 { runs with priv := false }
def k := cored 3 { runs with regs := [(1, 0x10000001), (2, 0x50000000), (3, 0x20000000)] }
def f := fun (m : Core) => cored 3 { m with run := .running }
def irq := fun (r : RunState) => (on fun p => Part.modSys (fun y => { y with swiN := true, irqEn := y.irqEn.set 0 3 0x3FFFFF })
  { p with cores := p.cores.set {} 3 { run := r, ie := true } }).part
end WExceptionEntryFollowsItsSteps

open WExceptionEntryFollowsItsSteps in
theorem witness_ExceptionEntryFollowsItsSteps :
    CoreReady p 3 ∧ CoreReady k 3 ∧ (p.core 3).exl = false ∧ (p.core 3).priv = false ∧ Dibry.decode (.core 3) 0xFC000000 = none ∧
    (9 < (0xFFF#12).toNat ∧ (0xFFF#12).toNat ≠ 0x10 ∧ (0xFFF#12).toNat ≠ 0x11 ∧ (0xFFF#12).toNat ≠ 0x12) ∧
    (reg k (.core 3) 1 + (0#16).signExtend 32).toNat % 2 ≠ 0 ∧ (reg k (.core 3) 1 + (1#16).signExtend 32).toNat % 4 ≠ 0 ∧
    (k.coreCheck 3 kRead (Part.bankAddr (k.core 3).dbk (reg k (.core 3) 2 + (0#16).signExtend 32)) 1).1 = some true ∧
    (k.coreCheck 3 kRead (Part.bankAddr (k.core 3).dbk (reg k (.core 3) 3 + (0#16).signExtend 32)) 1).1 = some false ∧
    (k.coreCheck 3 kWrite (Part.bankAddr (k.core 3).dbk (reg k (.core 3) 2 + (0#16).signExtend 32)) 1).1 = some true ∧
    (k.coreCheck 3 kWrite (Part.bankAddr (k.core 3).dbk (reg k (.core 3) 3 + (0#16).signExtend 32)) 1).1 = some false ∧
    (reg k (.core 3) 1).toNat % 4 ≠ 0 ∧ k.dbg.attached = false ∧
    ((f { pc := 0x50000000 }).mayInterrupt 3 = false ∧ (f { pc := 0x50000000 }).sys.scanStopped = false ∧
      ((f { pc := 0x50000000 }).coreCheck 3 kFetch (Part.bankAddr 0 0x50000000) 4).1 = some true ∧
      ((f { pc := 0x20000000 }).coreCheck 3 kFetch (Part.bankAddr 0 0x20000000) 4).1 = some false) ∧
    ((irq .running).mayInterrupt 3 = true ∧ (irq .doze).mayInterrupt 3 = true ∧ ((irq .doze).core 3).run = .doze) ∧
    (State.reset.part.core 4).priv = true := by
  and_intros <;> first | exact core_ready (by decide +kernel) | decide +kernel

theorem witness_RegisterOperationsComputeTheirResult : Ready (cored 3 runs) (.core 3) ∧ Ready (threaded {}) (.thread 15 31) :=
  ⟨witness_ready.2.2.1, witness_ready.2.2.2⟩

namespace WDivisionSaturates
def k := cored 3 { runs with regs := [(1, 0x80000000), (2, 0xFFFFFFFF)] }
end WDivisionSaturates

open WDivisionSaturates in
theorem witness_DivisionSaturates :
    CoreReady k 3 ∧ reg k (.core 3) 1 = 0x80000000 ∧ reg k (.core 3) 2 = 0xFFFFFFFF ∧ reg k (.core 3) 0 = 0 ∧
    (reg k (.core 3) 1).toInt < 0 ∧ 0 ≤ (reg k (.core 3) 0).toInt := by
  and_intros <;> first | exact core_ready (by decide +kernel) | decide +kernel

namespace WBranchesAndJumpsGoWhereTheyShould
def k := cored 3 { runs with regs := [(31, 2)] }
def t := threaded { regs := [(31, 2)] }
end WBranchesAndJumpsGoWhereTheyShould

open WBranchesAndJumpsGoWhereTheyShould in
theorem witness_BranchesAndJumpsGoWhereTheyShould :
    CoreReady k 3 ∧ ThreadReady t 511 ∧ (reg k (.core 3) 31 + (2#16).signExtend 32).toNat % 4 = 0 ∧ (reg t (.thread 15 31) 31 + (2#16).signExtend 32).toNat % 4 = 0 ∧
    (reg t (.thread 15 31) 31 + (1#16).signExtend 32).toNat % 4 ≠ 0 := by
  and_intros <;> first | exact core_ready (by decide +kernel) | exact thread_ready (by decide +kernel) | decide +kernel

namespace WSystemInstructionsOfProcessors
def p := State.reset.part
def m := fun (m : Core) => cored 3 m
def irq := fun (r : RunState) (e : Bool) => (on fun p => Part.modSys (fun y => { y with swiN := true, irqEn := y.irqEn.set 0 3 0x3FFFFF })
  { p with cores := p.cores.set {} 3 { run := r, ie := e } }).part
def d := (on fun p => { p with dbg := { p.dbg with attached := true, granted := 8 } }).part
end WSystemInstructionsOfProcessors

open WSystemInstructionsOfProcessors in
theorem witness_SystemInstructionsOfProcessors :
    CoreReady p 4 ∧ ThreadReady (threaded {}) 511 ∧ CoreReady d 4 ∧ bitAt d.reach 3 = true ∧
    (p.core 4).priv = true ∧ p.acu.oldInflight = false ∧ (on fun p => p.modAcu fun u => { u with oldInflight := true }).part.acu.oldInflight = true ∧
    (((m { run := .running, fence := true }).core 3).fence = true ∧ ((m { run := .running, fence := true }).core 3).run = .running) ∧
    (p.core 4).fence = false ∧
    ((irq .doze false).core 3).run = .doze ∧ (irq .doze false).irqLine 3 = true ∧ (irq .doze false).mayInterrupt 3 = false ∧
    (p.core 4).run ≠ .doze ∧ p.irqLine 4 = false ∧ (irq .running false).mayInterrupt 3 = false ∧
    d.dbg.attached = true ∧ Dibry.decode (.thread 15 31) 0xFC000000 = none := by
  and_intros <;> first | exact core_ready (by decide +kernel) | exact thread_ready (by decide +kernel) | decide +kernel

namespace WLoadsReadAndStoresWriteOnlyTheirBytes
def k := cored 3 { runs with regs := [(1, 0x10000FFC), (2, 0x40000000)], dbk := 0 }
def c := cored 3 { runs with dbk := 1, regs := [(1, 0x4)] }
def s := cored 4 { run := .running, regs := [(1, 0x080FFFFC), (2, 0x21FFFFFC)] }
def t := fun (n : BitVec 32) (g : BitVec 12) => (on fun p => { threaded { regs := [(1, n)] } with
  acu := { p.acu with tagOb := [(0, g)] } }).part
end WLoadsReadAndStoresWriteOnlyTheirBytes

open WLoadsReadAndStoresWriteOnlyTheirBytes in
theorem witness_LoadsReadAndStoresWriteOnlyTheirBytes :
    CoreReady k 3 ∧ CoreReady c 3 ∧ CoreReady s 4 ∧ ThreadReady (t 0x20000FFC 0xFFE) 511 ∧
    (0x10000FFC % 4 = 0 ∧ (k.coreCheck 3 kRead 0x10000FFC 4).1 = none ∧ (k.coreCheck 3 kWrite 0x10000FFC 4).1 = none ∧
      spaceOf k.sys.handed false 0x10000FFC 4 = (.cc, 0xFFC)) ∧
    ((k.coreCheck 3 kRead 0x40000000 4).1 = none ∧ spaceOf k.sys.handed false 0x40000000 4 = (.es, 0)) ∧
    ((c.coreCheck 3 kRead (1 * 2 ^ 32 + 8) 4).1 = none ∧ (spaceOf c.sys.handed false (1 * 2 ^ 32 + 8) 4).1 = .csr) ∧
    ((s.coreCheck 4 kRead 0x080FFFFC 4).1 = none ∧ (s.coreCheck 4 kWrite 0x080FFFFC 4).1 = none ∧
      spaceOf s.sys.handed true 0x080FFFFC 4 = (.priv, 0xFFFFC)) ∧
    ((s.coreCheck 4 kWrite 0x21FFFFFC 4).1 = none ∧ spaceOf s.sys.handed true 0x21FFFFFC 4 = (.ob, 0x1FFFFFC)) ∧
    ((t 0x20000FFC 0xFFE).thread 511).ctx = 7 ∧
    (0x20000000 + 512 * 7 ≤ (reg (t 0x20000FFC 0xFFE) (.thread 15 31) 1).toNat ∧
      (reg (t 0x20000FFC 0xFFE) (.thread 15 31) 1).toNat + 4 ≤ 0x20000000 + 512 * 7 + 512) ∧
    (t 0x20000FFC 0xFFE).colourCheck .ob 0xFFC 4 0xFFE false = none ∧
    ¬ (reg (t 0x20001000 0xFFE) (.thread 15 31) 1).toNat + 1 ≤ 0x20000000 + 512 * 7 + 512 := by
  and_intros <;> first | exact core_ready (by decide +kernel) | exact thread_ready (by decide +kernel) | decide +kernel

namespace WStoreConditionalDecidesItsOutcome
def k := fun (a : BitVec 32) (r : Option Nat) => cored 3 { runs with regs := [(1, a)], resv := r }
def g : Nat := 0x100FFFC0 / 64
end WStoreConditionalDecidesItsOutcome

open WStoreConditionalDecidesItsOutcome in
theorem witness_StoreConditionalDecidesItsOutcome :
    CoreReady (k 0x100FFFFC none) 3 ∧ ((k 0x100FFFFC none).core 3).exl = false ∧ (reg (k 0x100FFFFE none) (.core 3) 1).toNat % 4 ≠ 0 ∧
    ((k 0x100FFFFC none).core 3).resv ≠ some (0x100FFFFC / 64) ∧ ((k 0x100FFFFC (some g)).core 3).resv = some (0x100FFFFC / 64) ∧
    spaceOf false false 0x100FFFFC 4 = (.cc, 0xFFFFC) ∧ ((k 0x100FFFFC (some g)).coreCheck 3 kWrite 0x100FFFFC 4).1 = none ∧
    (((k 0x40000000 (some (0x40000000 / 64))).core 3).resv = some (0x40000000 / 64) ∧ (spaceOf false false 0x40000000 4).1 = .es) ∧
    (spaceOf false false 0x50000000 4).1 = .none ∧
    ((k 0x20000000 (some (0x20000000 / 64))).coreCheck 3 kWrite 0x20000000 4).1 = some false := by
  and_intros <;> first | exact core_ready (by decide +kernel) | decide +kernel

namespace WLoadReservedAndTestAndSet
def k := cored 3 { runs with regs := [(1, 0x100FFFFC)], resv := some (0x10000000 / 64) }
end WLoadReservedAndTestAndSet

open WLoadReservedAndTestAndSet in
theorem witness_LoadReservedAndTestAndSet :
    CoreReady k 3 ∧ ThreadReady (threaded {}) 511 ∧ (k.core 3).resv = some (0x10000000 / 64) ∧ (0x10000000 + 63) / 64 ≤ 0x10000000 / 64 ∧ ¬ 0x10000000 / 64 ≥ (0x10000000 + 64) / 64 ∧
    (reg k (.core 3) 1).toNat % 4 = 0 ∧ (spaceOf k.sys.handed false 0x100FFFFC 4).1 = .cc ∧
    (k.coreCheck 3 kRead 0x100FFFFC 4).1 = none ∧ (k.coreCheck 3 kAtomic 0x100FFFFC 4).1 = none := by
  and_intros <;> first | exact core_ready (by decide +kernel) | exact thread_ready (by decide +kernel) | decide +kernel

/-- Thread 31 of pan 15 as `t`, its pan accepting, on a context whose handle field 0 names a key of class `cls`, algorithm `alg` and
usage `usage`. -/
def keyed (cls : BitVec 4) (alg : Byte) (usage : BitVec 16) (t : Thread) : Part :=
  (on fun p => ((celled 31 (keySlot 0xFFE cls alg usage) (ctxed 7 { state := .running, handles := [mkHandle cls 0 31] } p)).modThread 511
    fun _ => { t with busy := true, ctx := 7, colour := 0xFFE, budget := 1, segLen := 4 }).modOnePan 15 fun x =>
      { x with stall := false }).part

theorem sealed_ready {p : Part} {k : Nat} {rs ws : List (BitVec 4)} (h : ((p.thread k).busy = true ∧ (p.threadTurn k).isSome = true ∧ (p.thread k).budget ≠ 0 ∧
    p.sys.scanStopped = false ∧ (p.thread k).pc.toNat % 4 = 0 ∧ (p.thread k).pc.toNat + 4 ≤ (p.thread k).segLen) ∧
    (∀ r ∈ rs ++ ws, ∀ a ∈ (p.thread k).reqs, r.toNat ∉ a.pendDest) ∧
    ∀ r ∈ rs, ((p.thread k).sregs.get {} r.toNat).colour = (p.thread k).colour) : SealedReady p k rs ws :=
  ⟨thread_ready h.1, h.2.1, h.2.2⟩

theorem engine_ready {p : Part} {h : Fin 16} {t : Fin 32} {ss : BitVec 4} {kf : BitVec 5} {ws : List Nat}
    (r : ((p.thread (Part.threadNo h t)).busy = true ∧ (p.threadTurn (Part.threadNo h t)).isSome = true ∧
      (p.thread (Part.threadNo h t)).budget ≠ 0 ∧ p.sys.scanStopped = false ∧
      (p.thread (Part.threadNo h t)).pc.toNat % 4 = 0 ∧ (p.thread (Part.threadNo h t)).pc.toNat + 4 ≤ (p.thread (Part.threadNo h t)).segLen) ∧
    (∀ a ∈ (p.thread (Part.threadNo h t)).reqs, ∀ r ∈ a.pendDest,
      r ≠ ss.toNat ∧ r ∉ ws ∧ (kf.toNat < 0x10 → r ∉ Part.keyRegs kf.toNat)) ∧
    (p.thread (Part.threadNo h t)).reqs.length < 4 ∧ Part.keyWaits (p.thread (Part.threadNo h t)) kf p = false ∧ p.panReady h.val = true ∧
    ((p.thread (Part.threadNo h t)).sregs.get {} ss.toNat).colour = (p.thread (Part.threadNo h t)).colour) : EngineReady p h t ss kf ws :=
  ⟨thread_ready r.1, r.2.1, r.2.2.1, r.2.2.2.1, r.2.2.2.2.1, r.2.2.2.2.2⟩

namespace WSealedRegistersAreCombined
def y : SReg := { colour := 0xFFE, len := 16 }
def q : EngReq := { dest := [], window := [], verdict := none, fail := none, unit := .pan 15, pendDest := [13] }
def p := threaded { sregs := [(14, y), (15, { y with len := 1 })], reqs := [q] }
def c := { y with cls := 3, ksrc := 4 }
def g := threaded { sregs := [(14, { c with dec := some 1 }), (15, { c with dec := some 2 })], library := true, admin := true }
end WSealedRegistersAreCombined

open WSealedRegistersAreCombined in
theorem witness_SealedRegistersAreCombined :
    SealedReady p 511 [] [15] ∧ SealedReady p 511 [15] [14] ∧ SealedReady p 511 [14, 15] [15] ∧ SealedReady p 511 [14, 15] [] ∧
    q.verifies = false ∧ (sregOf p 511 15).len.toNat < (sregOf p 511 14).len.toNat ∧ SealedReady g 511 [14, 15] [0] ∧
    ((g.thread 511).library = true ∧ (g.thread 511).admin = true ∧ (sregOf g 511 14).cls = 3 ∧ (sregOf g 511 15).cls = 3 ∧
      (sregOf g 511 14).dec ≠ none ∧ (sregOf g 511 15).dec ≠ none ∧ (sregOf g 511 14).dec ≠ (sregOf g 511 15).dec ∧
      bitAt (sregOf g 511 14).ksrc 2 = true ∧ (sregOf g 511 14).ksrc = (sregOf g 511 15).ksrc) ∧
    ¬ (p.thread 511).admin = true := by
  and_intros <;> first | exact sealed_ready (by decide +kernel) | decide +kernel

namespace WSealedValuesMeetTheContext
def y : SReg := { colour := 0xFFE, len := 16 }
def t := fun (n : BitVec 32) (y : SReg) (o : Nat) => (on fun p => { threaded { regs := [(1, n)], sregs := [(15, y)], outLen := o } with
  acu := { p.acu with tagOb := [(0, 0xFFE)] } }).part
def e := fun (s : Word) (l : Word) (r : List EngReq) => threaded { regs := [(1, s), (2, l)], outLen := 16, reqs := r, issued := 1 }
def ech := (on fun p => Part.modThread 511 (fun _ => { busy := true, ctx := 7, colour := 0xFFE, budget := 1, segLen := 4, outLen := 16 }) (ctxed 7 { state := .running, inLen := 16 } p)).part
def q : EngReq := { dest := [], window := [], verdict := none, fail := none, unit := .pan 15, pendDest := [13] }
def w := fun (alg : Byte) (y : SReg) => keyed 5 alg 0 { sregs := [(14, y), (15, y)] }
def k : SReg := { colour := 0xFFE, len := 16, cls := 3, ksrc := 4, tpl := some 0x10 }
end WSealedValuesMeetTheContext

open WSealedValuesMeetTheContext in
theorem witness_SealedValuesMeetTheContext :
    SealedReady (t 0x20000FF0 y 0) 511 [] [15] ∧
    (0x20000000 + 512 * ((t 0x20000FF0 y 0).thread 511).ctx ≤ 0x20000FF0 ∧
      0x20000FF0 + 16 ≤ 0x20000000 + 512 * ((t 0x20000FF0 y 0).thread 511).ctx + 512) ∧
    (reg (t 0x20000FF0 y 0) (.thread 15 31) 1 + (0#7).setWidth 32).toNat = 0x20000FF0 ∧
    (t 0x20000FF0 y 0).colourCheck .ob 0xFF0 16 0xFFE false = none ∧ ¬ 0x20000FF1 + 16 ≤ 0x20000000 + 512 * 7 + 512 ∧
    SealedReady (t 0 y 16) 511 [15] [15] ∧ SealedReady (t 0 y 16) 511 [15] [] ∧ (sregOf (t 0 y 16) 511 15).cls = 0 ∧
    SealedReady (t 0 { y with cls := 1 } 16) 511 [15] [] ∧ (sregOf (t 0 { y with cls := 1 } 16) 511 15).cls ≠ 0 ∧
    (((t 0 y 15).thread 511).outLen < (reg (t 0 y 15) (.thread 15 31) 1).toNat + (sregOf (t 0 y 15) 511 15).len.toNat) ∧
    ((reg (t 0 y 16) (.thread 15 31) 1).toNat + (sregOf (t 0 y 16) 511 15).len.toNat ≤ ((t 0 y 16).thread 511).outLen) ∧
    (sregOf (t 0 { y with cls := 1, release := true } 16) 511 15).release = true ∧
    ThreadReady (e 3 16 []) 511 ∧ ((e 3 16 []).thread 511).issued ≠ 0 ∧ ((e 0 0 [q]).thread 511).reqs ≠ [] ∧ ((e 3 16 []).thread 511).landing = none ∧
    3 < (reg (e 4 16 []) (.thread 15 31) 1).toNat ∧ ((e 2 17 []).thread 511).outLen < (reg (e 2 17 []) (.thread 15 31) 2).toNat ∧
    ((reg (e 3 16 []) (.thread 15 31) 1).toNat = 3 ∧ (reg (e 3 16 []) (.thread 15 31) 2).toNat ≤ ((e 3 16 []).thread 511).outLen) ∧
    (reg (e 2 16 []) (.thread 15 31) 1).toNat < 3 ∧
    ThreadReady ech 511 ∧
    ((ech.thread 511).library = true ∧ (ech.thread 511).issued = 0 ∧ (ech.thread 511).program = 0 ∧ (ech.thread 511).reqs = [] ∧
      (ech.thread 511).landing = none) ∧
    ((ech.ctx 7).inLen ≤ 16 ∧ (ech.ctx 7).inData = [] ∧ (ech.ctx 7).inLen ≤ (ech.thread 511).outLen ∧ (ech.ctx 7).outPtr = none ∧
      (ech.ctx 7).sglOut.2 = 0 ∧ (ech.ctx 7).state = .running ∧ (ech.ctx 7).discard = false) ∧
    (let p := w 0x10 k
     ThreadReady p 511 ∧ (p.thread 511).landing = none ∧ (p.thread 511).reqs.length < 4 ∧ (sregOf p 511 15).colour = (p.thread 511).colour ∧
       fld ((p.ctx (p.thread 511).ctx).handles.getD 0 0) 28 4 = 5 ∧ (sregOf p 511 15).cls = 3 ∧ bitAt (sregOf p 511 15).ksrc 2 = true ∧
       (Part.keyOctets (p.thread 511) 15 16).isSome = true ∧ Part.keyOctets (p.thread 511) 15 24 = none ∧ Part.pairColour (p.thread 511) 15 24 = true ∧
       ∀ r ∈ Part.keyRegs 15, ∀ a ∈ (p.thread 511).reqs, r ∉ a.pendDest) ∧
    ¬ (sregOf (w 0x10 y) 511 15).cls = 3 := by
  and_intros <;> first | exact thread_ready (by decide +kernel) | exact sealed_ready (by decide +kernel) | decide +kernel

namespace WPinBlocksUnpackToThePinPacked
def ds : List (BitVec 4) := List.replicate 12 9
def pan : List (BitVec 4) := List.replicate 19 9
def s : SReg := { val := Part.pinBlock 4 (Part.canonical ds) pan (List.replicate 8 0xFF), len := 16 }
end WPinBlocksUnpackToThePinPacked

open WPinBlocksUnpackToThePinPacked in
theorem witness_PinBlocksUnpackToThePinPacked :
    4 ≤ ds.length ∧ ds.length ≤ 12 ∧ (∀ d ∈ ds, d.toNat < 10) ∧ 13 ≤ pan.length ∧ pan.length ≤ 19 ∧ (∀ d ∈ pan, d.toNat < 10) ∧
    (List.replicate 8 (0xFF : Byte)).length = 8 ∧ s.len = 16 ∧ Part.pinOf 4 s pan = some ds := by
  and_intros <;> decide +kernel

namespace WPanInstructionsComputeAndTag
def y : SReg := { colour := 0xFFE, len := 16 }
def p := keyed 1 0x10 0xFFFF { sregs := [(14, y), (0, y)] }
def d := keyed 1 0x01 0xFFFF { sregs := [(14, { y with len := 8 })] }
def c : Chain := { ins := 0, k := 0x10, mode := 0x05, cls := 0, lowOnly := true, ivPub := true, nData := 0, dataOk := true, colour := 0xFFE
                   state := [], total := 0 }
def ch := keyed 1 0x10 0xFFFF { sregs := [(14, y)], chain := some c }
def bad := keyed 2 0x10 0xFFFF { sregs := [(14, y)] }
end WPanInstructionsComputeAndTag

open WPanInstructionsComputeAndTag in
theorem witness_PanInstructionsComputeAndTag :
    EngineReady p 15 31 14 0x10 [12] ∧ EngineReady p 15 31 14 0x10 [] ∧ EngineReady d 15 31 14 0x10 (Part.keyRegs 12) ∧
    EngineReady ch 15 31 14 0x10 [12] ∧ EngineReady bad 15 31 14 0x10 [12] ∧
    EngineReady p 15 31 14 0x1F ((List.range ((Crypto.digestLen (Part.fun' 0x0DC) + 15) / 16)).map (12 + ·)) ∧
    EngineReady p 15 31 14 0x0F [12] ∧
    (Part.fam 0x004 ≤ 1 ∧ Part.fun' 0x004 ≠ 5 ∧ Part.cipherOk 0x004 = true ∧ Part.phase 0x004 = 0 ∧ Part.pieceOk 0 1 0 16 = true) ∧
    Part.keyField 0x10 = some 0 ∧ (bad.slotRead (bad.fieldHandle (bad.thread 511) 0) 0xFFE [1]).1.toOption = none ∧
    (p.panKey 511 (p.thread 511) [] 0x10 (Part.famAlg 0x004) (Part.cipherNeed true false)).1.toOption.isSome = true ∧
    (d.panKey 511 (d.thread 511) [] 0x10 (Part.famAlg 0x044) (Part.cipherNeed false false)).1.toOption.isSome = true ∧
    (Part.phase 0x005 = 1 ∧ Part.phase 0x006 = 2 ∧ Part.phase 0x007 = 3 ∧ Part.cipherOk 0x007 = true ∧ Part.pieceOk 0 1 3 16 = true) ∧
    Part.chainFor (ch.thread 511) 0 0x10 0x007 = some c ∧
    (p.panKey 511 (p.thread 511) [] 0x10 (Part.famAlg 0x028) (fun u => Part.has 2 u || Part.has 3 u)).1.toOption.isSome = true ∧
    (Part.macOk 0x028 = true ∧ Part.phase 0x028 = 0) ∧
    (Part.fam 0x0DC = 3 ∧ Part.fun' 0x0DC < 8 ∧ Part.phase 0x0DC = 0 ∧ 16 ≤ Crypto.digestLen (Part.fun' 0x0DC) ∧
      Crypto.digestLen (Part.fun' 0x0DC) ≤ 64 ∧ 12 + (Crypto.digestLen (Part.fun' 0x0DC) + 15) / 16 ≤ 16) ∧
    (d.panKey 511 (d.thread 511) [] 0x10 (Part.kderAlg 0x001) (Part.has 6)).1.toOption.isSome = true ∧
    [0x001, 0x002, 0x003, 0x010, 0x011, 0x020, 0x021, 0x030].contains (0x001#9).toNat = true ∧ (0x001#9) ≠ 0x003 ∧
    (12#4).toNat % 2 = 0 := by
  and_intros <;> first | exact engine_ready (by decide +kernel) | decide +kernel

namespace WEngineOperationsAreSent
def p := State.reset.part
def busy : EngOp := { owner := .thread 0 0, cls := 0, mode := 0, handle := 0, field := 0, colour := 0, in1 := [], in2 := [], outLen := 0
                      outPos := none, sd := 0, word3 := 0, depth := 1 }
def map : List Byte := [0, 0, 0, 0] ++ [0, 0, 0, 0] ++ [0, 0, 0, 3] ++ [0, 0, 0, 0]
def y : SReg := { colour := 0xFFE, len := 16, val := BitVec.ofNat 128 (ofBe map) }
def v : SReg := { y with val := 0 }
def t := fun (alg : Byte) (cls : BitVec 4) (y : SReg) => keyed cls alg 0xFFFF { sregs := [(15, y)] }
end WEngineOperationsAreSent

open WEngineOperationsAreSent in
theorem witness_EngineOperationsAreSent :
    (p.engineUp 0 = true ∧ (p.eng 0).queue.length < 1) ∧
    ((∀ e ∈ Part.enginesOf false, ¬ (p.engineUp e = true ∧ (p.eng e).queue.length < 0)) ∧ busy.depth = 1) ∧
    (let q := t 0x48 3 y
     ThreadReady q 511 ∧ (q.thread 511).reqs.length < 4 ∧ (sregOf q 511 15).colour = (q.thread 511).colour ∧ Part.keyField 0x10 = some 0 ∧
       Part.mapInRegs (sregOf q 511 15) 0 = [] ∧ (∀ a ∈ (q.thread 511).reqs, ∀ r ∈ a.pendDest, r ∉ q.engxTouches 0x088 (q.thread 511) 0 15 0x10) ∧
       Part.mapIllegal 0x088 (q.thread 511) (sregOf q 511 15) 0 0x48 = false ∧ Pk.verifies 0x088 = false ∧
       ¬ 16 < 0 + Part.engxRegs 0x088 0x48 0 ∧ Part.engxRegs 0x088 0x48 0 = 2 ∧
       (fld (Part.mapWord (sregOf q 511 15) 2) 16 16).toNat = 768 ∧ (fld (Part.mapWord (sregOf q 511 15) 2) 0 16).toNat = 0 ∧
       Pk.outLen 0x088 0x48 0 = 768 ∧ 384 < 0 + 768) ∧
    (let q := t 0x38 3 v
     (q.slot (hIndex (q.fieldHandle (q.thread 511) 0))).alg = 0x38 ∧
     Part.mapIllegal 0x049 (q.thread 511) (sregOf q 511 15) 0 0x38 = false ∧ Pk.verifies 0x049 = true ∧ ¬ 16 < 0 + Part.engxRegs 0x049 0x38 0 ∧
       q.mapInput (q.thread 511) 0 0 0 0 = some [] ∧ Pk.signs 0x049 = false ∧ 0x049 ≠ Pk.mlkemEnc) ∧
    (t 0x38 3 v).mapInput ((t 0x38 3 v).thread 511) 0 384 1 0 = none := by
  and_intros <;> first | exact thread_ready (by decide +kernel) | decide +kernel

namespace WPinBlockInstructionsTagTheirResult
def pan : SReg := { colour := 0xFFE, len := 10, val := 0x1234567890123FFFFFFF000000000000 }
def pin : Block := Part.pinBlock 0 (Part.canonical [1, 2, 3, 4]) ((Part.panDigits pan).getD []) (List.replicate 8 0)
def block : SReg := { colour := 0xFFE, len := 8, cls := 4, val := pin }
def p := threaded { sregs := [(14, block), (15, pan), (13, { pan with len := 9 }), (12, { pan with val := 0 })] }
def e := (on fun q => { threaded { sregs := [(14, block), (15, pan)] } with
  ent := { q.ent with running := true, ready := true, inst := true, key := List.replicate 32 0 } }).part
end WPinBlockInstructionsTagTheirResult

open WPinBlockInstructionsTagTheirResult in
theorem witness_PinBlockInstructionsTagTheirResult :
    SealedReady p 511 [14, 15] [0] ∧ SealedReady p 511 [14] [0] ∧ ((sregOf p 511 15).len = 10) ∧
    ¬ ((sregOf p 511 13).len = 10 ∨ (sregOf p 511 13).len = 16) ∧ (Part.panDigits (sregOf p 511 15)).isSome = true ∧
    ((Part.panDigits (sregOf p 511 15)).bind (Part.pinOf 0 (sregOf p 511 14))) = some [1, 2, 3, 4] ∧
    (Part.panDigits (sregOf p 511 12)).bind (Part.pinOf 0 (sregOf p 511 14)) = none ∧
    (p.entDraw .mask 8).1 = none ∧ (e.entDraw .mask 8).1.isSome = true := by
  and_intros <;> first | exact sealed_ready (by decide +kernel) | decide +kernel

/-- The published sample of ANSI X9.24-1: PIN 1234, PAN 4012345678909, counter 1. -/
theorem test_dukpt_tdes :
    let bdk := beBytes 16 0x0123456789ABCDEFFEDCBA9876543210
    let key : Part.PanKey := { alg := 1, mask := 0, dec := 0, expo := 0, usage := 0, child := Template.ofEntry 0, cls := 0, ksrc := 4, key := bdk }
    let wk := (Rom.dukptTdes (beBytes 10 0xFFFF9876543210E00001) Rom.maskPin).foldl (fun a x => (Part.kderRun x.1 { key with key := a } x.2).1) bdk
    (Crypto.tdes wk).dec (beBytes 8 0x1B9C1845EB993A7A) = beBytes 8 0x041274EDCBA9876F := by decide +kernel

/-- The published sample of ANSI X9.24-3: the AES-128 PIN key of counter 1. -/
theorem test_dukpt_aes :
    let bdk := beBytes 16 0xFEDCBA9876543210F1F1F1F1F1F1F1F1
    let key : Part.PanKey := { alg := 0x10, mask := 0, dec := 0, expo := 0, usage := 0, child := Template.ofEntry 0, cls := 0, ksrc := 4, key := bdk }
    (Rom.dukptAes (beBytes 12 0x123456789012345600000001) 0x1000 0 key).foldl (fun a x => (Part.kderRun x.1 { key with key := a } x.2).1) bdk
      = beBytes 16 0xAF8CB133A78F8DC2D1359F18527593FB := by decide +kernel

/-- Brine Wells that serve: running and READY, three seeds in the buffer. -/
def welled (p : Part) : Part :=
  { p with ent := { p.ent with running := true, ready := true, inst := true, key := List.replicate 32 0, seeds := [(0, 0), (8, 0), (0, 0)] } }

namespace WBrineWellsTestConditionAndServe
def p := State.reset.part
def w := (on welled).part
def e := w.ent
def r : Ent := { e with count := 2 ^ 16 - 1 }
def x : Source := { half := some false, starve := 254, fill := 511 }
def d : Draw := { wire := 74, cls := .mask, bytes := 8 }
end WBrineWellsTestConditionAndServe

open WBrineWellsTestConditionAndServe in
theorem witness_BrineWellsTestConditionAndServe :
    (r.katCond = false ∧ r.katDrbg = false ∧ r.ready = true ∧ r.count < r.interval ∧ r.count < r.limit) ∧
    p.ent.ready = false ∧ (({ e with katCond := true } : Ent).katCond = true ∧ e.count < e.interval) ∧
    (p.ent.seeds.length < 3 ∧ ({ p.ent with count := 2 ^ 16 } : Ent).interval ≤ 2 ^ 16 ∧ ({ p.ent with count := 2 ^ 32 } : Ent).limit ≤ 2 ^ 32) ∧
    ((∀ d ∈ e.waiting, d.cls ≠ .fresh ∧ d.wire ≠ 100 + 72) ∧ e.wires.get [] (100 + 72) = [] ∧ (e.serve .fresh 64).1.map List.length = some 64) ∧
    p.ent.running = false ∧ (e.running = true ∧ bitAt w.aon.isolated 15 = false) ∧ (e.srcs.get {} 15).half = none ∧
    (x.half = some false ∧ x.starve < 255 ∧ (Part.testBit false { x with half := none }).2 = none ∧ 511 ≤ x.fill) ∧
    (e.actA = 0 ∧ 15 ≠ e.actA ∧ 15 ≠ e.actB ∧ (e.srcs.get {} 0).fill < 511) ∧
    (Part.entClass 0 = some .mask ∧ Part.wireDraw 74 .mask 8 = true ∧ Part.wireDraw 74 .mask 9 = false ∧ e.waiting = [] ∧
      (∃ y ∈ [d], y.wire = 74) ∧ (∃ y ∈ [d], y.cls = .mask) ∧ (p.ent.serve .mask 8).1 = none ∧ (e.serve .mask 8).1.isSome = true) ∧
    ((e.ports.get {} 1).busy = false ∧ ({ busy := true } : SwPort).busy = true ∧ Part.entClass 3 = none ∧ Part.entClass 2 = some .predict ∧
      (e.serve .predict 64).1.isSome = true ∧ (e.serve .predict 64).2.ports = e.ports) ∧
    e.katDrbg = false ∧ ({ e with katDrbg := true } : Ent).katDrbg = true ∧
    (16 ≤ e.st.stage.1.toNat ∧ e.st.stage.1.toNat ≤ e.st.stage.2.toNat ∧ e.st.stage.2.toNat ≤ 32) ∧
    ¬ 33 ≤ 32 ∧ p.powered 121 = true ∧ bitAt p.aon.isolated 0 = false ∧ bitAt p.aon.isolated 8 = false := by
  and_intros <;> decide +kernel

/-- The secure port of a READY Cellar naming slot 31, with a decision of command `cmd` due. -/
def ported (cmd : Byte) (attr : Tab Word) (g : Slc → Slc) : Part :=
  (on fun p => { (celled 31 (keySlot 0xFFF 1 0x11 0) p) with
    tmp := { p.tmp with due := [.securePort cmd 0] } }.modSlc fun c => g { c with spIndex := 31, spAttr := attr }).part

namespace WSecurePortCommandsActOnSlots
def p := ported 0x01 [(0, 0x1FFF), (1, 0x03000000)] fun c => { c with slots := [] }
def o := ported 0x02 [(0, 0x5FFF), (2, 0x100)] fun c => { c with slots := [] }
def k := ported 0 [(2, 0x100), (3, 1)] id
def ch := fun (w : List Nat) => ported 0 [] fun c => { c with chain := some { head := 30, len := 2, gen := 1, written := w } }
end WSecurePortCommandsActOnSlots

open WSecurePortCommandsActOnSlots in
theorem witness_SecurePortCommandsActOnSlots :
    (ported 0 [] fun c => { c with busy := true }).slc.busy = true ∧ p.slc.busy = false ∧
    ((ported 0 [] fun c => { c with busy := true, op := some (9, 255) }).slc.op = some (9, 255) ∧ p.slc.spWait = none) ∧
    State.reset.part.slc.ready = false ∧ (p.slc.ready = true ∧ p.slc.ladleRetired = false) ∧
    (p.nvm.charter.paired = false ∧ p.tmp.due[0]? = some (.securePort 0x01 0) ∧ p.slc.chain = none) ∧
    (o.tmp.due[0]? = some (.securePort 0x02 0)) ∧
    (∀ j ∈ k.slc.chainOf 31, j = 31) ∧ k.banksUp (k.slc.chainOf 31) = true ∧
    (ported 0 [] fun c => { c with restoring := 0xFFFFFFFF }).banksUp [31] = false ∧ k.banksUp (List.range 32) = true ∧
    ((ch []).slc.chain ≠ none ∧ fld ((k.slc.spAttr).get 0 2) 8 8 = 1 ∧ 0x100000 < 0xFFFFF + 2 ∧ 31 + 1 ≤ 1024 ∧
      k.banksUp (Part.rangeOf 31 1) = true) ∧
    (∃ j ∈ Part.rangeOf 30 2, j ∉ ([30] : List Nat)) ∧ (∀ j ∈ Part.rangeOf 30 2, j ∈ ([30, 31] : List Nat)) ∧
    (∀ j ∈ p.portSpan 0x01, p.slc.tagOk j = true) ∧ (ported 0 [] fun c => { c with restoring := 0x80000000 }).bankUp 31 = false ∧
    (k.slc.tagOk 31 = true ∧ k.slc.isBad 31 = false ∧ (ported 0 [] fun c => { c with bad := [(31, true)] }).slc.isBad 31 = true) ∧
    (let o := ported 0 [] fun c => { c with restoring := 0x80000000, chain := some { head := 30, len := 2, gen := 1, written := [] } }
     o.banksUp (Part.rangeOf 30 2) = false) ∧
    k.bankUp (31 % 32) = true ∧ (k.slot 31).state = Slot.key ∧ (k.slot 31).notAfter = 0 ∧ (p.slot 31).state ≠ Slot.key := by
  and_intros <;> decide +kernel

namespace WCellarClearsScrubsAndTheVaultKeeps
def p := (on welled).part
def q := ported 0 [(0, 0xFFE)] id
def ch := fun (k : Option (List Byte)) => (on (Part.modSlc fun c => { c with clearing := true, keys := k })).part.slc
def r := (on fun p => p.modSys fun y => { y with fuses := { y.fuses with rootSet := true, rootOk := true } }).part
def v := (on fun p => { p with bat := { p.bat with vault := [(0, 1)] } }).part
def x := { keySlot 0xFFF 1 0x11 0 with w1 := Slot.word1 0 0 0 3 Slot.key }
end WCellarClearsScrubsAndTheVaultKeeps

open WCellarClearsScrubsAndTheVaultKeeps in
/-- The cipher of the storage root is an uninterpreted value of Config, so that no state can be shown in which an unwrapped root stands;
what the rest of those clauses asks is shown. -/
theorem witness_CellarClearsScrubsAndTheVaultKeeps :
    (p.sys.mode ≠ .assay ∧ p.sys.mode ≠ .quarantine) ∧ q.slc.ready = true ∧
    (let a := (on fun p => (welled p).modSys fun y => { y with mode := .assay }).part
     a.slc.ready = false ∧ a.slc.clearing = false ∧ a.sys.mode = .assay ∧ (a.entDrawOn 72 .fresh 64 64).1.isSome = true ∧
       ((on (Part.modSys fun y => { y with mode := .assay })).part.entDrawOn 72 .fresh 64 64).1 = none) ∧
    ((ch (some [])).clearing = true ∧ (ch (some [])).keys ≠ none ∧ (ch none).keys = none ∧ p.slc.clearing = false) ∧
    ¬ p.slc.ready = true ∧ (q.slc.st.apply.eff.1 = true ∧ q.slc.ready = true ∧ q.slc.st.eff.1 = true ∧ p.slc.ready = false) ∧
    ((Part.rangeOf 31 1).any q.slc.heldRange = false ∧ (ported 0 [] fun c => { c with chain := some { head := 30, len := 2, gen := 1 } }).slc.heldRange 31 = true) ∧
    (bitAt p.slc.bankDue 31 = false ∧ (on (Part.modSlc fun c => { c with bankDue := 0x80000000 })).part.powered 103 = true ∧
      bitAt (0x80000000 : Word) 31 = true) ∧
    (1 ≤ p.slc.st.stage.2.toNat ∧ p.slc.st.stage.2.toNat ≤ 3600) ∧ ¬ 1 ≤ (0 : BitVec 12).toNat ∧
    (4 * (15#14).toNat < 0x40 ∧ 0x40 ≤ 4 * (16#14).toNat ∧ ¬ 0x100 ≤ 4 * (16#14).toNat ∧ 0x100 ≤ 4 * (64#14).toNat ∧
      4 * (64#14).toNat < 0x900 ∧ 0xC930 ≤ 4 * (12876#14).toNat) ∧
    p.slc.ladleRun = false ∧ (on (Part.modSlc fun c => { c with ladleRun := true })).part.slc.ladleRun = true ∧
    (q.slc.busy = false ∧ q.slc.ladleRetired = false ∧ (ported 0 [] fun c => { c with ladleRetired := true }).slc.ladleRetired = true) ∧
    (p.rootUsable = false ∧ r.rootUsable = true ∧ v.vaultInUse = true ∧ r.vaultInUse = false ∧ (p.ent.serve .predict 32).1.isSome = true) ∧
    (Part.ownerColour 0xFFF = false ∧ Part.ownerColour q.spColour = true ∧ q.storageRoot = none) ∧
    (let s := (on (celled 31 x)).part.modSlc fun c => { c with spIndex := 31, spAttr := [(0, 0xFFF)] }
     (s.slotRead (mkHandle x.hclass x.gen s.spIndex) s.spColour [1, 2, 3, 4]).1.toOption.isSome = true ∧
       (s.slot 31).exportClass ≠ 0 ∧ (s.slot 31).exportClass.toNat < 4 ∧ s.vaultInUse = false) ∧
    ({ keySlot 0xFFF 1 0x11 0 with w1 := Slot.word1 0 0 0 0 Slot.key } : Slot).exportClass = 0 ∧ (p.ent.serve .fresh 16).1.isSome = true := by
  and_intros <;> decide +kernel

/-- A block cipher that adds one to an octet meets what the statement asks of a cipher. -/
theorem witness_WrappedKeysUnwrapAndSealedBlobsOpen :
    let c : Crypto.Cipher := { size := 16, enc := fun b => b.map (· + 1), dec := fun b => b.map (· - 1) }
    (∀ b, b.length = 16 → (c.enc b).length = 16 ∧ c.dec (c.enc b) = b) ∧
    Crypto.keyUnwrap c (Crypto.keyWrap c (List.replicate 16 0)) = some (List.replicate 16 0) := by
  refine ⟨fun b h => ⟨by simpa using h, ?_⟩, by decide +kernel⟩
  simp [Function.comp_def]

/-! States of the administrative channel. -/

/-- An administrative command of function `n` with a buffer of one page. -/
def cmdOf (n : Fin 1025) (target : BitVec 16) (a0 a1 a2 : Word) (args : List Byte) (buf : Option (List Byte)) : AdmCmd :=
  { fn := n, head := { tag := 0xFFFFFFFF, target := target, buf := 0x1000, len := 4096 }, a0 := a0, a1 := a1, a2 := a2, args := args
    buf := buf, pick := [1024] }

/-- A manager's command. -/
def cmd (a0 a1 a2 : Word) : AdmCmd := cmdOf 0 0 a0 a1 a2 [] (some [])

/-- The part in SERVICE with a READY Cellar, serving wells, its pools free, the last tenant present in state `st`, and allotments of one
granule, two counter groups and 100 slots to the manager. -/
def managed (st : BitVec 3) (g : Part → Part) : Part :=
  let c : TntCfg := { grans := 1, inflight := 8, qpCount := 64, slots := 100, groups := 1, weight := 1 }
  let d : TntCfg := { granBase := 8191, grans := 1, inflight := 8, qpBase := 4095, qpCount := 1, slots := 1, grpBase := 255, groups := 1, weight := 1 }
  (on fun p => g (((((welled (serving p)).modTnt fun t => { t with
      states := t.states.set 0 1024 st
      t := (t.t.set {} 0 { st := { stage := c, eff := c } }).set {} 1024 { st := { stage := d, eff := d } } }).modAcu fun u =>
    { u with tagOb := u.tagOb.set 0 8191 0x400 }).modHif fun h =>
    { h with vfEnable := true, numVfs := 1024 }).modSlc (fun c => { c with ready := true }) |>.modNvm fun v =>
    { v with charter := { v.charter with slotPool := 0xFFC00, granulePool := 8192, qpPool := 4096, groupPool := 256
                                         minModLimbs := 8, curveEn := 0x7F, setEn := 0xFFF } })).part

theorem adm_ready {p : Part} {k : Part.AdmKind} {c : AdmCmd} (h : p.fnExists c.fn.val = true ∧ (p.fn c.fn.val).wedged = false ∧
    (p.fn c.fn.val).draining = false ∧ (p.adm c.fn.val).busy = false ∧ (p.adm c.fn.val).held = false ∧
    (0 < k.reads → p.mayPost c.fn.val = true) ∧ (p.sys.mode = .service ∨ p.sys.mode = .ceremony) ∧ p.sys.freezing = false ∧
    (c.fn.val ≠ 0 → p.tnt.states.get 0 c.fn.val = 1) ∧ p.freeCtxs c.fn.val ≠ [] ∧
    (p.ctxsOf c.fn.val).length < (p.tnt.t.get {} c.fn.val).st.eff.inflight.toNat ∧ Part.admFault k c = none ∧
    (k.classA = true → p.gateOpen = true)) : AdmReady p k c := by
  obtain ⟨h1, h2, h3, h4, h5, h6, h7, h8, h9, h10, h11, h12, h13⟩ := h
  exact ⟨h1, h2, h3, h4, h5, h6, h7, h8, h9, h10, h11, h12, h13⟩

namespace WAdministrativeChannelRunsOneCommand
def p := managed 1 id
def c := cmd 0 0 0
def t := cmdOf 1024 0 0 0 0 [] none
def adm := fun (n : Nat) (a : Adm) => managed 1 (Part.modTnt fun t => { t with adm := t.adm.set {} n a })
def fin := fun (n : Nat) (s : CtxState) => managed 1 fun p =>
  (p.modTnt fun t => { t with adm := t.adm.set {} n { busy := true, started := true, ctx := 7, out := [1] } }).modDsp fun d =>
    { d with ctxs := d.ctxs.set {} 7 { state := s, fn := n, qp := 4096 + n } }
def mode := fun m => managed 1 (Part.modSys fun y => { y with mode := m })
end WAdministrativeChannelRunsOneCommand

open WAdministrativeChannelRunsOneCommand in
theorem witness_AdministrativeChannelRunsOneCommand :
    State.reset.part.fnExists 1 = false ∧ (p.fnExists 1024 = true ∧ (p.fn 1024).wedged = false) ∧
    (((adm 1024 { busy := true, started := true }).adm 1024).busy = true ∧ ((adm 1024 { busy := true, started := true }).adm 1024).started = true) ∧
    (p.adm 1024).busy = false ∧ (mode .quarantine).sys.mode = .quarantine ∧ (mode .wake).admHeld = true ∧ p.admHeld = false ∧
    ((managed 5 id).tnt.states.get 0 1024 = 5 ∧ p.tnt.states.get 0 1024 = 1) ∧
    ((managed 1 fun p => p.modTnt fun t => { t with t := [] }).freeCtxs 0 = []) ∧
    (p.freeCtxs 1024 ≠ [] ∧ (p.ctxsOf 1024).length < (p.tnt.t.get {} 1024).st.eff.inflight.toNat) ∧
    (mode .standby).sys.mode = .standby ∧ t.fn.val ≠ 0 ∧ (t.buf = none) ∧ c.head.len.toNat % 4096 = 0 ∧
    ((cmdOf 0 0 0 0 0 (List.replicate 95 0 ++ [1]) none).args.getD 95 0 ≠ 0 ∧ 95 ∉ Part.allotUsed) ∧
    (0x1000000 < ({ tag := 0, target := 0, buf := 0, len := 0x1001000 } : AdmHead).len.toNat) ∧
    (0 : Word).toNat < 64 ∧ (managed 2 id).tnt.states.get 0 1024 ≠ 1 ∧ p.gateOpen = true ∧
    (managed 1 (Part.modNvm fun v => { v with charter := { v.charter with paired := true } })).gateOpen = false ∧
    (((p.fn 0).draining = false ∧ p.mayPost 0 = true ∧ (p.fn 0).fnMask = false)) ∧
    (let q := managed 1 (Part.modFn 0 fun f => { f with vectors := [(0, { masked := false })] })
     ((q.fn 0).vectors.get {} 0).masked = false) ∧
    ((adm 0 { busy := true, ended := some { status := 0x50, detail := 0 } }).adm 0).ended = some { status := 0x50, detail := 0 } ∧
    (((adm 0 { busy := true }).adm 0).ended = none ∧ ((adm 0 { busy := true }).adm 0).started = false) ∧
    (let q := fin 1024 .running
     let a := q.adm 1024
     a.busy = true ∧ a.ended = none ∧ a.started = true ∧ (q.ctx a.ctx).fn = 1024 ∧ (q.ctx a.ctx).qp = 4096 + 1024 ∧
       (q.ctx a.ctx).state ≠ .free ∧ (q.ctx a.ctx).state ≠ .finished) ∧
    (let q := fin 1024 .finished
     (q.ctx (q.adm 1024).ctx).state = .finished ∧ q.waits (q.adm 1024).ctx = false ∧ (q.adm 1024).out ≠ [] ∧
       (q.ctx (q.adm 1024).ctx).status = 0) := by
  and_intros <;> decide +kernel

namespace WKeyCommandsCountersAndQueries
def p := managed 1 id
def kind := fun (op : Nat) (cls : Bool) => ({ op := op, classA := cls } : Part.AdmKind)
def ses := managed 1 (Part.modSys fun y => { y with session := { active := true, fn := 0 } })
def tpl := fun (e : BitVec 64) => managed 1 (Part.modSlc fun c => { c with tpl := c.tpl.set 0 255 e })
def key := managed 1 (celled 1024 (keySlot 0xFFE 1 0x11 0))
def h := cmd (mkHandle 1 0 1024) 0xFFFF 0xFFFF
def lim := managed 1 (celled 1024 { keySlot 0xFFE 1 0x11 0 with w3 := 1 })
def short := { cmd 0 0 0 with head := { (cmd 0 0 0).head with len := 8192 } }
end WKeyCommandsCountersAndQueries

open WKeyCommandsCountersAndQueries in
/-- Of the storage root and its keys, the cipher is an uninterpreted value of Config, so that no state can be shown in which one stands;
what the rest of those clauses asks is shown. -/
theorem witness_KeyCommandsCountersAndQueries :
    AdmReady ses (kind 0x10 true) (cmd 0 0 0) ∧ (ses.sys.session.active = true ∧ ses.sys.session.fn = 0) ∧
    AdmReady p (kind 0x10 true) (cmd 0 0 0) ∧ ¬ p.sys.session.active = true ∧ AdmReady p (kind 0x10 true) (cmd 255 0xFFFF 0) ∧
    ((255 : Word).toNat ≤ 255 ∧ (0xFFFF : Word).toNat ≤ 0xFFFF ∧ 255 < (256 : Word).toNat ∧ 0xFFFF < (0x10000 : Word).toNat) ∧
    ((managed 1 (Part.modCounted 0 fun _ => 100)).slotsFit 0 1 = false ∧ p.slotsFit 0 1 = true ∧ p.rangeFree (Part.firstPick (cmd 0 0 0)) 1 = true) ∧
    AdmReady (tpl 0) (kind 0x11 true) (cmd 255 0 0) ∧ (p.ent.serve .fresh 64).1.isSome = true ∧
    (Part.symLen 0x19 = some 32 ∧ Part.symLen 0x30 = none ∧ Part.pairOf 0x30 0 = some (2, 0, 1, 64) ∧ p.jobParamOk 2 0 = true ∧
      64 ≤ (cmd 0 0 0).head.len.toNat ∧ Part.pairOf 0x20 256 = some (1, 256, 161, 2080) ∧ p.jobParamOk 1 256 = true) ∧
    (((tpl 0x191).slc.template (cmd 255 0 0).a0.toNat).hclass = 1 ∧ ((tpl 0x191).slc.template 255).alg = 0x19) ∧
    (((tpl 0x302).slc.template 255).hclass = 2 ∧ ((tpl 0x302).slc.template 255).alg = 0x30 ∧ ((tpl 0x404).slc.template 255).hclass = 4) ∧
    AdmReady p { op := 0x12, classA := true, reads := 64 } (cmd 100 0 0) ∧ ¬ (([] : List Byte).length = 64 + 32 * 1) ∧ p.storageKey 0xFFE = none ∧
    AdmReady key (kind 0x13 false) h ∧ (key.slotRead h.a0 0xFFE [1, 2, 3, 4]).1.toOption.isSome = true ∧
    ((key.slot 1024).exportClass ≠ 0 ∧ (key.slot 1024).exportClass.toNat < 4 ∧ 64 + 32 * 1 ≤ h.head.len.toNat) ∧
    (AdmReady p (kind 0x14 true) h ∧ (p.headCheck h.a0 0xFFE [1, 2, 3, 4, 5]).1.isSome = true) ∧
    ((key.headCheck h.a0 0xFFE [1, 2, 3, 4, 5]).1 = none ∧ key.banksUp (key.slc.chainOf 1024) = true ∧ AdmReady key (kind 0x14 true) h ∧
      AdmReady key (kind 0x15 true) h ∧ (key.slot 1024).state = Slot.key ∧ (key.slot 1024).notAfter = 0) ∧
    ((lim.slot 1024).notAfter ≠ 0 ∧ ¬ (h.a2.setWidth 16 : BitVec 16).toNat ≤ (lim.slot 1024).notAfter.toNat) ∧
    (AdmReady p (kind 0x16 true) (cmd 0 0 0) ∧ (p.ent.serve .predict 32).1.isSome = true) ∧
    (256 * (p.tnt.t.get {} 0).st.eff.groups.toNat ≤ (256 : Word).toNat ∧ (255 : Word).toNat < 256 * (p.tnt.t.get {} 0).st.eff.groups.toNat) ∧
    (AdmReady p (kind 0x20 false) (cmd 255 0 0) ∧ AdmReady p (kind 0x21 true) (cmd 255 1 0)) ∧
    (255 / 256 ∉ p.tnt.badGroups ∧ 255 / 256 ∈ (managed 1 (Part.modTnt fun t => { t with badGroups := [0] })).tnt.badGroups) ∧
    ((cmd 255 1 0).a1 ≠ 0 ∧ (p.tnt.counters.get 0 255).toNat + 1 < 2 ^ 64 ∧ p.nvm.charter.paired = false) ∧
    (2 ^ 64 ≤ ((managed 1 (Part.modTnt fun t => { t with counters := [(255, 0xFFFFFFFFFFFFFFFF)] })).tnt.counters.get 0 255).toNat + 1) ∧
    (let q := managed 1 fun p => (p.modNvm fun v => { v with charter := { v.charter with paired := true } }).modMir fun m => { m with gate := 2 }
     q.nvm.charter.paired = true ∧ Part.alone q.mir = false ∧ AdmReady q (kind 0x21 true) (cmd 255 1 0)) ∧
    (AdmReady p { op := 0x40, writes := 64 } (cmdOf 0 1025 0 0 0 [] none) ∧ 1024 < (1025 : BitVec 16).toNat ∧
      AdmReady p { op := 0x40, writes := 64 } (cmdOf 1024 0 0 0 0 [] none) ∧ (0 : BitVec 16).toNat ≤ 1024 ∧ p.tnt.states.get 0 1 = 0 ∧
      p.tnt.states.get 0 1024 ≠ 0) ∧
    (AdmReady p { op := 0x01, reads := 64 } (cmd 0 0 0) ∧ (cmd 0 0 0).head.len = 4096 ∧ short.head.len ≠ 4096) := by
  and_intros <;> first | exact adm_ready (by decide +kernel) | decide +kernel

/-- ARGS of TENANT_CREATE and TENANT_SET: slots, in-flight limit, granules, queue pairs, groups, weight, floor. -/
def allot (slots inflight grans qps groups weight floor : Nat) : List Byte :=
  leBytes 4 slots ++ leBytes 4 inflight ++ leBytes 2 grans ++ leBytes 2 qps ++ leBytes 2 groups ++ leBytes 1 weight ++ leBytes 1 floor

namespace WTenantsAreCreatedSetFrozenAndDestroyed
def p := managed 1 id
def z := managed 0 id
def two := managed 3 id
def kind := fun (op : Nat) (args : Bool) =>
  ({ op := op, mgr := true, classA := true, used := if args then Part.allotUsed else [] } : Part.AdmKind)
def c := cmdOf 0 1023 0 0 0 (allot 1 8 1 1 0 1 3) none
def bs := Pk.fit 16 c.args
def f := fun (o k : Nat) => ofLe ((bs.drop o).take k)
def gr : TntCfg → Nat × Nat := fun x => (x.granBase.toNat, x.grans.toNat)
def cr : TntCfg → Nat × Nat := fun x => (x.grpBase.toNat, x.groups.toNat)
def old := (two.tnt.t.get {} 1024).st
def one := (allot 1 8 1 1 0 0 3).getD 14 9
def box := fun (b : Mbox) => managed 1 (Part.modTnt fun t => { t with mbox := t.mbox.set {} 1024 b })
def wait := managed 1 (Part.modQp 63 fun q => { q with enable := true, sqTail := 1 })
def stg := fun (g : TntCfg → TntCfg) => managed 1 (Part.modTnt fun t => { t with t := t.t.upd {} 1024 fun x => { x with st := { x.st with stage := g x.st.stage } } })
end WTenantsAreCreatedSetFrozenAndDestroyed

open WTenantsAreCreatedSetFrozenAndDestroyed in
/-- Of the storage root, see `witness_KeyCommandsCountersAndQueries`; what the rest of those clauses asks is shown. -/
theorem witness_TenantsAreCreatedSetFrozenAndDestroyed :
    c.fn = 0 ∧ AdmReady z (kind 0x100 true) c ∧ (c.head.target.toNat + 1 ≤ 1024 ∧ z.tnt.states.get 0 1024 = 0) ∧
    ((1025 : BitVec 16).toNat + 1 > 1024 ∧ p.tnt.states.get 0 1024 ≠ 0) ∧
    (f 0 4 ≤ 1047552 ∧ 1 ≤ f 8 2 ∧ f 8 2 ≤ 8192 ∧ 1 ≤ f 4 4 ∧ f 4 4 ≤ 8 * f 8 2 ∧ 1 ≤ f 14 1 ∧ f 15 1 ≤ 3 ∧ f 12 2 ≤ 256) ∧
    ((z.owners 1024).map fun x => x.slots.toNat).sum + f 0 4 ≤ z.nvm.charter.slotPool.toNat ∧
    (z.nvm.charter.granulePool.toNat ≤ 8192 ∧ z.nvm.charter.qpPool.toNat ≤ 4096 ∧ z.nvm.charter.groupPool.toNat ≤ 256) ∧
    (1 + f 8 2 ≤ z.nvm.charter.granulePool.toNat ∧ (∀ x ∈ z.owners 1024, Part.rangesMeet (1, f 8 2) (gr x) = false) ∧
      (∃ x ∈ z.owners 1024, Part.rangesMeet (0, f 8 2) (gr x) = true) ∧ (∀ x ∈ z.owners 1024, Part.rangesMeet (0, f 12 2) (cr x) = false)) ∧
    (z.ent.serve .predict 32).1.isSome = true ∧ z.tagFault 0 1 (f 8 2) (Part.colourOf 1024) = none ∧ one = 0 ∧
    AdmReady p (kind 0x101 true) c ∧ (1 ≤ old.eff.grans.toNat ∧ old.eff.grans.toNat ≤ 8192 ∧ 1 ≤ old.eff.qpCount.toNat ∧
      old.eff.qpCount.toNat ≤ 64 ∧ old.eff.groups.toNat ≤ 256 ∧ old.pend = none) ∧
    AdmReady two (kind 0x102 false) { c with args := [] } ∧ (two.tnt.states.get 0 1024 = 3 ∧ (two.fn 1024).wedged = false ∧
      (two.fn 1024).tdi = .unlocked ∧ two.tagFault 0 old.eff.granBase.toNat old.eff.grans.toNat 0 = none) ∧
    AdmReady p (kind 0x110 false) { c with args := [] } ∧ (p.tnt.states.get 0 1024 = 1 ∧ (p.fn 1024).tdi = .unlocked ∧ p.sys.session.active = false) ∧
    AdmReady two (kind 0x111 false) { c with args := [] } ∧ (1024 < (1025 : BitVec 11).toNat ∧ (1024 : BitVec 11).toNat ≤ 1024) ∧
    ((p.tnt.t.get {} 1024).st.stage.inflight.toNat ≤ 8 * (p.tnt.t.get {} 1024).st.stage.grans.toNat ∧
      (p.tnt.t.get {} 1024).st.stage.granBase.toNat + (p.tnt.t.get {} 1024).st.stage.grans.toNat ≤ p.nvm.charter.granulePool.toNat ∧
      (p.tnt.t.get {} 1024).st.stage.qpBase.toNat + (p.tnt.t.get {} 1024).st.stage.qpCount.toNat ≤ p.nvm.charter.qpPool.toNat ∧
      (p.tnt.t.get {} 1024).st.stage.weight ≠ 0 ∧ (∀ y ∈ p.owners 1024, Part.rangesMeet (gr (p.tnt.t.get {} 1024).st.stage) (gr y) = false)) ∧
    p.fetchWaits 1024 = false ∧ wait.fetchWaits 0 = true ∧ ((stg fun x => { x with weight := 0 }).tnt.t.get {} 1024).st.stage.weight = 0 ∧
    (1024 ≤ (1024 : BitVec 11).toNat ∧ 5 < (6 : BitVec 3).toNat ∧ (5 : BitVec 3).toNat ≤ 5 ∧ p.ctxsOf 1024 = []) ∧
    (z.tnt.states.get 0 1024 = 0 ∧ (p.tnt.mbox.get {} 1024).downFull = false ∧ (p.tnt.mbox.get {} 1024).upFull = false ∧
      ((box { downFull := true, upFull := true }).tnt.mbox.get {} 1024).downFull = true ∧
      ((box { downFull := true, upFull := true }).tnt.mbox.get {} 1024).upFull = true) ∧
    ((managed 1 (Part.modFn 1024 fun f => { f with bme := true })).mayPost 1024 = true ∧ (p.fn 1024).draining = false ∧ (p.fn 1024).fnMask = false ∧
      ((managed 1 (Part.modFn 1024 fun f => { f with vectors := [(0, { masked := false })] })).fn 1024 |>.vectors.get {} 0).masked = false) := by
  and_intros <;> first | exact adm_ready (by decide +kernel) | decide +kernel

/-- The manager's ceremonies opened by two custodians' quorum, and session `x` open with `fails` failed and `count` counted approvals. -/
def sessioned (x : Session) (count : BitVec 5) (fails : BitVec 2) (q : Bool) : Part :=
  managed 1 fun p => ((celled 1024 (keySlot 0xFFE 1 0x11 0x4000) p).modNvm fun v => { v with charter := { v.charter with
    ceremonies := List.replicate 4 (0x8001, 2), custodians := [(15, 1, []), (0, 3, [])] } }).modSys fun y => { y with
      session := x, cerCount := count, cerFails := fails, cerQuorum := q, mode := if x.active then .ceremony else .service }

/-- CEREMONY_OPEN, or a step numbered `a0` on the session of ID 0. -/
def step (a0 a1 a2 : Word) : AdmCmd := cmdOf 0 0 a0 a1 a2 [] (some [])

namespace WCeremoniesOpenCountAndExecute
def none' := sessioned {} 0 0 false
def s := fun (c : BitVec 4) (q : Bool) => sessioned { active := true, cls := c, comps := 2, template := 1, key := mkHandle 1 0 1024 } 0 2 q
def ses := fun (c : BitVec 4) (e : Bool) (k : Nat) =>
  ({ active := true, cls := c, comps := 2, template := 1, mask := 0x053, duration := 86400, executing := e, key := mkHandle 1 0 1024
     got := (List.range k).map fun i => (i, List.replicate 16 0) } : Session)
def got := fun (c : BitVec 4) (e : Bool) (k : Nat) => (sessioned (ses c e k) 0 0 true).modSlc fun x => { x with tpl := x.tpl.set 0 1 0x101 }
def kOpen := fun (cls : Nat) => ({ op := 0x30, classA := true, used := Part.openUsed cls, writes := 64 } : Part.AdmKind)
def kStep := fun (reads : Nat) => ({ op := 0x30, used := Part.stepUsed, reads := reads } : Part.AdmKind)
def imp := cmdOf 0 0 0 0x900 255 (leBytes 4 (mkHandle 1 0 1024).toNat) (some [])
def des := cmdOf 0 0 0 1 0 (leBytes 4 (mkHandle 1 0 1024).toNat) (some [])
def dbg := cmdOf 0 0 0 3 0 (List.replicate 20 0 ++ leBytes 2 0x053 ++ [0, 0] ++ leBytes 4 86400) (some [])
end WCeremoniesOpenCountAndExecute

open WCeremoniesOpenCountAndExecute in
/-- A signature's check is an uninterpreted value of Config, and so is the cipher that unwraps a component: both outcomes are left
open, and what the rest of those clauses asks is shown. -/
theorem witness_CeremoniesOpenCountAndExecute :
    AdmReady none' (kOpen 0) imp ∧ AdmReady none' (kOpen 1) des ∧ AdmReady none' (kOpen 2) (step 0 2 5) ∧ AdmReady none' (kOpen 3) dbg ∧
    (imp.a0 = 0 ∧ imp.a1 &&& 0xFFFF00F0 = 0 ∧ (fld imp.a1 8 8 : BitVec 8).toNat = 9 ∧ imp.a2.toNat ≤ 255) ∧
    (none'.sys.session.active = false ∧ none'.sys.mode = .service ∧ none'.classOpen 0 = true ∧ none'.classOpen 3 = true) ∧
    ((none'.headCheck (mkHandle 1 0 1024) 0xFFE [1, 2, 3, 4, 5]).1 = none ∧ none'.useCheck (none'.slot 1024) (Part.isAes (none'.slot 1024).alg) 0x4000 = none) ∧
    (none'.ent.serve .fresh 16).1.isSome = true ∧ State.reset.part.classOpen 0 = false ∧ (0x10 : Word) &&& 0xFFFF00F0 ≠ 0 ∧
    AdmReady (s 0 false) (kStep 2) (step 1 15 0) ∧ AdmReady (s 0 false) (kStep 24) (step 2 1 24) ∧ AdmReady (s 0 false) (kStep 0) (step 4 0 0) ∧
    AdmReady (s 2 true) { kStep 0 with classA := (s 2 true).executeClassA } (step 3 0 0) ∧ ¬ none'.sys.session.active = true ∧
    ((s 0 false).sys.session.active = true ∧ (s 0 false).sys.session.fn = 0 ∧ (s 0 false).sys.session.id = 0) ∧
    ((s 0 false).nvm.charter.custodians.find? fun x => x.1.toNat == 15) = some (15, 1, []) ∧ bitAt (0x8001 : BitVec 16) 15 = true ∧
    (bitAt (s 0 false).sys.session.counted 15 = false ∧ ((s 0 false).nvm.charter.custodians.find? fun x => x.1.toNat == 14) = none) ∧
    ((s 0 false).sys.cerFails + 1 = 3 ∧ (got 0 false 0).sys.cerFails + 1 ≠ 3) ∧
    ((s 0 false).sys.session.cls = 0 ∧ (1 : Word).toNat ≤ (s 0 false).sys.session.comps ∧ (s 0 false).sys.session.got = []) ∧
    ((s 0 false).slotRead (s 0 false).sys.session.key 0xFFE [1]).1.toOption.isSome = true ∧
    ((s 2 true).sys.cerQuorum = true ∧ (s 2 true).sys.session.executing = false ∧ (s 0 false).sys.cerQuorum = false) ∧
    ((got 0 false 1).sys.session.got.length < 2 ∧ (got 0 false 2).sys.session.slot = none ∧ (got 0 false 2).slotsFit 0 1 = true ∧
      (got 0 false 2).rangeFree 1025 1 = true ∧ (∀ g ∈ (got 0 false 2).sys.session.got, g.2.length = 16)) ∧
    (Part.symLen ((got 0 false 2).slc.template 1).alg.toNat = some 16 ∧ ((got 0 false 2).slc.template 1).hclass = 1) ∧
    ((got 1 false 0).sys.session.cls = 1 ∧ (got 3 false 0).sys.session.mask &&& ~~~ Part.grantCeiling (got 3 false 0).life = 0 ∧
      (got 3 false 0).bat.scrapDue = false) ∧
    (got 2 true 0).sys.session.executing = true := by
  and_intros <;> first | exact adm_ready (by decide +kernel) | decide +kernel

namespace WModesLifeCycleAndFuses
def p := State.reset.part
def y := fun (g : Sys → Sys) => (on (Part.modSys g)).part
def fz := y fun y => { y with mode := .service }
def lc := fun (w : BitVec 5) (m : Machine.Mode) (e : Bool) => (on fun p => ((ctxed 7 { state := .running } p).modTnt fun t =>
  { t with adm := [(0, { busy := true, started := true, ctx := 7 })] }).modSys fun y =>
  { y with mode := m, fuses := { y.fuses with lcWord := w, rootOk := true }, cerQuorum := true, cerClass := 2, cerTarget := 5
           session := { active := e, executing := e } }).part
def ch := fun (f : BitVec 128) => (on fun p => (p.modSys fun y => { y with mode := .service, fuses := { y.fuses with arb := f } }).modNvm
  fun v => { v with charter := { v.charter with present := true, sv := 128, svCommit := true, rotate := true, nextHash := 1, ownerHash := 0 }
                    ownerProg := [(11, 0x01000000)] }).part
def own := fun (k : Nat) => (on fun q => { (ch 0) with sys := { (ch 0).sys with fuses := { q.sys.fuses with owner := List.replicate k 1 } } }).part
def busy := y fun y => { y with rootBusy := true, rootProg := [(0, 1)], mode := .assay }
end WModesLifeCycleAndFuses

open WModesLifeCycleAndFuses in
theorem witness_ModesLifeCycleAndFuses :
    (p.sys.mode ≠ .service ∧ p.sys.mode ≠ .standby) ∧ (fz.sys.mode = .service ∧ fz.nvm.charter.paired = false ∧ fz.sys.session.active = false ∧
      fz.dsp.ctxs.all (fun c => c.2.state == .free || (fz.fn c.2.fn).wedged) = true) ∧
    ((on (ctxed 7 { state := .running })).part.dsp.ctxs.all (fun c => c.2.state == .free) = false) ∧
    ((lc 0 .assay false).life = .blank ∧ (lc 0b00111 .ceremony true).life = .owned ∧ (lc 0b00111 .ceremony true).sys.cerQuorum = true ∧
      (lc 0b00011 .assay false).sys.fuses.rootOk = true ∧ (lc 0b01111 .quarantine false).life = .analysis) ∧
    (p.sys.lcBusy = false ∧ p.sys.session.executing = false ∧ p.life = .provisioned ∧ (3 : BitVec 3) ≠ 1 ∧ p.sys.mode = .wake) ∧
    ((lc 0b00111 .ceremony true).sys.session.executing = true ∧
      ((lc 0b00111 .ceremony true).ctx ((lc 0b00111 .ceremony true).adm 0).ctx).state = .running) ∧
    (p.sys.lcTarget = none ∧ (y fun y => { y with lcTarget := some 2 }).sys.lcTarget = some 2 ∧ Part.lifeCode p.life = 2) ∧
    (let q := y fun y => { y with lcTarget := some 5, mode := .assay }
     q.sys.lcTarget = some 5 ∧ Part.lifeCode q.life ≠ 5 ∧ q.sys.mode ≠ .wake) ∧
    (Part.lifeCode (lc 0b11111 .assay false).life = 5 ∧ Part.lifeCode (lc 0b01111 .assay false).life = 4 ∧ Part.lifeCode (lc 1 .assay false).life = 1) ∧
    (busy.sys.rootBusy = true ∧ busy.sys.mode ≠ .wake ∧ p.sys.rootBusy = false ∧ busy.rootStaged &&& 1 ≠ 0 ∧ busy.rootStaged &&& 0 = 0 ∧
      busy.sys.fuses.rootOk = false) ∧
    ((ch 0).nvm.charter.present = true ∧ (128 : Byte) = (ch 0).nvm.charter.sv ∧ (ch 0).nvm.charter.svCommit = true ∧ Part.fusedVersion 1 = 1) ∧
    ((own 3).sys.fuses.owner.length < 4 ∧ (own 3).ownerStaged = 1 ∧ (own 3).nvm.charter.nextHash = 1 ∧ ¬ (own 4).sys.fuses.owner.length < 4) := by
  and_intros <;> decide +kernel

namespace WFlashCommandsLoaderAndStart
def p := State.reset.part
def n := fun (a : BitVec 29) (l : BitVec 9) (o : NvmOp) (u : NvmUser) => (on (Part.modNvm fun v => { v with
  secure := { busy := true, addr := a, len := l, op := some o }, queue := [u] })).part
def ok := fun (a : BitVec 29) (l : BitVec 9) (o : NvmOp) => (n a l o .secure).nvm.secure.addr.toNat
def bl := fun (src : BitVec 29) (len : BitVec 23) (dst : BitVec 21) (t : BitVec 2) (c : Bool) => (on (Part.modNvm fun v => { v with
  blBusy := true, queue := [.loader], blSrc := src, blLen := len, blDst := dst, blTarget := t, blClosed := c })).part.nvm
def mode := fun (m : Machine.Mode) (w : BitVec 5) => (on (Part.modSys fun y => { y with mode := m, fuses := { y.fuses with lcWord := w, rootOk := true } })).part
def st := (on fun p => { (celled 31 (keySlot 0xFFF 1 0x11 0) (welled (p.modSys fun y => { y with mode := .assay, fuses :=
  { y.fuses with rootOk := true } }))) with seq := { p.seq with loaded := true } }.modSlc fun c => { c with tplLocked := true }).part
end WFlashCommandsLoaderAndStart

open WFlashCommandsLoaderAndStart in
theorem witness_FlashCommandsLoaderAndStart :
    (p.nvmSet .normal).busy = false ∧ ((n 0 1 .read .secure).nvmSet .secure).busy = true ∧ (p.nvmSet .secure).op = none ∧
    ((n 0 1 .read .normal).nvm.queue.head? ≠ some .secure ∧ ((n 0 1 .read .secure).nvmSet .secure).op = some .read ∧
      (n 0 1 .read .secure).nvm.queue.head? = some .secure) ∧
    (ok 0x4FFFFF 1 .read = 0x4FFFFF ∧ 0x4FFFFF % 256 + 1 ≤ 256 ∧ 0x4FFFFF % 256 + 2 > 256 ∧ ok 0x500000 1 .program = 0x500000) ∧
    (0x10000 % 0x10000 = 0 ∧ p.life = .provisioned ∧ p.nvm.charter.slotB = false ∧ p.nvm.wardenB = false ∧ p.nvm.worksB = false ∧
      0x2100000 < p.nvm.density) ∧ (0x1000 % 0x10000 ≠ 0) ∧
    (p.nvm.blBusy = false ∧ (bl 0 16 0 1 false).blBusy = true ∧ p.nvm.queue.head? ≠ some .loader ∧ (bl 0 16 0 1 false).queue.head? = some .loader) ∧
    (16 ≤ (bl 0 0x400000 0 0 false).blLen.toNat ∧ (bl 0 0x400000 0 0 false).blLen.toNat ≤ 0x400000 ∧ (bl 0 0x400000 0 0 false).blTarget ≠ 3) ∧
    ((bl 0 16 0x1FFFF0 1 false).blDst.toNat + 16 ≤ 0x200000 ∧ ¬ (bl 0 16 0x100000 2 false).blDst.toNat + 16 ≤ 0x100000 ∧
      (bl 0 16 0 1 true).blClosed = true) ∧
    (p.sys.handed = false ∧ p.sys.mode = .wake ∧ (mode .assay 3).sys.mode ≠ .wake ∧ (mode .wake 0b01111).life = .analysis ∧
      p.life ≠ .analysis ∧ p.life ≠ .scrapped) ∧
    (st.ent.ready = true ∧ st.slc.ready = true ∧ st.slc.tplLocked = true ∧ st.seq.loaded = true ∧ st.ent.startFail = false ∧
      st.ent.katFailed = false ∧ st.life = .provisioned ∧ st.sys.fuses.rootOk = true ∧ st.nvm.charter.paired = false ∧ st.sys.mode = .assay) ∧
    ((p.tableAt 255) = some [] ∧ p.tableAt 0 = some []) ∧
    ((st.modNvm fun v => { v with charter := { v.charter with paired := true } }).nvm.charter.paired = true ∧ (mode .assay 3).ent.ready = false ∧
      p.sys.mode ≠ .assay) := by
  and_intros <;> decide +kernel

/-! States of the pair. -/

/-- A paired unit with MIR block `m`. -/
def paired (m : Mir) : Part :=
  (on fun p => { (welled (p.modNvm fun v => { v with charter := { v.charter with paired := true, partners := [0] } })) with mir := m }).part

/-- A unit in a session whose next frame is number `n` of the present key phase. -/
def inSession (n : BitVec 64) (g : Mir → Mir) : Part := paired (g { link := 3, lanes := 3, linkEn := true, session := true, fseqRx := n })

theorem in_order {p : Part} {type : Byte} {fseq : BitVec 64} {old : Bool} (h : p.nvm.charter.paired = true ∧
    (if type = Part.frHandshake then 2 ≤ p.mir.link.toNat else p.mir.session = true) ∧ (old = true → p.mir.oldPhase = true) ∧
    fseq = if old then p.mir.fseqOld else p.mir.fseqRx) : InOrder p type fseq old := h

namespace WCausewayTrainsShakesHandsAndBeats
def p := State.reset.part
def q := inSession 0xFFFFFFFFFFFFFFFF id
def old := inSession 1 fun m => { m with oldPhase := true, fseqOld := 7 }
def hold := inSession 1 fun m => { m with gate := 2, ownClaim := 0x10100, resyncFrom := some 0 }
def stand := inSession 1 fun m => { m with hoSent := true }
def beat := leBytes 8 0x20200 ++ [2, 4] ++ List.replicate 54 0
def hs := fun (a b : Nat) (sel : Bool) => (paired { link := 2, hsMine := List.replicate a [], hsPeer := List.replicate b [] }).modSys fun y =>
  { y with unitSel := sel }
end WCausewayTrainsShakesHandsAndBeats

open WCausewayTrainsShakesHandsAndBeats in
/-- Certificates, signatures and the keys they certify are uninterpreted values of Config; what the rest of those clauses asks is
shown. -/
theorem witness_CausewayTrainsShakesHandsAndBeats :
    p.nvm.charter.paired = false ∧ (p.mir.linkEn = false ∧ (paired { linkEn := true, link := 1 }).mir.link = 1 ∧ (3 : BitVec 2) ≠ 0) ∧
    ((paired {}).entDraw .fresh 32).1.isSome = true ∧ p.mir.link.toNat < 2 ∧ (2 ≤ q.mir.link.toNat ∧ (1 : BitVec 2).toNat < q.mir.lanes.toNat) ∧
    q.mir.session = true ∧ p.mir.session = false ∧ InOrder q Part.frHeartbeat 0xFFFFFFFFFFFFFFFF false ∧ InOrder old Part.frHeartbeat 7 true ∧
    (hold.mir.gate = 2 ∧ ofLe ((beat.drop 8).take 1) % 4 = 2 ∧ hold.mir.ownClaim.toNat < ofLe (beat.take 8) ∧
      ofLe ((beat.drop 9).take 1) % 8 = 4 ∧ hold.mir.resyncFrom.isSome = true) ∧ InOrder hold Part.frHeartbeat 1 false ∧
    ofLe (((List.replicate 64 (1 : Byte)).drop 32).take 8) ≠ 0 ∧
    (stand.mir.gate ≠ 2 ∧ stand.mir.hoSent = true ∧ q.mir.hoSent = false ∧ q.mir.resyncFrom = none) ∧
    InOrder (hs 1 0 false) Part.frHandshake 0 false ∧ ((hs 1 0 false).mir.hsMine.length = 1 ∧ (hs 1 0 false).mir.hsPeer = []) ∧
    ((hs 2 1 false).mir.hsMine.length = 2 ∧ (hs 2 1 false).mir.hsPeer.length = 1 ∧ ¬ ([] : List Byte).length = 9000) ∧
    ((hs 2 2 true).mir.hsPeer.length = 2 ∧ (hs 2 2 true).sys.unitSel = true ∧ (hs 1 0 false).mir.hsPeer.length ≠ 2) ∧
    (q.nvm.charter.paired = true ∧ (q.entDraw .fresh 32).1.isSome = true) ∧ p.mir.share.stage ≠ 0 ∧ ({ p.mir.share with stage := 0 } : Staged (BitVec 4)).stage = 0 := by
  and_intros <;> first | exact in_order (by decide +kernel) | decide +kernel

namespace WLedgerEntriesAndCopiesAreApplied
def q := fun (g : BitVec 2) (y : BitVec 3) => inSession 1 fun m => { m with gate := g, sync := y, seq := 7 }
def item : List Byte := [3, 0, 28, 0] ++ leBytes 2 1024 ++ [1, 0] ++ List.replicate 24 0
def slot : List Byte := [1, 0, 52, 0] ++ leBytes 4 0xFFFFF ++ List.replicate 48 0
def msg := leBytes 8 8 ++ leBytes 4 1 ++ leBytes 4 item.length ++ item
def e : Entry := { seq := 8, items := [], waiter := some 7, counter := some (255, 9) }
def k := (inSession 1 fun m => { m with gate := 2, seq := 7, sent := 8, entries := [e] }).modDsp fun d =>
  { d with ctxs := d.ctxs.set {} 7 { state := .finished } }
def ends := fun (l : Nat) => leBytes 8 0 ++ leBytes 8 l
end WLedgerEntriesAndCopiesAreApplied

open WLedgerEntriesAndCopiesAreApplied in
theorem witness_LedgerEntriesAndCopiesAreApplied :
    InOrder (q 0 3) Part.frLedger 1 false ∧ InOrder (q 0 3) Part.frResync 1 false ∧ InOrder (q 2 4) Part.frControl 1 false ∧
    ((q 2 4).mir.gate = 2 ∧ (q 0 0).mir.sync ≠ 3 ∧ (q 0 0).mir.sync ≠ 4 ∧ (q 0 4).mir.sync = 4) ∧
    (BitVec.ofNat 64 (ofLe (msg.take 8)) = (q 0 4).mir.seq + 1 ∧ BitVec.ofNat 64 (ofLe ((ends 0).take 8)) ≠ (q 0 4).mir.seq + 1) ∧
    (Part.itemsOf item.length item = [item] ∧ Part.itemsOf slot.length slot = [slot]) ∧ (q 0 3).compatOk = true ∧
    InOrder k Part.frAck 1 false ∧ (k.mir.entries.filter fun e => decide (e.seq.toNat ≤ 8)) = [e] ∧
    (k.mir.entries.filter fun e => decide (e.seq.toNat ≤ 7)) = [] ∧ (e.counter = some (255, 9)) ∧
    ((k.mir.entries.find? fun e => e.seq == 8) = some e ∧ e.waiter = some 7 ∧ (k.ctx 7).state = .finished ∧ (k.ctx 7).discard = false ∧
      (k.mir.entries.find? fun e => e.seq == 7) = none) ∧
    (ofLe (((leBytes 4 0 ++ leBytes 4 1022).drop 4).take 4) ≤ 1022 ∧ 1022 < ofLe (((leBytes 4 0 ++ leBytes 4 1023).drop 4).take 4)) ∧
    ((BitVec.ofNat 64 (ofLe (((ends 7).drop 8).take 8))).toNat ≤ (q 0 3).mir.seq.toNat ∧
      (q 0 3).mir.seq.toNat < (BitVec.ofNat 64 (ofLe (((ends 8).drop 8).take 8))).toNat) ∧
    ((State.reset.part.tagFault 0 8191 1 0xFFE) = none) := by
  and_intros <;> first | exact in_order (by decide +kernel) | decide +kernel

namespace WTheGateIsClaimedKeptAndHandedOver
def p := State.reset.part
def c := fun (g : Mir → Mir) => (paired (g { gateEn := true, sync := 4, line := 1, seenPartner := true })).modSys fun y => { y with mode := .standby }
def due := fun (q : Part) => ({ q with tmp := { q.tmp with due := [.gateClaim true] } } : Part)
def out := c fun m => { m with line := 0, hoRx := some 7, seq := 7, highFive := true }
def e : Entry := { seq := 8, items := [], waiter := some 7 }
def solo := (paired { gate := 2, entries := [e] }).modDsp fun d => { d with ctxs := d.ctxs.set {} 7 { state := .finished } }
def h := c fun m => { m with hoSent := true }
def n := c fun m => { m with hoSent := true, gateEn := false }
end WTheGateIsClaimedKeptAndHandedOver

open WTheGateIsClaimedKeptAndHandedOver in
theorem witness_TheGateIsClaimedKeptAndHandedOver :
    (p.nvm.charter.paired = false ∧ p.mir.gate ≠ 2 ∧ p.mir.gate ≠ 1) ∧
    ((c id).nvm.charter.paired = true ∧ (c id).mir.gateEn = true ∧ (c id).sys.mode = .standby ∧ (c id).mir.sync = 4 ∧ (c id).mir.line = 1 ∧
      (c id).mir.seenPartner = true ∧ (c id).mir.gate = 0) ∧ (out.mir.hoRx = some out.mir.seq ∧ out.mir.highFive = true) ∧
    ((due (c id)).tmp.due[0]? = some (.gateClaim true) ∧ (due (c id)).sys.freezing = false ∧ (due p).tmp.due[0]? = some (.gateClaim true)) ∧
    (∀ x ∈ (c id).tnt.states, x.2 ≠ 5) ∧ (solo.mir.gate = 2 ∧ solo.nvm.charter.paired = true) ∧
    (out.mir.link ≠ 3 ∧ out.mir.gate ≠ 2 ∧ out.mir.line = 0 ∧ out.mir.sync = 4) ∧ ¬ ((c id).mir.line = 0 ∨ (c id).mir.line = 3) ∧
    (solo.mir.link ≠ 3 ∧ solo.mir.soloAuto = true ∧ e ∈ solo.mir.entries ∧ e.waiter = some 7 ∧ (solo.ctx 7).state = .finished ∧
      (solo.ctx 7).discard = false) ∧ ¬ p.mir.gate = 2 ∧
    (solo.sys.session.active = false ∧ (inSession 0 fun m => { m with gate := 2 }).mir.session = true) ∧
    (p.mir.hoSent = false ∧ h.mir.hoSent = true ∧ h.mir.gate ≠ 2 ∧ h.mir.gate ≠ 1 ∧ n.mir.gateEn = false ∧ n.mir.link ≠ 3 ∧
      (c fun m => { m with hoSent := true, gateEn := false, link := 3 }).mir.link = 3) ∧ InOrder (inSession 0 id) Part.frControl 0 false := by
  and_intros <;> first | exact in_order (by decide +kernel) | decide +kernel

/-- A tenant's migration at stage `g`. -/
def migrating (st : BitVec 3) (g : MigStage) (id : List Byte) : Part :=
  managed st (Part.modTnt fun t => { t with migs := [(1024, { stage := g, id := id })] })

namespace WMigrationMovesAFrozenTenant
def kind := fun (op : Nat) (cls : Bool) (used : List Nat) (reads writes : Nat) =>
  ({ op := op, mgr := true, classA := cls, used := used, reads := reads, writes := writes } : Part.AdmKind)
def c := cmdOf 0 1023 0 0 0 [] (some [])
def big := { c with head := { c.head with len := 0x10000 } }
def a := { big with args := allot 1 8 1 1 1 1 3 }
def off := managed 3 id
def z := managed 0 id
def ids := managed 3 fun p => celled 0 (keySlot 0xFFF 2 0x31 0) (celled 16 (keySlot 0xFFF 4 0x42 0) p)
def m := migrating 3 .bound []
def s := migrating 5 .accepted []
def seg : List Byte := Part.ascii "HXMS" ++ [1, 0, 0, 0] ++ List.replicate 56 0
end WMigrationMovesAFrozenTenant

open WMigrationMovesAFrozenTenant in
/-- Certificates, signatures and sealed segments rest on uninterpreted values of Config, so that no offer, answer, segment or receipt
can be shown that is accepted; what the rest of those clauses asks is shown. -/
theorem witness_MigrationMovesAFrozenTenant :
    c.fn = 0 ∧ c.head.target.toNat + 1 = 1024 ∧ (1024 : Nat) < (1024 : BitVec 16).toNat + 1 ∧
    AdmReady off (kind 0x120 false [] 0 0) c ∧ (off.tnt.states.get 0 1024 = 3 ∧ off.migOf 1024 = none ∧ off.tnt.migs.length < 16 ∧
      (m.migOf 1024).isSome = true ∧ z.tnt.states.get 0 1024 ≠ 3) ∧
    (ids.identKeys.isSome = true ∧ (ids.entDraw .fresh 48).1.isSome = true ∧ (((ids.entDraw .fresh 48).2.entDraw .fresh 64).1.isSome = true)) ∧
    AdmReady z (kind 0x121 true Part.allotUsed 10180 0) a ∧ (z.tnt.states.get 0 1024 = 0 ∧ Part.allotOk (Pk.fit 16 a.args) = true ∧
      (z.takeRanges 1024 (Part.allotOf (Pk.fit 16 a.args))).isSome = true ∧ z.tagFault 0 1 1 0x400 = none) ∧
    AdmReady m (kind 0x122 false [] 10180 0) big ∧ ((m.migOf 1024).map Mig.stage ≠ some .offered) ∧
    AdmReady m (kind 0x123 true [] 0 0) c ∧ ((m.migOf 1024).map Mig.stage = some .bound ∧ c.a0.toNat = 0 ∧ c.head.len ≠ 0) ∧
    AdmReady s (kind 0x124 true [] 64 0) c ∧ (s.tnt.states.get 0 1024 = 5 ∧ (s.migOf 1024).isSome = true ∧ bitAt (seg.getD 5 0) 0 = false ∧
      bitAt (([1] : List Byte).getD 0 0) 0 = true ∧ s.streamFault 1024 [] ≠ 0) ∧
    AdmReady (migrating 3 .offered []) (kind 0x125 false [] 0 0) c ∧ ((migrating 3 .offered []).migOf 1024).map Mig.stage = some .offered ∧
    AdmReady s (kind 0x125 false [] 0 0) c ∧ ((s.migOf 1024).map Mig.stage = some .accepted ∧ (off.migOf 1024).map Mig.stage ≠ some .bound) ∧
    AdmReady s (kind 0x126 true [] 0 7508) big ∧
    AdmReady (migrating 4 .sent []) (kind 0x127 true [] 7508 0) big ∧
    ((migrating 4 .sent []).tnt.states.get 0 1024 = 4 ∧ ((migrating 4 .sent []).migOf 1024).isSome = true ∧
      (migrating 4 .sent []).mayDestroy 1024 = true ∧ Part.closeOk { stage := .sent, id := [1] } [] = false) := by
  and_intros <;> first | exact adm_ready (by decide +kernel) | decide +kernel

namespace WRecordsReachTheTallyBook
def p := State.reset.part
def r : Rec := { code := 0x8001, sev := 1, payload := List.replicate 224 0 }
def c : Rec := { code := 0xD100, sev := 3 }
def n : Rec := { code := 0x8001, sev := 1 }
def e := p.evr
def fz : Evr := { e with frozen := true, hold := List.replicate 63 c }
def lim : List LimEntry := [{ code := 0x8001, written := 64, flood := true }]
def full : Evr := { e with persistEn := true, ring := List.replicate 13312 { off := 0, len := 256, persisted := false, closes := false } }
end WRecordsReachTheTallyBook

open WRecordsReachTheTallyBook in
theorem witness_RecordsReachTheTallyBook :
    r.payload.length ≤ 224 ∧ (n.payload = [] ∧ r.payload ≠ []) ∧
    (fz.frozen = true ∧ fz.hold.length < 64 ∧ (List.replicate 64 c).length = 64 ∧ c.critical = true ∧ n.critical = false) ∧
    (e.frozen = false ∧ e.unpersisted + n.len ≤ Evr.share n ∧ e.dropPend.get 0 1 = 0 ∧ e.wp + (n.bytes e.seq).length ≤ Evr.ringSize ∧
      Evr.ringSize ≤ e.critWp ∧ e.critWp + (c.bytes e.seq).length ≤ Evr.critEnd) ∧
    ¬ full.unpersisted + n.len ≤ Evr.share n ∧ ({ e with dropPend := [(1, 1)] } : Evr).dropPend.get 0 1 ≠ 0 ∧
    (e.folds = [] ∧ evLimit e.st.eff 0x8001 1 = 64 ∧ (lim.find? fun y => y.code == 0x8001) = some { code := 0x8001, written := 64, flood := true } ∧
      (e.limiter.find? fun y => y.code == 0x8001) = none ∧ evLimit e.st.eff 0xD100 3 = 0) ∧
    (Evr.alarmRecord c = true ∧ Evr.alarmRecord n = false) ∧ (18 < 19) ∧
    ((lim.headD { code := 0, written := 0 }).inWindow = 0 ∧ ({ code := 0x8001, written := 0 } : LimEntry).flood = false ∧
      ({ code := 0x8001, written := 0, inWindow := 1 } : LimEntry).inWindow ≠ 0) ∧
    (fz.freezeWorld = World.normal.bit ∨ fz.freezeWorld = World.secure.bit) ∧ (e.hold = [] ∧ e.holdNow = 0 ∧ e.dropPend = []) ∧
    (∀ x ∈ fz.hold, x.critical = true) ∧
    (0x400 ≤ (0x7FF#12).toNat ∧ (0x7FF#12).toNat ≤ 0x7FF ∧ 0x800 ≤ (0x800#12).toNat ∧ ¬ (0x800#12).toNat ≤ 0x7FF ∧ (224 : Byte).toNat ≤ 224) := by
  and_intros <;> decide +kernel

namespace WThePersistentLogAndItsRegisters
def p := State.reset.part
def e := p.evr
def one := (on fun p => { p with nvm := { p.nvm with flash := p.nvm.flash.write erased (0x1100000 + 4095 * 0x1000) (Part.ascii "HXLG" ++ [0, 0, 0, 0]) } }).part
def y : RingEntry := { off := 0, len := 192, persisted := false, closes := true }
def c : EvrCfg := { ovr := [(0, 0x80000001), (15, 0x80000001)] }
end WThePersistentLogAndItsRegisters

open WThePersistentLogAndItsRegisters in
theorem witness_ThePersistentLogAndItsRegisters :
    one.nvm.flash.read erased (0x1100000 + 4095 * 0x1000) 4 = Part.ascii "HXLG" ∧
    (e.persistEn = false ∧ ({ e with persistEn := true } : Evr).persistEn = true ∧ e.scanning = false ∧ ({ e with scanning := true } : Evr).scanning = true) ∧
    (e.persistOn = false ∧ (Part.pageTake 192 [y]).2 = true ∧ (Part.pageTake 256 []).2 = false ∧ (Part.pageTake 192 [y]).1 = [y]) ∧
    (([] : List Byte).length ≤ 48 ∧ y.persisted = false ∧ [{ y with persisted := true }] = [] ++ [{ y with persisted := true }]) ∧
    (1 ≤ (fld e.st.stage.rate 0 8 : Byte).toNat ∧ (fld e.st.stage.rate 0 8 : Byte).toNat ≤ (fld e.st.stage.rate 8 8 : Byte).toNat ∧
      (fld e.st.stage.rate 8 8 : Byte).toNat ≤ (fld e.st.stage.rate 16 8 : Byte).toNat ∧ (fld e.st.stage.cfg 0 8 : Byte) ≠ 0 ∧
      (fld e.st.stage.cfg 8 8 : Byte) ≠ 0 ∧ ∀ k < 16, bitAt (e.st.stage.ovr.get 0 k) 31 = false) ∧
    (bitAt (c.ovr.get 0 0) 31 = true ∧ bitAt (c.ovr.get 0 15) 31 = true ∧ (fld (c.ovr.get 0 0) 0 16 : BitVec 16) = fld (c.ovr.get 0 15) 0 16) ∧
    (p.bat.blog.find? fun b => b.slot == 0) = none := by
  and_intros <;> decide +kernel

namespace WSensorsRaiseAlarmsThatAreAnswered
def p := State.reset.part
def rk := fun (r : Byte) (a : BitVec 3) => (on fun p => { p with tmp := { p.tmp with applied := a, crust := { ranks := List.replicate 19 r } } }).part
def cold := (on fun p => { p with tmp := { p.tmp with tempRuns := [(3, 9)], conds := [(Alarm.tempLow.index, 3)] } }).part
def net := fun (h : NetHist) => (on fun p => { p with tmp := { p.tmp with meshStep := 3125, nets := [(63, h)] } }).part
end WSensorsRaiseAlarmsThatAreAnswered

open WSensorsRaiseAlarmsThatAreAnswered in
theorem witness_SensorsRaiseAlarmsThatAreAnswered :
    Alarm.light.index < 19 ∧ 255 < 256 ∧ ((rk 1 0).rank 0).toNat < 2 ∧ (2 ≤ ((rk 2 3).rank 0).toNat ∧ ((rk 2 3).rank 0).toNat ≤ 3 ∧ p.dbg.granted = 0) ∧
    ((rk 2 1).rank 0 = 2 ∧ (rk 2 1).tmp.applied.toNat < 2 ∧ (rk 2 1).sys.session.active = false ∧ (rk 2 1).tmp.suspends.length < 8) ∧
    (3 ≤ ((rk 4 3).rank 0).toNat ∧ ((rk 4 3).rank 0).toNat ≤ 4 ∧ (rk 4 3).tmp.applied.toNat < ((rk 4 3).rank 0).toNat) ∧
    ((0x800#12).toInt < 4 * p.tmp.crust.tempLow.toInt ∧ 4 * p.tmp.crust.tempHigh.toInt < (0x7FF#12).toInt ∧
      min 10 (cold.tmp.tempRuns.get 0 3 + 1) = 10 ∧ (Alarm.tempLow.index, 3) ∈ cold.tmp.conds ∧ (Alarm.tempLow.index, 3) ∉ p.tmp.conds) ∧
    (let cs := (if p.wpu.avsPending then p.wpu.command.toNat else p.wpu.avsGood.toNat) :: p.wpu.covered.map fun c => c.1.toNat
     (∀ c ∈ cs, 500 + 100 < c) ∧ (∀ c ∈ cs, c + 100 < 1000) ∧ ¬ (∀ c ∈ cs, cs.headD 0 + 100 < c)) ∧
    (p.sys.resetLow = false ∧ (on (Part.modSys fun y => { y with resetLow := true })).part.sys.resetLow = true) ∧
    (p.tmp.light.toNat < (255 : Byte).toNat ∧ ¬ p.tmp.light.toNat < p.tmp.light.toNat ∧ (2499 : BitVec 16).toNat < 2500 ∧ ¬ (2500 : BitVec 16).toNat < 2500) ∧
    (bitAt (0x8000000000000000 : BitVec 64) 63 = true ∧ ((net { recent := [3125] }).tmp.nets.get {} 63).broken = false ∧
      3125 ∈ ((net { recent := [3125] }).tmp.nets.get {} 63).recent ∧ 3126 < 2 + 3125 ∧ ((net { lone := true }).tmp.nets.get {} 63).lone = true ∧
      ((net { broken := true }).tmp.nets.get {} 63).broken = true) ∧
    ((p.ent.serve .mask 8).1 = none ∧ ((on welled).part.ent.serve .mask 8).1.isSome = true) ∧
    (p.tmp.crust.vglMin.toNat < 256 ∧ p.tmp.crust.vglMax.toNat < 256) := by
  and_intros <;> decide +kernel

namespace WLatchesClearAndTheBatteryDomainWatches
def p := State.reset.part
def c := (on fun p => { p with bat := { p.bat with onCell := true } }).part
def t := (on fun p => { p with tmp := { p.tmp with latched := 1, crust := { ranks := List.replicate 19 1 } } }).part
end WLatchesClearAndTheBatteryDomainWatches

open WLatchesClearAndTheBatteryDomainWatches in
theorem witness_LatchesClearAndTheBatteryDomainWatches :
    (bitAt t.tmp.latched 0 = true ∧ t.rank 0 = 1 ∧ p.tmp.latched = 0) ∧ p.bat.onCell = false ∧
    (c.bat.onCell = true ∧ c.bat.backupLatch = false ∧ (0x8000000000000000 : BitVec 64) ≠ 0 ∧ (∀ x ∈ c.bat.blog, x.slot ≠ 255)) := by
  and_intros <;> decide +kernel

namespace WRegisterWritesAndStagedSets
def p := State.reset.part
def k := cored 3 runs
def h := fun (tag : BitVec 12) => (on fun p => ((serving p).modFn 0 fun f => { f with mse := true }).modAcu fun u =>
  { u with tagCsr := u.tagCsr.set 0xFFF (17 * 256) tag }).part
def v := managed 1 fun p => ((linked 1024 p).modFn 0 fun f => { f with mse := true }).modHif fun h => { h with vfEnable := true, vfMse := true, numVfs := 1024 }
def q := { v with tnt := (managed 1 id).tnt }
end WRegisterWritesAndStagedSets

open WRegisterWritesAndStagedSets in
theorem witness_RegisterWritesAndStagedSets :
    p.mir.chunks = 0 ∧ (p.core 3).run ≠ .running ∧ (k.core 3).run = .running ∧
    ((k.coreCheck 3 kWrite (0x100000000 + 17 * 0x100000 + 4 * 0x1FF) 4).1 = none ∧ secureReg k.dmaSecure 17 (4 * 4) = true ∧
      (k.coreCheck 3 kWrite (0x100000000 + 17 * 0x100000 + 4 * 4) 4).1 ≠ none) ∧
    p.hif.linkUp = false ∧ ((h 0xFFE).hif.linkUp = true ∧ ((h 0xFFE).fn 0).mse = true ∧ (h 0xFFE).acu.tagCsr.get 0xFFF (17 * 256) = 0xFFE ∧
      secureReg (h 0xFFE).dmaSecure 17 0 = false) ∧ (h 0xFFF).acu.tagCsr.get 0xFFF (17 * 256) ≠ 0xFFE ∧
    p.barOpen 1024 = false ∧ (q.barOpen 1024 = true ∧ q.barOpen 0 = true ∧ q.qpGlobal 0 63 = some 63 ∧ 0x200 + 8 * 63 < 0x4000 ∧
      4 * (Part.vectorCount 1024 - 1) + 2 < 0x4000 ∧ 0 < Part.vectorCount 1024) ∧
    (0xFFFC + 4 ≤ 0x10000 ∧ ¬ 0xFFFD + 4 ≤ 0x10000 ∧ 4096 < 4093 + 4 ∧ (0x51FFFFC#28).toNat < 0x5200000 ∧ (0x51FFFFC#28).toNat % 4 = 0 ∧
      (h 0xFFE).barOpen 0 = true ∧ (h 0xFFF).acu.tagCsr.get 0xFFF (0x1100000 / 4096) ≠ 0xFFE ∧
      (h 0xFFE).acu.tagCsr.get 0xFFF (0x1100000 / 4096) = 0xFFE ∧ leBytes 4 0x12345678 = [0x78, 0x56, 0x34, 0x12]) ∧
    (p.tnt.states.get 0 1024 = 0 ∧ q.tnt.states.get 0 1024 ≠ 0) := by
  and_intros <;> decide +kernel

namespace WDmaTransfersAreCheckedWholeAndMove
def p := State.reset.part
def d := fun (g : Dma → Dma) (t : BitVec 12) => (on fun p => ((serving p).modSys fun y => { y with dma := y.dma.set {} 63 (g {}) }).modAcu fun u =>
  { u with dmaWorld := 0x8000000000000000, dmaColour := u.dmaColour.set 0xFFF 63 t }).part
def ob : BitVec 64 := 0x20000FFC
def up := fun (g : Dma → Dma) => d (fun x => g { x with src := ob, dst := 0x1000, len := 4, dstHost := true }) 0xFFE
def run := fun (sh dh : Bool) (s t : BitVec 64) => d (fun x => { x with busy := true, run := some { src := s, dst := t, len := 4, srcHost := sh, dstHost := dh } }) 0xFFE
end WDmaTransfersAreCheckedWholeAndMove

open WDmaTransfersAreCheckedWholeAndMove in
theorem witness_DmaTransfersAreCheckedWholeAndMove :
    1 ≤ 4096 ∧ p.colourCheck .ob 0 4096 0xFFE false ≠ none ∧ (on serving).part.colourCheck .ob 0 4096 0xFFE false = none ∧
    (0x1000001#25).toNat = 0x1000000 + 1 ∧ ((up id).dma 63).busy = false ∧ ((up fun x => { x with busy := true }).dma 63).busy = true ∧
    ((up fun x => { x with srcHost := true }).dma 63).srcHost = true ∧ 2 ^ 64 < (0xFFFFFFFFFFFFFFFD#64).toNat + 4 ∧
    (spaceOf (up id).sys.handed false ob.toNat 4 = (.ob, 0xFFC) ∧ (spaceOf false false 0x10000000 4).1 = .cc ∧ (spaceOf false false 0x40000000 4).1 = .es) ∧
    (((up id).fn 0).bme = true ∧ (p.fn 0).bme = false) ∧
    ((up id).colourCheck .ob 0xFFC 4 ((up id).acu.dmaColour.get 0xFFF 63) true = none ∧
      (d id 0x400).colourCheck .ob 0xFFC 4 ((d id 0x400).acu.dmaColour.get 0xFFF 63) true ≠ none) ∧
    (bitAt (up id).acu.dmaWorld 63 = true ∧ (up id).acu.sfault.length < 16) ∧ ((up id).dma 63).run = none ∧
    (((run true false 0x1000 ob).dma 63).run = some { src := 0x1000, dst := ob, len := 4, srcHost := true, dstHost := false } ∧
      spaceOf (run true false 0x1000 ob).sys.handed false ob.toNat 4 = (.ob, 0xFFC) ∧ ((run true false 0x1000 ob).fn 0).bme = true ∧
      ([0, 0, 0, 0] : List Byte).length = 4 ∧ spaceOf false false ob.toNat 3 = (.ob, 0xFFC)) ∧
    (0xFF8 + 4 ≤ 0xFFC ∧ spaceOf false false 0x20000FF8 4 = (.ob, 0xFF8)) := by
  and_intros <;> decide +kernel

namespace WTestAccessPortAndDebugPort
def p := State.reset.part
def d := fun (g : Dbg → Dbg) => (on fun p => { p with dbg := g p.dbg }).part
def port := d fun x => { x with attached := true, granted := 0x3FF }
def regs := { port with acu := { port.acu with eff := [(160, { base := 0x20000, limit := 0x21FFF, perm := 0x11B })] } }
def ctl := fun (r : RunState) => { port with cores := port.cores.set {} 3 { run := r } }
def open' := (on (Part.modSys fun y => { y with fuses := { y.fuses with lcWord := 0 } })).part
end WTestAccessPortAndDebugPort

open WTestAccessPortAndDebugPort in
theorem witness_TestAccessPortAndDebugPort :
    p.dbg.tokenReady = false ∧ (d fun x => { x with tokenWords := 2047 }).dbg.tokenWords = 2047 ∧ p.dbg.tokenWords ≠ 2047 ∧
    ((0x10 : Byte) ≠ 0x11 ∧ (d fun x => { x with tokenWords := 1 }).dbg.tokenWords ≠ 0) ∧
    (bitAt p.reach 4 = false ∧ bitAt port.reach 4 = true ∧ bitAt port.reach 5 = true) ∧ spaceOf port.sys.handed false 0x21FFFFFC 4 = (.ob, 0x1FFFFFC) ∧
    (regs.regionCheck 5 false true kRead 0x21FFFFFC 4 = none ∧ regs.regionCheck 5 false true kWrite 0x21FFFFFC 4 = none ∧
      port.regionCheck 5 false true kRead 0x21FFFFFC 4 ≠ none ∧ port.regionCheck 5 false true kWrite 0x21FFFFFC 4 ≠ none) ∧
    (bitAt port.reach 0 = true ∧ bitAt p.reach 0 = false ∧ port.dbg.attached = true ∧ bitAt port.reach 1 = true) ∧
    (((ctl .running).core 3).run = .running ∧ ((ctl .halted).core 3).run = .halted) ∧
    (bitAt p.reach 6 = false ∧ bitAt port.reach 6 = true ∧ bitAt port.reach 7 = true ∧
      (on (celled 31 (keySlot 0xFFF 1 0x11 0))).part.slc.ready = true) ∧
    (p.dbg.scanOn = false ∧ (d fun x => { x with scanOn := true }).dbg.scanOn = true ∧ bitAt p.reach 8 = false ∧ bitAt open'.reach 8 = true ∧
      bitAt port.reach 8 = true ∧ p.sys.fuses.scanDisable = false ∧ bitAt port.dbg.granted 8 = true ∧ bitAt open'.dbg.granted 8 = false ∧
      port.tmp.applied.toNat < 3) := by
  and_intros <;> decide +kernel

namespace WGrantsAndSecondDecisions
def p := State.reset.part
def g := fun (x : Dbg) (l : List Decision) => (on fun p => { p with dbg := x, tmp := { p.tmp with due := l } }).part
def may := g { maskStage := 0x053, durStage := 86400, pendGrant := some (0x053, 86400) } [.debugUnlock true]
def no := g { maskStage := 0x053, durStage := 86401, pendGrant := some (0x053, 86401) } [.debugUnlock false]
def w := ported 0x01 [(0, 0x1FFF), (1, 0x03000000)] fun c => { c with slots := [] }
def q := (paired { gateEn := true, sync := 4, line := 1, seenPartner := true }).modSys fun y => { y with mode := .standby }
def lc := (g {} [.lifeCycle 3 true]).modSys fun y => { y with mode := .service, fuses := { y.fuses with rootOk := true } }
def m := (sessioned { active := true, cls := 0 } 2 0 false).modSys fun y => { y with cerActive := true }
end WGrantsAndSecondDecisions

open WGrantsAndSecondDecisions in
theorem witness_GrantsAndSecondDecisions :
    p.dbg.granted = 0 ∧ (g { granted := 0x053, remain := 1 } []).dbg.granted ≠ 0 ∧ (p.dbg.remain = 0 ∧ (g { granted := 0x053, remain := 1 } []).dbg.remain ≠ 0) ∧
    (p.life = .provisioned ∧ (∀ k < 10, bitAt (0x053#10) k = true → (k = 0 ∨ k = 1 ∨ k = 4 ∨ k = 6)) ∧ (86400#17).toNat ≤ 86400 ∧
      ¬ (86401#17).toNat ≤ 86400 ∧ p.bat.scrapDue = false) ∧
    (may.tmp.due[0]? = some (.debugUnlock true) ∧ no.tmp.due[0]? = some (.debugUnlock false) ∧ p.tmp.due[15]? = none) ∧
    (may.dbg.pendGrant = some (0x053, 86400) ∧ no.dbg.pendGrant = some (0x053, 86401)) ∧
    (w.tmp.due[0]? = some (.securePort 0x01 0) ∧ w.portCheck 0x01 = 0 ∧ (ported 0x01 [] id).portCheck 0x01 ≠ 0) ∧
    (lc.tmp.due[0]? = some (.lifeCycle 3 true) ∧ lc.lcOk 3 = true ∧ p.lcOk 3 = false) ∧
    (m.sys.cerActive = true ∧ 0 < (m.nvm.charter.ceremonies.getD m.sys.cerClass.toNat (0, 0)).2.toNat ∧
      (m.nvm.charter.ceremonies.getD m.sys.cerClass.toNat (0, 0)).2.toNat ≤ m.sys.cerCount.toNat ∧ p.sys.cerActive = false ∧
      (g {} [.quorum true]).tmp.due[0]? = some (.quorum true)) ∧
    (q.claimOk = true ∧ p.claimOk = false ∧ (g {} [.gateClaim true]).tmp.due[0]? = some (.gateClaim true) ∧
      (g {} [.zeroise]).tmp.due[0]? = some .zeroise) := by
  and_intros <;> decide +kernel

end Sys2Proof.Tests
end

section
/-! SUPPORT. A step with no command waiting: what a tick of calendar time and a whole second do (log entries 25 and 170). -/

open Sys2Proof.Machine

namespace Sys2Proof.CalendarTick

/-- A calendar time as a number of units of 1/65,536 s. -/
theorem append_toNat (secs : BitVec 64) (frac : BitVec 16) :
    (secs ++ frac : BitVec 80).toNat = secs.toNat * 65536 + frac.toNat := by
  have parts := BitVec.toNat_append secs frac
  rw [← Nat.shiftLeft_add_eq_or_of_lt frac.isLt, Nat.shiftLeft_eq] at parts
  exact parts

/-- Seconds and fraction count as one 80-bit number: the fraction carries into the seconds when it wraps. -/
theorem append_carry (secs : BitVec 64) (frac : BitVec 16) :
    (if frac = 0xFFFF#16 then secs + 1 else secs) ++ (frac + 1) = (secs ++ frac) + 1#80 := by
  apply BitVec.eq_of_toNat_eq
  rw [BitVec.toNat_add, append_toNat, append_toNat]
  split
  case isTrue wraps =>
    subst wraps
    bv_omega
  case isFalse => bv_omega

/-- A whole second draws one free value for DSP_AUTH_P999 and counts a running REMAIN down (R668). -/
theorem second_eq (p : Part) :
    p.second = { p with
      free := p.free + 1
      dsp := { p.dsp with p999 := (Config.freeWord p.free).setWidth 16 }
      dbg := { p.dbg with remain := if p.dbg.remain ≠ 0 then p.dbg.remain - 1 else p.dbg.remain } } := by
  by_cases expired : p.dbg.remain = 0#17
  · have same : { p.dbg with remain := 0#17 } = p.dbg := by rw [← expired]
    simp [Part.second, Part.draw, Part.modDsp, expired, same]
  · simp [Part.second, Part.draw, Part.when, Part.modDsp, Part.modDbg, expired]

theorem tick_of_frac_ne {p : Part} (h : p.bat.frac ≠ 0xFFFF#16) :
    p.tick = { p with bat := { p.bat with frac := p.bat.frac + 1 } } := by
  rw [Part.tick, beq_false_of_ne h, Part.when_false, Part.modBat, if_neg h]

theorem tick_of_frac_eq {p : Part} (h : p.bat.frac = 0xFFFF#16) :
    p.tick = Part.second { p with bat := { p.bat with frac := p.bat.frac + 1, secs := p.bat.secs + 1 } } := by
  rw [Part.tick, beq_iff_eq.mpr h, Part.when_true, Part.modBat, if_pos h]

theorem step_of_idle {s : State} (idle : s.pending = []) : step s = .next { s with part := s.part.tick } := by
  simp [step, idle, onPart]

theorem tick_now (p : Part) : p.tick.now = p.now + 1#80 := by
  simp only [Part.now, ← append_carry]
  by_cases h : p.bat.frac = 0xFFFF#16
  · simp [tick_of_frac_eq h, second_eq, h]
  · simp [tick_of_frac_ne h, h]

theorem tick_remain (p : Part) :
    p.tick.dbg.remain =
      if p.bat.frac = 0xFFFF#16 ∧ p.dbg.remain ≠ 0 then p.dbg.remain - 1 else p.dbg.remain := by
  by_cases h : p.bat.frac = 0xFFFF#16
  · simp [tick_of_frac_eq h, second_eq, h]
  · simp [tick_of_frac_ne h, h]

/-- Within a second no free value is drawn, and DSP_AUTH_P999 stands. -/
theorem tick_draws_nothing {p : Part} (h : p.bat.frac ≠ 0xFFFF#16) :
    p.tick.dsp.p999 = p.dsp.p999 ∧ p.tick.free = p.free := by
  rw [tick_of_frac_ne h]
  exact ⟨rfl, rfl⟩

/-- All of the part that a tick can change. -/
theorem tick_frame (p : Part) :
    p.tick = { p with
      bat := { p.bat with secs := p.tick.bat.secs, frac := p.tick.bat.frac }
      dbg := { p.dbg with remain := p.tick.dbg.remain }
      dsp := { p.dsp with p999 := p.tick.dsp.p999 }
      free := p.tick.free } := by
  by_cases h : p.bat.frac = 0xFFFF#16
  · simp only [tick_of_frac_eq h, second_eq]
  · simp only [tick_of_frac_ne h]

/-- Settles O2: the queue is empty, so the step is one tick, which crosses a whole second or does not. -/
theorem idleStepTicksCalendar : Obligations.IdleStepTicksCalendar := by
  intro s idle
  exact ⟨_, step_of_idle idle, tick_now s.part, tick_remain s.part, tick_draws_nothing,
    congrArg (fun q => { s with part := q }) (tick_frame s.part)⟩

end Sys2Proof.CalendarTick
end

section
/-! SUPPORT. What the messages of the host link change: the PBA bits of the functions and what the part has issued, and nothing
else (R56 to R58, R71, R73). -/

namespace Sys2Proof.Safety

open Sys2Proof.Machine

/-- A relation that a fold's step keeps from part to part relates its ends. -/
theorem foldl_keeps {α : Type} {R : Part → Part → Prop} (refl : ∀ p, R p p) (trans : ∀ {p q r}, R p q → R q r → R p r)
    {f : Part → α → Part} (l : List α) (h : ∀ p, ∀ a ∈ l, R p (f p a)) (p : Part) : R p (l.foldl f p) := by
  induction l generalizing p with
  | nil => exact refl p
  | cons a l ih => exact trans (h p a (by simp)) (ih (fun p b hb => h p b (by simp [hb])) _)

theorem when_keeps {R : Part → Part → Prop} (refl : ∀ p, R p p) {b : Bool} {g : Part → Part} (p : Part) (h : b = true → R p (g p)) :
    R p (p.when b g) := by
  cases b with
  | false => exact refl p
  | true => exact h rfl

/-- A command that only changes the part leaves it as its effect says. -/
theorem Yields.of_onPart {i : Instr} {s : State} {g : Part → Part} {q : Part} (arm : exec i s = onPart g s) (effect : g s.part = q) :
    Yields i s q := by
  rw [Yields, arm, onPart, effect]

/-! ### Functions of the host link -/

@[simp] theorem fn_modFn_self (p : Part) (n : Nat) (g : Func → Func) : (p.modFn n g).fn n = g (p.fn n) := Tab.get_upd_self ..

theorem fn_modFn_other (p : Part) {n m : Nat} (g : Func → Func) (h : m ≠ n) : (p.modFn n g).fn m = p.fn m :=
  Tab.get_upd_other _ _ _ _ _ h

theorem fn_modFn (p : Part) (n m : Nat) (g : Func → Func) : (p.modFn n g).fn m = if m = n then g (p.fn n) else p.fn m :=
  Tab.get_upd ..

/-- Between `p` and `q` the part has issued messages on the host link, and set or cleared PBA bits; nothing else has changed. -/
structure Signalled (p q : Part) : Prop where
  rest    : q = { p with hif := { p.hif with funcs := q.hif.funcs, out := q.hif.out } }
  func    : ∀ n, q.fn n = { p.fn n with vectors := (q.fn n).vectors }
  vectors : ∀ n v, (q.fn n).vectors.get {} v = { (p.fn n).vectors.get {} v with pending := ((q.fn n).vectors.get {} v).pending }
  issued  : p.hif.out <+: q.hif.out

theorem Signalled.refl (p : Part) : Signalled p p := ⟨rfl, fun _ => rfl, fun _ _ => rfl, List.prefix_rfl⟩

theorem Signalled.trans {p q r : Part} (h : Signalled p q) (k : Signalled q r) : Signalled p r where
  rest := by rw [k.rest, h.rest]
  func n := by rw [k.func, h.func]
  vectors n v := by rw [k.vectors, h.vectors]
  issued := h.issued.trans k.issued

theorem Signalled.onlyLink {p q : Part} (h : Signalled p q) : q = { p with hif := q.hif } := by rw [h.rest]

theorem Signalled.bme {p q : Part} (h : Signalled p q) (n : Nat) : (q.fn n).bme = (p.fn n).bme := by rw [h.func]
theorem Signalled.tdi {p q : Part} (h : Signalled p q) (n : Nat) : (q.fn n).tdi = (p.fn n).tdi := by rw [h.func]
theorem Signalled.cfg {p q : Part} (h : Signalled p q) (n : Nat) : (q.fn n).cfg = (p.fn n).cfg := by rw [h.func]
theorem Signalled.d3hot {p q : Part} (h : Signalled p q) (n : Nat) : (q.fn n).d3hot = (p.fn n).d3hot := by rw [h.func]
theorem Signalled.draining {p q : Part} (h : Signalled p q) (n : Nat) : (q.fn n).draining = (p.fn n).draining := by rw [h.func]
theorem Signalled.wedged {p q : Part} (h : Signalled p q) (n : Nat) : (q.fn n).wedged = (p.fn n).wedged := by rw [h.func]
theorem Signalled.masked {p q : Part} (h : Signalled p q) (n v : Nat) :
    ((q.fn n).vectors.get {} v).masked = ((p.fn n).vectors.get {} v).masked := by rw [h.vectors]

theorem issue_signalled (m : HostMsg) (p : Part) : Signalled p (p.issue m) :=
  ⟨rfl, fun _ => rfl, fun _ _ => rfl, List.prefix_append ..⟩

/-- The PBA bit of a vector written. -/
theorem setPending_signalled (p : Part) (n v : Nat) (b : Bool) :
    Signalled p (p.modFn n fun f => { f with vectors := f.vectors.upd {} v fun x => { x with pending := b } }) := by
  refine ⟨rfl, fun m => ?_, fun m w => ?_, List.prefix_rfl⟩ <;> by_cases hm : m = n
  · subst hm; simp
  · rw [fn_modFn_other _ _ hm]
  · subst hm
    rw [fn_modFn_self, Tab.get_upd]
    split
    · next hw => subst hw; rfl
    · rfl
  · rw [fn_modFn_other _ _ hm]

theorem signal_signalled (n v : Nat) (p : Part) : Signalled p (p.signal n v) := by
  simp only [Part.signal]
  split
  · exact .refl p
  · split
    · exact setPending_signalled p n v true
    · exact issue_signalled _ p

/-- An event on an unmasked vector of a function that drains nothing and may send is one message (R58, R73). -/
theorem signal_sends {p : Part} {n v : Nat} (drain : (p.fn n).draining = false)
    (mask : ((p.fn n).vectors.get {} v).masked = false) (fnMask : (p.fn n).fnMask = false) (post : p.mayPost n = true) :
    p.signal n v = p.issue (.msix n v ((p.fn n).vectors.get {} v).addr ((p.fn n).vectors.get {} v).data) := by
  simp only [Part.signal, drain, mask, fnMask, post, Bool.or_self, Bool.not_true, Bool.false_eq_true, if_false]

/-- One vector released: its message sent and its PBA bit cleared. -/
def releaseOne (n : Nat) (p : Part) (x : Nat × Vector) : Part :=
  (p.modFn n fun f => { f with vectors := f.vectors.upd {} x.1 fun y => { y with pending := false } }).issue
    (.msix n x.1 x.2.addr x.2.data)

theorem releaseVectors_eq (n : Nat) (p : Part) : p.releaseVectors n =
    if (p.fn n).draining || (p.fn n).fnMask || !p.mayPost n then p
    else ((p.fn n).vectors.filter fun x => x.2.pending && !x.2.masked).foldl (releaseOne n) p := rfl

theorem releaseOne_signalled (n : Nat) (p : Part) (x : Nat × Vector) : Signalled p (releaseOne n p x) :=
  (setPending_signalled p n x.1 false).trans (issue_signalled _ _)

theorem releaseVectors_signalled (n : Nat) (p : Part) : Signalled p (p.releaseVectors n) := by
  rw [releaseVectors_eq]
  split
  · exact .refl p
  · exact foldl_keeps .refl .trans _ (fun p x _ => releaseOne_signalled n p x) p

theorem releaseOne_pending (n v : Nat) (p : Part) (x : Nat × Vector) :
    (((releaseOne n p x).fn n).vectors.get {} v).pending = if v = x.1 then false else ((p.fn n).vectors.get {} v).pending := by
  have cleared := fn_modFn_self p n fun f => { f with vectors := f.vectors.upd {} x.1 fun y => { y with pending := false } }
  rw [releaseOne, Part.issue, Part.fn, Part.modHif_hif, ← Part.fn, cleared, Tab.get_upd]
  split
  · next hv => subst hv; rfl
  · rfl

/-- No release sets a PBA bit. -/
theorem releaseAll_keeps_clear (n v : Nat) (l : List (Nat × Vector)) (p : Part) (h : ((p.fn n).vectors.get {} v).pending = false) :
    (((l.foldl (releaseOne n) p).fn n).vectors.get {} v).pending = false := by
  refine foldl_keeps (R := fun p q => ((p.fn n).vectors.get {} v).pending = false → ((q.fn n).vectors.get {} v).pending = false)
    (fun _ h => h) (fun h k x => k (h x)) l (fun p x _ hp => ?_) p h
  rw [releaseOne_pending, hp, ite_self]

/-- Every vector listed is sent, and its PBA bit cleared. -/
theorem releaseAll_sends (n : Nat) (l : List (Nat × Vector)) (p : Part) (x : Nat × Vector) (hx : x ∈ l) :
    HostMsg.msix n x.1 x.2.addr x.2.data ∈ (l.foldl (releaseOne n) p).hif.out ∧
      (((l.foldl (releaseOne n) p).fn n).vectors.get {} x.1).pending = false := by
  induction l generalizing p with
  | nil => cases hx
  | cons y l ih =>
    rcases List.mem_cons.1 hx with rfl | hx
    · have sent : HostMsg.msix n x.1 x.2.addr x.2.data ∈ (releaseOne n p x).hif.out := by simp [releaseOne, Part.issue]
      have rest : Signalled (releaseOne n p x) (l.foldl (releaseOne n) (releaseOne n p x)) :=
        foldl_keeps .refl .trans _ (fun p x _ => releaseOne_signalled n p x) _
      refine ⟨rest.issued.subset sent, releaseAll_keeps_clear n x.1 l _ ?_⟩
      rw [releaseOne_pending, if_pos rfl]
    · exact ih _ hx

/-- An entry that is not the default is listed. -/
theorem listed_of_get_ne {α : Type} {d v : α} {t : Tab α} {i : Nat} (h : t.get d i = v) (hv : v ≠ d) : (i, v) ∈ t := by
  induction t with
  | nil => exact absurd h.symm hv
  | cons y t ih =>
    obtain ⟨k, w⟩ := y
    rw [Tab.get] at h
    split at h
    · next hi => subst hi; subst h; exact List.mem_cons_self ..
    · exact List.mem_cons_of_mem _ (ih h)

/-- An unmasked vector whose PBA bit is set is sent where the function may (R58, R73). -/
theorem releaseVectors_sends {p : Part} {n v : Nat} {x : Vector} (hx : (p.fn n).vectors.get {} v = x) (pend : x.pending = true)
    (open' : x.masked = false) (drain : (p.fn n).draining = false) (fnMask : (p.fn n).fnMask = false) (post : p.mayPost n = true) :
    HostMsg.msix n v x.addr x.data ∈ (p.releaseVectors n).hif.out ∧
      (((p.releaseVectors n).fn n).vectors.get {} v).pending = false := by
  have listed : (v, x) ∈ (p.fn n).vectors := listed_of_get_ne hx fun e => by simp [e] at pend
  rw [releaseVectors_eq, if_neg (by simp [drain, fnMask, post])]
  exact releaseAll_sends n _ p (v, x) (by simp [listed, pend, open'])

/-- A change whose effect on FUNC_STATUS is signalled. -/
theorem funcWatch_signalled (g : Part → Part) (p : Part) : Signalled (g p) (p.funcWatch g) := by
  unfold Part.funcWatch
  refine foldl_keeps .refl .trans _ (fun q n _ => ?_) _
  split
  · exact .refl q
  · exact signal_signalled n 0 q

end Sys2Proof.Safety
end

section
/-! SUPPORT. Full resets: what of the state before them a restart keeps, what the first steps of WAKE change of it, and the statement
on them (R68, R499, R502, R706). -/

namespace Sys2Proof.Safety

open Sys2Proof.Machine

theorem Recorded.bat {p q : Part} (h : Recorded p q) : q.bat = { p.bat with evidN := q.bat.evidN, evidH := q.bat.evidH } := by rw [h]

/-- Between `p` and `q` a start of the part has gone on: the pins sampled, the battery domain read and its log copied, records posted
(R502, R605). -/
def Started (p q : Part) : Prop :=
  q = { p with
    sys := { p.sys with quarBackup := q.sys.quarBackup, porStart := q.sys.porStart, unitSel := q.sys.unitSel, resetLow := q.sys.resetLow }
    nvm := { p.nvm with xspi := q.nvm.xspi }
    evr := q.evr
    bat := { p.bat with batPor := q.bat.batPor, blog := q.bat.blog, overrun := q.bat.overrun, evidN := q.bat.evidN, evidH := q.bat.evidH } }

theorem Started.refl (p : Part) : Started p p := rfl

theorem Started.trans {p q r : Part} (h : Started p q) (k : Started q r) : Started p r := by
  unfold Started at *
  rw [k, h]

theorem Recorded.started {p q : Part} (h : Recorded p q) : Started p q := by
  unfold Started
  rw [h]

theorem blogCopy_started (p : Part) : Started p p.blogCopy := by
  have copied : ∀ (q : Part) (b : BlogRec), Started q (if b.folded then q else (q.chainExtend (Part.blogBytes b)).modEvr fun e =>
      e.submit { b.item with battery := true, aux := b.seq }) := by
    intro q b
    split
    · exact .refl q
    · exact rfl
  exact (foldl_keeps .refl .trans p.bat.blog (fun q b _ => copied q b) p).trans rfl

theorem wakeBegin_started (p : Part) : Started p p.wakeBegin :=
  have sampled : Started p ((p.modSys fun s => { s with quarBackup := p.bat.backupLatch, porStart := p.bat.batPor }).modBat fun b =>
    { b with batPor := false }) := rfl
  ((sampled.trans (blogCopy_started _)).trans (Recorded.post ..).started).trans (Recorded.post ..).started

/-- Between `p` and `q` a grant has ended: the debug block, the cores, SCRAP_DUE, and what a record changes (R668, R672). -/
def GrantEnded (p q : Part) : Prop :=
  q = { p with dbg := q.dbg, cores := q.cores, evr := q.evr
               bat := { p.bat with scrapDue := q.bat.scrapDue, evidN := q.bat.evidN, evidH := q.bat.evidH } }

theorem GrantEnded.recorded {p q r : Part} (h : GrantEnded p q) (k : Recorded q r) : GrantEnded p r := by
  unfold GrantEnded Recorded at *
  rw [k, h]

theorem endGrant_ended (c : Word) (p : Part) : GrantEnded p (p.endGrant c) := by
  rw [Part.endGrant]
  split
  · exact rfl
  · exact .recorded (by exact rfl) (Recorded.post ..)

/-- All that a restart takes over from the part before it (R68, R349, R565, R657). -/
theorem restart_eq (cause : Nat) (held : Bool) (f : Fuses) (p : Part) : p.restart cause held f =
    { Part.reset with
      sys := { fuses := f, unitSel := p.sys.unitSel }
      aon := { p.aon with resetCause := BitVec.ofNat 7 (2 ^ cause), isolated := 0, isoCause := [] }
      bat := { p.bat with scrapDue := (p.endGrant 4).bat.scrapDue, evidN := (p.endGrant 4).bat.evidN, evidH := (p.endGrant 4).bat.evidH }
      nvm := { flash := p.nvm.flash, density := p.nvm.density, ctrTab := p.nvm.ctrTab }
      tmp := { meshSeed := p.bat.pattern }
      hif := { out := p.hif.out }
      free := p.free
      cores := if held then [(4, { Core.secureReset with run := .held })] else Part.reset.cores } := by
  rw [Part.restart, endGrant_ended 4 p]
  rfl

/-- Part `q` has restarted in WAKE from `p` with fuse banks `f`, for the cause of bit `cause`: every block at its values after reset, but
for what R68 keeps. -/
def Restarted (f : Fuses) (p : Part) (cause : Nat) (q : Part) : Prop :=
  q.acu = {} ∧ q.wpu = Part.reset.wpu ∧ q.dsp = {} ∧ q.seq = {} ∧ q.pan = {} ∧ q.rke = {} ∧ q.slc = {} ∧ q.ent = {} ∧
    q.tnt = {} ∧ q.mir = {} ∧ q.tmp = { meshSeed := p.bat.pattern } ∧ q.dbg = {} ∧ q.priv = [] ∧ q.ccMem = [] ∧ q.opBuf = [] ∧
    q.sys.mode = .wake ∧ q.sys.fuses = f ∧ q.nvm.flash = p.nvm.flash ∧ q.nvm.ctrTab = p.nvm.ctrTab ∧ q.bat.secs = p.bat.secs ∧
    q.bat.frac = p.bat.frac ∧ q.bat.vault = p.bat.vault ∧ q.bat.backupLatch = p.bat.backupLatch ∧
    q.aon.resetCause = BitVec.ofNat 7 (2 ^ cause)

theorem restarted_of_started {f : Fuses} {p q : Part} {cause : Nat} {held : Bool} (h : Started (p.restart cause held f) q) :
    Restarted f p cause q := by
  rw [restart_eq] at h
  rw [h]
  and_intros <;> rfl

/-- What a restart leaves of the cores, the AON domain, the reset pin and the link. -/
theorem started_kept {f : Fuses} {p q : Part} {cause : Nat} {held : Bool} (h : Started (p.restart cause held f) q) :
    q.core 4 = (if held then { Core.secureReset with run := .held } else Core.secureReset) ∧ q.aon.failedA = p.aon.failedA ∧
      q.aon.failedB = p.aon.failedB ∧ q.bat.onCell = p.bat.onCell ∧ q.hif = { out := p.hif.out } := by
  rw [restart_eq] at h
  rw [h]
  cases held <;> exact ⟨rfl, rfl, rfl, rfl, rfl⟩

theorem fullReset_started (cause : Nat) (f : Fuses) (p : Part) : Started (p.restart cause false f) (p.fullReset cause f) :=
  wakeBegin_started _

theorem blogCopy_sys (p : Part) : p.blogCopy.sys = p.sys := by
  refine foldl_keeps (R := fun p q => q.sys = p.sys) (fun _ => rfl) (fun h k => k.trans h) p.bat.blog (fun q b _ => ?_) p
  split <;> rfl

/-- WAKE begins with the pins as they have been sampled. -/
theorem wakeBegin_pins (p : Part) : p.wakeBegin.sys.unitSel = p.sys.unitSel ∧ p.wakeBegin.sys.resetLow = p.sys.resetLow := by
  simp only [Part.wakeBegin, post_sys, blogCopy_sys]
  exact ⟨rfl, rfl⟩

theorem restart_pins (cause : Nat) (held : Bool) (f : Fuses) (p : Part) :
    (p.restart cause held f).sys.unitSel = p.sys.unitSel ∧ (p.restart cause held f).sys.resetLow = false := by
  rw [restart_eq]
  exact ⟨rfl, rfl⟩

/-- The part as main power finds it: the AON domain lost or kept, the battery domain off the cell (R499). -/
def powered (lost : Bool) (p : Part) : Part := { p with aon := if lost then {} else p.aon, bat := { p.bat with onCell := false } }

theorem powerGood_started (lost unit : Bool) (f : Fuses) (p : Part) :
    Started ((powered lost p).restart (if lost then 0 else 5) false f) (p.powerGood lost unit f) :=
  Started.trans (by exact rfl) (wakeBegin_started _)

/-- Settles O11: each of the three is a restart, after which only the start's own steps follow. -/
theorem fullResetRestartsThePartInWake : Obligations.FullResetRestartsThePartInWake := by
  intro s k lost unit
  refine ⟨?full, ?power, ?low⟩
  case full =>
    have start := fullReset_started k s.fuses s.part
    obtain ⟨core, failedA, failedB, -, -⟩ := started_kept start
    obtain ⟨unitSel, resetLow⟩ := wakeBegin_pins (s.part.restart k false s.fuses)
    obtain ⟨unitSel', resetLow'⟩ := restart_pins k false s.fuses s.part
    exact ⟨_, rfl, restarted_of_started start, core, failedA, failedB, unitSel.trans unitSel', resetLow.trans resetLow'⟩
  case power =>
    have start := powerGood_started lost unit s.fuses s.part
    obtain ⟨core, failedA, failedB, cell, -⟩ := started_kept start
    have afresh := restarted_of_started start
    refine ⟨_, rfl, afresh, core, (wakeBegin_pins _).1, cell, fun h => ?_⟩
    subst h
    exact ⟨failedA, failedB⟩
  case low =>
    have start : Started (s.part.restart 1 true s.fuses) (s.part.resetLow s.fuses) := rfl
    exact ⟨_, rfl, restarted_of_started start, rfl, rfl, (started_kept start).1⟩

end Sys2Proof.Safety
end

section
/-! SUPPORT. The configuration of functions: what each write of configuration space leaves, interfaces that enter ERROR, and training;
and the statement on them (R31, R38 to R47, R58, R66, R73). -/

namespace Sys2Proof.Safety

open Sys2Proof.Machine

/-- Between `p` and `q` nothing outside the host link has changed. -/
def LinkOnly (p q : Part) : Prop := q = { p with hif := q.hif }

theorem LinkOnly.trans {p q r : Part} (h : LinkOnly p q) (k : LinkOnly q r) : LinkOnly p r := by
  unfold LinkOnly at *
  rw [k, h]

theorem modHif_linkOnly (p : Part) (g : Hif → Hif) : LinkOnly p (p.modHif g) := rfl
theorem modFn_linkOnly (p : Part) (n : Nat) (g : Func → Func) : LinkOnly p (p.modFn n g) := rfl

theorem Signalled.linkOnly {p q : Part} (h : Signalled p q) : LinkOnly p q := h.onlyLink

/-- A change of the link block whose effect on FUNC_STATUS is signalled changes no other block. -/
theorem funcWatch_linkOnly {g : Part → Part} {p : Part} (h : LinkOnly p (g p)) : LinkOnly p (p.funcWatch g) :=
  h.trans (funcWatch_signalled g p).linkOnly

/-- Function `n` once R66 has put its interface in ERROR, where `sel` picks it and it stands in CONFIG_LOCKED or RUN. -/
def errorFunc (sel : Nat → Bool) (n : Nat) (f : Func) : Func :=
  if sel n && (f.tdi == .locked || f.tdi == .run) then { f with tdi := .error } else f

/-- The part with the interfaces that `sel` picks so. -/
def inError (sel : Nat → Bool) (p : Part) : Part := p.modHif fun h => { h with funcs := h.funcs.mapV {} (errorFunc sel) }

theorem tdiError_signalled (sel : Nat → Bool) (p : Part) : Signalled (inError sel p) (p.tdiError sel) :=
  funcWatch_signalled (inError sel) p

theorem tdiError_linkOnly (sel : Nat → Bool) (p : Part) : LinkOnly p (p.tdiError sel) :=
  (modHif_linkOnly p _).trans (tdiError_signalled sel p).linkOnly

theorem fn_inError (sel : Nat → Bool) (p : Part) (n : Nat) : (inError sel p).fn n = errorFunc sel n (p.fn n) :=
  Tab.get_mapV ({} : Func) (errorFunc sel) p.hif.funcs n (by simp [errorFunc])

/-- An interface that R66 puts in ERROR is in no state but ERROR and CONFIG_UNLOCKED; another keeps its state. -/
theorem tdi_tdiError (sel : Nat → Bool) (p : Part) (n : Nat) : ((p.tdiError sel).fn n).tdi =
    if sel n = true ∧ ((p.fn n).tdi = .locked ∨ (p.fn n).tdi = .run) then .error else (p.fn n).tdi := by
  rw [(tdiError_signalled sel p).tdi, fn_inError, errorFunc]
  by_cases h : sel n = true ∧ ((p.fn n).tdi = .locked ∨ (p.fn n).tdi = .run)
  · rw [if_pos (by simpa using h), if_pos h]
  · rw [if_neg (by simpa using h), if_neg h]

theorem tdiError_func (sel : Nat → Bool) (p : Part) (n : Nat) :
    ((p.tdiError sel).fn n).cfg = (p.fn n).cfg ∧ ((p.tdiError sel).fn n).bme = (p.fn n).bme := by
  rw [(tdiError_signalled sel p).cfg, (tdiError_signalled sel p).bme, fn_inError, errorFunc]
  split <;> exact ⟨rfl, rfl⟩

/-! ### Configuration writes -/

/-- Between `p` and `q` the link block has changed, but no configuration dword, Bus Master Enable or bus number. -/
structure ConfigKept (p q : Part) : Prop where
  link : LinkOnly p q
  cfg  : ∀ n, (q.fn n).cfg = (p.fn n).cfg
  bme  : ∀ n, (q.fn n).bme = (p.fn n).bme
  bus  : q.hif.bus = p.hif.bus

theorem ConfigKept.refl (p : Part) : ConfigKept p p := ⟨rfl, fun _ => rfl, fun _ => rfl, rfl⟩

theorem ConfigKept.trans {p q r : Part} (h : ConfigKept p q) (k : ConfigKept q r) : ConfigKept p r :=
  ⟨h.link.trans k.link, fun n => (k.cfg n).trans (h.cfg n), fun n => (k.bme n).trans (h.bme n), k.bus.trans h.bus⟩

theorem ConfigKept.held {p q : Part} (h : ConfigKept p q) (n k : Nat) : q.cfgHeld n k = p.cfgHeld n k := by
  rw [Part.cfgHeld, h.cfg, Part.cfgHeld]

theorem Signalled.configKept {p q : Part} (h : Signalled p q) : ConfigKept p q := ⟨h.linkOnly, h.cfg, h.bme, by rw [h.rest]⟩

theorem tdiError_configKept (sel : Nat → Bool) (p : Part) : ConfigKept p (p.tdiError sel) where
  link := tdiError_linkOnly sel p
  cfg n := (tdiError_func sel p n).1
  bme n := (tdiError_func sel p n).2
  bus := by rw [(tdiError_signalled sel p).rest]; rfl

/-- A change of a function that leaves its dwords and Bus Master Enable. -/
theorem modFn_configKept (p : Part) (n : Nat) {g : Func → Func} (h : ∀ f, (g f).cfg = f.cfg ∧ (g f).bme = f.bme) :
    ConfigKept p (p.modFn n g) := by
  refine ⟨rfl, fun m => ?_, fun m => ?_, rfl⟩ <;> rw [fn_modFn] <;> split
  · next hm => rw [(h _).1, hm]
  · rfl
  · next hm => rw [(h _).2, hm]
  · rfl

/-- The part once a configuration write has named its bus number and stored the writable bits of the dword. -/
def configStored (n off : Nat) (v : Word) (bus : Byte) (p : Part) : Part :=
  (p.captureBus n bus).modFn n fun f => { f with
    cfg := f.cfg.set 0 off (((p.cfgHeld n off &&& ~~~ Part.cfgMask n off) ||| (v &&& Part.cfgMask n off)) ^^^ Part.cfgReset n off) }

/-- What follows from a dword stored, `old` before and `new` now: Memory Space Enable, Function Mask, the SR-IOV control bits, and the
interfaces that lose their BARs. -/
def configFollows (n off : Nat) (old new : Word) (p : Part) : Part :=
  if n = 0 ∧ off = 0x04 then p.modFn 0 fun f => { f with mse := bitAt new 1 }
  else if off = Part.msixCap n then (p.modFn n fun f => { f with fnMask := bitAt new 30 }).releaseVectors n
  else if n = 0 ∧ off = 0x168 then
    (p.modHif fun h => { h with vfMse := bitAt new 3, ari := bitAt new 4 }).when (bitAt old 3 && !bitAt new 3)
      (Part.tdiError fun k => k != 0)
  else if n = 0 ∧ 0x184 ≤ off ∧ off ≤ 0x190 ∧ new ≠ old then p.tdiError fun k => k != 0
  else p

theorem configFollows_kept (n off : Nat) (old new : Word) (p : Part) : ConfigKept p (configFollows n off old new p) := by
  unfold configFollows
  split
  · exact modFn_configKept _ _ fun _ => ⟨rfl, rfl⟩
  split
  · refine .trans ?_ (releaseVectors_signalled ..).configKept
    exact modFn_configKept _ _ fun _ => ⟨rfl, rfl⟩
  split
  · exact ConfigKept.trans (q := p.modHif _) ⟨rfl, fun _ => rfl, fun _ => rfl, rfl⟩
      (when_keeps .refl _ fun _ => tdiError_configKept ..)
  split
  · exact tdiError_configKept ..
  · exact .refl _

/-- A configuration write stores the writable bits of its dword, and what follows from them touches no dword; a dword with none is
not stored. -/
theorem configWrite_stores {n : Nat} (off : Nat) (v : Word) (bus : Byte) {p : Part} (opened : p.cfgOpen n = true) :
    (Part.cfgMask n off = 0 ∧ ConfigKept (p.captureBus n bus) (p.configWrite n off v bus)) ∨
      ConfigKept (configStored n off v bus p) (p.configWrite n off v bus) := by
  simp only [Part.configWrite, opened, Bool.not_true, Bool.false_eq_true, if_false]
  split
  case isTrue aer =>
    obtain ⟨rfl, rfl⟩ := aer
    exact .inl ⟨by decide, rfl, fun _ => rfl, fun _ => rfl, rfl⟩
  split
  case isTrue taken =>
    obtain ⟨rfl, rfl⟩ := taken
    exact .inl ⟨by decide, rfl, fun _ => rfl, fun _ => rfl, rfl⟩
  split
  case isTrue abort =>
    obtain ⟨rfl, rfl⟩ := abort
    exact .inl ⟨by decide, when_keeps .refl _ fun _ => ⟨rfl, fun _ => rfl, fun _ => rfl, rfl⟩⟩
  split
  case isTrue none => exact .inl ⟨none, .refl _⟩
  right
  exact configFollows_kept n off _ _ (configStored n off v bus p)

theorem captureBus_fn (n : Nat) (bus : Byte) (p : Part) (m : Nat) : (p.captureBus n bus).fn m = p.fn m := by
  unfold Part.captureBus Part.when
  split <;> rfl

theorem captureBus_bus (n : Nat) (bus : Byte) (p : Part) : (p.captureBus n bus).hif.bus = if n = 0 then bus else p.hif.bus := by
  by_cases h : n = 0 <;> simp [Part.captureBus, Part.when, h]

theorem captureBus_linkOnly (n : Nat) (bus : Byte) (p : Part) : LinkOnly p (p.captureBus n bus) := by
  unfold Part.captureBus Part.when
  split <;> exact rfl

theorem configStored_held (n off : Nat) (v : Word) (bus : Byte) (p : Part) (k : Nat) : (configStored n off v bus p).cfgHeld n k =
    if k = off then (p.cfgHeld n off &&& ~~~ Part.cfgMask n off) ||| (v &&& Part.cfgMask n off) else p.cfgHeld n k := by
  rw [Part.cfgHeld, configStored, fn_modFn_self, captureBus_fn, Tab.get_set]
  split
  · next hk => rw [hk, BitVec.xor_assoc, BitVec.xor_self, BitVec.xor_zero]
  · rfl

/-- What a configuration write leaves (R38, R44): the writable bits of its dword, every other dword, Bus Master Enable, the bus
number that it names for the physical function. -/
theorem configWrite_spec {n : Nat} (off : Nat) (v : Word) (bus : Byte) {p : Part} (opened : p.cfgOpen n = true) :
    let q := p.configWrite n off v bus
    LinkOnly p q ∧ q.cfgHeld n off = (p.cfgHeld n off &&& ~~~ Part.cfgMask n off) ||| (v &&& Part.cfgMask n off) ∧
      (∀ k, k ≠ off → q.cfgHeld n k = p.cfgHeld n k) ∧ (q.fn n).bme = (p.fn n).bme ∧
      q.hif.bus = if n = 0 then bus else p.hif.bus := by
  rcases configWrite_stores off v bus opened with ⟨mask, kept⟩ | kept
  · have held : ∀ k, (p.captureBus n bus).cfgHeld n k = p.cfgHeld n k := fun k => by rw [Part.cfgHeld, captureBus_fn, Part.cfgHeld]
    refine ⟨(captureBus_linkOnly n bus p).trans kept.link, ?_, fun k _ => (kept.held n k).trans (held k), ?_, ?_⟩
    · rw [kept.held, held, mask]
      change p.cfgHeld n off = (p.cfgHeld n off &&& ~~~ 0#32) ||| (v &&& 0#32)
      rw [BitVec.and_zero, BitVec.or_zero]
      exact BitVec.and_allOnes.symm
    · rw [kept.bme, captureBus_fn]
    · rw [kept.bus, captureBus_bus]
  · refine ⟨((captureBus_linkOnly n bus p).trans (modFn_linkOnly ..)).trans kept.link, ?_, fun k hk => ?_, ?_, ?_⟩
    · rw [kept.held, configStored_held, if_pos rfl]
    · rw [kept.held, configStored_held, if_neg hk]
    · rw [kept.bme, configStored, fn_modFn_self, captureBus_fn]
    · rw [kept.bus, ← captureBus_bus]
      rfl

/-! ### Bus Master Enable, D3hot, unmasking -/

theorem bmeClear_spec {n : Nat} {p : Part} (opened : p.cfgOpen n = true) :
    let q := p.bmeClear n
    LinkOnly p q ∧ (q.fn n).bme = false ∧
      (q.fn n).tdi = if (p.fn n).tdi = .locked ∨ (p.fn n).tdi = .run then .error else (p.fn n).tdi := by
  have watched := funcWatch_signalled (Part.modFn n fun f => { f with bme := false }) p
  simp only [Part.bmeClear, opened, Part.when_true]
  refine ⟨(funcWatch_linkOnly (modFn_linkOnly ..)).trans (tdiError_linkOnly ..), ?_, ?_⟩
  · rw [(tdiError_func _ _ n).2, watched.bme, fn_modFn_self]
  · simp only [tdi_tdiError, watched.tdi, fn_modFn_self, beq_self_eq_true, true_and]

theorem bmeSet_spec {n : Nat} {p : Part} (opened : p.cfgOpen n = true) :
    let q := p.bmeSet n
    LinkOnly p q ∧ (q.fn n).bme = true ∧ (q.fn n).tdi = (p.fn n).tdi := by
  have watched := funcWatch_signalled (Part.modFn n fun f => { f with bme := true }) p
  have all := watched.trans (releaseVectors_signalled n _)
  simp only [Part.bmeSet, opened, Part.when_true]
  exact ⟨(modFn_linkOnly ..).trans all.linkOnly, by rw [all.bme, fn_modFn_self], by rw [all.tdi, fn_modFn_self]⟩

theorem d3hotEntry_spec {p : Part} (opened : p.cfgOpen 0 = true) :
    LinkOnly p p.d3hotEntry ∧ (p.d3hotEntry.fn 0).d3hot = true := by
  have watched := funcWatch_signalled (Part.modFn 0 fun f => { f with d3hot := true }) p
  simp only [Part.d3hotEntry, opened, Part.when_true]
  exact ⟨(modFn_linkOnly ..).trans watched.linkOnly, by rw [watched.d3hot, fn_modFn_self]⟩

theorem d0Return_spec {p : Part} (opened : p.cfgOpen 0 = true) : LinkOnly p p.d0Return ∧ (p.d0Return.fn 0).d3hot = false := by
  have watched := funcWatch_signalled (Part.modFn 0 fun f => { f with d3hot := false }) p
  have all : Signalled (p.modFn 0 fun f => { f with d3hot := false }) p.d0Return := by
    simp only [Part.d0Return, opened, Part.when_true]
    exact watched.trans (foldl_keeps .refl .trans _ (fun q f _ => releaseVectors_signalled f.1 q) _)
  exact ⟨(modFn_linkOnly ..).trans all.linkOnly, by rw [all.d3hot, fn_modFn_self]⟩

/-- A change of a function that leaves Bus Master Enable and the power state leaves what may be sent (R73). -/
theorem mayPost_modFn (p : Part) (n m : Nat) {g : Func → Func} (h : ∀ f, (g f).bme = f.bme ∧ (g f).d3hot = f.d3hot) :
    (p.modFn n g).mayPost m = p.mayPost m := by
  have func : ∀ k, ((p.modFn n g).fn k).bme = (p.fn k).bme ∧ ((p.modFn n g).fn k).d3hot = (p.fn k).d3hot := fun k => by
    rw [fn_modFn]
    split
    · next hk => rw [hk]; exact h _
    · exact ⟨rfl, rfl⟩
  rw [Part.mayPost, (func m).1, (func 0).2, Part.mayPost]

theorem msixUnmask_spec {n v : Nat} {p : Part} (here : p.fnExists n = true) (hv : v < Part.vectorCount n) :
    let x := (p.fn n).vectors.get {} v
    let q := p.msixUnmask n v
    LinkOnly p q ∧ ((q.fn n).vectors.get {} v).masked = false ∧
      (x.pending = true → (p.fn n).fnMask = false → (p.fn n).draining = false → p.mayPost n = true →
        HostMsg.msix n v x.addr x.data ∈ q.hif.out ∧ ((q.fn n).vectors.get {} v).pending = false) := by
  intro x q
  let g : Func → Func := fun f => { f with vectors := f.vectors.upd {} v fun y => { y with masked := false } }
  have hq : q = (p.modFn n g).releaseVectors n := by simp [q, g, Part.msixUnmask, here, hv]
  have func : (p.modFn n g).fn n = g (p.fn n) := fn_modFn_self ..
  have entry : ((p.modFn n g).fn n).vectors.get {} v = { x with masked := false } := by
    rw [func]
    exact Tab.get_upd_self ({} : Machine.Vector) _ v fun y => { y with masked := false }
  have released := releaseVectors_signalled n (p.modFn n g)
  rw [hq]
  refine ⟨(modFn_linkOnly ..).trans released.linkOnly, by rw [released.masked, entry], fun pend fnMask drain post => ?_⟩
  exact releaseVectors_sends (x := { x with masked := false }) entry pend rfl (by rw [func]; exact drain) (by rw [func]; exact fnMask)
    ((mayPost_modFn p n n (g := g) fun _ => ⟨rfl, rfl⟩).trans post)

/-! ### Training -/

/-- Of a falling list the highest that the partner has too. -/
theorem highest_of_greatest {own theirs : List (BitVec 4)} {r : BitVec 4} (falls : own.Pairwise fun a b => b.toNat < a.toNat)
    (mine : r ∈ own) (both : r ∈ theirs) (top : ∀ a ∈ own, a ∈ theirs → a.toNat ≤ r.toNat) : Part.highest own theirs = some r := by
  induction own with
  | nil => cases mine
  | cons a own ih =>
    obtain ⟨below, falls⟩ := List.pairwise_cons.1 falls
    by_cases ha : a ∈ theirs
    · have : a = r := by
        rcases List.mem_cons.1 mine with rfl | hr
        · rfl
        · exact absurd (top a (by simp) ha) (Nat.not_le.2 (below r hr))
      simp [Part.highest, this, both]
    · have mine : r ∈ own := (List.mem_cons.1 mine).resolve_left fun e => ha (e ▸ both)
      rw [Part.highest, List.find?_cons_of_neg (by simpa using ha)]
      exact ih falls mine fun b hb => top b (List.mem_cons_of_mem _ hb)

theorem highest_none {own theirs : List (BitVec 4)} (h : ∀ a ∈ own, a ∉ theirs) : Part.highest own theirs = none := by
  simpa [Part.highest] using h

/-- The rates of R31 and its widths, as the codes that name them. -/
theorem rate_listed : ∀ r : BitVec 4, r ∈ [6#4, 5#4, 4#4, 3#4, 2#4, 1#4] ↔ 1 ≤ r.toNat ∧ r.toNat ≤ 6 := by decide
theorem width_listed : ∀ w : BitVec 4, w ∈ [8#4, 4#4, 1#4] ↔ w ∈ [1#4, 4#4, 8#4] := by decide

/-- A watched change of the link block, with a record and an event after it. -/
theorem watched_posted {g : Part → Part} {p : Part} (h : LinkOnly p (g p)) (c : BitVec 16) (d a : Word) (n v : Nat) :
    let q := ((p.funcWatch g).post c d a).signal n v
    Recorded { p with hif := q.hif } q ∧ q.hif = { (g p).hif with funcs := q.hif.funcs, out := q.hif.out } := by
  intro q
  have watched := funcWatch_signalled g p
  have posted := Recorded.post c d a (p.funcWatch g)
  have signalled := signal_signalled n v ((p.funcWatch g).post c d a)
  constructor
  · unfold Recorded LinkOnly at *
    rw [show q = _ from signalled.onlyLink, posted, watched.onlyLink, h]
  · rw [show q = _ from signalled.rest, post_hif, watched.rest]

theorem linkTrained_up {rates widths : List (BitVec 4)} (flit : Bool) {rate width : BitVec 4} (p : Part)
    (hr : Part.highest [6, 5, 4, 3, 2, 1] rates = some rate) (hw : Part.highest [8, 4, 1] widths = some width) :
    let q := p.linkTrained rates widths flit
    Recorded { p with hif := q.hif } q ∧ q.hif.linkUp = true ∧ q.hif.rate = rate ∧ q.hif.width = width ∧
      q.hif.flit = (flit || rate == 6#4) ∧ q.hif.degraded = !(rate == 6#4 && width == 8#4) := by
  intro q
  obtain ⟨recorded, hif⟩ : Recorded { p with hif := q.hif } q ∧ q.hif = { p.hif with
      linkUp := true, degraded := !(rate == 6#4 && width == 8#4), flit := flit || rate == 6#4, rate := rate, width := width
      statusChg := p.hif.statusChg || (!p.hif.linkUp || p.hif.degraded != !(rate == 6#4 && width == 8#4) ||
        p.hif.flit != (flit || rate == 6#4))
      funcs := q.hif.funcs, out := q.hif.out } := by
    simp only [q, Part.linkTrained, hr, hw]
    exact watched_posted (modHif_linkOnly ..) ..
  refine ⟨recorded, ?_, ?_, ?_, ?_, ?_⟩ <;> rw [hif]

/-- A partner with a rate and a width in common trains at the highest of each. -/
theorem linkTrained_spec {rates widths : List (BitVec 4)} (flit : Bool) {rate width : BitVec 4} (p : Part)
    (hr : rate ∈ rates ∧ 1 ≤ rate.toNat ∧ rate.toNat ≤ 6)
    (rateTop : ∀ r, r ∈ rates ∧ 1 ≤ r.toNat ∧ r.toNat ≤ 6 → r.toNat ≤ rate.toNat)
    (hw : width ∈ widths ∧ width ∈ [1#4, 4#4, 8#4]) (widthTop : ∀ w, w ∈ widths ∧ w ∈ [1#4, 4#4, 8#4] → w.toNat ≤ width.toNat) :
    let q := p.linkTrained rates widths flit
    Recorded { p with hif := q.hif } q ∧ q.hif.linkUp = true ∧ q.hif.rate = rate ∧ q.hif.width = width ∧
      q.hif.flit = (flit || rate == 6#4) ∧ q.hif.degraded = !(rate == 6#4 && width == 8#4) :=
  linkTrained_up flit p
    (highest_of_greatest (by decide) ((rate_listed rate).2 hr.2) hr.1 fun r mine both => rateTop r ⟨both, (rate_listed r).1 mine⟩)
    (highest_of_greatest (by decide) ((width_listed width).2 hw.2) hw.1 fun w mine both => widthTop w ⟨both, (width_listed w).1 mine⟩)

/-- With no rate or no width in common the link does not train. -/
theorem linkTrained_none {rates widths : List (BitVec 4)} (flit : Bool) (p : Part)
    (h : (∀ r, ¬ (r ∈ rates ∧ 1 ≤ r.toNat ∧ r.toNat ≤ 6)) ∨ ∀ w, ¬ (w ∈ widths ∧ w ∈ [1#4, 4#4, 8#4])) :
    p.linkTrained rates widths flit = p := by
  rcases h with h | h
  · have none : Part.highest [6, 5, 4, 3, 2, 1] rates = none := highest_none fun r mine both => h r ⟨both, (rate_listed r).1 mine⟩
    rw [Part.linkTrained, none]
  · have none : Part.highest [8, 4, 1] widths = none := highest_none fun w mine both => h w ⟨both, (width_listed w).1 mine⟩
    rw [Part.linkTrained, none]
    split
    · contradiction
    · rfl

/-- Settles O14, command by command: each is guarded by configuration space being open (R504), and acts on the link block. -/
theorem configurationOfFunctions : Obligations.ConfigurationOfFunctions := by
  intro s p
  refine ⟨fun v shut => ?_, fun v opened clear => ?_, fun opened => ?_, fun shut => ?_, fun opened => ⟨?_, ?_⟩, fun n shut => ?_,
    fun n opened => ⟨?_, ?_, fun dw v bus => ?_⟩, fun n v here hv => ?_, fun rates widths flit => ⟨?_, fun none => ?_⟩⟩
  · refine .of_onPart (g := Part.numVfsWrite v) rfl ?_
    rcases shut with set | shut
    · rw [Part.numVfsWrite, set, Bool.not_true, Bool.and_false, Part.when_false]
    · rw [Part.numVfsWrite, shut, Bool.false_and, Part.when_false]
  · refine .of_onPart (g := Part.numVfsWrite v) rfl ?_
    rw [Part.numVfsWrite, opened, clear]
    rfl
  · refine .of_onPart (g := Part.vfEnable) rfl ?_
    rw [Part.vfEnable, opened]
    rfl
  · refine ⟨.of_onPart (g := Part.vfEnable) rfl ?_, .of_onPart (g := Part.d3hotEntry) rfl ?_, .of_onPart (g := Part.d0Return) rfl ?_⟩
    · rw [Part.vfEnable, shut, Part.when_false]
    · rw [Part.d3hotEntry, shut, Part.when_false]
    · rw [Part.d0Return, shut, Part.when_false]
  · exact ⟨_, rfl, d3hotEntry_spec opened⟩
  · exact ⟨_, rfl, d0Return_spec opened⟩
  · refine ⟨.of_onPart (g := Part.bmeClear n) rfl ?_, .of_onPart (g := Part.bmeSet n) rfl ?_, fun dw v =>
      .of_onPart (g := Part.configWrite n (4 * dw.val) v.data v.bus) rfl ?_⟩
    · rw [Part.bmeClear, shut, Part.when_false]
    · rw [Part.bmeSet, shut, Part.when_false]
    · rw [Part.configWrite, if_pos (by simpa using shut)]
  · exact ⟨_, rfl, bmeClear_spec opened⟩
  · exact ⟨_, rfl, bmeSet_spec opened⟩
  · obtain ⟨link, held, others, bme, number⟩ := configWrite_spec (4 * dw.val) v bus opened
    refine ⟨_, rfl, link, held, others, bme, number.trans ?_⟩
    simp only [Fin.val_eq_zero_iff]
  · exact ⟨_, rfl, msixUnmask_spec here hv⟩
  · exact fun rate width hr rateTop hw widthTop => ⟨_, rfl, linkTrained_spec flit p hr rateTop hw widthTop⟩
  · exact .of_onPart (g := Part.linkTrained rates widths flit) rfl (linkTrained_none flit p none)

end Sys2Proof.Safety
end

section
/-! SUPPORT. The reset request of the host, data objects, IDE and TDISP; and the statement on them (R59 to R67, R76, R400). -/

namespace Sys2Proof.Safety

open Sys2Proof.Machine

/-- A latched request is carried out as a full reset of cause HOST_REQUEST (R76). -/
theorem requestedReset_latched {p : Part} (f : Fuses) (latched : p.hif.resetReq = true) :
    let q := p.requestedReset f
    Restarted f p 2 q ∧ q.hif.resetReq = false := by
  have start := fullReset_started 2 f p
  obtain ⟨-, -, -, -, hif⟩ := started_kept start
  rw [Part.requestedReset, latched, Part.when_true]
  exact ⟨restarted_of_started start, by rw [hif]⟩

/-! ### Data objects -/

/-- The part with an answer of the DOE mailbox put out, one free value drawn for it. -/
def doeAnswered (bs : List Byte) (p : Part) : Part :=
  { p with hif := { p.hif with doeOut := (Crypto.pieces 4 bs).map fun b => BitVec.ofNat 32 (ofLe b), out := p.hif.out ++ [.doe false bs] }
           free := p.free + 1 }

theorem doeObject_discarded {object : List Byte} (inner : List Byte) (good : Bool) {p : Part}
    (h : p.cfgOpen 0 = false ∨ object.take 2 ≠ [1, 0] ∨ 2 < (object.getD 2 0).toNat) : p.doeObject object inner good = p := by
  rw [Part.doeObject, if_pos (by simpa using h)]

section
variable {object : List Byte} {p : Part} (inner : List Byte) (good : Bool) (opened : p.cfgOpen 0 = true)
  (vendor : object.take 2 = [1, 0]) (type : (object.getD 2 0).toNat ≤ 2)
include opened vendor type

omit inner good in
theorem doeObject_heard : ¬ ((!p.cfgOpen 0) = true ∨ object.take 2 ≠ [1, 0] ∨ 2 < (object.getD 2 0).toNat) := by
  rintro (shut | other | beyond)
  · simp [opened] at shut
  · exact other vendor
  · exact absurd beyond (Nat.not_lt.2 type)

theorem doeObject_long (long : 4096 < object.length) :
    p.doeObject object inner good = doeAnswered (Part.doeFrame 1 ([0x12#8, 0x7F#8] ++ Part.drawBytes p.free 2)) p := by
  rw [Part.doeObject, if_neg (doeObject_heard opened vendor type)]
  simp only [if_pos long]
  rfl

theorem doeObject_discovery (short : object.length ≤ 4096) (ht : object.getD 2 0 = 0) :
    p.doeObject object inner good = doeAnswered (Part.doeFrame 0 (Part.discovery (object.getD 8 0))) p := by
  rw [Part.doeObject, if_neg (doeObject_heard opened vendor type)]
  simp only [if_neg (Nat.not_lt.2 short), if_pos ht]
  rfl

theorem doeObject_spdm (short : object.length ≤ 4096) (ht : object.getD 2 0 = 1) :
    p.doeObject object inner good =
      doeAnswered (Part.doeFrame 1 (Part.spdmAnswer { p with free := p.free + 1 } p.free (object.drop 8))) p := by
  rw [Part.doeObject, if_neg (doeObject_heard opened vendor type)]
  simp only [if_neg (Nat.not_lt.2 short), ht]
  rfl

/-- The object of a secured session: the answer goes out on the link, and the session is what the exchange makes of it. -/
theorem doeObject_secured (short : object.length ≤ 4096) (ht : object.getD 2 0 = 2) :
    let answer := Part.securedAnswer { p with free := p.free + 1 } p.free inner good
    p.doeObject object inner good =
      { p with hif := { p.hif with spdm := answer.2, out := p.hif.out ++ [.doe true answer.1] }, free := p.free + 1 } := by
  rw [Part.doeObject, if_neg (doeObject_heard opened vendor type)]
  simp only [if_neg (Nat.not_lt.2 short), ht]
  rfl

end

theorem spdmAnswer_measurements (p : Part) (k : Nat) (rest : List Byte) :
    p.spdmAnswer k (0x12 :: 0xE0 :: rest) = p.measurements k (0x12 :: 0xE0 :: rest) := by
  simp only [Part.spdmAnswer, List.getD_cons_succ, List.getD_cons_zero, List.headD_cons]
  rw [if_neg (by decide), if_neg (by decide)]
  rfl

theorem measurementBlock_mode (p : Part) : p.measurementBlock 6 =
    [6, 1, 5, 0, 0x82, 2, 0, (Part.modeCode p.sys.mode).setWidth 8, (Part.lifeCode p.life).setWidth 8] := by
  have size : (p.measurement 6).length = 2 := rfl
  simp only [Part.measurementBlock, size]
  rfl

/-- A request for measurement block 6 unsigned is answered with the mode and the life-cycle code (R445). -/
theorem spdmAnswer_modeBlock (p : Part) (k : Nat) {req : List Byte} (h : req.take 4 = [0x12, 0xE0, 0, 6]) :
    (p.spdmAnswer k req).take 17 = [0x12, 0x60, 0, 0, 1, 9, 0, 0, 6, 1, 5, 0, 0x82, 2, 0, (Part.modeCode p.sys.mode).setWidth 8,
      (Part.lifeCode p.life).setWidth 8] := by
  obtain ⟨rest, rfl⟩ : ∃ rest, req = 0x12 :: 0xE0 :: 0 :: 6 :: rest := ⟨req.drop 4, by rw [← List.take_append_drop 4 req, h]; simp⟩
  have unsigned : ¬ (bitAt (0 : Byte) 0 = true ∧ p.identKeys = none) := fun h => absurd h.1 (by decide)
  have block : ([(6 : Byte).toNat] : List Nat).flatMap p.measurementBlock = p.measurementBlock 6 := by simp
  rw [spdmAnswer_measurements]
  simp only [Part.measurements, List.getD_cons_succ, List.getD_cons_zero]
  rw [if_neg (by decide), if_neg unsigned, if_neg (c := (6 : Byte).toNat = 0xFF) (by decide), if_neg (c := (6 : Byte).toNat = 0) (by decide),
    if_pos (c := 1 ≤ (6 : Byte).toNat ∧ (6 : Byte).toNat ≤ 6) (by decide), block,
    measurementBlock_mode]
  simp only [List.length_cons, List.length_nil]
  rfl

theorem securedAnswer_finish (p : Part) (k : Nat) (m : List Byte) (good : Bool) (h : m.getD 1 0 = 0xE5) :
    (p.securedAnswer k m good).2 = (good || p.hif.spdm) := by
  simp only [Part.securedAnswer, h]
  cases good <;> rfl

theorem securedAnswer_end (p : Part) (k : Nat) (m : List Byte) (good : Bool) (h : m.getD 1 0 = 0xEC) :
    (p.securedAnswer k m good).2 = false := by
  simp only [Part.securedAnswer, h]
  rfl

/-! ### IDE and TDISP -/

/-- A stopped stream is empty, and no interface that the host has bound to a selective stream stays locked or running (R64, R66). -/
theorem ideKm_stop {p : Part} (stream : Nat) (fns : List (Fin 1024)) (session : p.hif.spdm = true) :
    let q := p.ideKm stream 2 fns
    LinkOnly p q ∧ q.hif.ide = p.hif.ide.set {} stream {} ∧
      ∀ v ∈ fns, 0 < stream → (q.fn (v.val + 1)).tdi ≠ .locked ∧ (q.fn (v.val + 1)).tdi ≠ .run := by
  simp only [Part.ideKm, session, Bool.not_true, Bool.false_eq_true, if_false]
  refine ⟨(modHif_linkOnly ..).trans (tdiError_linkOnly ..), ?_, fun v hv selective => ?_⟩
  · rw [(tdiError_signalled _ _).rest]
    rfl
  · rw [tdi_tdiError]
    split
    · exact ⟨by decide, by decide⟩
    · next free =>
      refine not_or.1 fun h => free ⟨?_, h⟩
      simp only [selective, Bool.and_eq_true, decide_eq_true_eq, Nat.succ_pos, Bool.or_eq_true, List.any_eq_true, beq_iff_eq, true_and]
      exact .inl ⟨v, hv, rfl⟩

/-- A watched change of one interface's state. -/
theorem setTdi_spec (p : Part) (n : Nat) (t : Tdi) :
    let q := p.funcWatch (Part.modFn n fun f => { f with tdi := t })
    LinkOnly p q ∧ (q.fn n).tdi = t := by
  have watched := funcWatch_signalled (Part.modFn n fun f => { f with tdi := t }) p
  exact ⟨(modFn_linkOnly ..).trans watched.linkOnly, by rw [watched.tdi, fn_modFn_self]⟩

theorem lockInterface_spec {p : Part} {n : Nat} (here : p.fnExists n = true) (unlocked : (p.fn n).tdi = .unlocked)
    (h2 : p.tnt.states.get 0 n ≠ 2) (h3 : p.tnt.states.get 0 n ≠ 3) (h4 : p.tnt.states.get 0 n ≠ 4) :
    LinkOnly p (p.lockInterface n) ∧ ((p.lockInterface n).fn n).tdi = .locked := by
  rw [Part.lockInterface, here, unlocked, beq_false_of_ne h2, beq_false_of_ne h3, beq_false_of_ne h4]
  exact setTdi_spec p n .locked

theorem lockInterface_refused {p : Part} {n : Nat} (h : p.fnExists n = false ∨ (p.fn n).tdi ≠ .unlocked ∨
    p.tnt.states.get 0 n = 2 ∨ p.tnt.states.get 0 n = 3 ∨ p.tnt.states.get 0 n = 4) : p.lockInterface n = p := by
  have shut : (p.fnExists n && (p.fn n).tdi == .unlocked &&
      !(p.tnt.states.get 0 n == 2 || p.tnt.states.get 0 n == 3 || p.tnt.states.get 0 n == 4)) = false := by
    rcases h with h | h | h | h | h
    · rw [h]; rfl
    · rw [beq_false_of_ne h, Bool.and_false]; rfl
    all_goals rw [h]; exact Bool.and_false _
  rw [Part.lockInterface, shut, Part.when_false]

/-- Settles O15, clause by clause: the request, the objects, IDE_KM, and the three TDISP commands. -/
theorem resetRequestAndHostSecurity : Obligations.ResetRequestAndHostSecurity := by
  intro s p
  refine ⟨rfl, fun k hk => ?_, fun i hi => ⟨fun idle => ?_, fun latched => ?_⟩, fun object inner good => ⟨fun h => ?_,
    fun opened vendor type => ⟨fun long => ?_, fun short => ⟨fun ht => ?_, fun ht => ?_, fun ht => ?_⟩⟩⟩, fun stream op fns shut => ?_,
    fun stream fns session => ⟨?_, ?_, ?_⟩, fun v => ⟨fun here unlocked h2 h3 h4 => ?_, fun h => ?_, fun locked => ?_, fun other => ?_, ?_⟩⟩
  · refine .of_onPart (g := Part.resetRequest k) rfl ?_
    rw [Part.resetRequest, beq_false_of_ne hk, Part.when_false]
  · have none : s.part.requestedReset s.fuses = s.part := by
      rw [Part.requestedReset, show s.part.hif.resetReq = false from idle, Part.when_false]
    rcases hi with rfl | rfl <;> exact .of_onPart (g := Part.requestedReset s.fuses) rfl none
  · obtain ⟨afresh, done⟩ := requestedReset_latched s.fuses latched
    obtain ⟨_, _, _, _, _, _, slc, _, _, _, _, _, priv, ccMem, opBuf, mode, fuses, flash, _, _, _, vault, _, cause⟩ := afresh
    rcases hi with rfl | rfl <;> exact ⟨_, rfl, mode, cause, priv, ccMem, opBuf, slc, done, flash, vault, fuses⟩
  · exact .of_onPart (g := Part.doeObject object inner good) rfl (doeObject_discarded inner good h)
  · exact ⟨Part.drawBytes p.free 2, by simp [Part.drawBytes],
      .of_onPart (g := Part.doeObject object inner good) rfl (doeObject_long inner good opened vendor type long)⟩
  · exact .of_onPart (g := Part.doeObject object inner good) rfl (doeObject_discovery inner good opened vendor type short ht)
  · exact ⟨_, .of_onPart (g := Part.doeObject object inner good) rfl (doeObject_spdm inner good opened vendor type short ht),
      fun h => spdmAnswer_modeBlock _ _ h⟩
  · have effect := doeObject_secured inner good opened vendor type short ht
    refine ⟨_, _, .of_onPart (g := Part.doeObject object inner good) rfl effect, rfl, fun h => ?_, fun h => ?_⟩
    · exact securedAnswer_finish _ _ _ _ h
    · exact securedAnswer_end _ _ _ _ h
  · refine .of_onPart (g := Part.ideKm stream.val op.val fns) rfl ?_
    rw [Part.ideKm, if_pos (by simpa using shut)]
  · refine .of_onPart (g := Part.ideKm stream.val 0 fns) rfl ?_
    rw [Part.ideKm, if_neg (by simpa using session)]
    rfl
  · refine .of_onPart (g := Part.ideKm stream.val 1 fns) rfl ?_
    rw [Part.ideKm, if_neg (by simpa using session)]
    rfl
  · exact ⟨_, rfl, ideKm_stop stream.val fns session⟩
  · exact ⟨_, rfl, lockInterface_spec here unlocked h2 h3 h4⟩
  · exact .of_onPart (g := Part.lockInterface (v.val + 1)) rfl (lockInterface_refused h)
  · have effect : s.part.startInterface (v.val + 1) = s.part.funcWatch (Part.modFn (v.val + 1) fun f => { f with tdi := .run }) := by
      rw [Part.startInterface, show (s.part.fn (v.val + 1)).tdi = .locked from locked]
      rfl
    exact ⟨_, .of_onPart (g := Part.startInterface (v.val + 1)) rfl effect, setTdi_spec p (v.val + 1) .run⟩
  · refine .of_onPart (g := Part.startInterface (v.val + 1)) rfl ?_
    rw [Part.startInterface, beq_false_of_ne other, Part.when_false]
  · exact ⟨_, rfl, setTdi_spec p (v.val + 1) .unlocked⟩

end Sys2Proof.Safety
end

section
/-! SUPPORT. The decoding of a long descriptor where the context table lists one context twice; and the refutation of the statement on
fetched operations. -/

namespace Sys2Proof.Safety

open Sys2Proof.Machine

/-- A part in QUARANTINE whose table lists context 0 twice, as fetched for either half of a long descriptor. The table is a list of
pairs, and the statement does not ask that it list an index only once. -/
def listedTwice : Part :=
  { sys := { mode := .quarantine }, slc := { ready := true }
    dsp := { ctxs := [(0, { state := .fetched, order := 0 }), (0, { state := .fetched, order := 1 })] } }

/-- The first octets of a long descriptor (R91); all else of it is zero. -/
def longHead : List Byte := [0, 0, 4, 0]

/-- Context 0 is its own second half, which `takeSecond` gives back: it is left free, and no operation ends. -/
theorem listedTwice_decoded : ((listedTwice.descriptorDecode 0 (some longHead) none).ctx 0).state = .free := by decide

/-- Refutes O22: in QUARANTINE a long descriptor whose context the table lists twice does not end with DEVICE_QUARANTINED; the
context is taken for its own second half and given back. -/
theorem not_operationsAreFetchedPlacedAndCompleted : ¬ Obligations.OperationsAreFetchedPlacedAndCompleted := by
  unfold Obligations.OperationsAreFetchedPlacedAndCompleted
  intro h
  obtain ⟨-, -, decoded, -⟩ := h { pending := [], fuses := Fuses.shipped, part := listedTwice }
  obtain ⟨-, byDescriptor⟩ := decoded 0 (by decide) (by decide) (by decide)
  obtain ⟨-, quarantined, -⟩ := byDescriptor longHead none
  obtain ⟨q, yields, finished, -⟩ := quarantined ⟨fun _ => by decide, .inl rfl⟩ rfl
  have result : listedTwice.descriptorDecode 0 (some longHead) none = q := by
    injection yields with next
    exact congrArg State.part next
  rw [← result] at finished
  exact absurd (listedTwice_decoded.symm.trans finished) (by decide)

end Sys2Proof.Safety
end

section
/-! SUPPORT. Queue pairs: what each control of one does to it and to no other; and the statement on them (R52, R82 to R88, R120, R121). -/

namespace Sys2Proof.Safety

open Sys2Proof.Machine

@[simp] theorem qp_modQp_self (p : Part) (g : Nat) (f : Qp → Qp) : (p.modQp g f).qp g = f (p.qp g) := Tab.get_upd_self ..

theorem qp_modQp_other (p : Part) {g h : Nat} (f : Qp → Qp) (hg : h ≠ g) : (p.modQp g f).qp h = p.qp h :=
  Tab.get_upd_other _ _ _ _ _ hg

/-- Between `p` and `q` at most queue pair `g` has changed. -/
def OnlyQp (g : Nat) (p q : Part) : Prop :=
  q = { p with dsp := { p.dsp with qps := q.dsp.qps } } ∧ ∀ h, h ≠ g → q.qp h = p.qp h

theorem modQp_only (g : Nat) (f : Qp → Qp) (p : Part) : OnlyQp g p (p.modQp g f) := ⟨rfl, fun _ hg => qp_modQp_other p f hg⟩

theorem onQp_none {p : Part} {n k : Nat} (h : p.qpGlobal n k = none) (f : Nat → Part → Part) : p.onQp n k f = p := by
  rw [Part.onQp, h]

theorem onQp_some {p : Part} {n k g : Nat} (h : p.qpGlobal n k = some g) (f : Nat → Part → Part) : p.onQp n k f = f g p := by
  rw [Part.onQp, h]

/-- A command on a queue pair that is assigned is its effect on the pair of that global number (R52). -/
theorem Yields.onQp {i : Instr} {s : State} {n k g : Nat} {f : Nat → Part → Part} {q : Part} (arm : exec i s = onPart (Part.onQp n k f) s)
    (h : s.part.qpGlobal n k = some g) (effect : f g s.part = q) : Yields i s q :=
  .of_onPart arm ((onQp_some h f).trans effect)

/-- A queue pair changed, and then a vector signalled: nothing but the pairs and the link. -/
theorem modQp_signal (g n v : Nat) (f : Qp → Qp) (p : Part) :
    let q := (p.modQp g f).signal n v
    q = { p with dsp := { p.dsp with qps := q.dsp.qps }, hif := q.hif } ∧ q.qp g = f (p.qp g) := by
  intro q
  have link : q = { p.modQp g f with hif := q.hif } := (signal_signalled n v (p.modQp g f)).onlyLink
  have qps : q.dsp = (p.modQp g f).dsp := by rw [link]
  refine ⟨?_, ?_⟩
  · rw [qps]
    exact link
  · rw [Part.qp, qps]
    exact qp_modQp_self p g f

/-! ### ENABLE, doorbells and COMMIT (R82 to R86) -/

theorem sqTailWrite_deaf {p : Part} {n : Nat} (v : BitVec 16) (g : Nat) (h : p.doorbell n = false) : p.sqTailWrite n v g = p := by
  simp [Part.sqTailWrite, h]

theorem cqHeadWrite_deaf {p : Part} {n : Nat} (v : BitVec 16) (g : Nat) (h : p.doorbell n = false) : p.cqHeadWrite n v g = p := by
  simp [Part.cqHeadWrite, h]

section
variable {p : Part} {n g : Nat} {v : BitVec 16} (heard : p.doorbell n = true)
include heard

theorem sqTailWrite_stored (on : (p.qp g).enable = true) (hv : v.toNat < 2 ^ (p.qp g).st.eff.sqLog.toNat) :
    p.sqTailWrite n v g = p.modQp g fun q => { q with sqTail := v } := by
  simp [Part.sqTailWrite, heard, on, hv]

theorem cqHeadWrite_stored (on : (p.qp g).enable = true) (hv : v.toNat < 2 ^ (p.qp g).st.eff.cqLog.toNat) :
    p.cqHeadWrite n v g = p.modQp g fun q => { q with cqHead := v } := by
  simp [Part.cqHeadWrite, heard, on, hv]

theorem sqTailWrite_error (h : (p.qp g).enable = false ∨ 2 ^ (p.qp g).st.eff.sqLog.toNat ≤ v.toNat) :
    p.sqTailWrite n v g = p.dbError n g := by
  simp [Part.sqTailWrite, heard, h]

theorem cqHeadWrite_error (h : (p.qp g).enable = false ∨ 2 ^ (p.qp g).st.eff.cqLog.toNat ≤ v.toNat) :
    p.cqHeadWrite n v g = p.dbError n g := by
  simp [Part.cqHeadWrite, heard, h]

end

/-- The set that a COMMIT of the pair finds staged changes only QP_IRQ (R82). -/
def IrqOnly (x : Qp) : Prop := Part.withIrq x.st.eff x.st.stage = x.st.stage

/-- A COMMIT of the pair is accepted (R80, R82). -/
def CommitOk (n g : Nat) (p : Part) : Prop :=
  Part.qpCfgOk n (p.qp g).st.stage = true ∧ (IrqOnly (p.qp g) ∨ ((p.qp g).enable = false ∧ p.qpIdle g = true))

section
variable {p : Part} {n g : Nat}

theorem commitOk_iff : (Part.qpCfgOk n (p.qp g).st.stage &&
    (Part.withIrq (p.qp g).st.eff (p.qp g).st.stage == (p.qp g).st.stage || (!(p.qp g).enable && p.qpIdle g))) = true ↔ CommitOk n g p := by
  simp [CommitOk, IrqOnly]

/-- An accepted set is pending or in effect as the block's boundary has it (R82, R640). -/
theorem qpCommit_accepted (ok : CommitOk n g p) :
    (p.qpCommit n g).qp g = { p.qp g with
      st := (p.qp g).st.commit true (!(Part.withIrq (p.qp g).st.eff (p.qp g).st.stage == (p.qp g).st.stage)) } := by
  simp only [Part.qpCommit, qp_modQp_self, commitOk_iff.2 ok, Bool.not_true, Bool.or_false]

theorem qpCommit_pends (ok : CommitOk n g p) (irq : IrqOnly (p.qp g)) :
    (p.qpCommit n g).qp g = { p.qp g with st := { (p.qp g).st with pend := some (p.qp g).st.stage } } := by
  rw [qpCommit_accepted ok, beq_iff_eq.2 irq]
  rfl

theorem qpCommit_takesEffect (ok : CommitOk n g p) (irq : ¬ IrqOnly (p.qp g)) :
    (p.qpCommit n g).qp g = { p.qp g with st := { (p.qp g).st with pend := none, eff := (p.qp g).st.stage } } := by
  rw [qpCommit_accepted ok, beq_false_of_ne irq]
  rfl

theorem qpCommit_refused (bad : ¬ CommitOk n g p) :
    (p.qpCommit n g).qp g = { p.qp g with cfgMismatch := true, st := { (p.qp g).st with pend := none } } := by
  simp only [Part.qpCommit, qp_modQp_self, Bool.eq_false_iff.2 (mt commitOk_iff.1 bad)]
  simp [Staged.commit]

end

/-! ### The block's set (R121) -/

/-- A set listed under each of some keys is found under each. -/
theorem get_foldl_set {α : Type} [DecidableEq α] (d : α) (g : Nat → α) (l : List Nat) (t : Tab α) (k : Nat) :
    (l.foldl (fun t k => t.set d k (g k)) t).get d k = if k ∈ l then g k else t.get d k := by
  induction l generalizing t with
  | nil => simp
  | cons a l ih =>
    rw [List.foldl_cons, ih, Tab.get_set]
    by_cases ha : k = a <;> by_cases hl : k ∈ l <;> simp [ha, hl]

/-- The weights and the reserve of a staged set hold under R122. -/
abbrev DspOk (c : DspCfg) : Prop :=
  1 ≤ c.wBack.toNat ∧ c.wBack.toNat ≤ c.wBulk.toNat ∧ c.wBulk.toNat ≤ c.wStandard.toNat ∧ c.reserve.toNat ≤ 16

/-- No context is in use. -/
theorem allFree_iff (p : Part) : (p.dsp.ctxs.all fun c => c.2.state == .free) = true ↔ ∀ x ∈ p.dsp.ctxs, x.2.state = .free := by
  simp

theorem dspCommit_eq {p : Part} {ok : Bool} (h : decide (DspOk p.dsp.st.stage) = ok) : p.dspCommit = { p with dsp := { p.dsp with
    cfgMismatch := p.dsp.cfgMismatch || !ok, st := p.dsp.st.commit ok true
    late := if !ok then p.dsp.late else if (p.dsp.ctxs.all fun c => c.2.state == .free) then []
      else Part.dspKeys.foldl (fun t k => Tab.set none t k (some (p.dspOf k))) p.dsp.late } } := by
  subst h
  rfl

theorem dspCommit_refused {p : Part} (bad : ¬ DspOk p.dsp.st.stage) :
    p.dspCommit = { p with dsp := { p.dsp with cfgMismatch := true, st := { p.dsp.st with pend := none } } } := by
  rw [dspCommit_eq (decide_eq_false bad), Bool.not_false, Bool.or_true]
  rfl

/-- An accepted set is the block's; where an operation is in flight each lane and unit goes on under its own (R121, R642). -/
theorem dspCommit_accepted {p : Part} (ok : DspOk p.dsp.st.stage) :
    let q := p.dspCommit
    q = { p with dsp := { p.dsp with st := { p.dsp.st with pend := none, eff := p.dsp.st.stage }, late := q.dsp.late } } ∧
      q.dsp.late = if (p.dsp.ctxs.all fun c => c.2.state == .free) then []
        else Part.dspKeys.foldl (fun t k => Tab.set none t k (some (p.dspOf k))) p.dsp.late := by
  rw [dspCommit_eq (decide_eq_true ok), Bool.not_true, Bool.or_false]
  exact ⟨rfl, rfl⟩

theorem dspCommit_keeps {p : Part} (ok : DspOk p.dsp.st.stage) (busy : ∃ x ∈ p.dsp.ctxs, x.2.state ≠ .free) {k : Nat} (hk : k < 92) :
    p.dspCommit.dspOf k = p.dspOf k := by
  have notFree : ¬ (p.dsp.ctxs.all fun c => c.2.state == .free) = true := by simpa using busy
  rw [Part.dspOf, (dspCommit_accepted ok).2, if_neg notFree, get_foldl_set, if_pos (by simpa [Part.dspKeys] using hk)]
  rfl

/-! ### Coalescing (R120) -/

theorem coalExpiry_quiet {p : Part} {g : Nat} (h : (p.qp g).unsignalled = 0) : p.coalExpiry g = p := by
  simp only [Part.coalExpiry, h, true_or, if_true]
  split <;> rfl

theorem coalExpiry_eq {p : Part} {g f : Nat} (owner : p.qpOwner g = some f) (count : (p.qp g).unsignalled ≠ 0)
    (time : (p.qp g).st.eff.coalTime ≠ 0) :
    p.coalExpiry g = (p.modQp g fun q => { q with unsignalled := 0 }).signal f (p.qp g).st.eff.vector.toNat := by
  simp only [Part.coalExpiry, owner]
  exact if_neg (not_or.2 ⟨count, time⟩)

/-- Settles O21, control by control: each is its effect on the queue pair of its global number. -/
theorem queuePairControlsAndDoorbells : Obligations.QueuePairControlsAndDoorbells := by
  intro s p d
  refine ⟨fun n k v none => ⟨?_, ?_, ?_, ?_, ?_⟩, fun n k v g here => ⟨?_, ?_, fun deaf => ⟨?_, ?_⟩, fun heard on hv => ?_,
    fun heard on hv => ?_, fun heard bad => ?_, fun heard bad => ?_, fun ok irq => ?_, fun ok irq => ?_, fun bad => ?_⟩, fun on => rfl,
    ⟨fun ok => ?_, fun bad => ?_⟩, fun g f owner count time => ?_, fun g quiet => ?_⟩
  · exact .of_onPart rfl (onQp_none none (Part.qpCommit n))
  · exact .of_onPart rfl (onQp_none none Part.qpEnable)
  · exact .of_onPart rfl (onQp_none none Part.qpDisable)
  · exact .of_onPart rfl (onQp_none none (Part.sqTailWrite n v))
  · exact .of_onPart rfl (onQp_none none (Part.cqHeadWrite n v))
  · exact ⟨_, .onQp (f := Part.qpEnable) rfl here rfl, modQp_only .., qp_modQp_self ..⟩
  · exact ⟨_, .onQp (f := Part.qpDisable) rfl here rfl, modQp_only .., qp_modQp_self ..⟩
  · exact .onQp (f := Part.sqTailWrite n v) rfl here (sqTailWrite_deaf v g deaf)
  · exact .onQp (f := Part.cqHeadWrite n v) rfl here (cqHeadWrite_deaf v g deaf)
  · exact ⟨_, .onQp (f := Part.sqTailWrite n v) rfl here (sqTailWrite_stored heard on hv), modQp_only .., qp_modQp_self ..⟩
  · exact ⟨_, .onQp (f := Part.cqHeadWrite n v) rfl here (cqHeadWrite_stored heard on hv), modQp_only .., qp_modQp_self ..⟩
  · exact ⟨_, .onQp (f := Part.sqTailWrite n v) rfl here (sqTailWrite_error heard bad), modQp_signal ..⟩
  · exact ⟨_, .onQp (f := Part.cqHeadWrite n v) rfl here (cqHeadWrite_error heard bad), modQp_signal ..⟩
  · exact ⟨_, .onQp (f := Part.qpCommit n) rfl here rfl, modQp_only .., qpCommit_pends ok irq⟩
  · exact ⟨_, .onQp (f := Part.qpCommit n) rfl here rfl, modQp_only .., qpCommit_takesEffect ok irq⟩
  · exact ⟨_, .onQp (f := Part.qpCommit n) rfl here rfl, modQp_only .., qpCommit_refused bad⟩
  · obtain ⟨frame, late⟩ := dspCommit_accepted ok
    refine ⟨_, rfl, frame, fun free => ?_, fun busy k hk => dspCommit_keeps ok busy hk⟩
    rw [late, if_pos ((allFree_iff p).2 free)]
  · exact .of_onPart (g := Part.dspCommit) rfl (dspCommit_refused bad)
  · obtain ⟨frame, pair⟩ := modQp_signal g.toNat f (p.qp g.toNat).st.eff.vector.toNat (fun q => { q with unsignalled := 0 }) p
    refine ⟨_, .of_onPart (g := Part.coalExpiry g.toNat) rfl (coalExpiry_eq owner count time), frame, pair, fun mask fnMask drain post => ?_⟩
    rw [signal_sends (p := p.modQp _ _) drain mask fnMask post]
    rfl
  · exact .of_onPart (g := Part.coalExpiry g.toNat) rfl (coalExpiry_quiet quiet)

end Sys2Proof.Safety
end

section
/-! SUPPORT. What the end of a context settles, what a drain and a function's reset change, and what they leave; and the statement on
resets of functions and of the link (R46, R47, R66 to R74, R395). -/

namespace Sys2Proof.Safety

open Sys2Proof.Machine

/-! ### A context's end (R69, R398, R448) -/

/-- Between `p` and `q` contexts may have ended: functions that drained have drained, FREEZING tenants and a freezing part are frozen, and
events are signalled. -/
structure Settled (p q : Part) : Prop where
  rest   : q = { p with
    hif := { p.hif with funcs := q.hif.funcs, out := q.hif.out }, tnt := { p.tnt with states := q.tnt.states }
    sys := { p.sys with freezing := q.sys.freezing, leftMode := q.sys.leftMode, mode := q.sys.mode }
    mir := { p.mir with statusEvent := q.mir.statusEvent } }
  func   : ∀ n, q.fn n = { p.fn n with draining := (q.fn n).draining, vectors := (q.fn n).vectors }
  issued : p.hif.out <+: q.hif.out

theorem Settled.refl (p : Part) : Settled p p := ⟨rfl, fun _ => rfl, List.prefix_rfl⟩

theorem Settled.trans {p q r : Part} (h : Settled p q) (k : Settled q r) : Settled p r where
  rest := by rw [k.rest, h.rest]
  func n := by rw [k.func, h.func]
  issued := h.issued.trans k.issued

theorem Settled.dsp {p q : Part} (h : Settled p q) : q.dsp = p.dsp := by rw [h.rest]
theorem Settled.slc {p q : Part} (h : Settled p q) : q.slc = p.slc := by rw [h.rest]
theorem Settled.adm {p q : Part} (h : Settled p q) : q.tnt.adm = p.tnt.adm := by rw [h.rest]

theorem Signalled.settled {p q : Part} (h : Signalled p q) : Settled p q where
  rest := by rw [h.rest]
  func n := by rw [h.func]
  issued := h.issued

/-- The drain flag of a function written. -/
theorem setDraining_settled (p : Part) (n : Nat) (b : Bool) : Settled p (p.modFn n fun f => { f with draining := b }) := by
  refine ⟨rfl, fun m => ?_, List.prefix_rfl⟩
  by_cases h : m = n
  · rw [h, fn_modFn_self]
  · rw [fn_modFn_other _ _ h]

/-- What waits for a function's last context: the end of its drain, and its tenant's freeze (R69, R398). -/
def lastLeft (n : Nat) (p : Part) : Part :=
  let p := p.when (p.fn n).draining fun p =>
    ((p.modFn n fun f => { f with draining := false }).signal n 0).when (n != 0) (Part.signal 0 0)
  p.when (p.tnt.states.get 0 n == 2 && !(p.fn n).wedged) fun p =>
    (p.modTnt fun t => { t with states := t.states.set 0 n 3 }).signal 0 0

/-- What waits for the part's last context: the end of its freeze (R448). -/
def freezeEnds (p : Part) : Part :=
  if p.sys.freezing && (p.dsp.ctxs.all fun c =>
      c.2.state == .free || (p.fn c.2.fn).wedged || (c.2.state == .queued && decide (4096 ≤ c.2.qp))) then
    p.modSys fun s => { s with freezing := false, leftMode := s.mode, mode := .frozen }
  else p

theorem settle_eq (n : Nat) (p : Part) :
    p.settle n = Part.pairWatch freezeEnds (if (p.ctxsOf n).isEmpty then lastLeft n p else p) := rfl

theorem lastLeft_settled (n : Nat) (p : Part) : Settled p (lastLeft n p) := by
  unfold lastLeft
  refine .trans (when_keeps .refl p fun _ => ?_) (when_keeps .refl _ fun _ => ?_)
  · exact ((setDraining_settled p n false).trans (signal_signalled n 0 _).settled).trans
      (when_keeps .refl _ fun _ => (signal_signalled 0 0 _).settled)
  · exact .trans (q := Part.modTnt _ _) ⟨rfl, fun _ => rfl, List.prefix_rfl⟩ (signal_signalled 0 0 _).settled

/-- Between `p` and `q` the part may have entered FROZEN: of the functions only PBA bits have changed. -/
structure Frozen (p q : Part) : Prop where
  settled : Settled p q
  tnt     : q.tnt = p.tnt
  func    : ∀ n, q.fn n = { p.fn n with vectors := (q.fn n).vectors }

theorem freezeEnds_frozen (p : Part) : Frozen p (freezeEnds p) := by
  unfold freezeEnds
  split
  · exact ⟨⟨rfl, fun _ => rfl, List.prefix_rfl⟩, rfl, fun _ => rfl⟩
  · exact ⟨.refl p, rfl, fun _ => rfl⟩

theorem pairWatch_frozen {g : Part → Part} {p : Part} (h : Frozen p (g p)) : Frozen p (p.pairWatch g) := by
  have event : Settled (g p) ((g p).modMir fun m => { m with statusEvent := true }) := ⟨rfl, fun _ => rfl, List.prefix_rfl⟩
  have sent := signal_signalled 0 2 ((g p).modMir fun m => { m with statusEvent := true })
  simp only [Part.pairWatch]
  split
  · exact h
  · refine ⟨(h.settled.trans event).trans sent.settled, ?_, fun n => ?_⟩
    · rw [sent.rest]
      exact h.tnt
    · have kept : ((g p).modMir fun m => { m with statusEvent := true }).fn n = (g p).fn n := rfl
      rw [sent.func, kept, h.func]

theorem settle_settled (n : Nat) (p : Part) : Settled p (p.settle n) := by
  rw [settle_eq]
  refine .trans ?_ (pairWatch_frozen (freezeEnds_frozen _)).settled
  split
  · exact lastLeft_settled n p
  · exact .refl p

/-- While a function holds contexts, only the part's freeze can end. -/
theorem settle_frozen {n : Nat} {p : Part} (held : p.ctxsOf n ≠ []) : Frozen p (p.settle n) := by
  rw [settle_eq, if_neg (by simpa using held)]
  exact pairWatch_frozen (freezeEnds_frozen p)

/-! ### Drains (R69) -/

/-- Between `p` and `q` contexts have been freed or marked: they leave their pans and engines, and what waits for them is settled. -/
structure Drained (p q : Part) : Prop where
  rest   : q = { p with
    hif := { p.hif with funcs := q.hif.funcs, out := q.hif.out }, tnt := { p.tnt with states := q.tnt.states }
    sys := { p.sys with freezing := q.sys.freezing, leftMode := q.sys.leftMode, mode := q.sys.mode }
    mir := { p.mir with statusEvent := q.mir.statusEvent }
    dsp := { p.dsp with ctxs := q.dsp.ctxs }, pan := q.pan, rke := q.rke }
  func   : ∀ n, q.fn n = { p.fn n with draining := (q.fn n).draining, vectors := (q.fn n).vectors }
  issued : p.hif.out <+: q.hif.out

theorem Drained.refl (p : Part) : Drained p p := ⟨rfl, fun _ => rfl, List.prefix_rfl⟩

theorem Drained.trans {p q r : Part} (h : Drained p q) (k : Drained q r) : Drained p r where
  rest := by rw [k.rest, h.rest]
  func n := by rw [k.func, h.func]
  issued := h.issued.trans k.issued

theorem Settled.drained {p q : Part} (h : Settled p q) : Drained p q where
  rest := by rw [h.rest]
  func := h.func
  issued := h.issued

theorem modCtx_drained (n : Nat) (g : Ctx → Ctx) (p : Part) : Drained p (p.modCtx n g) := ⟨rfl, fun _ => rfl, List.prefix_rfl⟩

theorem unbind_drained (n : Nat) (p : Part) : Drained p (p.unbind n) := by
  unfold Part.unbind
  split
  · exact ⟨rfl, fun _ => rfl, List.prefix_rfl⟩
  · exact .refl p

theorem freeCtx_drained (n : Nat) (p : Part) : Drained p (p.freeCtx n) :=
  have freed : Drained (p.unbind n) ((p.unbind n).modDsp fun d => { d with ctxs := d.ctxs.set {} n {} }) :=
    ⟨rfl, fun _ => rfl, List.prefix_rfl⟩
  ((unbind_drained n p).trans freed).trans (settle_settled _ _).drained

theorem drainCtx_drained (x : Nat × Ctx) (p : Part) : Drained p (p.drainCtx x) := by
  have unqueued : Drained p (p.modRke fun r => { r with engines := r.engines.mapV {} fun _ e =>
      { e with queue := e.queue.filter fun o => o.owner != .ctx x.1 } }) := ⟨rfl, fun _ => rfl, List.prefix_rfl⟩
  unfold Part.drainCtx
  split
  · exact .refl p
  iterate 4 exact unqueued.trans (freeCtx_drained ..)
  · split
    · exact modCtx_drained ..
    · exact freeCtx_drained ..
  iterate 2 exact modCtx_drained ..

theorem drainStart_drained (n : Nat) (p : Part) : Drained p (p.drainStart n) := by
  have started : Drained p ((p.modFn n fun f => { f with draining := true }).when (n != 0) (Part.signal 0 0)) :=
    ((setDraining_settled p n true).trans (when_keeps .refl _ fun _ => (signal_signalled 0 0 _).settled)).drained
  rw [Part.drainStart]
  split
  · exact .refl p
  · exact (started.trans (foldl_keeps .refl .trans _ (fun q x _ => drainCtx_drained x q) _)).trans (settle_settled ..).drained

/-! ### The scope of a function's reset (R68) -/

/-- What no reset of a function or of the link changes: quotas and queue pairs of the tenants, access rules, flash, both memories of
the cores, and, with no ceremony session open, the key slots. -/
structure BeyondReset (p q : Part) : Prop where
  tenants : q.tnt.t = p.tnt.t
  acu     : q.acu = p.acu
  nvm     : q.nvm = p.nvm
  priv    : q.priv = p.priv
  ccMem   : q.ccMem = p.ccMem
  noKeys  : p.sys.session.active = false → q.slc = p.slc ∧ q.sys.session.active = false

theorem BeyondReset.refl (p : Part) : BeyondReset p p := ⟨rfl, rfl, rfl, rfl, rfl, fun h => ⟨rfl, h⟩⟩

theorem BeyondReset.trans {p q r : Part} (h : BeyondReset p q) (k : BeyondReset q r) : BeyondReset p r where
  tenants := k.tenants.trans h.tenants
  acu := k.acu.trans h.acu
  nvm := k.nvm.trans h.nvm
  priv := k.priv.trans h.priv
  ccMem := k.ccMem.trans h.ccMem
  noKeys idle :=
    have ⟨slc, stays⟩ := h.noKeys idle
    have ⟨slc', stays'⟩ := k.noKeys stays
    ⟨slc'.trans slc, stays'⟩

/-- A reset of functions: what lies beyond it is kept, and of the link only the functions and what is issued change. -/
structure FunctionsReset (p q : Part) : Prop where
  beyond : BeyondReset p q
  link   : q.hif = { p.hif with funcs := q.hif.funcs, out := q.hif.out }

theorem FunctionsReset.refl (p : Part) : FunctionsReset p p := ⟨.refl p, rfl⟩

theorem FunctionsReset.trans {p q r : Part} (h : FunctionsReset p q) (k : FunctionsReset q r) : FunctionsReset p r where
  beyond := h.beyond.trans k.beyond
  link := by rw [k.link, h.link]

theorem Drained.functionsReset {p q : Part} (h : Drained p q) : FunctionsReset p q := by
  have sys : q.sys.session = p.sys.session := by rw [h.rest]
  refine ⟨⟨?_, ?_, ?_, ?_, ?_, fun idle => ⟨?_, by rw [sys, idle]⟩⟩, ?_⟩ <;> rw [h.rest]

theorem Drained.mbox {p q : Part} (h : Drained p q) : q.tnt.mbox = p.tnt.mbox := by rw [h.rest]

/-- Between `p` and `q` a ceremony session has been undone (R473). -/
def SessionLeft (p q : Part) : Prop :=
  q = { p with slc := q.slc, tnt := { p.tnt with counted := q.tnt.counted }, mir := q.mir, sys := q.sys, evr := q.evr, bat := q.bat }

theorem SessionLeft.refl (p : Part) : SessionLeft p p := rfl

theorem SessionLeft.trans {p q r : Part} (h : SessionLeft p q) (k : SessionLeft q r) : SessionLeft p r := by
  unfold SessionLeft at *
  rw [k, h]

theorem Recorded.sessionLeft {p q : Part} (h : Recorded p q) : SessionLeft p q := by
  unfold SessionLeft
  rw [h]

theorem checkTags_sessionLeft (is : List Nat) (p : Part) : SessionLeft p (p.checkTags is) := by
  refine foldl_keeps .refl .trans is (fun q i _ => when_keeps .refl q fun _ => ?_) p
  unfold Part.markBad
  split
  · exact .refl q
  · exact .trans (q := Part.modSlc _ _) (by exact rfl) (Recorded.post ..).sessionLeft

theorem ledger_sessionLeft (items : List Byte) (w : Option Nat) (c : Option (Nat × BitVec 64)) (p : Part) : SessionLeft p (p.ledger items w c) := by
  unfold Part.ledger
  split
  · exact .refl p
  split <;> exact rfl

theorem undoSession_sessionLeft (p : Part) : SessionLeft p p.undoSession := by
  simp only [Part.undoSession]
  split
  · exact .refl p
  · refine .trans (.trans (.trans ?_ (when_keeps .refl _ fun _ => ?_)) (when_keeps .refl _ fun _ => ledger_sessionLeft ..)) (by exact rfl)
    · split <;> exact rfl
    · exact (checkTags_sessionLeft ..).trans (by exact rfl)

theorem undoSession_idle {p : Part} (idle : p.sys.session.active = false) : p.undoSession = p := by
  simp [Part.undoSession, idle]

/-- Undoing the session where it is the function's. -/
theorem sessionUndone (n : Nat) (p : Part) :
    let q := p.when (p.sys.session.active && p.sys.session.fn == n) Part.undoSession
    FunctionsReset p q ∧ q.tnt.mbox = p.tnt.mbox ∧ ∀ m, q.fn m = p.fn m := by
  intro q
  have undone : SessionLeft p q := when_keeps .refl p fun _ => undoSession_sessionLeft p
  have idle : p.sys.session.active = false → q = p := fun idle => by simp [q, idle]
  have hif : q.hif = p.hif := by rw [undone]
  refine ⟨⟨⟨?_, ?_, ?_, ?_, ?_, fun h => ?_⟩, ?_⟩, ?_, fun m => ?_⟩
  iterate 5 rw [undone]
  · rw [idle h]
    exact ⟨rfl, h⟩
  · rw [hif]
  · rw [undone]
  · rw [Part.fn, hif, Part.fn]

/-- What a reset leaves of a function: its registers and its table cleared, its interface under R66. -/
def resetFn (f : Func) : Func :=
  { f with vectors := [], fnMask := false, cfg := [], bme := false, mse := false, d3hot := false
           tdi := if f.tdi = .locked ∨ f.tdi = .run then .error else .unlocked }

/-- What a reset leaves of a function's side of its mailbox; the manager has none (R395). -/
def resetBox (n : Nat) (t : Tab Mbox) : Tab Mbox :=
  if n = 0 then t else t.upd {} n fun m => { m with up := [], upFull := false, downFull := false, flushed := true }

theorem flrScope_spec (n : Nat) (p : Part) :
    let q := p.flrScope n
    FunctionsReset p q ∧ q.tnt.mbox = resetBox n p.tnt.mbox ∧ q.fn n = resetFn (p.fn n) := by
  intro q
  obtain ⟨reset, mbox, func⟩ := sessionUndone n p
  refine ⟨reset.trans ⟨⟨rfl, rfl, rfl, rfl, rfl, fun h => ⟨rfl, h⟩⟩, rfl⟩, ?_, ?_⟩
  · rw [← mbox]
    rfl
  · rw [← func n]
    exact fn_modFn_self ..

theorem vfFlr_reset (n : Nat) (p : Part) : FunctionsReset p (p.vfFlr n) :=
  (flrScope_spec n p).1.trans (drainStart_drained n _).functionsReset

/-- The reset of one virtual function: its registers, its interface and its side of the mailbox (R66, R68, R395). -/
theorem vfFlr_spec (n : Nat) (p : Part) :
    let q := p.vfFlr n
    (q.fn n).cfg = [] ∧ (q.fn n).bme = false ∧
      (q.fn n).tdi = (if (p.fn n).tdi = .locked ∨ (p.fn n).tdi = .run then .error else .unlocked) ∧ q.tnt.mbox = resetBox n p.tnt.mbox := by
  intro q
  obtain ⟨-, mbox, func⟩ := flrScope_spec n p
  have drained := drainStart_drained n (p.flrScope n)
  refine ⟨?_, ?_, ?_, drained.mbox.trans mbox⟩ <;> rw [show q.fn n = _ from drained.func n, func] <;> rfl

/-- Clearing VF Enable (R47): the functions are reset, and the bit is clear. -/
theorem vfDisable_spec (p : Part) : BeyondReset p p.vfDisable ∧
    p.vfDisable.hif = { p.hif with funcs := p.vfDisable.hif.funcs, out := p.vfDisable.hif.out, vfEnable := false } := by
  unfold Part.vfDisable
  split
  · next off =>
    refine ⟨.refl p, ?_⟩
    rw [show p.hif = { p.hif with vfEnable := false } by rw [← (by simpa using off : p.hif.vfEnable = false)]]
  · have reset : FunctionsReset p ((List.range p.hif.numVfs.toNat).foldl (fun p v => p.vfFlr (v + 1)) p) :=
      foldl_keeps .refl .trans _ (fun q v _ => vfFlr_reset (v + 1) q) p
    refine ⟨reset.beyond.trans ⟨rfl, rfl, rfl, rfl, rfl, fun h => ⟨rfl, h⟩⟩, ?_⟩
    rw [Part.modHif_hif, reset.link]

/-- The manager side of every mailbox is clear (R395). -/
theorem pfMailboxes_clear (p : Part) (n : Nat) :
    p.pfMailboxes.tnt.mbox.get {} n = { p.tnt.mbox.get {} n with down := [], downFull := false, acked := false, flushed := false } :=
  Tab.get_mapV _ _ _ _ rfl

/-- A PF FLR (R68): VF Enable, the fields of the SR-IOV capability, the manager side of the mailboxes. -/
theorem pfFlr_spec (p : Part) :
    BeyondReset p p.pfFlr ∧
      p.pfFlr.hif = { p.hif with
        funcs := p.pfFlr.hif.funcs, out := p.pfFlr.hif.out, vfEnable := false, numVfs := 0, ari := false, vfMse := false } ∧
      p.pfFlr.tnt.mbox = p.vfDisable.pfMailboxes.tnt.mbox := by
  obtain ⟨beyond, hif⟩ := vfDisable_spec p
  obtain ⟨scope, mbox, -⟩ := flrScope_spec 0 p.vfDisable.pfMailboxes
  have cleared : BeyondReset p p.vfDisable.pfMailboxes := beyond.trans ⟨rfl, rfl, rfl, rfl, rfl, fun h => ⟨rfl, h⟩⟩
  have drained := drainStart_drained 0
    ((p.vfDisable.pfMailboxes.flrScope 0).modHif fun h => { h with numVfs := 0, ari := false, vfMse := false })
  have fields : BeyondReset (p.vfDisable.pfMailboxes.flrScope 0)
      ((p.vfDisable.pfMailboxes.flrScope 0).modHif fun h => { h with numVfs := 0, ari := false, vfMse := false }) :=
    ⟨rfl, rfl, rfl, rfl, rfl, fun h => ⟨rfl, h⟩⟩
  refine ⟨((cleared.trans scope.beyond).trans fields).trans drained.functionsReset.beyond, ?_, drained.mbox.trans mbox⟩
  rw [Part.pfFlr, drained.functionsReset.link, Part.modHif_hif, scope.link]
  rw [show p.vfDisable.pfMailboxes.hif = p.vfDisable.hif from rfl, hif]

/-! ### The link's reset, and a drain's time-out -/

/-- The functions that are reset though none of them exists any more (R68). -/
def staleReset (p : Part) (q : Part) : Part :=
  (List.range 1024).foldl (fun q v => q.when (!p.fnExists (v + 1) && decide (q.fn (v + 1) ≠ {})) (Part.vfFlr (v + 1))) q

theorem staleReset_reset (p q : Part) : FunctionsReset q (staleReset p q) :=
  foldl_keeps .refl .trans _ (fun q v _ => when_keeps .refl q fun _ => vfFlr_reset (v + 1) q) q

theorem hostLinkReset_eq (p : Part) : p.hostLinkReset = (staleReset p p.pfFlr).modHif fun h =>
    { h with linkUp := false, degraded := false, flit := false, rate := 0, width := 0, ide := [], spdm := false, doeOut := []
             bus := 0, aer := 0
             statusChg := h.statusChg || h.linkUp || h.degraded || h.flit } := rfl

theorem hostLinkReset_spec (p : Part) :
    BeyondReset p p.hostLinkReset ∧ p.hostLinkReset.hif.linkUp = false ∧ p.hostLinkReset.hif.rate = 0 ∧ p.hostLinkReset.hif.width = 0 ∧
      p.hostLinkReset.hif.ide = [] ∧ p.hostLinkReset.hif.spdm = false ∧ p.hostLinkReset.hif.doeOut = [] ∧ p.hostLinkReset.hif.aer = 0 ∧
      p.hostLinkReset.hif.vfEnable = false ∧ p.hostLinkReset.hif.numVfs = 0 := by
  obtain ⟨beyond, hif, -⟩ := pfFlr_spec p
  have stale := staleReset_reset p p.pfFlr
  have numbers : (staleReset p p.pfFlr).hif.vfEnable = false ∧ (staleReset p p.pfFlr).hif.numVfs = 0 := by
    rw [stale.link, hif]
    exact ⟨rfl, rfl⟩
  have kept := beyond.trans stale.beyond
  rw [hostLinkReset_eq]
  generalize staleReset p p.pfFlr = r at kept numbers
  exact ⟨⟨kept.tenants, kept.acu, kept.nvm, kept.priv, kept.ccMem, kept.noKeys⟩, rfl, rfl, rfl, rfl, rfl, rfl, rfl, numbers⟩

/-- The function that a drain leaves WEDGED, before what waits for the part is settled (R74). -/
def wedge (n : Nat) (p : Part) : Part :=
  let p := p.funcWatch (Part.modFn n fun f => { f with draining := false, wedged := true })
  let p := p.modHif fun h => { h with wedgedChg := true, statusChg := h.statusChg || n == 0 }
  let p := p.post 0x2002#16 (if n = 0 then 0x400#32 else BitVec.ofNat 32 (n - 1)) 0
  p.when (n != 0) (Part.signal 0 0)

theorem drainTimeout_eq {p : Part} {n : Nat} (drain : (p.fn n).draining = true) (held : p.ctxsOf n ≠ []) :
    p.drainTimeout n = (wedge n p).settle n :=
  if_pos (by simp [drain, held])

theorem drainTimeout_none {p : Part} {n : Nat} (h : (p.fn n).draining = false ∨ p.ctxsOf n = []) : p.drainTimeout n = p :=
  if_neg (by rcases h with h | h <;> simp [h])

theorem wedge_spec (n : Nat) (p : Part) :
    let q := wedge n p
    Recorded { p with hif := q.hif } q ∧ q.hif.wedgedChg = true ∧ (q.fn n).wedged = true ∧ (q.fn n).draining = false := by
  intro q
  let marked := p.modFn n fun f => { f with draining := false, wedged := true }
  let noted := (p.funcWatch (Part.modFn n fun f => { f with draining := false, wedged := true })).modHif fun h =>
    { h with wedgedChg := true, statusChg := h.statusChg || n == 0 }
  have watched : Signalled marked _ := funcWatch_signalled (Part.modFn n fun f => { f with draining := false, wedged := true }) p
  have recorded := Recorded.post 0x2002#16 (if n = 0 then 0x400#32 else BitVec.ofNat 32 (n - 1)) 0 noted
  have sent : Signalled (noted.post 0x2002#16 (if n = 0 then 0x400#32 else BitVec.ofNat 32 (n - 1)) 0) q :=
    when_keeps .refl _ fun _ => signal_signalled 0 0 _
  have func : (noted.post 0x2002#16 (if n = 0 then 0x400#32 else BitVec.ofNat 32 (n - 1)) 0).fn n = noted.fn n := by
    rw [Part.fn, recorded.hif, Part.fn]
  have state : (noted.fn n).wedged = true ∧ (noted.fn n).draining = false := by
    have same : noted.fn n = (p.funcWatch (Part.modFn n fun f => { f with draining := false, wedged := true })).fn n := rfl
    rw [same, watched.wedged, watched.draining, fn_modFn_self]
    exact ⟨rfl, rfl⟩
  refine ⟨?_, ?_, ?_, ?_⟩
  · have link : LinkOnly p noted := (funcWatch_linkOnly (modFn_linkOnly ..)).trans (modHif_linkOnly ..)
    unfold Recorded LinkOnly at *
    rw [show q = _ from sent.onlyLink, recorded, link]
  · rw [sent.rest, recorded.hif]
    rfl
  · rw [sent.wedged, func, state.1]
  · rw [sent.draining, func, state.2]

/-- A drain with contexts left at its time-out: the function is WEDGED and drains no more (R69, R74). -/
theorem drainTimeout_wedges {p : Part} {n : Nat} (drain : (p.fn n).draining = true) (held : p.ctxsOf n ≠ []) :
    let q := p.drainTimeout n
    (q.fn n).wedged = true ∧ (q.fn n).draining = false ∧ q.hif.wedgedChg = true ∧ q.dsp = p.dsp ∧ q.tnt = p.tnt ∧ q.slc = p.slc := by
  intro q
  obtain ⟨recorded, changed, wedged, drained⟩ := wedge_spec n p
  have dsp : (wedge n p).dsp = p.dsp := recorded.dsp
  have frozen : Frozen (wedge n p) ((wedge n p).settle n) := settle_frozen (by rwa [Part.ctxsOf, dsp])
  rw [show q = _ from drainTimeout_eq drain held]
  refine ⟨?_, ?_, ?_, frozen.settled.dsp.trans dsp, frozen.tnt.trans recorded.tnt, frozen.settled.slc.trans recorded.slc⟩
  · rw [frozen.func]
    exact wedged
  · rw [frozen.func]
    exact drained
  · rw [frozen.settled.rest]
    exact changed

/-- What a reset keeps, in the statement's order. -/
theorem BeyondReset.kept {p q : Part} (h : BeyondReset p q) : q.tnt.t = p.tnt.t ∧ q.acu = p.acu ∧ q.nvm = p.nvm ∧ q.priv = p.priv ∧
    q.ccMem = p.ccMem ∧ (p.sys.session.active = false → q.slc = p.slc) :=
  ⟨h.tenants, h.acu, h.nvm, h.priv, h.ccMem, fun idle => (h.noKeys idle).1⟩

/-- Settles O13, command by command. -/
theorem functionAndLinkResetsClearTheirScope : Obligations.FunctionAndLinkResetsClearTheirScope := by
  intro s p
  refine ⟨?_, ?_, fun v gone => ?_, fun v here => ?_, fun shut => ?_, fun opened => ?_, fun n none => ?_, fun n drain held => ?_⟩
  · obtain ⟨beyond, link⟩ := hostLinkReset_spec p
    obtain ⟨tenants, acu, nvm, priv, ccMem, keys⟩ := beyond.kept
    exact ⟨p.hostLinkReset, .of_onPart (g := Part.hostLinkReset) rfl rfl, ⟨tenants, acu, nvm, priv, ccMem, keys⟩, link⟩
  · obtain ⟨beyond, hif, mbox⟩ := pfFlr_spec p
    refine ⟨_, rfl, beyond.kept, ?_, ?_, ?_, ?_, ?_, fun n => ?_⟩
    iterate 5 rw [hif]
    rw [mbox, pfMailboxes_clear]
    exact ⟨rfl, rfl, rfl⟩
  · refine .of_onPart (g := Part.when (p.fnExists (v.val + 1)) (Part.vfFlr (v.val + 1))) rfl ?_
    rw [gone, Part.when_false]
  · obtain ⟨beyond, link⟩ := vfFlr_reset (v.val + 1) p
    obtain ⟨cfg, bme, tdi, mbox⟩ := vfFlr_spec (v.val + 1) p
    have effect : p.when (p.fnExists (v.val + 1)) (Part.vfFlr (v.val + 1)) = p.vfFlr (v.val + 1) := by rw [here, Part.when_true]
    refine ⟨_, .of_onPart (g := Part.when (p.fnExists (v.val + 1)) (Part.vfFlr (v.val + 1))) rfl effect, beyond.kept, ?_, ?_, cfg, bme,
      tdi, ?_⟩
    · rw [link]
    · rw [link]
    · rw [mbox, resetBox, if_neg (Nat.succ_ne_zero _), Tab.get_upd_self]
      exact ⟨rfl, rfl, rfl⟩
  · refine .of_onPart (g := Part.when (p.cfgOpen 0) Part.vfDisable) rfl ?_
    rw [shut, Part.when_false]
  · obtain ⟨beyond, hif⟩ := vfDisable_spec p
    have effect : p.when (p.cfgOpen 0) Part.vfDisable = p.vfDisable := by rw [opened, Part.when_true]
    refine ⟨_, .of_onPart (g := Part.when (p.cfgOpen 0) Part.vfDisable) rfl effect, beyond.kept, ?_, ?_⟩ <;> rw [hif]
  · exact .of_onPart (g := Part.drainTimeout n) rfl (drainTimeout_none none)
  · exact ⟨_, rfl, drainTimeout_wedges drain held⟩

end Sys2Proof.Safety
end

section
/-! SUPPORT. The administrative channel (R386 to R391): what writing a command does, refusal by refusal, up to its run. -/

namespace Sys2Proof.Safety

open Sys2Proof.Machine

@[simp] theorem adm_modAdm_self (p : Part) (n : Nat) (g : Adm → Adm) : (p.modAdm n g).adm n = g (p.adm n) := Tab.get_upd_self ..

theorem adm_modAdm_other (p : Part) {n m : Nat} (g : Adm → Adm) (h : m ≠ n) : (p.modAdm n g).adm m = p.adm m :=
  Tab.get_upd_other _ _ _ _ _ h

/-- Two changes of one channel are one. -/
theorem modAdm_modAdm (p : Part) (n : Nat) (g h : Adm → Adm) : (p.modAdm n g).modAdm n h = p.modAdm n fun a => h (g a) := by
  simp only [Part.modAdm, Part.modTnt, Tab.upd_upd]

/-! ### The shared checks (R390) -/

/-- A command of the manager alone, given by a tenant. -/
def Foreign (k : Part.AdmKind) (c : AdmCmd) : Prop := k.mgr = true ∧ c.fn.val ≠ 0

/-- An octet of ARGS that the command does not define, or a target of a tenant, is not zero. -/
def Reserved (k : Part.AdmKind) (c : AdmCmd) : Prop :=
  (∃ j, j < 96 ∧ c.args.getD j 0 ≠ 0 ∧ j ∉ k.used) ∨ (c.fn.val ≠ 0 ∧ c.head.target ≠ 0)

/-- A buffer off its alignment, too long, or shorter than what the command reads. -/
abbrev Outside (k : Part.AdmKind) (c : AdmCmd) : Prop :=
  c.head.len.toNat % 4096 ≠ 0 ∨ 0x1000000 < c.head.len.toNat ∨ c.head.buf.toNat % 4096 ≠ 0 ∨ c.head.len.toNat < k.reads

/-- The read of the buffer has failed. -/
def Unread (k : Part.AdmKind) (c : AdmCmd) : Prop := 0 < k.reads ∧ c.buf = none

theorem getElem?_fit (n : Nat) (bs : List Byte) (j : Nat) : (Pk.fit n bs)[j]? = if j < n then some (bs.getD j 0) else none := by
  rw [Pk.fit, Crypto.padR, List.getElem?_take]
  split
  · next hj =>
    rw [List.getElem?_append]
    split
    · next inside => simp [inside]
    · next beyond =>
      rw [List.getElem?_replicate, if_pos (by omega), List.getD_eq_getElem?_getD, List.getElem?_eq_none (by omega)]
      rfl
  · rfl

theorem reserved_iff (k : Part.AdmKind) (c : AdmCmd) :
    (((Pk.fit 96 c.args).zipIdx.any fun x => x.1 != 0 && !k.used.contains x.2) || (c.fn.val != 0 && c.head.target != 0)) = true ↔
      Reserved k c := by
  have octets : (((Pk.fit 96 c.args).zipIdx.any fun x => x.1 != 0 && !k.used.contains x.2) = true) ↔
      ∃ j, j < 96 ∧ c.args.getD j 0 ≠ 0 ∧ j ∉ k.used := by
    simp only [List.any_eq_true, List.mem_zipIdx_iff_getElem?, getElem?_fit, Bool.and_eq_true, bne_iff_ne, Bool.not_eq_true',
      List.contains_eq_mem, decide_eq_false_iff_not]
    constructor
    · rintro ⟨⟨v, j⟩, listed, nonzero, unused⟩
      split at listed
      · next hj => exact ⟨j, hj, by rwa [Option.some.inj listed], unused⟩
      · contradiction
    · rintro ⟨j, hj, nonzero, unused⟩
      exact ⟨(c.args.getD j 0, j), if_pos hj, nonzero, unused⟩
  rw [Bool.or_eq_true, octets, Bool.and_eq_true, bne_iff_ne, bne_iff_ne]
  rfl

section
variable {k : Part.AdmKind} {c : AdmCmd}

theorem foreign_iff : (k.mgr && c.fn.val != 0) = true ↔ Foreign k c := by simp [Foreign]

theorem admFault_foreign (h : Foreign k c) : Part.admFault k c = some (0x10, 0x0A) := by
  rw [Part.admFault, if_pos (foreign_iff.2 h)]

theorem admFault_reserved (own : ¬ Foreign k c) (h : Reserved k c) : Part.admFault k c = some (0x10, 0x01) := by
  rw [Part.admFault, if_neg (mt foreign_iff.1 own), if_pos ((reserved_iff k c).2 h)]

section
variable (own : ¬ Foreign k c) (zero : ¬ Reserved k c)
include own zero

theorem admFault_outside (h : Outside k c) : Part.admFault k c = some (0x10, 0x0A) := by
  rw [Part.admFault, if_neg (mt foreign_iff.1 own), if_neg (mt (reserved_iff k c).1 zero), if_pos h]

theorem admFault_overflow (within : ¬ Outside k c) (h : c.head.len.toNat < k.writes) : Part.admFault k c = some (0x10, 0x06) := by
  rw [Part.admFault, if_neg (mt foreign_iff.1 own), if_neg (mt (reserved_iff k c).1 zero), if_neg within, if_pos h]

theorem admFault_unread (within : ¬ Outside k c) (fits : k.writes ≤ c.head.len.toNat) (h : Unread k c) :
    Part.admFault k c = some (0x10, 0x0C) := by
  rw [Part.admFault, if_neg (mt foreign_iff.1 own), if_neg (mt (reserved_iff k c).1 zero), if_neg within, if_neg (Nat.not_lt.2 fits),
    if_pos ⟨h.1, by rw [h.2]; rfl⟩]

theorem admFault_none (within : ¬ Outside k c) (fits : k.writes ≤ c.head.len.toNat) (read : ¬ Unread k c) :
    Part.admFault k c = none := by
  rw [Part.admFault, if_neg (mt foreign_iff.1 own), if_neg (mt (reserved_iff k c).1 zero), if_neg within, if_neg (Nat.not_lt.2 fits),
    if_neg fun h => read ⟨h.1, by simpa using h.2⟩]

end

end

/-! ### The channel busy (R388, R391) -/

theorem modCtx_set (p : Part) (i : Nat) (g : Ctx → Ctx) : p.modCtx i g = p.modDsp fun d => { d with ctxs := d.ctxs.set {} i (g (p.ctx i)) } :=
  rfl

/-- The channel of a command BUSY with it, before it takes a context. -/
def admBusy (k : Part.AdmKind) (c : AdmCmd) (p : Part) : Part :=
  p.modAdm c.fn.val fun a => { a with busy := true, cmd := Part.admBlock k.op c, tag := c.head.tag, out := [] }

/-- The channel of a command BUSY with it, and its context taken. -/
def admTaken (k : Part.AdmKind) (c : AdmCmd) (p : Part) : Part :=
  { p with
    tnt := { p.tnt with adm := p.tnt.adm.upd {} c.fn.val fun a =>
      { a with busy := true, cmd := Part.admBlock k.op c, tag := c.head.tag, out := [], held := true, ctx := admCtx p c.fn.val } }
    dsp := { p.dsp with
      nextOrder := p.dsp.nextOrder + 1
      ctxs := p.dsp.ctxs.set {} (admCtx p c.fn.val) { state := .queued, fn := c.fn.val, qp := 4096 + c.fn.val
                                                      order := p.dsp.nextOrder, tag := c.head.tag, unit := some .secure
                                                      placed := true } } }

section
variable {k : Part.AdmKind} {c : AdmCmd} {body : Nat → Part → Option Part} {p : Part}

theorem admRow_shut (h : p.fnExists c.fn = false ∨ (p.fn c.fn).wedged = true ∨ (p.fn c.fn).draining = true) :
    p.admRow k c body = p := by
  simp only [Part.admRow]
  rw [if_pos (by simpa [or_assoc] using h)]

section
variable (here : p.fnExists c.fn = true) (sound : (p.fn c.fn).wedged = false) (kept : (p.fn c.fn).draining = false)
include here sound kept

/-- GO on a channel that has begun, or with another command while it waits (R388). -/
theorem admRow_again (busy : (p.adm c.fn).busy = true) (h : p.admBegun c.fn = true ∨ (p.adm c.fn).cmd ≠ Part.admBlock k.op c) :
    p.admRow k c body = p.modAdm c.fn fun a => { a with err := true } := by
  simp only [Part.admRow, here, sound, kept, busy]
  rw [if_neg (by simp), if_pos (by simpa using h)]

variable (idle : (p.adm c.fn).busy = false)
include idle

theorem admRow_idle : p.admRow k c body =
    if p.sys.mode = .quarantine then (admBusy k c p).modAdm c.fn fun a => { a with ended := some { status := 0x51, detail := 0 } }
    else if c.fn.val ≠ 0 ∧ (p.tnt.states.get 0 c.fn = 0 ∨ p.tnt.states.get 0 c.fn = 5) ∧ !p.admHeld then
      (admBusy k c p).modAdm c.fn fun a => { a with ended := some { status := 0x50, detail := 0 } }
    else
      let old := (admBusy k c p).admTake c.fn
      let i := (old.adm c.fn).ctx
      if !(old.adm c.fn).held || p.admHeld || (decide (0 < k.reads) && !p.mayPost c.fn) then old
      else Part.admRun k c body i old ((old.modCtx i fun x => { x with state := .running, classA := k.classA }).modAdm c.fn fun a =>
        { a with started := true, classA := k.classA }) := by
  simp only [Part.admRow, here, sound, kept, idle]
  rw [if_neg (by simp), if_neg (by simp)]
  rfl

theorem admRow_quarantine (mode : p.sys.mode = .quarantine) :
    p.admRow k c body = (admBusy k c p).modAdm c.fn fun a => { a with ended := some { status := 0x51, detail := 0 } } := by
  rw [admRow_idle here sound kept idle, if_pos mode]

variable (mode : p.sys.mode ≠ .quarantine)
include mode

theorem admRow_unserved (tenant : c.fn.val ≠ 0) (state : p.tnt.states.get 0 c.fn = 0 ∨ p.tnt.states.get 0 c.fn = 5)
    (serves : p.admHeld = false) :
    p.admRow k c body = (admBusy k c p).modAdm c.fn fun a => { a with ended := some { status := 0x50, detail := 0 } } := by
  rw [admRow_idle here sound kept idle, if_neg mode, if_pos ⟨tenant, state, by simp [serves]⟩]

variable (unheld : (p.adm c.fn).held = false)
  (served : c.fn.val = 0 ∨ (p.tnt.states.get 0 c.fn ≠ 0 ∧ p.tnt.states.get 0 c.fn ≠ 5) ∨ p.admHeld = true)
include unheld served

omit here sound kept idle mode unheld in
theorem served_not : ¬ (c.fn.val ≠ 0 ∧ (p.tnt.states.get 0 c.fn = 0 ∨ p.tnt.states.get 0 c.fn = 5) ∧ (!p.admHeld) = true) := by
  rintro ⟨tenant, state, serves⟩
  rcases served with manager | ⟨h0, h5⟩ | held
  · exact tenant manager
  · exact state.elim h0 h5
  · simp [held] at serves

omit here sound kept idle mode served in
theorem admBusy_unheld : ((admBusy k c p).adm c.fn).held = false := by
  rw [admBusy, adm_modAdm_self]
  exact unheld

/-- No context is free for the command, or INFLIGHT is used up: it waits without one (R391). -/
theorem admRow_crowded
    (full : p.freeCtxs c.fn = [] ∨ (p.tnt.t.get {} c.fn).st.eff.inflight.toNat ≤ (p.ctxsOf c.fn).length) :
    p.admRow k c body = admBusy k c p := by
  have untaken : (admBusy k c p).admTake c.fn = admBusy k c p := by
    rw [Part.admTake, if_neg (by simp [admBusy_unheld unheld])]
    rcases full with none | full
    · rw [show (admBusy k c p).freeCtxs c.fn = [] from none]
    · split
      · rfl
      · exact if_pos full
  rw [admRow_idle here sound kept idle, if_neg mode, if_neg (served_not served), untaken]
  exact if_pos (by rw [admBusy_unheld unheld]; rfl)

variable (free : p.freeCtxs c.fn ≠ []) (room : (p.ctxsOf c.fn).length < (p.tnt.t.get {} c.fn).st.eff.inflight.toNat)
include free room

omit here sound kept idle mode served in
theorem admTake_takes : (admBusy k c p).admTake c.fn = admTaken k c p := by
  obtain ⟨i, l, hl⟩ := List.exists_cons_of_ne_nil free
  have first : admCtx p c.fn = i := by rw [admCtx, hl, List.headD_cons]
  rw [Part.admTake, if_neg (by simp [admBusy_unheld unheld]), show (admBusy k c p).freeCtxs c.fn = i :: l from hl]
  have tag : ((admBusy k c p).adm c.fn).tag = c.head.tag := by rw [admBusy, adm_modAdm_self]
  change (if _ then _ else _) = _
  refine (if_neg (Nat.not_le.2 room)).trans ?_
  rw [tag, admTaken, first]
  simp only [admBusy, Part.modAdm, Part.modTnt, Part.modCtx, Part.modDsp, Tab.upd_upd]
  rfl

omit here sound kept idle mode unheld served free room in
theorem admTaken_adm : (admTaken k c p).adm c.fn = { p.adm c.fn with
    busy := true, cmd := Part.admBlock k.op c, tag := c.head.tag, out := [], held := true, ctx := admCtx p c.fn } := by
  simp only [admTaken, Part.adm, Tab.get_upd_self]

/-- A command that may not begin yet, or whose buffer may not be read yet, waits with its context (R73, R448). -/
theorem admRow_waits (h : p.admHeld = true ∨ (0 < k.reads ∧ p.mayPost c.fn = false)) : p.admRow k c body = admTaken k c p := by
  rw [admRow_idle here sound kept idle, if_neg mode, if_neg (served_not served), admTake_takes unheld free room]
  exact if_pos (by rcases h with held | ⟨reads, shut⟩ <;> simp_all)

/-- A command that waits for nothing is run, or refused, on its context. -/
theorem admRow_begins (serves : p.admHeld = false) (posts : 0 < k.reads → p.mayPost c.fn = true) :
    p.admRow k c body = Part.admRun k c body (admCtx p c.fn) (admTaken k c p) (admBegun p k c) := by
  have ctx : (admTaken k c p).ctx (admCtx p c.fn) = { state := .queued, fn := c.fn.val, qp := 4096 + c.fn.val, order := p.dsp.nextOrder
                                                      tag := c.head.tag, unit := some .secure, placed := true } := by
    simp only [admTaken, Part.ctx, Tab.get_set_self]
  have go : ¬ (!((admTaken k c p).adm c.fn).held || p.admHeld || (decide (0 < k.reads) && !p.mayPost c.fn)) = true := by
    rw [admTaken_adm, serves]
    simpa using posts
  have begun : (((admTaken k c p).modCtx (admCtx p c.fn) fun x => { x with state := .running, classA := k.classA }).modAdm c.fn fun a =>
      { a with started := true, classA := k.classA }) = admBegun p k c := by
    rw [modCtx_set, ctx]
    simp only [admTaken, admBegun, Part.modAdm, Part.modTnt, Part.modDsp, Tab.upd_upd, Tab.set_set]
  rw [admRow_idle here sound kept idle, if_neg mode, if_neg (served_not served), admTake_takes unheld free room]
  refine (if_neg go).trans ?_
  rw [show ((admTaken k c p).adm c.fn).ctx = admCtx p c.fn by rw [admTaken_adm], begun]

end

/-! ### Refusals (R390, R448, R542, R543) -/

/-- A standby runs only QUERY and CTR_READ (R448). -/
def Barred (k : Part.AdmKind) (p : Part) : Prop := p.sys.mode = .standby ∧ k.op ≠ 0x40 ∧ k.op ≠ 0x20

theorem barred_iff : (p.sys.mode == .standby && !(k.op == 0x40 || k.op == 0x20)) = true ↔ Barred k p := by simp [Barred]

section
variable {i : Nat} {old : Part}

theorem admRun_barred (h : Barred k p) : Part.admRun k c body i old p = p.fail i (if k.classA then 0x41 else 0x40) 0 := by
  rw [Part.admRun, if_pos (barred_iff.2 h)]

variable (allowed : ¬ Barred k p)
include allowed

theorem admRun_faulty {a b : Byte} (h : Part.admFault k c = some (a, b)) : Part.admRun k c body i old p = p.fail i a b := by
  rw [Part.admRun, if_neg (mt barred_iff.1 allowed), h]

theorem admRun_gateless (sound : Part.admFault k c = none) (classA : k.classA = true) (shut : p.gateOpen = false) :
    Part.admRun k c body i old p = p.fail i 0x41 0 := by
  rw [Part.admRun, if_neg (mt barred_iff.1 allowed), sound]
  exact if_pos (by simp [classA, shut])

theorem admRun_inactive (sound : Part.admFault k c = none) (open' : k.classA = false ∨ p.gateOpen = true) (tenant : c.fn.val ≠ 0)
    (state : p.tnt.states.get 0 c.fn ≠ 1) : Part.admRun k c body i old p = p.fail i 0x50 0 := by
  rw [Part.admRun, if_neg (mt barred_iff.1 allowed), sound]
  refine (if_neg ?_).trans (if_pos ⟨tenant, state⟩)
  rcases open' with classB | open' <;> simp_all

end

/-- The context that a begun command holds. -/
theorem admBegun_ctx : (admBegun p k c).ctx (admCtx p c.fn) = { state := .running, fn := c.fn.val, qp := 4096 + c.fn.val
                                                                order := p.dsp.nextOrder, tag := c.head.tag, unit := some .secure
                                                                placed := true, classA := k.classA } := by
  simp only [admBegun, Part.ctx, Tab.get_set_self]

theorem admBegun_ctx_other {j : Nat} (other : j ≠ admCtx p c.fn) : (admBegun p k c).ctx j = p.ctx j := by
  simp only [admBegun, Part.ctx, Tab.get_set_other _ _ _ _ _ other]

theorem admBegun_adm : (admBegun p k c).adm c.fn = { p.adm c.fn with
    busy := true, started := true, held := true, cmd := Part.admBlock k.op c, tag := c.head.tag, out := [], ctx := admCtx p c.fn
    classA := k.classA } := by
  simp only [admBegun, Part.adm, Tab.get_upd_self]

theorem admBegun_adm_other {m : Nat} (other : m ≠ c.fn) : (admBegun p k c).adm m = p.adm m := by
  simp only [admBegun, Part.adm, Tab.get_upd_other _ _ _ _ _ other]

theorem ctx_modCtx (p : Part) (i j : Nat) (g : Ctx → Ctx) : (p.modCtx i g).ctx j = if j = i then g (p.ctx i) else p.ctx j := Tab.get_upd ..

/-- The end of an operation that runs on the secure core, with no completion to discard. -/
theorem fail_running {q : Part} {i : Nat} (running : (q.ctx i).state = .running) (counts : (q.ctx i).discard = false)
    (unit : (q.ctx i).unit = some .secure) {status : Byte} (detail : Byte) (bad : (status == 0 || status == 1) = false) :
    q.fail i status detail = (q.modCtx i fun x =>
      { x with state := .finished, status := status, detail := detail, unit := none, result := []
               outCount := BitVec.ofNat 32 x.outList, finOrder := q.dsp.nextOrder }).modDsp fun d => { d with nextOrder := d.nextOrder + 1 } := by
  have alone : q.unbind i = q := by rw [Part.unbind, unit]
  simp only [Part.fail, Part.finish, running, counts, bad, alone]
  rfl

/-- A begun command that fails is refused (R390). -/
theorem fail_refuses {status : Byte} (detail : Byte) (bad : (status == 0 || status == 1) = false) :
    AdmRefuses k.op c status detail p ((admBegun p k c).fail (admCtx p c.fn) status detail) := by
  have ctx := admBegun_ctx (k := k) (c := c) (p := p)
  have ended := fail_running (by rw [ctx]) (by rw [ctx]) (by rw [ctx]) detail bad
  have own : ((admBegun p k c).fail (admCtx p c.fn) status detail).ctx (admCtx p c.fn) =
      { state := .finished, fn := c.fn.val, qp := 4096 + c.fn.val, order := p.dsp.nextOrder, tag := c.head.tag, placed := true
        classA := k.classA, status := status, detail := detail, finOrder := p.dsp.nextOrder + 1 } := by
    rw [ended, Part.ctx, Part.modDsp_dsp, ← Part.ctx, ctx_modCtx, if_pos rfl, ctx]
    rfl
  have channel : ∀ m, ((admBegun p k c).fail (admCtx p c.fn) status detail).adm m = (admBegun p k c).adm m := fun m => by
    rw [ended]
    rfl
  refine ⟨⟨?_, ?_, ?_, fun m other => ?_, fun j other => ?_⟩, ?_⟩
  · rw [channel, admBegun_adm]
  · rw [own]
    exact ⟨rfl, rfl, rfl, rfl⟩
  · rw [own]
    exact ⟨rfl, rfl, rfl, rfl⟩
  · rw [channel, admBegun_adm_other other]
  · rw [ended, Part.ctx, Part.modDsp_dsp, ← Part.ctx, ctx_modCtx, if_neg other, admBegun_ctx_other other]
  · rw [ended]
    rfl

end

/-! ### The commands (R389, R466) -/

/-- The command of a kind runs the channel's row. -/
def RunsRow (s : State) (c : AdmCmd) (k : Instr × Part.AdmKind) : Prop := ∃ body, exec k.1 s = onPart (Part.admRow k.2 c body) s

theorem run_row (s : State) (c : AdmCmd) (input : Option (List Byte)) : RunsRow s c (.run c input,
    { op := 0x0001
      classA := s.part.sys.mode == .standby &&
        (Part.handlesOf (Part.headOf (Pk.fit 128 (c.buf.getD []))) (Pk.fit 128 (c.buf.getD []))).any fun x => hClass x == 5
      reads := 64 }) :=
  have arm : exec (.run c input) s = onPart (Part.admRunRow c input) s := rfl
  ⟨Part.admRunProgram c input, arm.trans (by rw [onPart, onPart, Part.admRunRow])⟩

/-- Every administrative command is a row of its kind. -/
theorem admKinds_row (s : State) (c : AdmCmd) (input : Option (List Byte)) : ∀ k ∈ admKinds s.part c input, RunsRow s c k := by
  simp only [admKinds, List.forall_mem_cons]
  refine ⟨run_row s c input, ?_⟩
  and_intros
  iterate 28 exact ⟨_, rfl⟩
  exact List.forall_mem_nil _

section
variable {s : State} {i : Instr} {k : Part.AdmKind} {c : AdmCmd} {body : Nat → Part → Option Part}
  (arm : exec i s = onPart (Part.admRow k c body) s)
  (begins : s.part.admRow k c body =
    Part.admRun k c body (admCtx s.part c.fn) (admTaken k c s.part) (admBegun s.part k c))
include arm begins

/-- A command that begins and fails is refused. -/
theorem row_fails {status : Byte} (detail : Byte) (bad : (status == 0 || status == 1) = false)
    (fails : Part.admRun k c body (admCtx s.part c.fn) (admTaken k c s.part) (admBegun s.part k c) =
      (admBegun s.part k c).fail (admCtx s.part c.fn) status detail) :
    ∃ q, Yields i s q ∧ AdmRefuses k.op c status detail s.part q :=
  ⟨_, .of_onPart arm (begins.trans fails), fail_refuses detail bad⟩

/-- The refusals of a command that begins, in their order (R390, R448, R542, R543). -/
theorem row_refusals :
    let fails := fun (st det : Byte) => ∃ q, Yields i s q ∧ AdmRefuses k.op c st det s.part q
    (Barred k s.part → fails (if k.classA then 0x41 else 0x40) 0) ∧
    (¬ Barred k s.part →
      (Foreign k c → fails 0x10 0x0A) ∧ (¬ Foreign k c → Reserved k c → fails 0x10 0x01) ∧
      (¬ Foreign k c → ¬ Reserved k c → Outside k c → fails 0x10 0x0A) ∧
      (¬ Foreign k c → ¬ Reserved k c → ¬ Outside k c → c.head.len.toNat < k.writes → fails 0x10 0x06) ∧
      (¬ Foreign k c → ¬ Reserved k c → ¬ Outside k c → k.writes ≤ c.head.len.toNat → Unread k c → fails 0x10 0x0C) ∧
      (¬ Foreign k c → ¬ Reserved k c → ¬ Outside k c → k.writes ≤ c.head.len.toNat → ¬ Unread k c →
        (k.classA = true → s.part.gateOpen = false → fails 0x41 0) ∧
        (k.classA = false ∨ s.part.gateOpen = true → c.fn.val ≠ 0 → s.part.tnt.states.get 0 c.fn ≠ 1 → fails 0x50 0))) := by
  intro fails
  have fault : ¬ Barred k s.part → ∀ b, Part.admFault k c = some (0x10, b) → fails 0x10 b := fun allowed b h =>
    row_fails arm begins b (by decide) (admRun_faulty (p := admBegun s.part k c) allowed h)
  refine ⟨fun barred => ?_, fun allowed => ⟨fun f => ?_, fun own r => ?_, fun own zero o => ?_, fun own zero within w => ?_,
    fun own zero within fits u => ?_, fun own zero within fits read => ⟨fun classA shut => ?_, fun open' tenant state => ?_⟩⟩⟩
  · exact row_fails arm begins 0 (by split <;> decide) (admRun_barred barred)
  · exact fault allowed _ (admFault_foreign f)
  · exact fault allowed _ (admFault_reserved own r)
  · exact fault allowed _ (admFault_outside own zero o)
  · exact fault allowed _ (admFault_overflow own zero within w)
  · exact fault allowed _ (admFault_unread own zero within fits u)
  · exact row_fails arm begins 0 (by decide) (admRun_gateless allowed (admFault_none own zero within fits read) classA shut)
  · exact row_fails arm begins 0 (by decide) (admRun_inactive allowed (admFault_none own zero within fits read) open' tenant state)

end

end Sys2Proof.Safety
end

section
/-! SUPPORT. The end of an administrative command: what is written to the host, the result, the context freed; and the statement on the
channel (R73, R386 to R391). -/

namespace Sys2Proof.Safety

open Sys2Proof.Machine

/-- Between `p` and `q` the part has issued messages on the host link, and nothing else has changed. -/
def Issued (p q : Part) : Prop := q = { p with hif := { p.hif with out := q.hif.out } } ∧ p.hif.out <+: q.hif.out

theorem Issued.refl (p : Part) : Issued p p := ⟨rfl, List.prefix_rfl⟩

theorem Issued.trans {p q r : Part} (h : Issued p q) (k : Issued q r) : Issued p r :=
  ⟨by rw [k.1, h.1], h.2.trans k.2⟩

theorem Issued.fn {p q : Part} (h : Issued p q) (n : Nat) : q.fn n = p.fn n := by rw [h.1]; rfl
theorem Issued.adm {p q : Part} (h : Issued p q) (n : Nat) : q.adm n = p.adm n := by rw [h.1]; rfl
theorem Issued.maxPayload {p q : Part} (h : Issued p q) : q.maxPayload = p.maxPayload := by rw [h.1]; rfl
theorem Issued.ctxData {p q : Part} (h : Issued p q) (n off len : Nat) : q.ctxData n off len = p.ctxData n off len := by rw [h.1]; rfl
theorem Issued.mayPost {p q : Part} (h : Issued p q) (n : Nat) : q.mayPost n = p.mayPost n := by rw [h.1]; rfl

/-- Messages issued one after another, each of them found in what the part has issued. -/
theorem foldl_issue {α : Type} (f : α → HostMsg) (l : List α) (p : Part) :
    Issued p (l.foldl (fun p x => p.issue (f x)) p) ∧ ∀ x ∈ l, f x ∈ (l.foldl (fun p x => p.issue (f x)) p).hif.out := by
  induction l generalizing p with
  | nil => exact ⟨.refl p, fun x hx => by cases hx⟩
  | cons a l ih =>
    obtain ⟨rest, all⟩ := ih (p.issue (f a))
    refine ⟨.trans (q := p.issue (f a)) ⟨rfl, List.prefix_append ..⟩ rest, fun x hx => ?_⟩
    rcases List.mem_cons.1 hx with rfl | hx
    · exact rest.2.subset (by simp [Part.issue])
    · exact all x hx

/-- The octets `bs` have been written at `addr`, packet by packet (R36). -/
def Wrote (n : Nat) (p q : Part) (addr : BitVec 64) (bs : List Byte) : Prop :=
  ∀ y ∈ Part.packets p.maxPayload bs.length addr.toNat bs.length,
    HostMsg.write n (BitVec.ofNat 64 y.1) ((bs.drop (y.1 - addr.toNat)).take y.2) ∈ q.hif.out

theorem issueWrite_issued (n : Nat) (addr : BitVec 64) (bs : List Byte) (p : Part) :
    Issued p (p.issueWrite n addr bs) ∧ Wrote n p (p.issueWrite n addr bs) addr bs := foldl_issue _ _ p

theorem Wrote.mono {n : Nat} {p q r : Part} {addr : BitVec 64} {bs : List Byte} (h : Wrote n p q addr bs) (k : q.hif.out <+: r.hif.out) :
    Wrote n p r addr bs := fun y hy => k.subset (h y hy)

/-! ### The result (R386, R388) -/

/-- The function's vector 0 is sent at once. -/
def Quiet (n : Nat) (p : Part) : Prop :=
  (p.fn n).draining = false ∧ p.mayPost n = true ∧ (p.fn n).fnMask = false ∧ ((p.fn n).vectors.get {} 0).masked = false

/-- The result of channel `n` has been published between `p` and `q`: its octets written, DONE set, BUSY clear, vector 0 signalled. -/
def Shown (n : Nat) (st det : Byte) (res : List Byte) (out : Word) (p q : Part) : Prop :=
  (q.adm n).busy = false ∧ (q.adm n).done = true ∧
    (q.adm n).result.take 8 = leBytes 4 (p.adm n).tag.toNat ++ [st, det, 0, BitVec.ofNat 8 (res.take 16).length] ∧
    (q.adm n).result.drop 12 = leBytes 4 out.toNat ++ Pk.fit 16 (res.take 16) ∧
    (Quiet n p → HostMsg.msix n 0 ((p.fn n).vectors.get {} 0).addr ((p.fn n).vectors.get {} 0).data ∈ q.hif.out)

section
variable {n : Nat} {st det : Byte} {res : List Byte} {out : Word} {p q r : Part}

theorem Shown.later (h : Shown n st det res out p q) (adm : r.tnt.adm = q.tnt.adm) (issued : q.hif.out <+: r.hif.out) :
    Shown n st det res out p r := by
  obtain ⟨busy, done, head, tail, sent⟩ := h
  have same : r.adm n = q.adm n := by rw [Part.adm, adm, Part.adm]
  refine ⟨?_, ?_, ?_, ?_, fun quiet => issued.subset (sent quiet)⟩ <;> rwa [same]

theorem Shown.earlier (h : Shown n st det res out q r) (issued : Issued p q) : Shown n st det res out p r := by
  unfold Shown Quiet at *
  rwa [issued.adm, issued.fn, issued.mayPost] at h

theorem admResult_head (tag : Word) (latency : BitVec 16) : (Part.admResult tag st det res latency out).take 8 =
    leBytes 4 tag.toNat ++ [st, det, 0, BitVec.ofNat 8 res.length] := rfl

theorem admResult_tail (tag : Word) (latency : BitVec 16) : (Part.admResult tag st det res latency out).drop 12 =
    leBytes 4 out.toNat ++ Pk.fit 16 res := rfl

theorem admPublish_spec (n : Nat) (st det : Byte) (res : List Byte) (out : Word) (p : Part) :
    let q := p.admPublish n st det res out
    Shown n st det res out p q ∧ p.hif.out <+: q.hif.out ∧
      q = { p with free := q.free, tnt := { p.tnt with adm := q.tnt.adm }, hif := { p.hif with funcs := q.hif.funcs, out := q.hif.out } } := by
  intro q
  let shown := Part.modAdm n (fun a =>
    { a with busy := false, done := true, started := false, held := false, ended := none, out := []
             result := Part.admResult a.tag st det (res.take 16) ((Config.freeWord p.free).setWidth 16) out }) { p with free := p.free + 1 }
  have sent : Signalled shown q := signal_signalled n 0 shown
  have adm : q.adm n = shown.adm n := by rw [sent.rest]; rfl
  have own : shown.adm n = { p.adm n with
      busy := false, done := true, started := false, held := false, ended := none, out := []
      result := Part.admResult (p.adm n).tag st det (res.take 16) ((Config.freeWord p.free).setWidth 16) out } := adm_modAdm_self ..
  refine ⟨⟨?_, ?_, ?_, ?_, fun ⟨drain, post, fnMask, mask⟩ => ?_⟩, sent.issued, ?_⟩
  · rw [adm, own]
  · rw [adm, own]
  · rw [adm, own, admResult_head]
  · rw [adm, own, admResult_tail]
  · rw [show q = shown.issue _ from signal_sends (p := shown) drain mask fnMask post]
    simp only [Part.issue, Part.modHif_hif, List.mem_append, List.mem_singleton]
    exact .inr rfl
  · rw [sent.rest]
    rfl

/-! ### The context freed (R69, R391) -/

theorem freeCtx_ctx (p : Part) (i j : Nat) : (p.freeCtx i).ctx j = if j = i then {} else p.ctx j := by
  have unbound : (p.unbind i).dsp = p.dsp := by
    unfold Part.unbind
    split <;> rfl
  rw [Part.ctx, Part.freeCtx, (settle_settled _ _).dsp, Part.modDsp_dsp, unbound]
  exact Tab.get_set ({} : Ctx) _ i j {}

theorem freeCtx_adm (p : Part) (i : Nat) : (p.freeCtx i).tnt.adm = p.tnt.adm := by rw [(freeCtx_drained i p).rest]

theorem freeCtx_kept (p : Part) (i : Nat) : (p.freeCtx i).slc = p.slc ∧ (p.freeCtx i).acu = p.acu ∧ (p.freeCtx i).nvm = p.nvm ∧
    (p.freeCtx i).priv = p.priv := by
  refine ⟨?_, ?_, ?_, ?_⟩ <;> rw [(freeCtx_drained i p).rest]

end

/-! ### The end of a command -/

theorem issueWhen_issued (b : Bool) (n : Nat) (addr : BitVec 64) (bs : List Byte) (p : Part) :
    Issued p (p.when b (Part.issueWrite n addr bs)) ∧ (b = true ∨ bs = [] → Wrote n p (p.when b (Part.issueWrite n addr bs)) addr bs) := by
  cases b with
  | true => exact ⟨(issueWrite_issued n addr bs p).1, fun _ => (issueWrite_issued n addr bs p).2⟩
  | false =>
    refine ⟨.refl p, fun h => ?_⟩
    obtain rfl := h.resolve_left Bool.false_ne_true
    exact fun y hy => by cases hy

/-- The octets that a command which ended well writes to the host: at its buffer, and at its output address (R388). -/
def admSent (n : Nat) (p : Part) : Part :=
  let a := p.adm n
  let c := p.ctx a.ctx
  let good := c.status == 0 || c.status == 1
  let p := p.when (good && a.out != []) (Part.issueWrite n (BitVec.ofNat 64 (a.cmd.num ram 8 8)) a.out)
  match c.outPtr with
  | some x => p.when (good && c.outCount != 0) (Part.issueWrite n x (p.ctxData a.ctx 0 c.outCount.toNat))
  | none => p

theorem admSent_issued (n : Nat) (p : Part) :
    let a := p.adm n
    let c := p.ctx a.ctx
    Issued p (admSent n p) ∧ (c.status = 0 ∨ c.status = 1 → Wrote n p (admSent n p) (BitVec.ofNat 64 (a.cmd.num ram 8 8)) a.out ∧
      ∀ o, c.outPtr = some o → c.outCount ≠ 0 → Wrote n p (admSent n p) o (p.ctxData a.ctx 0 c.outCount.toNat)) := by
  intro a c
  let good := c.status == 0 || c.status == 1
  let addr := BitVec.ofNat 64 (a.cmd.num ram 8 8)
  let p1 := p.when (good && a.out != []) (Part.issueWrite n addr a.out)
  have first := issueWhen_issued (good && a.out != []) n addr a.out p
  have buffer : c.status = 0 ∨ c.status = 1 → Wrote n p p1 addr a.out := fun well => first.2 (by
    by_cases none : a.out = []
    · exact .inr none
    · exact .inl (by simpa [good, none] using well))
  cases ptr : c.outPtr with
  | none =>
    have sent : admSent n p = p1 := by simp only [admSent, ptr, c, a, p1, addr, good]
    rw [sent]
    exact ⟨first.1, fun well => ⟨buffer well, fun o ho => by cases ho⟩⟩
  | some x =>
    have sent : admSent n p = p1.when (good && c.outCount != 0) (Part.issueWrite n x (p1.ctxData a.ctx 0 c.outCount.toNat)) := by
      simp only [admSent, ptr, c, a, p1, addr, good]
    have data : p1.ctxData a.ctx 0 c.outCount.toNat = p.ctxData a.ctx 0 c.outCount.toNat := first.1.ctxData ..
    have second := issueWhen_issued (good && c.outCount != 0) n x (p.ctxData a.ctx 0 c.outCount.toNat) p1
    rw [sent, data]
    refine ⟨first.1.trans second.1, fun well => ⟨(buffer well).mono second.1.2, fun o ho counts => ?_⟩⟩
    obtain rfl := Option.some.inj ho
    unfold Wrote at *
    rw [← first.1.maxPayload]
    exact second.2 (.inl (Bool.and_eq_true_iff.2 ⟨by simpa [good] using well, bne_iff_ne.2 counts⟩))

/-- A command that a drain discards: BUSY clear, its result unwritten, its context freed (R71, R391). -/
theorem admDiscard_spec (n i : Nat) (p : Part) :
    let q := (p.modAdm n fun a => { a with busy := false, started := false, held := false, out := [] }).freeCtx i
    (q.adm n).busy = false ∧ (q.adm n).done = (p.adm n).done ∧ (q.adm n).result = (p.adm n).result ∧ q.ctx i = {} := by
  intro q
  have own : q.adm n = { p.adm n with busy := false, started := false, held := false, out := [] } := by
    rw [Part.adm, freeCtx_adm, ← Part.adm, adm_modAdm_self]
  rw [own]
  exact ⟨rfl, rfl, rfl, (freeCtx_ctx ..).trans (if_pos rfl)⟩

/-- A result published, and the context of its command freed. -/
theorem publishFree_shown (n i : Nat) (st det : Byte) (res : List Byte) (out : Word) (p : Part) :
    Shown n st det res out p ((p.admPublish n st det res out).freeCtx i) :=
  (admPublish_spec n st det res out p).1.later (freeCtx_adm _ i) (freeCtx_drained i _).issued

theorem publishFree_kept (n i : Nat) (st det : Byte) (res : List Byte) (out : Word) (p : Part) :
    let q := (p.admPublish n st det res out).freeCtx i
    p.hif.out <+: q.hif.out ∧ (∀ j, q.ctx j = if j = i then {} else p.ctx j) ∧ q.slc = p.slc ∧ q.acu = p.acu ∧ q.nvm = p.nvm ∧
      q.priv = p.priv := by
  intro q
  obtain ⟨-, issued, rest⟩ := admPublish_spec n st det res out p
  obtain ⟨slc, acu, nvm, priv⟩ := freeCtx_kept (p.admPublish n st det res out) i
  have dsp : (p.admPublish n st det res out).dsp = p.dsp := by rw [rest]
  refine ⟨issued.trans (freeCtx_drained i _).issued, fun j => ?_, slc.trans ?_, acu.trans ?_, nvm.trans ?_, priv.trans ?_⟩
  · rw [freeCtx_ctx, Part.ctx, dsp, Part.ctx]
  all_goals rw [rest]

/-- The command ended well and has octets for the host. -/
abbrev Sends (n : Nat) (p : Part) : Prop :=
  let x := p.ctx (p.adm n).ctx
  (x.status = 0 ∨ x.status = 1) ∧ ((p.adm n).out ≠ [] ∨ (x.outPtr ≠ none ∧ x.outCount ≠ 0))

theorem sends_iff (n : Nat) (p : Part) :
    let a := p.adm n
    let c := p.ctx a.ctx
    ((c.status == 0 || c.status == 1) && (a.out != [] || (c.outPtr.isSome && c.outCount != 0)) && !p.mayPost n) = true ↔
      Sends n p ∧ p.mayPost n = false := by
  simp [Sends, Option.isSome_iff_ne_none]

/-- The octets written, the result published, the context freed. -/
theorem admSent_published (n : Nat) (p : Part) :
    let a := p.adm n
    let x := p.ctx a.ctx
    let q := ((admSent n p).admPublish n x.status x.detail x.result x.outCount).freeCtx a.ctx
    Shown n x.status x.detail x.result x.outCount p q ∧ q.ctx a.ctx = {} ∧ (∀ j, j ≠ a.ctx → q.ctx j = p.ctx j) ∧
      (x.status = 0 ∨ x.status = 1 → Wrote n p q (BitVec.ofNat 64 (a.cmd.num ram 8 8)) a.out ∧
        ∀ o, x.outPtr = some o → x.outCount ≠ 0 → Wrote n p q o (p.ctxData a.ctx 0 x.outCount.toNat)) ∧
      q.slc = p.slc ∧ q.acu = p.acu ∧ q.nvm = p.nvm ∧ q.priv = p.priv := by
  intro a x q
  obtain ⟨sent, wrote⟩ := admSent_issued n p
  obtain ⟨issued, ctx, slc, acu, nvm, priv⟩ := publishFree_kept n a.ctx x.status x.detail x.result x.outCount (admSent n p)
  refine ⟨(publishFree_shown ..).earlier sent, (ctx _).trans (if_pos rfl), fun j other => ?_,
    fun well => ⟨(wrote well).1.mono issued, fun o ho counts => ((wrote well).2 o ho counts).mono issued⟩, slc.trans ?_, acu.trans ?_,
    nvm.trans ?_, priv.trans ?_⟩
  · rw [ctx, if_neg other, sent.1]
    rfl
  all_goals rw [sent.1]

section
variable {n : Nat} {p : Part}

theorem admEnd_idle (h : (p.adm n).busy = false) : p.admEnd n = p := by simp [Part.admEnd, h]

variable (busy : (p.adm n).busy = true)
include busy

theorem admEnd_outcome {e : AdmEnd} (h : (p.adm n).ended = some e) : p.admEnd n =
    if (p.adm n).held then (p.admPublish n e.status e.detail e.result e.out).freeCtx (p.adm n).ctx
    else p.admPublish n e.status e.detail e.result e.out := by
  simp only [Part.admEnd, busy, h]
  rfl

/-- The end of a command whose outcome is known without a context, or before its context is at an end (R390). -/
theorem admEnd_outcome_spec {e : AdmEnd} (h : (p.adm n).ended = some e) :
    Shown n e.status e.detail e.result e.out p (p.admEnd n) ∧ ((p.adm n).held = false → (p.admEnd n).dsp = p.dsp) ∧
      ((p.adm n).held = true → (p.admEnd n).ctx (p.adm n).ctx = {}) := by
  rw [admEnd_outcome busy h]
  cases (p.adm n).held with
  | true => exact ⟨publishFree_shown .., fun no => absurd no (by decide), fun _ => (freeCtx_ctx ..).trans (if_pos rfl)⟩
  | false =>
    obtain ⟨shown, -, rest⟩ := admPublish_spec n e.status e.detail e.result e.out p
    exact ⟨shown, fun _ => by rw [if_neg Bool.false_ne_true, rest], fun no => absurd no (by decide)⟩

variable (ended : (p.adm n).ended = none)
include ended

theorem admEnd_unheld (h : (p.adm n).held = false) : p.admEnd n = p := by simp [Part.admEnd, busy, ended, h]

theorem admEnd_held (held : (p.adm n).held = true) (fn : (p.ctx (p.adm n).ctx).fn = n) (qp : (p.ctx (p.adm n).ctx).qp = 4096 + n)
    (used : (p.ctx (p.adm n).ctx).state ≠ .free) : p.admEnd n =
      let a := p.adm n
      let c := p.ctx a.ctx
      if c.state ≠ .finished ∨ p.waits a.ctx = true then p
      else if (c.discard || (p.fn n).draining) = true then
        (p.modAdm n fun a => { a with busy := false, started := false, held := false, out := [] }).freeCtx a.ctx
      else if Sends n p ∧ p.mayPost n = false then p
      else ((admSent n p).admPublish n c.status c.detail c.result c.outCount).freeCtx a.ctx := by
  have own : ¬ ((p.ctx (p.adm n).ctx).fn ≠ n ∨ (p.ctx (p.adm n).ctx).qp ≠ 4096 + n ∨ (p.ctx (p.adm n).ctx).state = .free) := by
    simp [fn, qp, used]
  simp only [Part.admEnd, busy, ended, held, Bool.not_true, Bool.false_eq_true, if_false]
  rw [if_neg own]
  exact if_congr .rfl rfl (if_congr .rfl rfl (if_congr (sends_iff n p) rfl rfl))

end

/-- Settles O43: the shared refusals of a command's row in their order, and the end of a command by what its channel holds. -/
theorem administrativeChannelRunsOneCommand : Obligations.AdministrativeChannelRunsOneCommand := by
  refine ⟨fun s c input k hk => ?_, fun s n => ?_⟩
  · intro p n a st len holds foreign reserved outside unread fails fresh taken
    obtain ⟨body, arm⟩ := admKinds_row s c input k hk
    refine ⟨fun shut => ?_, fun here sound kept => ⟨fun busy h => ?_, fun idle unheld => ⟨fun mode => ?_, fun mode =>
      ⟨fun tenant state serves => ?_, fun served => ⟨fun full => ?_, fun free room waits => ?_, fun free room serves posts => ?_⟩⟩⟩⟩⟩
    · exact .of_onPart arm (admRow_shut shut)
    · exact .of_onPart arm (admRow_again here sound kept busy h)
    · refine .of_onPart arm ((admRow_quarantine here sound kept idle mode).trans ?_)
      rw [admBusy, modAdm_modAdm]
      rfl
    · refine .of_onPart arm ((admRow_unserved here sound kept idle mode tenant state serves).trans ?_)
      rw [admBusy, modAdm_modAdm]
      rfl
    · exact .of_onPart arm (admRow_crowded here sound kept idle mode unheld served full)
    · exact .of_onPart arm (admRow_waits here sound kept idle mode unheld served free room waits)
    · exact row_refusals arm (admRow_begins here sound kept idle mode unheld served free room serves posts)
  · intro p a x quiet shown wrote
    refine ⟨fun idle => ?_, fun e busy ended => ?_, fun busy ended unheld => ?_, fun busy ended held fn qp used =>
      ⟨fun waits => ?_, fun finished acked drop => ?_, fun finished acked counts undrained => ⟨fun out shut => ?_, fun post => ?_⟩⟩⟩
    · exact .of_onPart (g := Part.admEnd n) rfl (admEnd_idle idle)
    · exact ⟨_, .of_onPart (g := Part.admEnd n) rfl rfl, admEnd_outcome_spec busy ended⟩
    · exact .of_onPart (g := Part.admEnd n) rfl (admEnd_unheld busy ended unheld)
    · exact .of_onPart (g := Part.admEnd n) rfl ((admEnd_held busy ended held fn qp used).trans (if_pos waits))
    · have going : ¬ (x.state ≠ .finished ∨ p.waits a.ctx = true) := by simp [finished, acked]
      have discards : (x.discard || (p.fn n).draining) = true := by simpa using drop
      exact ⟨_, .of_onPart (g := Part.admEnd n) rfl ((admEnd_held busy ended held fn qp used).trans ((if_neg going).trans (if_pos discards))),
        admDiscard_spec n a.ctx p⟩
    · exact .of_onPart (g := Part.admEnd n) rfl ((admEnd_held busy ended held fn qp used).trans ((if_neg (by simp [x, a, finished, acked])).trans
        ((if_neg (by simp [x, a, counts, undrained])).trans (if_pos ⟨out, shut⟩))))
    · have going : ¬ (x.state ≠ .finished ∨ p.waits a.ctx = true) := by simp [finished, acked]
      have keeps : ¬ (x.discard || (p.fn n).draining) = true := by simp [counts, undrained]
      have goesOut : ¬ (Sends n p ∧ p.mayPost n = false) := fun h => by simp [post h.1] at h
      exact ⟨_, .of_onPart (g := Part.admEnd n) rfl ((admEnd_held busy ended held fn qp used).trans
        ((if_neg going).trans ((if_neg keeps).trans (if_neg goesOut)))), admSent_published n.val p⟩

end Sys2Proof.Safety
end

section
/-! SUPPORT. Registers as written and as read back: the fields of a staged register, its set in effect, a status register's bits (R5 to
R8, R640). -/

namespace Sys2Proof.Safety

open Sys2Proof.Machine

/-! ### Fields of a word -/

/-- A field put back where it was taken from is the word under the field's mask. -/
theorem at'_fld (v : Word) (lo len : Nat) : at' (fld v lo len) lo = v &&& at' (BitVec.allOnes len) lo := by
  refine BitVec.eq_of_getLsbD_eq fun i hi => ?_
  simp only [at', fld, BitVec.getLsbD_shiftLeft, BitVec.getLsbD_setWidth, BitVec.getLsbD_extractLsb', BitVec.getLsbD_and,
    BitVec.getLsbD_allOnes]
  by_cases low : i < lo
  · simp [low]
  · rw [Nat.add_sub_cancel' (Nat.le_of_not_lt low)]
    by_cases inside : i - lo < len <;> simp [hi, low, inside, Bool.and_comm]

/-- A bit put back where it was taken from is the word under the bit's mask. -/
theorem bit'_bitAt (v : Word) (i : Nat) : bit' (bitAt v i) i = v &&& bit' true i := by
  refine BitVec.eq_of_getLsbD_eq fun j hj => ?_
  have one : ((1#32) <<< i).getLsbD j = decide (j = i) := by
    rw [BitVec.getLsbD_shiftLeft, BitVec.getLsbD_one]
    by_cases same : j = i
    · simp [same, same ▸ hj]
    · simp only [same, decide_false]
      by_cases below : j < i <;> simp [below]
      omega
  have word : (bit' (bitAt v i) i).getLsbD j = (bitAt v i && decide (j = i)) := by
    cases bitAt v i with
    | true => exact one.trans (Bool.true_and _).symm
    | false => exact BitVec.getLsbD_zero
  rw [word, BitVec.getLsbD_and, show bit' true i = 1#32 <<< i from rfl, one]
  by_cases same : j = i
  · rw [same]
  · rw [decide_eq_false same, Bool.and_false, Bool.and_false]

theorem mask_or (v a b : Word) : (v &&& a) ||| (v &&& b) = v &&& (a ||| b) := by
  rw [BitVec.and_or_distrib_left]

/-! ### Staged registers (R640) -/

/-- A write of the staged register at `o` of block `b` keeps the bits of `m`, which a read gives back; the register of the set in effect
at `e`, and every block but those with staged sets, are as they were. -/
def Stages (w : World) (f : Fuses) (v : Word) (p : Part) (b o e : Nat) (m : Word) : Prop :=
  let y := Part.csrWrite w b o v (f, p)
  y.1 = f ∧ (Part.csrRead w b o y.2).1 = v &&& m ∧ (Part.csrRead w b e y.2).1 = (Part.csrRead w b e p).1 ∧
    y.2 = { p with wpu := y.2.wpu, seq := y.2.seq, pan := y.2.pan, rke := y.2.rke, slc := y.2.slc, ent := y.2.ent, mir := y.2.mir
                   evr := y.2.evr }

section
variable (w : World) (f : Fuses) (v : Word) (p : Part)

theorem wpuTherm_stages : Stages w f v p 0x1 0x10 0x14 0x000FFFFF := by
  refine ⟨rfl, ?_, rfl, rfl⟩
  change at' (fld v 0 8) 0 ||| at' (fld v 8 8) 8 ||| at' (fld v 16 4) 16 = _
  rw [at'_fld, at'_fld, at'_fld, mask_or, mask_or]
  rfl

theorem seqBudget_stages : Stages w f v p 0x4 0x80010 0x80014 0xFFFFFFFF := by
  refine ⟨rfl, ?_, rfl, rfl⟩
  change at' (fld v 0 16) 0 ||| at' (fld v 16 16) 16 = _
  rw [at'_fld, at'_fld, mask_or]
  rfl

theorem panCfg_stages : Stages w f v p 0x5 0x80010 0x80014 0x00001F1F := by
  refine ⟨rfl, ?_, rfl, rfl⟩
  change at' (fld v 0 5) 0 ||| at' (fld v 8 5) 8 = _
  rw [at'_fld, at'_fld, mask_or]
  rfl

theorem rkeDepth_stages : Stages w f v p 0x6 0xC0010 0xC0014 0x3F := by
  refine ⟨rfl, ?_, rfl, rfl⟩
  change at' (fld v 0 6) 0 = _
  rw [at'_fld]
  rfl

theorem grnDepth_stages : Stages w f v p 0x7 0x80010 0x80014 0x3F := by
  refine ⟨rfl, ?_, rfl, rfl⟩
  change at' (fld v 0 6) 0 = _
  rw [at'_fld]
  rfl

theorem slcScrub_stages : Stages w f v p 0x8 0x10 0x14 0x1FFF := by
  refine ⟨rfl, ?_, rfl, rfl⟩
  change bit' (bitAt v 0) 0 ||| at' (fld v 1 12) 1 = _
  rw [bit'_bitAt, at'_fld, mask_or]
  rfl

theorem entReseed_stages : Stages w f v p 0x9 0x10 0x14 0x3F3F := by
  refine ⟨rfl, ?_, rfl, rfl⟩
  change at' (fld v 0 6) 0 ||| at' (fld v 8 6) 8 = _
  rw [at'_fld, at'_fld, mask_or]
  rfl

/-- The share of the link is read back beside the count of chunks, which is not staged. -/
theorem mirShare_stages (none : p.mir.chunks = 0) : Stages w f v p 0xD 0x10 0x14 0xF := by
  refine ⟨rfl, ?_, rfl, rfl⟩
  change at' (fld v 0 4) 0 ||| at' p.mir.chunks 4 = _
  rw [none, at'_fld]
  exact BitVec.or_zero

theorem evrCfg_stages : Stages w f v p 0xF 0x10 0x14 0xFFFF := ⟨rfl, rfl, rfl, rfl⟩
theorem evrRate_stages : Stages w f v p 0xF 0x18 0x1C 0x00FFFFFF := ⟨rfl, rfl, rfl, rfl⟩

/-- A tenant's entry of the TNT block changed. -/
def modTenant (n : Nat) (g : Tenant → Tenant) (p : Part) : Part := p.modTnt fun u => { u with t := u.t.upd {} n g }

omit w f v in
theorem modTenant_spec (n : Nat) (g : Tenant → Tenant) :
    modTenant n g p = { p with tnt := { p.tnt with t := (modTenant n g p).tnt.t } } ∧
      (modTenant n g p).tnt.t.get {} n = g (p.tnt.t.get {} n) ∧
      ∀ m, m ≠ n → (modTenant n g p).tnt.t.get {} m = p.tnt.t.get {} m :=
  ⟨rfl, Tab.get_upd_self .., fun _ other => Tab.get_upd_other _ _ _ _ _ other⟩

/-- A word of a tenant's staged quotas is its field, and no other tenant's set changes. -/
theorem tntInflight_staged {t : Nat} (ht : t ≤ 1024) :
    ∃ q, Part.csrWrite w 0xC (0x40 * t + 8) v (f, p) = (f, q) ∧ q = { p with tnt := { p.tnt with t := q.tnt.t } } ∧
      let n := if t = 1024 then 0 else t + 1
      let x := (p.tnt.t.get {} n).st
      (q.tnt.t.get {} n).st = { x with stage := { x.stage with inflight := fld v 0 17 } } ∧
        ∀ m, m ≠ n → q.tnt.t.get {} m = p.tnt.t.get {} m := by
  have below : 0x40 * t + 8 < 0x10040 := by omega
  have index : (0x40 * t + 8) / 0x40 = t := by omega
  have offset : (0x40 * t + 8) % 0x40 = 8 := by omega
  have write : Part.csrWrite w 0xC (0x40 * t + 8) v (f, p) = (f, modTenant (Part.tntIndex t)
      (fun x => { x with st := { x.st with stage := { x.st.stage with inflight := fld v 0 17 } } }) p) := by
    change (f, Part.tntWrite (0x40 * t + 8) v p) = _
    rw [Part.tntWrite, if_pos below, index, offset]
    rfl
  obtain ⟨frame, own, others⟩ := modTenant_spec p (Part.tntIndex t)
    fun x => { x with st := { x.st with stage := { x.st.stage with inflight := fld v 0 17 } } }
  exact ⟨_, write, frame, congrArg Tenant.st own, others⟩

end

end Sys2Proof.Safety
end

section
/-! SUPPORT. Registers through a core's port, the host's aperture and the BARs: what a checkpoint admits of one word, what a refusal
records; and the statement on register writes and staged sets (R37, R50 to R55, R420, R438, R439, R640). -/

namespace Sys2Proof.Safety

open Sys2Proof.Machine

/-! ### Refusals (R443) -/

/-- Between `p` and `q` a refusal may have been recorded: the fault queues, and what a record changes. -/
def FaultRecorded (p q : Part) : Prop :=
  Recorded { p with acu := { p.acu with
    nfault := q.acu.nfault, nOverflow := q.acu.nOverflow, sfault := q.acu.sfault, sOverflow := q.acu.sOverflow } } q

theorem FaultRecorded.refl (p : Part) : FaultRecorded p p := rfl

theorem refuse_recorded (r : FaultRec) (both : Bool) (p : Part) : FaultRecorded p (p.refuse r both) := by
  unfold FaultRecorded Part.refuse
  refine .trans ?_ (Recorded.post ..)
  rw [post_acu]
  exact rfl

/-! ### One word of CSR space (R420, R434, R438) -/

theorem wordsOf_aligned {off : Nat} (aligned : off % 4 = 0) : (off + 4 - 1) / 4 - off / 4 + 1 = 1 := by omega

theorem touchesSecure_word (p : Part) {off : Nat} (aligned : off % 4 = 0) :
    p.touchesSecure off 4 = secureReg p.dmaSecure (off / 0x100000) (off % 0x100000) := by
  have back : (off / 4 + 0) * 4 = off := by omega
  simp only [Part.touchesSecure, wordsOf_aligned aligned, List.range_one, List.any_cons, List.any_nil, Bool.or_false, back]

/-- The host's checkpoint admits a word of CSR space whose granule carries the manager's colour and whose register is no secure one. -/
def Fine (p : Part) (off : Nat) : Prop :=
  p.acu.tagCsr.get 0xFFF (off / 4096) = 0xFFE ∧ secureReg p.dmaSecure (off / 0x100000) (off % 0x100000) = false

theorem colourCheck_word (p : Part) {off : Nat} (aligned : off % 4 = 0) : p.colourCheck .csr off 4 0xFFE false = none ↔ Fine p off := by
  have one : (off + 4 - 1) / 4096 - off / 4096 + 1 = 1 := by omega
  have tag : p.acu.tagAt .csr (off / 4096 + 0) = p.acu.tagCsr.get 0xFFF (off / 4096) := rfl
  rw [Part.colourCheck, one, List.range_one]
  simp only [List.find?_cons, List.find?_nil, tag, touchesSecure_word p aligned]
  by_cases colour : p.acu.tagCsr.get 0xFFF (off / 4096) = 0xFFE
  · have admitted : (p.acu.tagCsr.get 0xFFF (off / 4096) == 0 || p.acu.tagCsr.get 0xFFF (off / 4096) != 0xFFE) = false := by
      rw [colour]
      decide
    rw [admitted, Fine]
    cases secureReg p.dmaSecure (off / 0x100000) (off % 0x100000) with
    | true => simp
    | false => simpa using colour
  · have refused : (p.acu.tagCsr.get 0xFFF (off / 4096) == 0 || p.acu.tagCsr.get 0xFFF (off / 4096) != 0xFFE) = true := by
      rw [bne_iff_ne.2 colour, Bool.or_true]
    rw [refused]
    exact ⟨fun no => absurd no (by simp), fun fine => absurd fine.1 colour⟩

/-! ### A core's port (R420, R438) -/

/-- What a core's check finds in CSR space: an admitted access changes nothing, a refused one is recorded. -/
theorem coreCheck_spec (c : Nat) (kind : BitVec 3) (a n : Nat) (p : Part) :
    ((p.coreCheck c kind a n).1 = none → (p.coreCheck c kind a n).2 = p) ∧ FaultRecorded p (p.coreCheck c kind a n).2 := by
  simp only [Part.coreCheck]
  split
  · exact ⟨fun _ => rfl, .refl p⟩
  · split
    · exact ⟨fun _ => rfl, .refl p⟩
    · exact ⟨fun no => absurd no (by simp), refuse_recorded ..⟩

theorem spaceOf_register (handed secure : Bool) (b : Fin 18) (w : Fin 0x40000) :
    spaceOf handed secure (0x100000000 + b.val * 0x100000 + 4 * w.val) 4 = (.csr, b.val * 0x100000 + 4 * w.val) := by
  have hb := b.isLt
  have hw := w.isLt
  have at_ : ∀ x, 0x100000000 ≤ x → x < 0x101200000 → spaceAt handed secure x = (.csr, x - 0x100000000) := fun x lo hi => by
    rw [spaceAt, if_neg (by omega), if_neg (by omega), if_neg (by omega), if_pos ⟨lo, hi⟩]
  rw [spaceOf, at_ _ (by omega) (by omega), at_ _ (by omega) (by omega)]
  simp only [if_true, Prod.mk.injEq, true_and]
  omega

theorem register_place (b : Fin 18) (w : Fin 0x40000) : (b.val * 0x100000 + 4 * w.val) % 4 = 0 ∧
    (b.val * 0x100000 + 4 * w.val) / 0x100000 = b.val ∧ (b.val * 0x100000 + 4 * w.val) % 0x100000 = 4 * w.val := by
  have hw := w.isLt
  omega

/-- A secure register is refused to the cores of the normal world (R420). -/
theorem coreCheck_secure {c : Fin 5} (normal : c ≠ 4) (kind : BitVec 3) (b : Fin 18) (w : Fin 0x40000) {p : Part}
    (secure : secureReg p.dmaSecure b (4 * w.val) = true) :
    (p.coreCheck c kind (0x100000000 + b.val * 0x100000 + 4 * w.val) 4).1 ≠ none := by
  obtain ⟨aligned, block, word⟩ := register_place b w
  have world : (c.val == 4) = false := by simpa [Fin.ext_iff] using normal
  have touches : p.touchesSecure (b.val * 0x100000 + 4 * w.val) 4 = true := by
    rw [touchesSecure_word p aligned, block, word, secure]
  have denied : p.regionCheck c false (p.core c).priv kind (0x100000000 + b.val * 0x100000 + 4 * w.val) 4 = some { cause := 5 } := by
    rw [Part.regionCheck, spaceOf_register]
    exact if_pos (by rw [touches]; rfl)
  rw [Part.coreCheck, world, spaceOf_register, denied]
  exact Option.some_ne_none false

/-! ### A register's write -/

theorem put_of {t : RegTarget} {v : Word} {s : State} {y : Fuses × Part} (h : Part.regWrite t v (s.fuses, s.part) = y) :
    exec (.registerWrite t v) s = .next { s with fuses := y.1, part := y.2 } := by
  subst h
  rfl

theorem Yields.of_regWrite {t : RegTarget} {v : Word} {s : State} {q : Part} (h : Part.regWrite t v (s.fuses, s.part) = (s.fuses, q)) :
    Yields (.registerWrite t v) s q := put_of h

section
variable {c b o : Nat} {v : Word} {f : Fuses} {p : Part}

theorem coreRegWrite_stopped (h : (p.core c).run ≠ .running) : Part.coreRegWrite c b o v (f, p) = (f, p) := if_pos h

theorem coreRegWrite_admitted (run : (p.core c).run = .running)
    (h : (p.coreCheck c kWrite (0x100000000 + b * 0x100000 + o) 4).1 = none) :
    Part.coreRegWrite c b o v (f, p) = Part.csrWrite (if c = 4 then .secure else .normal) b o v (f, p) := by
  have same := (coreCheck_spec c kWrite (0x100000000 + b * 0x100000 + o) 4 p).1 h
  rw [Part.coreRegWrite, if_neg (by simp [run])]
  generalize p.coreCheck c kWrite (0x100000000 + b * 0x100000 + o) 4 = x at h same
  obtain ⟨r, q⟩ := x
  subst h same
  rfl

theorem coreRegWrite_refused (run : (p.core c).run = .running)
    (h : (p.coreCheck c kWrite (0x100000000 + b * 0x100000 + o) 4).1 ≠ none) :
    Part.coreRegWrite c b o v (f, p) = (f, (p.coreCheck c kWrite (0x100000000 + b * 0x100000 + o) 4).2) := by
  rw [Part.coreRegWrite, if_neg (by simp [run])]
  generalize p.coreCheck c kWrite (0x100000000 + b * 0x100000 + o) 4 = x at h
  obtain ⟨_ | bus, q⟩ := x
  · exact absurd rfl h
  · rfl

theorem apertureWrite_shut (h : p.barOpen 0 = false) : Part.apertureWrite b o v (f, p) = (f, p) := by
  rw [Part.apertureWrite, h, Bool.not_false, if_pos rfl]

theorem apertureWrite_admitted (opened : p.barOpen 0 = true) (h : p.colourCheck .csr (b * 0x100000 + o) 4 0xFFE false = none) :
    Part.apertureWrite b o v (f, p) = Part.csrWrite .normal b o v (f, p) := by
  rw [Part.apertureWrite, opened, Bool.not_true, if_neg Bool.false_ne_true]
  generalize p.colourCheck .csr (b * 0x100000 + o) 4 0xFFE false = x at h
  subst h
  rfl

theorem apertureWrite_refused (opened : p.barOpen 0 = true) (h : p.colourCheck .csr (b * 0x100000 + o) 4 0xFFE false ≠ none) :
    ∃ q, Part.apertureWrite b o v (f, p) = (f, q) ∧ FaultRecorded p q := by
  obtain ⟨d, hd⟩ := Option.ne_none_iff_exists'.1 h
  refine ⟨_, ?_, refuse_recorded (Part.denialRec d (0x100000000 + (b * 0x100000 + o)) 4 0x28 kWrite false false 0xFFE) true p⟩
  rw [Part.apertureWrite, opened, Bool.not_true, if_neg Bool.false_ne_true, hd]

end

end Sys2Proof.Safety
end

section
/-! SUPPORT. Pages, tables, mailboxes and BARs of the host link, word by word; and the statement on register writes and staged sets (R37,
R50 to R55, R393, R640). -/

namespace Sys2Proof.Safety

open Sys2Proof.Machine

/-! ### Pages, tables and mailboxes (R52, R56, R387, R393) -/

section
variable (p : Part) (v : Word)

/-- The word of a queue pair's ring address stages it (R52, R80). -/
theorem pageWrite_sqBase {n j g : Nat} (hj : j < 64) (here : p.qpGlobal n j = some g) :
    p.pageWrite n (4 * (0x200 + 8 * j)) v = p.modQp g fun q =>
      { q with st := { q.st with stage := { q.st.stage with sqBase := Part.setWord q.st.stage.sqBase 0 (v &&& 0xFFFFF000) } } } := by
  have pair : (4 * (0x200 + 8 * j) - 0x800) / 0x20 = j := by omega
  have word : 4 * (0x200 + 8 * j) % 0x20 = 0 := by omega
  rw [Part.pageWrite, if_pos (decide_eq_true (by omega)), pair, word, onQp_some here]
  rfl

/-- A word of the command block is stored while the channel is idle (R388). -/
theorem pageWrite_command {n j : Nat} (hj : j < 32) :
    p.pageWrite n (4 * (0x800 + j)) v = p.modAdm n fun a =>
      if a.busy then { a with err := true } else { a with cmd := a.cmd.write ram (4 * j) (leBytes 4 v.toNat) } := by
  have word : 4 * (0x800 + j) - 0x2000 = 4 * j := by omega
  rw [Part.pageWrite, if_neg (by simp; omega), if_neg (by simp; omega), if_pos (decide_eq_true (by omega)), word, Part.admWrite, if_pos (by omega)]

/-- The data word of a table's entry is stored (R56). -/
theorem tableWrite_data {n j : Nat} (hj : j < Part.vectorCount n) :
    p.tableWrite n (4 * (4 * j + 2)) v =
      p.modFn n fun f => { f with vectors := f.vectors.upd {} j fun x => { x with data := v } } := by
  have entry : 4 * (4 * j + 2) / 16 = j := by omega
  have word : 4 * (4 * j + 2) % 16 = 8 := by omega
  rw [Part.tableWrite, if_neg (by omega), entry, word]
  rfl

/-- A word of a mailbox of a tenant that is there is stored while the mailbox is not full (R393). -/
theorem mboxWrite_down {n w : Nat} (up : p.tnt.states.get 0 n ≠ 0) (hw : w < 16) :
    p.mboxWrite false n (4 * w) v = p.modMbox n fun x =>
      if (p.tnt.mbox.get {} n).downFull then { x with downErr := true } else { x with down := x.down.set 0 w v } := by
  have word : 4 * w / 4 = w := by omega
  have works : ¬ (!p.mboxUp n) = true := by simpa [Part.mboxUp] using up
  rw [Part.mboxWrite, if_neg works, if_pos (by omega), word]
  rfl

theorem mboxWrite_none {n r : Nat} (down : p.tnt.states.get 0 n = 0) : p.mboxWrite false n r v = p := by
  rw [Part.mboxWrite, if_pos (by simpa [Part.mboxUp] using down)]

end

/-! ### One word of a BAR (R37, R50) -/

theorem leBytes4 (n : Nat) : leBytes 4 n =
    [BitVec.ofNat 8 n, BitVec.ofNat 8 (n / 256), BitVec.ofNat 8 (n / 256 / 256), BitVec.ofNat 8 (n / 256 / 256 / 256)] := rfl

/-- The word that its four octets spell. -/
theorem word_of_octets (v : Word) : BitVec.ofNat 32 (ofLe (leBytes 4 v.toNat)) = v := by
  have hv := v.isLt
  refine BitVec.eq_of_toNat_eq ?_
  simp only [leBytes4, ofLe, BitVec.toNat_ofNat]
  omega

theorem csrSpan_word {a : Nat} (aligned : a % 4 = 0) : Part.csrSpan a 4 = [a / 4] := by
  have one : (a + 4 + 3) / 4 - a / 4 = 1 := by omega
  rw [Part.csrSpan, if_neg (by decide), one]
  rfl

/-- A word stored whole is one write; the octets that it does not carry, of which there are none, take a draw (R55). -/
theorem storeWords_word (put : Nat → Word → Fuses × Part → Fuses × Part) {a : Nat} (aligned : a % 4 = 0) (v : Word) (f : Fuses) (p : Part) :
    Part.storeWords put a (leBytes 4 v.toNat) (f, p) = put a v (f, p.draw.2) := by
  have place : 4 * (a / 4) = a := by omega
  rw [Part.storeWords, show (leBytes 4 v.toNat).length = 4 from rfl, csrSpan_word aligned]
  simp only [List.foldl_cons, List.foldl_nil, place]
  rw [if_pos (by omega), if_pos (by omega), if_pos (by omega), if_pos (by omega)]
  have octet : ∀ j, (leBytes 4 v.toNat).getD (a + j - a) 0 = (leBytes 4 v.toNat).getD j 0 := fun j => by rw [Nat.add_sub_cancel_left]
  simp only [octet]
  exact congrArg (fun x => put a x (f, p.draw.2)) (word_of_octets v)

/-- What of a BAR is no register of the aperture: no checkpoint stands before it. -/
theorem barDenied_elsewhere {n a len : Nat} {two : Bool} (kind : BitVec 3) (p : Part)
    (h : n ≠ 0 ∨ two = true ∨ ∀ o, Part.bar0Place a ≠ .aperture o) : Part.barDenied n two a len kind p = (false, p) := by
  unfold Part.barDenied
  split
  · next o plain place =>
    rcases h with h | h | h
    · simp [h] at plain
    · simp [h] at plain
    · exact absurd place (h o)
  · rfl

section
variable {a : Nat} (kind : BitVec 3) (p : Part)

theorem bar0Place_page (h : a < 0x10000) : Part.bar0Place a = .page a := if_pos h

theorem bar0Place_mailbox (lo : 0x100000 ≤ a) (hi : a < 0x200000) :
    Part.bar0Place a = .mailbox ((a - 0x100000) / 0x400) ((a - 0x100000) % 0x400) := by
  rw [Part.bar0Place, if_neg (by omega), if_pos (decide_eq_true ⟨lo, hi⟩)]

theorem bar0Place_aperture (lo : 0x4000000 ≤ a) (hi : a < 0x5200000) : Part.bar0Place a = .aperture (a - 0x4000000) := by
  rw [Part.bar0Place, if_neg (by omega), if_neg (by simp; omega), if_pos (decide_eq_true ⟨lo, hi⟩)]

theorem bar0Place_reserved (h : (0x10000 ≤ a ∧ a < 0x100000) ∨ (0x200000 ≤ a ∧ a < 0x4000000) ∨ 0x5200000 ≤ a) :
    Part.bar0Place a = .reserved := by
  rw [Part.bar0Place, if_neg (by omega), if_neg (by simp; omega), if_neg (by simp; omega)]

theorem barDenied_admitted {o : Nat} (place : Part.bar0Place a = .aperture o) (h : p.colourCheck .csr o 4 0xFFE false = none) :
    Part.barDenied 0 false a 4 kind p = (false, p) := by
  have plain : ((0 : Nat) == 0 && !false && (4 : Nat) != 0) = true := rfl
  rw [Part.barDenied, place, plain]
  dsimp only
  rw [h]

theorem barDenied_refused {o : Nat} (place : Part.bar0Place a = .aperture o) (h : p.colourCheck .csr o 4 0xFFE false ≠ none) :
    ∃ q, Part.barDenied 0 false a 4 kind p = (true, q) ∧ FaultRecorded p q := by
  obtain ⟨d, hd⟩ := Option.ne_none_iff_exists'.1 h
  refine ⟨_, ?_, refuse_recorded (Part.denialRec d (0x100000000 + o) 4 0x28 kind false false 0xFFE) true p⟩
  have plain : ((0 : Nat) == 0 && !false && (4 : Nat) != 0) = true := rfl
  rw [Part.barDenied, place, plain]
  dsimp only
  rw [hd]

end

/-- The octets of a request. -/
def accLen (acc : BarAccess) : Nat := match acc with | .read k => k.val | .write bs => bs.length | .atomic bs => bs.length

section
variable {n a : Nat} {two : Bool} {f : Fuses} {p : Part}

/-- A request reaches a BAR that is open and holds it whole. -/
def BarOpened (n a : Nat) (two : Bool) (acc : BarAccess) (p : Part) : Prop := p.barOpen n = true ∧ a + accLen acc ≤ Part.barSize n two

theorem barClosed_iff {acc : BarAccess} :
    ((!p.barOpen n) = true ∨ Part.barSize n two < a + accLen acc) ↔ ¬ BarOpened n a two acc p := by
  rw [BarOpened, Classical.not_and_iff_not_or_not, Bool.not_eq_true', Bool.not_eq_true, Nat.not_le]

theorem barAccess_unclaimed {acc : BarAccess} (h : ¬ BarOpened n a two acc p) : Part.barAccess n two a acc (f, p) = (f, p) :=
  if_pos (barClosed_iff.2 h)

theorem barAccess_unsupported {acc : BarAccess} (h : BarOpened n a two acc p)
    (bad : 4096 < a % 4096 + accLen acc ∨ ∃ bs, acc = .atomic bs) : Part.barAccess n two a acc (f, p) = (f, p.unsupported) := by
  refine (if_neg fun closed => barClosed_iff.1 closed h).trans ?_
  rcases bad with crosses | ⟨bs, rfl⟩
  · exact if_pos crosses
  · exact ite_self _

variable (aligned : a % 4 = 0)
include aligned

theorem barAccess_read (h : BarOpened n a two (.read 4) p) (admitted : Part.barDenied n two a 4 kRead p = (false, p)) :
    Part.barAccess n two a (.read 4) (f, p) =
      (f, (p.barRead n two a).2.issue (.completion true (leBytes 4 (p.barRead n two a).1.toNat))) := by
  have within : ¬ 4096 < a % 4096 + 4 := by omega
  refine (if_neg fun closed => barClosed_iff.1 closed h).trans ((if_neg within).trans ?_)
  have place : 4 * (a / 4) = a := by omega
  dsimp only
  rw [show ((4 : Fin 4097) : Nat) = 4 from rfl, admitted]
  dsimp only
  rw [csrSpan_word aligned, aligned]
  simp only [List.foldl_cons, List.foldl_nil, place, List.nil_append, List.drop_zero]
  rfl

theorem barAccess_readDenied {q : Part} (h : BarOpened n a two (.read 4) p) (denied : Part.barDenied n two a 4 kRead p = (true, q)) :
    Part.barAccess n two a (.read 4) (f, p) = (f, q.issue (.completion true (leBytes 4 0))) := by
  have within : ¬ 4096 < a % 4096 + 4 := by omega
  refine (if_neg fun closed => barClosed_iff.1 closed h).trans ((if_neg within).trans ?_)
  dsimp only
  rw [show ((4 : Fin 4097) : Nat) = 4 from rfl, denied]
  rfl

theorem barAccess_write {v : Word} (h : BarOpened n a two (.write (leBytes 4 v.toNat)) p)
    (admitted : Part.barDenied n two a 4 kWrite p = (false, p)) :
    Part.barAccess n two a (.write (leBytes 4 v.toNat)) (f, p) = Part.barWrite n two a v (f, p.draw.2) := by
  have within : ¬ 4096 < a % 4096 + 4 := by omega
  refine (if_neg fun closed => barClosed_iff.1 closed h).trans ((if_neg within).trans ?_)
  have size : (leBytes 4 v.toNat).length = 4 := rfl
  dsimp only
  rw [size, admitted]
  exact storeWords_word (Part.barWrite n two) aligned v f p

theorem barAccess_writeDenied {v : Word} {q : Part} (h : BarOpened n a two (.write (leBytes 4 v.toNat)) p)
    (denied : Part.barDenied n two a 4 kWrite p = (true, q)) :
    Part.barAccess n two a (.write (leBytes 4 v.toNat)) (f, p) = (f, q) := by
  have within : ¬ 4096 < a % 4096 + 4 := by omega
  refine (if_neg fun closed => barClosed_iff.1 closed h).trans ((if_neg within).trans ?_)
  have size : (leBytes 4 v.toNat).length = 4 := rfl
  dsimp only
  rw [size, denied]

end

section
variable {n a : Nat} (p : Part)

theorem barRead_table : p.barRead n true a = (p.tableRead n a, p) := if_pos rfl

theorem barRead_page (h : n ≠ 0 ∨ a < 0x10000) : p.barRead n false a = (p.pageRead n a, p) := by
  rw [Part.barRead, if_neg Bool.false_ne_true]
  by_cases manager : n = 0
  · rw [if_neg (by simpa using manager), bar0Place_page (h.resolve_left (by simpa using manager)), manager]
  · exact if_pos manager

theorem barRead_mailbox (lo : 0x100000 ≤ a) (hi : a < 0x200000) :
    p.barRead 0 false a = (p.mboxRead ((a - 0x100000) / 0x400 + 1) ((a - 0x100000) % 0x400), p) := by
  rw [Part.barRead, if_neg Bool.false_ne_true, if_neg (by simp), bar0Place_mailbox lo hi]

theorem barRead_aperture (lo : 0x4000000 ≤ a) (hi : a < 0x5200000) :
    p.barRead 0 false a = p.csrRead .normal ((a - 0x4000000) / 0x100000) ((a - 0x4000000) % 0x100000) := by
  rw [Part.barRead, if_neg Bool.false_ne_true, if_neg (by simp), bar0Place_aperture lo hi]

theorem barRead_reserved (h : (0x10000 ≤ a ∧ a < 0x100000) ∨ (0x200000 ≤ a ∧ a < 0x4000000) ∨ 0x5200000 ≤ a) :
    p.barRead 0 false a = (0, p) := by
  rw [Part.barRead, if_neg Bool.false_ne_true, if_neg (by simp), bar0Place_reserved h]

variable (v : Word) (f : Fuses)

theorem barWrite_table : Part.barWrite n true a v (f, p) = (f, p.tableWrite n a v) := if_pos rfl

theorem barWrite_page (h : n ≠ 0 ∨ a < 0x10000) : Part.barWrite n false a v (f, p) = (f, p.pageWrite n a v) := by
  rw [Part.barWrite, if_neg Bool.false_ne_true]
  by_cases manager : n = 0
  · rw [if_neg (by simpa using manager), bar0Place_page (h.resolve_left (by simpa using manager)), manager]
  · exact if_pos manager

theorem barWrite_mailbox (lo : 0x100000 ≤ a) (hi : a < 0x200000) :
    Part.barWrite 0 false a v (f, p) = (f, p.mboxWrite false ((a - 0x100000) / 0x400 + 1) ((a - 0x100000) % 0x400) v) := by
  rw [Part.barWrite, if_neg Bool.false_ne_true, if_neg (by simp), bar0Place_mailbox lo hi]

theorem barWrite_aperture (lo : 0x4000000 ≤ a) (hi : a < 0x5200000) : Part.barWrite 0 false a v (f, p) =
    Part.csrWrite .normal ((a - 0x4000000) / 0x100000) ((a - 0x4000000) % 0x100000) v (f, p) := by
  rw [Part.barWrite, if_neg Bool.false_ne_true, if_neg (by simp), bar0Place_aperture lo hi]

theorem barWrite_reserved (h : (0x10000 ≤ a ∧ a < 0x100000) ∨ (0x200000 ≤ a ∧ a < 0x4000000) ∨ 0x5200000 ≤ a) :
    Part.barWrite 0 false a v (f, p) = (f, p) := by
  rw [Part.barWrite, if_neg Bool.false_ne_true, if_neg (by simp), bar0Place_reserved h]

end

end Sys2Proof.Safety
end

section
/-! SUPPORT. The statement on register writes and staged sets (R37, R50 to R55, R86, R393, R420, R438 to R440, R640), way by way. -/

namespace Sys2Proof.Safety

open Sys2Proof.Machine

/-- Every staged register of the statement's list. -/
theorem staged_all (w : World) (f : Fuses) (v : Word) (p : Part) :
    ∀ x ∈ ([(0x1, 0x10, 0x14, 0x000FFFFF), (0x4, 0x80010, 0x80014, 0xFFFFFFFF), (0x5, 0x80010, 0x80014, 0x00001F1F),
      (0x6, 0xC0010, 0xC0014, 0x3F), (0x7, 0x80010, 0x80014, 0x3F), (0x8, 0x10, 0x14, 0x1FFF), (0x9, 0x10, 0x14, 0x3F3F),
      (0xD, 0x10, 0x14, 0xF), (0xF, 0x10, 0x14, 0xFFFF), (0xF, 0x18, 0x1C, 0x00FFFFFF)] : List (Nat × Nat × Nat × Word)),
    (x.1 = 0xD → p.mir.chunks = 0) → Stages w f v p x.1 x.2.1 x.2.2.1 x.2.2.2 := by
  simp only [List.forall_mem_cons]
  exact ⟨fun _ => wpuTherm_stages w f v p, fun _ => seqBudget_stages w f v p, fun _ => panCfg_stages w f v p,
    fun _ => rkeDepth_stages w f v p, fun _ => grnDepth_stages w f v p, fun _ => slcScrub_stages w f v p,
    fun _ => entReseed_stages w f v p, fun none => mirShare_stages w f v p (none trivial), fun _ => evrCfg_stages w f v p,
    fun _ => evrRate_stages w f v p, List.forall_mem_nil _⟩

section
variable (s : State) (v : Word)

/-- A write through the port of a running core that its checkpoint admits (R420). -/
theorem corePort_admitted (c : Fin 5) (b : Fin 18) (w : Fin 0x40000) (run : (s.part.core c).run = .running)
    (admitted : (s.part.coreCheck c kWrite (0x100000000 + b.val * 0x100000 + 4 * w.val) 4).1 = none) :
    Part.regWrite (.core c b w) v (s.fuses, s.part) =
      Part.csrWrite (if c = 4 then .secure else .normal) b.val (4 * w.val) v (s.fuses, s.part) := by
  have world : (if c.val = 4 then World.secure else World.normal) = if c = 4 then .secure else .normal :=
    if_congr ⟨fun h => Fin.ext h, fun h => congrArg Fin.val h⟩ rfl rfl
  rw [← world]
  exact coreRegWrite_admitted run admitted

/-- A write through a running core's port that its checkpoint refuses is recorded (R438, R443). -/
theorem corePort_refused (c : Fin 5) (b : Fin 18) (w : Fin 0x40000) (run : (s.part.core c).run = .running)
    (refused : (s.part.coreCheck c kWrite (0x100000000 + b.val * 0x100000 + 4 * w.val) 4).1 ≠ none) :
    ∃ q, Yields (.registerWrite (.core c b w) v) s q ∧ FaultRecorded s.part q :=
  ⟨_, .of_regWrite (coreRegWrite_refused run refused), (coreCheck_spec ..).2⟩

/-- A write through the host's aperture (R53, R439). -/
theorem aperture_write (b : Fin 18) (w : Fin 0x40000) :
    let p := s.part
    let off := b.val * 0x100000 + 4 * w.val
    let fine := p.acu.tagCsr.get 0xFFF (off / 4096) = 0xFFE ∧ secureReg p.dmaSecure b.val (4 * w.val) = false
    let shut := p.hif.linkUp = false ∨ (p.fn 0).mse = false
    let y := Part.csrWrite .normal b.val (4 * w.val) v (s.fuses, p)
    (shut → Yields (.registerWrite (.aperture b w) v) s p) ∧
    (¬ shut → fine → exec (.registerWrite (.aperture b w) v) s = .next { s with fuses := y.1, part := y.2 }) ∧
    (¬ shut → ¬ fine → ∃ q, Yields (.registerWrite (.aperture b w) v) s q ∧ FaultRecorded p q) := by
  intro p off fine shut y
  obtain ⟨aligned, block, word⟩ := register_place b w
  have opens : p.barOpen 0 = true ↔ ¬ shut := by simp [Part.barOpen, Part.fnExists, shut]
  have admits : p.colourCheck .csr off 4 0xFFE false = none ↔ fine := by
    rw [colourCheck_word p aligned, Fine, block, word]
  refine ⟨fun closed => .of_regWrite (apertureWrite_shut ?_), fun opened h => put_of (apertureWrite_admitted (opens.2 opened) (admits.2 h)),
    fun opened h => ?_⟩
  · exact Bool.eq_false_iff.2 fun opened => opens.1 opened closed
  · obtain ⟨q, effect, recorded⟩ := apertureWrite_refused (f := s.fuses) (v := v) (opens.2 opened) (mt admits.1 h)
    exact ⟨q, .of_regWrite effect, recorded⟩

/-- A word of a page or a table (R51, R52, R56, R387). -/
theorem page_write (n : Fin 1025) (w : Fin 0x4000) :
    let p := s.part
    (p.barOpen n.val = false → Yields (.registerWrite (.page n w) v) s p ∧ Yields (.registerWrite (.table n w) v) s p) ∧
    (p.barOpen n.val = true →
      (∀ j < 64, ∀ g, w.val = 0x200 + 8 * j → p.qpGlobal n.val j = some g → ∃ q, Yields (.registerWrite (.page n w) v) s q ∧
        q = { p with dsp := { p.dsp with qps := q.dsp.qps } } ∧ (∀ i, i ≠ g → q.qp i = p.qp i) ∧
        let x := (p.qp g).st
        q.qp g = { p.qp g with st := { x with stage := { x.stage with sqBase := Part.setWord x.stage.sqBase 0 (v &&& 0xFFFFF000) } } }) ∧
      (∀ j < 32, w.val = 0x800 + j → ∃ q, Yields (.registerWrite (.page n w) v) s q ∧
        q = { p with tnt := { p.tnt with adm := q.tnt.adm } } ∧ (∀ i, i ≠ n.val → q.adm i = p.adm i) ∧
        q.adm n.val = if (p.adm n.val).busy then { p.adm n.val with err := true }
          else { p.adm n.val with cmd := (p.adm n.val).cmd.write ram (4 * j) (leBytes 4 v.toNat) }) ∧
      (∀ j < Part.vectorCount n.val, w.val = 4 * j + 2 → ∃ q, Yields (.registerWrite (.table n w) v) s q ∧ q = { p with hif := q.hif } ∧
        (q.fn n.val).vectors.get {} j = { (p.fn n.val).vectors.get {} j with data := v } ∧
        ∀ i, i ≠ j → (q.fn n.val).vectors.get {} i = (p.fn n.val).vectors.get {} i)) := by
  intro p
  have opens : ∀ {b} (g : Part → Part), p.barOpen n = b → p.when (p.barOpen n) g = if b then g p else p := fun g h => by rw [h, Part.when]
  refine ⟨fun shut => ⟨?_, ?_⟩, fun opened => ⟨fun j hj g hw here => ?_, fun j hj hw => ?_, fun j hj hw => ?_⟩⟩
  · exact .of_regWrite (congrArg (Prod.mk s.fuses) (opens (Part.pageWrite n (4 * w.val) v) shut))
  · exact .of_regWrite (congrArg (Prod.mk s.fuses) (opens (Part.tableWrite n (4 * w.val) v) shut))
  · have effect := pageWrite_sqBase p v hj here
    rw [← hw] at effect
    obtain ⟨frame, others⟩ := modQp_only g (fun q =>
      { q with st := { q.st with stage := { q.st.stage with sqBase := Part.setWord q.st.stage.sqBase 0 (v &&& 0xFFFFF000) } } }) p
    exact ⟨_, .of_regWrite (congrArg (Prod.mk s.fuses) ((opens (Part.pageWrite n (4 * w.val) v) opened).trans effect)), frame, others,
      qp_modQp_self ..⟩
  · have effect := pageWrite_command p v (n := n) hj
    rw [← hw] at effect
    exact ⟨_, .of_regWrite (congrArg (Prod.mk s.fuses) ((opens (Part.pageWrite n (4 * w.val) v) opened).trans effect)), rfl,
      fun i other => adm_modAdm_other _ _ other, adm_modAdm_self ..⟩
  · have effect := tableWrite_data p v hj
    rw [← hw] at effect
    have func := fn_modFn_self p n fun f => { f with vectors := f.vectors.upd {} j fun x => { x with data := v } }
    refine ⟨_, .of_regWrite (congrArg (Prod.mk s.fuses) ((opens (Part.tableWrite n (4 * w.val) v) opened).trans effect)), rfl, ?_,
      fun i other => ?_⟩
    · simp only [func, Tab.get_upd_self]
    · simp only [func, Tab.get_upd_other _ _ _ _ _ other]

/-- A word of the manager's side of a mailbox (R393). -/
theorem mailbox_write (t : Fin 1024) (w : Fin 0x100) :
    let p := s.part
    let n := t.val + 1
    let x := p.tnt.mbox.get {} n
    (p.barOpen 0 = false ∨ p.tnt.states.get 0 n = 0 → Yields (.registerWrite (.mailbox t w) v) s p) ∧
    (p.barOpen 0 = true → p.tnt.states.get 0 n ≠ 0 → w.val < 16 → ∃ q, Yields (.registerWrite (.mailbox t w) v) s q ∧
      q = { p with tnt := { p.tnt with mbox := q.tnt.mbox } } ∧ (∀ m, m ≠ n → q.tnt.mbox.get {} m = p.tnt.mbox.get {} m) ∧
      q.tnt.mbox.get {} n = if x.downFull then { x with downErr := true } else { x with down := x.down.set 0 w.val v }) := by
  intro p n x
  have arm : Part.regWrite (.mailbox t w) v (s.fuses, p) = (s.fuses, p.when (p.barOpen 0) (Part.mboxWrite false n (4 * w.val) v)) := rfl
  refine ⟨fun h => .of_regWrite (arm.trans (congrArg (Prod.mk s.fuses) ?_)), fun opened up hw => ?_⟩
  · rcases h with shut | down
    · rw [shut, Part.when_false]
    · rw [Part.when, mboxWrite_none p v down, ite_self]
  · have effect := (congrArg (fun b => p.when b (Part.mboxWrite false n (4 * w.val) v)) opened).trans (mboxWrite_down p v up hw)
    refine ⟨_, .of_regWrite (arm.trans (congrArg (Prod.mk s.fuses) effect)), rfl, fun m other => ?_, ?_⟩
    · simp only [Part.modMbox, Part.modTnt, Tab.get_upd_other _ _ _ _ _ other]
    · simp only [Part.modMbox, Part.modTnt, Tab.get_upd_self]
      rfl

end

/-! ### A request at an offset of a BAR (R37, R50, R55) -/

section
variable {s : State} {n : Fin 1025} {two : Bool} {o : BitVec 28} {v : Word}

theorem barSize_eq (n : Fin 1025) (two : Bool) :
    Part.barSize n two = if n = 0 then (if two then 0x10000 else 0x10000000) else if two then 0x1000 else 0x10000 :=
  if_congr (Fin.val_eq_zero_iff (a := n)) rfl rfl

variable (aligned : o.toNat % 4 = 0)
include aligned

theorem bar_read {x : Word} {q : Part} (opened : BarOpened n o.toNat two (.read 4) s.part)
    (admitted : Part.barDenied n two o.toNat 4 kRead s.part = (false, s.part)) (value : s.part.barRead n two o.toNat = (x, q)) :
    Yields (.registerWrite (.bar n two o (.read 4)) v) s (q.issue (.completion true (leBytes 4 x.toNat))) := by
  have effect := barAccess_read (f := s.fuses) aligned opened admitted
  rw [value] at effect
  exact .of_regWrite effect

theorem bar_write {y : Fuses × Part} (opened : BarOpened n o.toNat two (.write (leBytes 4 v.toNat)) s.part)
    (admitted : Part.barDenied n two o.toNat 4 kWrite s.part = (false, s.part))
    (effect : Part.barWrite n two o.toNat v (s.fuses, s.part.draw.2) = y) :
    exec (.registerWrite (.bar n two o (.write (leBytes 4 v.toNat))) v) s = .next { s with fuses := y.1, part := y.2 } :=
  put_of ((barAccess_write aligned opened admitted).trans effect)

/-- What a request of one word reaches outside the aperture (R50). -/
theorem bar_reads (opened : BarOpened n o.toNat two (.read 4) s.part) :
    let p := s.part
    let i := Instr.registerWrite (.bar n two o (.read 4)) v
    let sent := fun (x : Word) (q : Part) => q.issue (.completion true (leBytes 4 x.toNat))
    let a := o.toNat
    (two = true → Yields i s (sent (p.tableRead n a) p)) ∧
    (two = false → n ≠ 0 ∨ a < 0x10000 → Yields i s (sent (p.pageRead n a) p)) ∧
    (two = false → n = 0 → 0x100000 ≤ a → a < 0x200000 → Yields i s (sent (p.mboxRead ((a - 0x100000) / 0x400 + 1) (a % 0x400)) p)) ∧
    (two = false → n = 0 → (0x10000 ≤ a ∧ a < 0x100000) ∨ (0x200000 ≤ a ∧ a < 0x4000000) ∨ 0x5200000 ≤ a →
      Yields i s (sent 0 p)) := by
  intro p i sent a
  refine ⟨?_, ?_, ?_, ?_⟩
  · rintro rfl
    exact bar_read aligned opened (barDenied_elsewhere _ _ (.inr (.inl rfl))) (barRead_table p)
  · rintro rfl h
    have place : n.val ≠ 0 ∨ a < 0x10000 := h.imp_left fun other => mt Fin.val_eq_zero_iff.1 other
    refine bar_read aligned opened (barDenied_elsewhere _ _ ?_) (barRead_page p place)
    exact place.imp_right fun page => .inr fun _ no => nomatch (bar0Place_page page).symm.trans no
  · rintro rfl rfl lo hi
    have value := barRead_mailbox p lo hi
    rw [show (a - 0x100000) % 0x400 = a % 0x400 by omega] at value
    exact bar_read aligned opened (barDenied_elsewhere _ _ (.inr (.inr fun _ no => nomatch (bar0Place_mailbox lo hi).symm.trans no))) value
  · rintro rfl rfl h
    exact bar_read aligned opened (barDenied_elsewhere _ _ (.inr (.inr fun _ no => nomatch (bar0Place_reserved h).symm.trans no)))
      (barRead_reserved p h)

theorem bar_writes (opened : BarOpened n o.toNat two (.write (leBytes 4 v.toNat)) s.part) :
    let p0 := s.part.draw.2
    let i := Instr.registerWrite (.bar n two o (.write (leBytes 4 v.toNat))) v
    let a := o.toNat
    (two = true → Yields i s (p0.tableWrite n a v)) ∧
    (two = false → n ≠ 0 ∨ a < 0x10000 → Yields i s (p0.pageWrite n a v)) ∧
    (two = false → n = 0 → 0x100000 ≤ a → a < 0x200000 → Yields i s (p0.mboxWrite false ((a - 0x100000) / 0x400 + 1) (a % 0x400) v)) ∧
    (two = false → n = 0 → (0x10000 ≤ a ∧ a < 0x100000) ∨ (0x200000 ≤ a ∧ a < 0x4000000) ∨ 0x5200000 ≤ a → Yields i s p0) := by
  intro p0 i a
  refine ⟨?_, ?_, ?_, ?_⟩
  · rintro rfl
    exact bar_write aligned opened (barDenied_elsewhere _ _ (.inr (.inl rfl))) (barWrite_table p0 v s.fuses)
  · rintro rfl h
    have place : n.val ≠ 0 ∨ a < 0x10000 := h.imp_left fun other => mt Fin.val_eq_zero_iff.1 other
    refine bar_write aligned opened (barDenied_elsewhere _ _ ?_) (barWrite_page p0 v s.fuses place)
    exact place.imp_right fun page => .inr fun _ no => nomatch (bar0Place_page page).symm.trans no
  · rintro rfl rfl lo hi
    have effect := barWrite_mailbox p0 v s.fuses lo hi
    rw [show (a - 0x100000) % 0x400 = a % 0x400 by omega] at effect
    exact bar_write aligned opened (barDenied_elsewhere _ _ (.inr (.inr fun _ no => nomatch (bar0Place_mailbox lo hi).symm.trans no))) effect
  · rintro rfl rfl h
    exact bar_write aligned opened (barDenied_elsewhere _ _ (.inr (.inr fun _ no => nomatch (bar0Place_reserved h).symm.trans no)))
      (barWrite_reserved p0 v s.fuses h)

/-- A request of one word to the aperture passes its checkpoint (R53, R439). -/
theorem bar_aperture {acc : BarAccess} (lo : 0x4000000 ≤ o.toNat) (hi : o.toNat < 0x5200000)
    (opened : BarOpened (0 : Fin 1025) o.toNat false acc s.part) {off : Nat} (hoff : o.toNat - 0x4000000 = off) :
    (acc = .read 4 → Fine s.part off → Yields (.registerWrite (.bar 0 false o acc) v) s
      ((s.part.csrRead .normal (off / 0x100000) (off % 0x100000)).2.issue (.completion true
        (leBytes 4 (s.part.csrRead .normal (off / 0x100000) (off % 0x100000)).1.toNat)))) ∧
    (acc = .read 4 → ¬ Fine s.part off → ∃ q, Yields (.registerWrite (.bar 0 false o acc) v) s (q.issue (.completion true (leBytes 4 0))) ∧
      FaultRecorded s.part q) ∧
    (acc = .write (leBytes 4 v.toNat) → Fine s.part off → exec (.registerWrite (.bar 0 false o acc) v) s = .next { s with
      fuses := (Part.csrWrite .normal (off / 0x100000) (off % 0x100000) v (s.fuses, s.part.draw.2)).1
      part := (Part.csrWrite .normal (off / 0x100000) (off % 0x100000) v (s.fuses, s.part.draw.2)).2 }) ∧
    (acc = .write (leBytes 4 v.toNat) → ¬ Fine s.part off → ∃ q, Yields (.registerWrite (.bar 0 false o acc) v) s q ∧
      FaultRecorded s.part q) := by
  have place := bar0Place_aperture lo hi
  have value := barRead_aperture s.part lo hi
  have effect := barWrite_aperture s.part.draw.2 v s.fuses lo hi
  rw [hoff] at place value effect
  have admits : s.part.colourCheck .csr off 4 0xFFE false = none ↔ Fine s.part off := colourCheck_word s.part (by omega)
  refine ⟨?_, ?_, ?_, ?_⟩
  · rintro rfl fine
    exact bar_read aligned opened (barDenied_admitted _ _ place (admits.2 fine)) value
  · rintro rfl refused
    obtain ⟨q, denied, recorded⟩ := barDenied_refused kRead s.part place (mt admits.1 refused)
    exact ⟨q, .of_regWrite (barAccess_readDenied aligned opened denied), recorded⟩
  · rintro rfl fine
    exact bar_write aligned opened (barDenied_admitted _ _ place (admits.2 fine)) effect
  · rintro rfl refused
    obtain ⟨q, denied, recorded⟩ := barDenied_refused kWrite s.part place (mt admits.1 refused)
    exact ⟨q, .of_regWrite (barAccess_writeDenied aligned opened denied), recorded⟩

end

/-- Settles O57, way by way. -/
theorem registerWritesAndStagedSets : Obligations.RegisterWritesAndStagedSets := by
  unfold Obligations.RegisterWritesAndStagedSets
  intro staged
  refine ⟨fun w f p v => ⟨staged_all w f v p, rfl, rfl, rfl, fun t ht => tntInflight_staged w f v p ht, rfl⟩, fun s v => ?_⟩
  intro p put
  refine ⟨fun c b w => ⟨fun stopped => .of_regWrite (coreRegWrite_stopped stopped),
    fun run admitted => put_of (corePort_admitted s v c b w run admitted),
    fun run refused => corePort_refused s v c b w run refused, fun normal secure => coreCheck_secure normal kWrite b w secure⟩,
    fun b w => aperture_write s v b w, fun n w => page_write s v n w, fun t w => mailbox_write s v t w, fun n two o acc => ?_,
    rfl, rfl, rfl, rfl, rfl, rfl, rfl, rfl, rfl, rfl, fun n => ?_, fun g => ?_⟩
  · intro i a len size opened out sent p0 word put'
    have opens : opened ↔ BarOpened n a two acc p := by rw [BarOpened, barSize_eq]; rfl
    refine ⟨fun shut => .of_regWrite (barAccess_unclaimed (mt opens.2 shut)), fun h bad => .of_regWrite (barAccess_unsupported (opens.1 h) bad),
      fun h aligned => ⟨?_, ?_, ?_⟩⟩
    · rintro rfl
      exact bar_reads aligned (opens.1 h)
    · rintro rfl
      exact bar_writes aligned (opens.1 h)
    · rintro rfl rfl lo hi
      exact bar_aperture aligned lo hi (opens.1 h) rfl
  · obtain ⟨frame, own, others⟩ := modTenant_spec p n fun x => { x with st := x.st.apply }
    exact ⟨_, rfl, frame, congrArg Tenant.st own, others⟩
  · obtain ⟨frame, others⟩ := modQp_only g.toNat (fun q => { q with st := q.st.apply }) p
    exact ⟨_, rfl, frame, qp_modQp_self .., others⟩

end Sys2Proof.Safety
end

section
/-! SUPPORT. The end of an operation in its context: what it leaves there, and what else it may change; and the read of a key by handle
(R69, R97 to R99, R327). -/

namespace Sys2Proof.Safety

open Sys2Proof.Machine

/-! ### The end of an operation in its context (R69, R98, R99) -/

theorem onePan_modOnePan (p : Part) (n k : Nat) (g : Pan → Pan) :
    (p.modOnePan n g).onePan k = if k = n then g (p.onePan n) else p.onePan k := Tab.get_upd ..

@[simp] theorem onePan_modOnePan_self (p : Part) (n : Nat) (g : Pan → Pan) : (p.modOnePan n g).onePan n = g (p.onePan n) :=
  Tab.get_upd_self ..

@[simp] theorem ctx_modCtx_self (p : Part) (n : Nat) (g : Ctx → Ctx) : (p.modCtx n g).ctx n = g (p.ctx n) := Tab.get_upd_self ..

/-- Between `p` and `q` operations have ended in their contexts, which may have been freed and what waits for that settled; their
streams have left the pans. -/
structure Ended (p q : Part) : Prop where
  rest    : q = { p with
    sys := q.sys, hif := q.hif, tnt := q.tnt, mir := q.mir, pan := { p.pan with pans := q.pan.pans }
    dsp := { p.dsp with ctxs := q.dsp.ctxs, nextOrder := q.dsp.nextOrder } }
  pan     : ∀ k, q.onePan k = { p.onePan k with streams := (q.onePan k).streams }
  streams : ∀ k, (q.onePan k).streams.Sublist (p.onePan k).streams

theorem Ended.refl (p : Part) : Ended p p := ⟨rfl, fun _ => rfl, fun _ => List.Sublist.refl _⟩

theorem Ended.trans {p q r : Part} (h : Ended p q) (k : Ended q r) : Ended p r where
  rest := by rw [k.rest, h.rest]
  pan n := by rw [k.pan, h.pan]
  streams n := (k.streams n).trans (h.streams n)

/-- A change that leaves the pans. -/
theorem Ended.of_pan {p q : Part} (rest : q = { p with
      sys := q.sys, hif := q.hif, tnt := q.tnt, mir := q.mir
      dsp := { p.dsp with ctxs := q.dsp.ctxs, nextOrder := q.dsp.nextOrder } }) : Ended p q where
  rest := by rw [rest]
  pan k := by rw [rest]; rfl
  streams k := by rw [rest]; exact List.Sublist.refl _

/-- A context on a pan leaves it (R97). -/
theorem unbind_pan {p : Part} {n k : Nat} (unit : (p.ctx n).unit = some (.pan k)) :
    p.unbind n = p.modOnePan k fun x => { x with streams := x.streams.filter fun s => s.ctx != n } := by
  rw [Part.unbind, unit]
  rfl

theorem unbind_ended (n : Nat) (p : Part) : Ended p (p.unbind n) := by
  unfold Part.unbind
  split
  · next k unit =>
    refine ⟨rfl, fun j => ?_, fun j => ?_⟩ <;>
      rw [show Part.modPan _ p = p.modOnePan k fun x => { x with streams := x.streams.filter fun s => s.ctx != n } from rfl,
        onePan_modOnePan] <;> split
    · next same => subst same; rfl
    · rfl
    · next same => subst same; exact List.filter_sublist
    · exact List.Sublist.refl _
  · exact .refl p

theorem unbind_dsp (n : Nat) (p : Part) : (p.unbind n).dsp = p.dsp := by
  unfold Part.unbind
  split <;> rfl

theorem freeCtx_ended (n : Nat) (p : Part) : Ended p (p.freeCtx n) :=
  have freed : Ended (p.unbind n) ((p.unbind n).modDsp fun d => { d with ctxs := d.ctxs.set {} n {} }) := .of_pan rfl
  have settled : Ended _ (p.freeCtx n) := .of_pan (by
    have := (settle_settled (p.ctx n).fn ((p.unbind n).modDsp fun d => { d with ctxs := d.ctxs.set {} n {} })).rest
    rw [Part.freeCtx, this])
  ((unbind_ended n p).trans freed).trans settled

/-- The operation of a context that runs, and whose completion nothing discards, ends in it (R98, R99). -/
theorem finish_running {p : Part} {n : Nat} {status : Byte} (detail : Byte) (res : List Byte) (out : Word)
    (running : (p.ctx n).state = .running) (counts : (p.ctx n).discard = false) :
    p.finish n status detail res out = ((p.unbind n).modCtx n fun c =>
      { c with state := .finished, status := status, detail := detail, unit := none
               result := if status = 0 ∨ status = 1 then res else []
               outCount := if status = 0 ∨ status = 1 then out else BitVec.ofNat 32 c.outList
               finOrder := p.dsp.nextOrder }).modDsp fun d => { d with nextOrder := d.nextOrder + 1 } := by
  simp only [Part.finish, running, counts, reduceCtorEq, or_self, if_false, Bool.false_and, Bool.false_eq_true, Bool.or_eq_true,
    beq_iff_eq]

theorem finish_ended (n : Nat) (status detail : Byte) (res : List Byte) (out : Word) (p : Part) :
    Ended p (p.finish n status detail res out) := by
  simp only [Part.finish]
  split
  · exact .refl p
  split
  · exact freeCtx_ended n p
  · exact (unbind_ended n p).trans (.of_pan rfl)

/-- What the end of such an operation leaves in its context. -/
theorem finish_running_ctx {p : Part} {n : Nat} {status : Byte} (detail : Byte) (res : List Byte) (out : Word)
    (running : (p.ctx n).state = .running) (counts : (p.ctx n).discard = false) :
    (p.finish n status detail res out).ctx n = { p.ctx n with
      state := .finished, status := status, detail := detail, unit := none
      result := if status = 0 ∨ status = 1 then res else []
      outCount := if status = 0 ∨ status = 1 then out else BitVec.ofNat 32 (p.ctx n).outList
      finOrder := p.dsp.nextOrder } := by
  have same : (p.unbind n).ctx n = p.ctx n := by rw [Part.ctx, unbind_dsp, Part.ctx]
  rw [finish_running detail res out running counts, Part.ctx, Part.modDsp_dsp, ← Part.ctx, ctx_modCtx_self, same]

/-! ### Reads of keys (R294, R327) -/

/-- A check of the head slot that nothing fails changes nothing. -/
theorem headCheck_passes {h : BitVec 32} {colour : BitVec 12} {accepted : List (BitVec 4)} {p : Part}
    (ok : (p.headCheck h colour accepted).1 = none) : p.headCheck h colour accepted = (none, p) := by
  revert ok
  simp only [Part.headCheck]
  split_ifs <;> simp

theorem chainCheck_passes {i : Nat} {s : Slot} {n : Nat} :
    ∀ {k : Nat} {p : Part}, (Part.chainCheck i s k n p).1 = none → Part.chainCheck i s k n p = (none, p) := by
  induction n with
  | zero => exact fun _ => rfl
  | succ n ih =>
    intro k p
    rw [Part.chainCheck]
    split_ifs
    · exact nofun
    · exact nofun
    · exact ih

section
variable {h : BitVec 32} {p : Part}

/-- A read by handle that answers slots changes nothing. -/
theorem slotRead_answers {colour : BitVec 12} {accepted : List (BitVec 4)} {ss : List Slot} :
    (p.slotRead h colour accepted).1 = .ok ss → p.slotRead h colour accepted = (.ok ss, p) := by
  unfold Part.slotRead
  rcases head : p.headCheck h colour accepted with ⟨_ | e, p'⟩
  · obtain ⟨-, rfl⟩ := Prod.mk.inj (head.symm.trans (headCheck_passes (congrArg Prod.fst head)))
    simp only
    rcases chain : Part.chainCheck (hIndex h) (p'.slot (hIndex h)) 1 ((p'.slot (hIndex h)).chainLen.toNat - 1) p' with ⟨_ | e, r⟩
    · obtain ⟨-, rfl⟩ := Prod.mk.inj (chain.symm.trans (chainCheck_passes (congrArg Prod.fst chain)))
      exact fun ok => Prod.ext ok rfl
    · exact nofun
  · exact nofun

end

end Sys2Proof.Safety
end

section
/-! SUPPORT. The queues of the rakes and grainers, the start and the end of their operations; and the statement on them (R113, R126, R291 to
R297, R304 to R309). -/

namespace Sys2Proof.Safety

open Sys2Proof.Machine

/-! ### Whose turn it is (R113, R297) -/

/-- Among some that are ready there is a next in cyclic order, one of them. -/
theorem nextAfter_ready {l : List Nat} (n : Nat) (nonempty : l ≠ []) : ∃ m ∈ l, nextAfter n l = some m := by
  unfold nextAfter
  cases above : (l.filter (n < ·)).min? with
  | some m => exact ⟨m, (List.mem_filter.1 (List.min?_mem above)).1, rfl⟩
  | none =>
    cases lowest : l.min? with
    | some m => exact ⟨m, List.min?_mem lowest, rfl⟩
    | none => exact absurd (List.min?_eq_none_iff.1 lowest) nonempty

theorem turn_pick_ready {l : List Nat} (t : Turn) (weight : Nat → Nat) (nonempty : l ≠ []) :
    ∃ m ∈ l, ∃ t', t.pick l weight = some (m, t') := by
  unfold Turn.pick
  split
  · next stays =>
    obtain ⟨cur, -⟩ := Bool.and_eq_true_iff.1 stays
    exact ⟨t.cur, by simpa using cur, _, rfl⟩
  · obtain ⟨m, ready, next⟩ := nextAfter_ready t.cur nonempty
    exact ⟨m, ready, _, by rw [next]; rfl⟩

/-- Among some that are ready one is served: of class AUTH where any is (R113). -/
theorem arb_pick_ready {l : List (Nat × Nat)} (a : Arb) (weight share : Nat → Nat) (nonempty : l ≠ []) :
    ∃ k f a', a.pick l weight share = some ((k, f), a') ∧ (k, f) ∈ l ∧ ((∃ x ∈ l, x.1 = 0) → k = 0) := by
  obtain ⟨k, t, cls, listed, auth⟩ : ∃ k t,
      (if (l.map Prod.fst).contains 0 then some (0, a.cls) else a.cls.pick (l.map Prod.fst) weight) = some (k, t) ∧
        k ∈ l.map Prod.fst ∧ ((∃ x ∈ l, x.1 = 0) → k = 0) := by
    split
    · next auth => exact ⟨0, a.cls, rfl, by simpa using auth, fun _ => rfl⟩
    · next none =>
      obtain ⟨k, listed, t, pick⟩ := turn_pick_ready a.cls weight (l := l.map Prod.fst) (by simpa using nonempty)
      exact ⟨k, t, pick, listed, fun ⟨x, hx, zero⟩ => absurd (List.mem_map.2 ⟨x, hx, zero⟩) (by simpa using none)⟩
  obtain ⟨⟨k', f'⟩, mem, rfl⟩ := List.mem_map.1 listed
  obtain ⟨f, tenant, t', pick⟩ := turn_pick_ready (a.fns.get {} k') share
    (l := (l.filter fun x => x.1 == k').map Prod.snd)
    (List.ne_nil_of_mem (List.mem_map.2 ⟨(k', f'), List.mem_filter.2 ⟨mem, beq_self_eq_true k'⟩, rfl⟩))
  refine ⟨k', f, { a with cls := t, fns := a.fns.set {} k' t' }, ?_, ?_, auth⟩
  · simp only [Arb.pick, cls, Option.bind_some, pick, Option.map_some]
  · simpa using tenant

/-- A queue that holds an operation has a next one: of class AUTH where any is, the oldest of its class and tenant (R297). -/
theorem takeNext_oldest (c : DspCfg) (share : Nat → Nat) (arb : Arb) {q : List EngOp} (nonempty : q ≠ []) :
    ∃ o arb', Part.takeNext c share arb q = some (o, q.erase o, arb') ∧ ((∃ a ∈ q, a.cls = 0) → o.cls = 0) ∧
      q.find? (fun a => a.cls == o.cls && a.fn == o.fn) = some o := by
  obtain ⟨k, f, arb', pick, mem, auth⟩ := arb_pick_ready arb (Part.classWeight c) share
    (l := q.map fun o => (o.cls.toNat, o.fn)) (by simpa using nonempty)
  obtain ⟨x, listed, same⟩ := List.mem_map.1 mem
  obtain ⟨rfl, rfl⟩ := Prod.mk.inj same
  obtain ⟨o, found⟩ := Option.isSome_iff_exists.1
    (List.find?_isSome.2 ⟨x, listed, by simp⟩ : (q.find? fun a => a.cls.toNat == x.cls.toNat && a.fn == x.fn).isSome)
  obtain ⟨cls, fn⟩ : o.cls = x.cls ∧ o.fn = x.fn := by simpa [← BitVec.toNat_inj] using List.find?_some found
  have byClass : (fun a : EngOp => a.cls == o.cls && a.fn == o.fn) = fun a => a.cls.toNat == x.cls.toNat && a.fn == x.fn := by
    funext a
    rw [cls, fn, Bool.eq_iff_iff]
    simp [BitVec.toNat_inj]
  refine ⟨o, arb', ?_, fun ⟨a, ha, zero⟩ => ?_, by rw [byClass, found]⟩
  · simp only [Part.takeNext, pick, Option.bind_some, found, Option.map_some]
  · have zero' : x.cls.toNat = 0 := auth ⟨_, List.mem_map.2 ⟨a, ha, rfl⟩, by rw [zero]; rfl⟩
    rw [cls]
    exact BitVec.eq_of_toNat_eq zero'

/-! ### Queues of the engines (R127, R293) -/

@[simp] theorem eng_modEng_self (p : Part) (e : Nat) (g : Engine → Engine) : (p.modEng e g).eng e = g (p.eng e) := Tab.get_upd_self ..

theorem eng_modEng (p : Part) (e d : Nat) (g : Engine → Engine) : (p.modEng e g).eng d = if d = e then g (p.eng e) else p.eng d :=
  Tab.get_upd ..

/-- Between `p` and `q` operations have been queued on engines, or left waiting in their threads. -/
structure Queued (p q : Part) : Prop where
  rest   : q = { p with
    rke := { p.rke with engines := q.rke.engines, waiting := q.rke.waiting }, dsp := { p.dsp with late := q.dsp.late } }
  engine : ∀ e, q.eng e = { p.eng e with queue := (q.eng e).queue }

theorem Queued.refl (p : Part) : Queued p p := ⟨rfl, fun _ => rfl⟩

theorem Queued.trans {p q r : Part} (h : Queued p q) (k : Queued q r) : Queued p r where
  rest := by rw [k.rest, h.rest]
  engine e := by rw [k.engine, h.engine]

theorem enqueue_queued (e : Nat) (o : EngOp) (p : Part) : Queued p (p.enqueue e o) := by
  refine ⟨rfl, fun d => ?_⟩
  rw [Part.enqueue, eng_modEng]
  split
  · next same => subst same; rfl
  · rfl

theorem sendOp_queued (o : EngOp) (p : Part) : Queued p (p.sendOp o) := by
  unfold Part.sendOp
  split
  · exact enqueue_queued ..
  · exact ⟨rfl, fun _ => rfl⟩

theorem refill_queued (p : Part) : Queued p p.refill :=
  .trans (q := p.modRke fun r => { r with waiting := [] }) ⟨rfl, fun _ => rfl⟩
    (foldl_keeps .refl .trans _ (fun q o _ => sendOp_queued o q) _)

/-! ### Starts (R294, R297, R304, R321) -/

/-- A key that an operation may read and use is read without a change (R321). -/
theorem opKey_answers {p : Part} {o : EngOp} {ss : List Slot} : (p.opKey o).1 = .ok ss → p.opKey o = (.ok ss, p) := by
  unfold Part.opKey
  simp only
  split
  · exact nofun
  · next read =>
    obtain ⟨-, rfl⟩ := Prod.mk.inj (read.symm.trans (slotRead_answers (congrArg Prod.fst read)))
    split
    · split
      · exact nofun
      · exact fun ok => Prod.ext ok rfl
    · exact nofun

/-- Flash, access rules and the secure core's memory stay. -/
structure StoresKept (p q : Part) : Prop where
  nvm  : q.nvm = p.nvm
  acu  : q.acu = p.acu
  priv : q.priv = p.priv

theorem StoresKept.trans {p q r : Part} (h : StoresKept p q) (k : StoresKept q r) : StoresKept p r :=
  ⟨k.nvm.trans h.nvm, k.acu.trans h.acu, k.priv.trans h.priv⟩

theorem Queued.stores {p q : Part} (h : Queued p q) : StoresKept p q := by
  constructor <;> rw [h.rest]

theorem Queued.seq {p q : Part} (h : Queued p q) : q.seq = p.seq := by rw [h.rest]
theorem Queued.ctxs {p q : Part} (h : Queued p q) : q.dsp.ctxs = p.dsp.ctxs := by rw [h.rest]

theorem Recorded.stores {p q : Part} (h : Recorded p q) : StoresKept p q := ⟨h.nvm, h.acu, h.priv⟩

theorem StoresKept.kept {p q : Part} (h : StoresKept p q) : q.nvm = p.nvm ∧ q.acu = p.acu ∧ q.priv = p.priv := ⟨h.nvm, h.acu, h.priv⟩

/-- An operation taken from the queue, as the engine runs it on a key chain, no fresh octets drawn. -/
def opStarted (o : EngOp) (ss : List Slot) : Running :=
  let s := ss.head?.getD (Slc.emptySlot 0)
  { op := o, mat := ss.flatMap Slot.mat, w0 := s.w0, w1 := s.w1, w3 := s.w3 }

theorem beginOp_starts {p : Part} (e : Nat) {o : EngOp} {ss : List Slot} (reads : Part.readsKey o = true) (key : (p.opKey o).1 = .ok ss)
    (plain : Pk.freshLen o.mode.toNat (ss.head?.getD (Slc.emptySlot 0)).alg.toNat o.word3 = 0) :
    ((p.beginOp e o).eng e).cur = some (opStarted o ss) ∧ StoresKept p (p.beginOp e o) := by
  simp only [Part.beginOp, reads, if_true, opKey_answers key, plain]
  refine ⟨by rw [eng_modEng_self]; rfl, ?_⟩
  split <;> exact ⟨rfl, rfl, rfl⟩

section
variable {p : Part} {e : Nat}

theorem opStart_none (h : (p.eng e).cur ≠ none ∨ p.engineUp e = false) : p.opStart e = p := by
  have none : ((p.eng e).cur.isSome || !p.engineUp e) = true := by
    rcases h with busy | down
    · rw [Option.isSome_iff_ne_none.2 busy, Bool.true_or]
    · rw [down, Bool.not_false, Bool.or_true]
  simp only [Part.opStart, none, if_true]

theorem opStart_takes {o : EngOp} {rest : List EngOp} {arb : Arb} (idle : (p.eng e).cur = none) (up : p.engineUp e = true)
    (unparked : (p.eng e).parked = none) (next : p.engNext e = some (o, rest, arb)) (here : p.cellarWaits o.handle = false) :
    p.opStart e = ((p.modEng e fun x => { x with queue := rest, arb := arb }).beginOp e o).refill := by
  simp only [Part.opStart, idle, up, unparked, next, here, Option.isSome_none, Bool.not_true, Bool.or_self, Bool.and_false,
    Bool.false_eq_true, if_false]

end

/-! ### Ends (R295, R305 to R309) -/

/-- Between `p` and `q` whoever an engine's operation is for has had its answer: a context has ended it, a harvest has it in a request, a
job slot shows it. -/
def Answered (p q : Part) : Prop := q = { p with
  sys := q.sys, hif := q.hif, tnt := q.tnt, mir := q.mir, dsp := q.dsp, pan := q.pan, seq := q.seq, cores := q.cores, opBuf := q.opBuf
  rke := { p.rke with jobs := q.rke.jobs } }

theorem Answered.trans {p q r : Part} (h : Answered p q) (k : Answered q r) : Answered p r := by
  unfold Answered at *
  rw [k, h]

theorem Answered.stores {p q : Part} (h : Answered p q) : StoresKept p q := by
  unfold Answered at h
  constructor <;> rw [h]

theorem Answered.eng {p q : Part} (h : Answered p q) (e : Nat) : q.eng e = p.eng e := by
  unfold Answered at h
  rw [h]
  rfl

theorem Ended.answered {p q : Part} (h : Ended p q) : Answered p q := by
  unfold Answered
  rw [h.rest]

theorem Issued.answered {p q : Part} (h : Issued p q) : Answered p q := by
  unfold Answered
  rw [h.1]

@[simp] theorem thread_modThread_self (p : Part) (k : Nat) (g : Thread → Thread) :
    (p.modThread k g).seq.threads.get {} k = g (p.seq.threads.get {} k) := Tab.get_upd_self ..

theorem modReq_answered (k id : Nat) (g : EngReq → EngReq) (p : Part) : Answered p (p.modReq k id g) := rfl

theorem loseResv_cores (a n : Nat) (p : Part) : p.loseResv a n = { p with cores := (p.loseResv a n).cores } := by
  unfold Part.loseResv
  refine foldl_keeps (R := fun p q => q = { p with cores := q.cores }) (fun _ => rfl) (fun h k => ?_) (List.range 5) (fun q c _ => ?_) p
  · rw [k, h]
  · dsimp only
    split <;> rfl

theorem putData_answered (n off : Nat) (bs : List Byte) (p : Part) : Answered p (p.putData n off bs) := by
  unfold Answered Part.putData Part.writeOb
  rw [loseResv_cores]

theorem issueWrites_issued (n : Nat) (ms : List (BitVec 64 × List Byte)) (p : Part) :
    Issued p (ms.foldl (fun p m => p.issueWrite n m.1 m.2) p) :=
  foldl_keeps .refl .trans ms (fun q m _ => (issueWrite_issued n m.1 m.2 q).1) p

theorem putList_answered (n off : Nat) (bs : List Byte) (p : Part) : Answered p (p.putList n off bs) :=
  Answered.trans (issueWrites_issued (p.ctx n).fn _ p).answered (by exact rfl)

theorem finishOut_answered (n : Nat) (bs : List Byte) (p : Part) : Answered p (p.finishOut n bs) := by
  simp only [Part.finishOut]
  split
  · exact (putData_answered ..).trans (finish_ended ..).answered
  split
  · exact (putList_answered ..).trans (finish_ended ..).answered
  · exact (finish_ended ..).answered

theorem endFail_answered (o : EngOp) (status det hdet : Byte) (p : Part) : Answered p (p.endFail o status det hdet) := by
  unfold Part.endFail
  split
  · exact (finish_ended ..).answered
  · exact modReq_answered ..
  · exact rfl
  · exact rfl

theorem endVerdict_answered (r : Running) (v : Bool) (p : Part) : Answered p (p.endVerdict r v) := by
  unfold Part.endVerdict
  split
  · exact (finish_ended ..).answered
  · exact modReq_answered ..
  · exact rfl
  · exact rfl

theorem endOutput_answered (r : Running) (out secret : List Byte) (p : Part) : Answered p (p.endOutput r out secret) := by
  unfold Part.endOutput
  split
  · exact finishOut_answered ..
  · exact modReq_answered ..
  · exact rfl
  · exact rfl

/-- Between `p` and `q` engine `e` has ended the operation it ran, and counted it. -/
structure OpEnded (e : Nat) (p q : Part) : Prop where
  cur    : (q.eng e).cur = none
  ops    : (q.eng e).ops = (p.eng e).ops + 1
  stores : StoresKept p q

/-- The engine freed: its registers but the running operation, the count and the queue stay. -/
theorem engineFree_engine (e : Nat) (p : Part) :
    (p.engineFree e).eng e = { p.eng e with cur := none, ops := (p.eng e).ops + 1, queue := ((p.engineFree e).eng e).queue } := by
  have queued := refill_queued (p.modEng e fun x => { x with cur := none, ops := x.ops + 1 })
  rw [show (p.engineFree e).eng e = _ from queued.engine e, eng_modEng_self]

theorem engineFree_kept (e : Nat) (p : Part) :
    StoresKept p (p.engineFree e) ∧ (p.engineFree e).seq = p.seq ∧ (p.engineFree e).dsp.ctxs = p.dsp.ctxs := by
  have queued := refill_queued (p.modEng e fun x => { x with cur := none, ops := x.ops + 1 })
  exact ⟨StoresKept.trans (q := p.modEng e _) ⟨rfl, rfl, rfl⟩ queued.stores, queued.seq, queued.ctxs⟩

theorem opEnded_of_answered {e : Nat} {p q : Part} (h : Answered p q) : OpEnded e p (q.engineFree e) where
  cur := by rw [engineFree_engine]
  ops := by rw [engineFree_engine, h.eng]
  stores := h.stores.trans (engineFree_kept e q).1

/-- A counter of the engine that advances before the operation fails. -/
theorem opEnded_counting {e : Nat} {g : Engine → Engine} (kept : ∀ x, (g x).ops = x.ops) (o : EngOp) (status det hdet : Byte) (p : Part) :
    OpEnded e p (((p.modEng e g).endFail o status det hdet).engineFree e) := by
  have ended := opEnded_of_answered (e := e) (endFail_answered o status det hdet (p.modEng e g))
  refine ⟨ended.cur, ?_, StoresKept.trans (q := p.modEng e g) ⟨rfl, rfl, rfl⟩ ended.stores⟩
  rw [ended.ops, eng_modEng_self, kept]

theorem OpEnded.counted {e : Nat} {p q : Part} {g : Engine → Engine} (kept : ∀ x, (g x).cur = x.cur ∧ (g x).ops = x.ops)
    (h : OpEnded e p q) : OpEnded e p (q.modEng e g) where
  cur := by rw [eng_modEng_self, (kept _).1, h.cur]
  ops := by rw [eng_modEng_self, (kept _).2, h.ops]
  stores := h.stores.trans ⟨rfl, rfl, rfl⟩

theorem Recorded.eng {p q : Part} (h : Recorded p q) (e : Nat) : q.eng e = p.eng e := by rw [Part.eng, h.rke, Part.eng]

theorem OpEnded.recorded {e : Nat} {p q r : Part} (h : OpEnded e p q) (k : Recorded q r) : OpEnded e p r where
  cur := by rw [k.eng, h.cur]
  ops := by rw [k.eng, h.ops]
  stores := h.stores.trans k.stores

/-- The operands of a running operation are valid (R305). -/
abbrev opValid (r : Running) : Bool :=
  Pk.valid r.op.mode.toNat (fld r.w0 24 8).toNat (fld r.w3 16 9).toNat [r.mat, r.op.in1, r.op.in2] r.op.word3.toNat

/-- The verdict of a running operation that verifies (R291). -/
abbrev opVerdict (r : Running) : Bool :=
  Pk.verdict r.op.mode.toNat (fld r.w0 24 8).toNat (fld r.w3 16 9).toNat [r.mat, r.op.in1, r.op.in2] r.op.word3.toNat

/-- No operation that signs verifies (R286). -/
theorem verifies_of_signs {m : Nat} (signs : Pk.signs m = true) : Pk.verifies m = false :=
  (by decide : ∀ m ∈ [Pk.rsaSign, Pk.ecSign, Pk.edSign, Pk.mldsaSign, Pk.slhFors, Pk.slhLayer], Pk.verifies m = false) m
    (List.contains_iff_mem.1 signs)

theorem opEnd_none {p : Part} {e : Nat} (rf rej : Bool) (idle : (p.eng e).cur = none) : p.opEnd e rf rej = p := by
  simp only [Part.opEnd, idle]

section
variable {p : Part} {e : Nat} {r : Running} (rf rej : Bool) (cur : (p.eng e).cur = some r) (mode : r.op.mode.toNat < 0x1C0)
include cur mode

theorem opEnd_invalid (bad : opValid r = false) :
    p.opEnd e rf rej = ((p.modEng e fun x => { x with bnInvalid := Part.satTo e x.bnInvalid }).endFail r.op 0x20 0 0).engineFree e := by
  simp only [Part.opEnd, cur, Nat.not_le.2 mode, bad, if_false, Bool.not_false, if_true]

theorem opEnd_verdict (good : opValid r = true) (verifies : Pk.verifies r.op.mode.toNat = true) :
    p.opEnd e rf rej = (p.endVerdict r (opVerdict r)).engineFree e := by
  simp only [Part.opEnd, cur, Nat.not_le.2 mode, good, verifies, if_false, Bool.not_true, Bool.false_eq_true, if_true]

/-- A signature whose release check fails (R308, R309). -/
theorem opEnd_unreleased (good : opValid r = true) (signs : Pk.signs r.op.mode.toNat = true)
    (accepted : r.op.mode.toNat ≠ Pk.mldsaSign ∨ rej = false)
    (fails : Pk.releaseFails r.op.mode.toNat (fld r.w0 24 8).toNat r.mat rf = true) :
    ∃ hdet code detail, p.opEnd e rf rej = (((p.endFail r.op 0x30 (Part.lostDetail e) hdet).engineFree e).modEng e fun x =>
      { x with releaseFail := Part.satTo e x.releaseFail, katRun := true }).post code detail 0 := by
  have noVerdict := verifies_of_signs signs
  have attempt : ∀ b, (r.op.mode.toNat == Pk.mldsaSign && rej && b) = false := by
    rcases accepted with other | rfl
    · simp [other]
    · simp
  simp only [Part.opEnd, cur, Nat.not_le.2 mode, good, noVerdict, attempt, signs, fails, if_false, Bool.not_true, Bool.false_eq_true, if_true,
    Bool.and_self]
  split
  · exact ⟨_, _, _, rfl⟩
  · exact ⟨_, _, _, rfl⟩

/-- However an operation of R286 ends, its engine clears it and counts it. -/
theorem opEnd_ended : OpEnded e p (p.opEnd e rf rej) := by
  simp only [Part.opEnd, cur, Nat.not_le.2 mode, if_false]
  refine iteInduction (motive := OpEnded e p) (fun _ => ?invalid) fun _ =>
    iteInduction (motive := OpEnded e p) (fun _ => ?verdict) fun _ =>
    iteInduction (motive := OpEnded e p) (fun _ => ?attempts) fun _ =>
    iteInduction (motive := OpEnded e p) (fun _ => ?unreleased) fun _ => ?output
  case invalid => exact opEnded_counting (g := fun x => { x with bnInvalid := Part.satTo e x.bnInvalid }) (fun _ => rfl) ..
  case verdict => exact opEnded_of_answered (endVerdict_answered ..)
  case attempts => exact opEnded_counting (g := fun x => { x with attemptCap := satInc x.attemptCap }) (fun _ => rfl) ..
  case unreleased =>
    have ended := fun hdet => OpEnded.counted (g := fun x => { x with releaseFail := Part.satTo e x.releaseFail, katRun := true })
      (fun _ => ⟨rfl, rfl⟩) (opEnded_of_answered (e := e) (endFail_answered r.op 0x30 (Part.lostDetail e) hdet p))
    exact iteInduction (motive := OpEnded e p) (fun _ => (ended _).recorded (Recorded.post ..)) fun _ =>
      (ended _).recorded (Recorded.post ..)
  case output => exact opEnded_of_answered (endOutput_answered ..)

/-- Invalid operands are counted. -/
theorem opEnd_bnInvalid (bad : opValid r = false) :
    ((p.opEnd e rf rej).eng e).bnInvalid = Part.satTo e (p.eng e).bnInvalid := by
  rw [opEnd_invalid rf rej cur mode bad, engineFree_engine, (endFail_answered ..).eng, eng_modEng_self]

/-- A failed release check is counted, and asks for a known-answer test (R309). -/
theorem opEnd_releaseFail (good : opValid r = true) (signs : Pk.signs r.op.mode.toNat = true)
    (accepted : r.op.mode.toNat ≠ Pk.mldsaSign ∨ rej = false)
    (fails : Pk.releaseFails r.op.mode.toNat (fld r.w0 24 8).toNat r.mat rf = true) :
    ((p.opEnd e rf rej).eng e).katRun = true ∧
      ((p.opEnd e rf rej).eng e).releaseFail = Part.satTo e (p.eng e).releaseFail := by
  obtain ⟨hdet, code, detail, ended⟩ := opEnd_unreleased rf rej cur mode good signs accepted fails
  rw [ended, (Recorded.post ..).eng, eng_modEng_self, engineFree_engine, (endFail_answered ..).eng]
  exact ⟨rfl, rfl⟩

section
variable (good : opValid r = true) (verifies : Pk.verifies r.op.mode.toNat = true)
include good verifies

/-- A single primitive that verifies ends with its verdict as its status (R291). -/
theorem opEnd_status {n : Nat} (owner : r.op.owner = .ctx n) (running : (p.ctx n).state = .running) (counts : (p.ctx n).discard = false) :
    let q := p.opEnd e rf rej
    (q.ctx n).state = .finished ∧ (q.ctx n).status = (if opVerdict r then 0 else 1) ∧ (q.ctx n).detail = 0 := by
  have ended : p.endVerdict r (opVerdict r) = p.finish n (if opVerdict r then 0 else 1) 0 [] 0 := by rw [Part.endVerdict, owner]
  intro q
  have own : q.ctx n = (p.finish n (if opVerdict r then 0 else 1) 0 [] 0).ctx n := by
    rw [Part.ctx, show q = _ from opEnd_verdict rf rej cur mode good verifies, (engineFree_kept ..).2.2, ended, Part.ctx]
  rw [own, finish_running_ctx 0 [] 0 running counts]
  exact ⟨rfl, rfl, rfl⟩

/-- In a harvest the verdict stands ready in the request (R126, R291). -/
theorem opEnd_request {k id : Nat} (owner : r.op.owner = .thread k id) :
    ((p.opEnd e rf rej).seq.threads.get {} k).reqs = (p.seq.threads.get {} k).reqs.map fun a =>
      if a.id = id then { a with ready := true, verdict := some (opVerdict r, 0) } else a := by
  have ended : p.endVerdict r (opVerdict r) = p.modReq k id fun q => { q with ready := true, verdict := some (opVerdict r, 0) } := by
    rw [Part.endVerdict, owner]
  rw [opEnd_verdict rf rej cur mode good verifies, (engineFree_kept ..).2.1, ended]
  rw [Part.modReq, thread_modThread_self]

end

end

/-- Settles O19: the queue's next operation, and then each command by what its engine holds. -/
theorem engineTakesAndEndsOperations : Obligations.EngineTakesAndEndsOperations := by
  unfold Obligations.EngineTakesAndEndsOperations
  refine ⟨fun c share arb q nonempty => takeNext_oldest c share arb nonempty, fun s e => ?_⟩
  intro p x kept
  refine ⟨?start, fun none => ?idle, fun rf rej idle => ?noEnd,
    fun r rf rej cur mode => ?ends⟩
  case start =>
    intro o rest arb ss idle up unparked next reads here _ p1 key plain
    obtain ⟨cur, stores⟩ := beginOp_starts e reads key plain
    have queued := refill_queued (p1.beginOp e o)
    refine ⟨_, opStarted o ss, .of_onPart (g := Part.opStart e) rfl (opStart_takes idle up unparked next here), ?_, rfl, rfl, ?_⟩
    · rw [queued.engine, ← cur]
    · exact (StoresKept.trans (q := p1) ⟨rfl, rfl, rfl⟩ (stores.trans queued.stores)).kept
  case idle => exact .of_onPart (g := Part.opStart e) rfl (opStart_none none)
  case noEnd => exact .of_onPart (g := Part.opEnd e rf rej) rfl (opEnd_none rf rej idle)
  case ends =>
    have ended := opEnd_ended rf rej cur mode
    exact ⟨p.opEnd e rf rej, .of_onPart (g := Part.opEnd e rf rej) rfl rfl, ended.cur, ended.ops, ended.stores.kept,
      opEnd_bnInvalid rf rej cur mode, fun good verifies n owner => opEnd_status rf rej cur mode good verifies owner,
      fun good verifies k id owner => opEnd_request rf rej cur mode good verifies owner,
      fun good signs accepted fails => opEnd_releaseFail rf rej cur mode good signs accepted fails⟩

end Sys2Proof.Safety
end

section
/-! SUPPORT. Masks, COMMIT, known-answer tests and the retirement of pans: what each changes, and that nothing of a lost pan or of its sequencer
runs on (R130, R262, R275 to R281). -/

namespace Sys2Proof.Safety

open Sys2Proof.Machine

/-! ### Masks (R275, R276) -/

/-- A record posted after a change of the Brine Wells: nothing else has changed. -/
theorem Recorded.ofEnt {g : Ent → Ent} {p q : Part} (h : Recorded (p.modEnt g) q) : Recorded { p with ent := q.ent } q := by
  rw [h.ent]
  exact h

/-- Following COUNT and INTERVAL posts records and changes STRETCHED and its highest COUNT (R367). -/
theorem entTrack_spec (p : Part) : Recorded { p with ent := p.entTrack.ent } p.entTrack ∧ p.entTrack.ent.waiting = p.ent.waiting := by
  simp only [Part.entTrack]
  split
  · exact ⟨(Recorded.post ..).ofEnt, by rw [post_ent, Part.modEnt_ent]⟩
  split
  · exact ⟨.refl _, rfl⟩
  split
  · exact ⟨(Recorded.post ..).ofEnt, by rw [post_ent, Part.modEnt_ent]⟩
  · exact ⟨.refl _, rfl⟩

/-- While the expander is not READY a draw is left waiting (R366). -/
theorem ask_waits {e : Ent} (wire : Nat) (cls : EntClass) (n : Nat) (held : e.ready = false) :
    (e.ask wire cls n).waiting = e.waiting ++ [{ wire := wire, cls := cls, bytes := n }] := by
  have due : e.due = e := by simp [Ent.due, held]
  have none : (if e.ahead cls then (none, e) else e.serve cls n) = (none, e) := by
    simp [Ent.serve, due, held]
  simp only [Ent.ask, none]

/-- A request over a wire: the Brine Wells, and what records change. -/
theorem entRequest_spec (wire : Nat) (cls : EntClass) (n : Nat) (p : Part) :
    let q := p.entRequest wire cls n
    Recorded { p with ent := q.ent } q ∧
      (p.ent.ready = false → ∃ d ∈ q.ent.waiting, d.wire = wire ∧ d.cls = cls ∧ d.bytes = n) := by
  obtain ⟨recorded, waiting⟩ := entTrack_spec (p.modEnt (Ent.ask wire cls n))
  refine ⟨recorded, fun held => ⟨{ wire := wire, cls := cls, bytes := n }, ?_, rfl, rfl, rfl⟩⟩
  rw [Part.entRequest, waiting, Part.modEnt_ent, ask_waits wire cls n held]
  simp

/-- A pan has a reseed request out, or a value on its wire. -/
abbrev MaskSent (p : Part) (n : Nat) : Prop := (∃ d ∈ p.ent.waiting, d.wire = n) ∨ p.ent.wires.get [] n ≠ []

/-- What a stalled pan, or one that has masked INTERVAL blocks, asks for. -/
abbrev MaskDue (p : Part) (n : Nat) : Prop := (p.onePan n).stall = true ∨ p.maskInterval ≤ (p.onePan n).maskCount

section
variable {p : Part} {n : Nat}

theorem maskRequest_eq : p.maskRequest n =
    if MaskSent p n ∨ (p.onePan n).retired = true ∨ p.powered n = false ∨ ¬ MaskDue p n then p else p.entRequest n .mask 32 := by
  simp only [Part.maskRequest, MaskSent, MaskDue]
  refine if_congr ?_ rfl rfl
  simp [or_assoc]

theorem maskRequest_asks (unsent : ¬ MaskSent p n) (alive : (p.onePan n).retired = false) (up : p.powered n = true) (due : MaskDue p n) :
    p.maskRequest n = p.entRequest n .mask 32 := by
  rw [maskRequest_eq, if_neg]
  simp only [unsent, alive, up, due, not_true_eq_false, Bool.false_eq_true, Bool.true_eq_false, or_self, not_false_eq_true]

theorem maskRequest_none (h : MaskSent p n ∨ (p.onePan n).retired = true ∨ p.powered n = false ∨
    ((p.onePan n).stall = false ∧ (p.onePan n).maskCount < p.maskInterval)) : p.maskRequest n = p := by
  rw [maskRequest_eq, if_pos]
  refine h.imp_right (Or.imp_right (Or.imp_right fun ⟨steady, fresh⟩ => not_or.2 ⟨?_, Nat.not_le.2 fresh⟩))
  rw [steady]
  exact Bool.false_ne_true

theorem maskStall_stalls (spent : p.maskLimit ≤ (p.onePan n).maskCount) :
    p.maskStall n = p.modOnePan n fun x => { x with stall := true } := by
  rw [Part.maskStall, decide_eq_true spent, Part.when_true]

theorem maskStall_none (fresh : (p.onePan n).maskCount < p.maskLimit) : p.maskStall n = p := by
  rw [Part.maskStall, decide_eq_false (Nat.not_le.2 fresh), Part.when_false]

theorem maskArrive_none (empty : p.ent.wires.get [] n = []) : p.maskArrive n = p := by simp only [Part.maskArrive, empty, if_true]

theorem maskArrive_takes (value : p.ent.wires.get [] n ≠ []) :
    p.maskArrive n = (p.modEnt fun e => { e with wires := e.wires.set [] n [] }).modOnePan n fun x =>
      { x with mask := p.ent.wires.get [] n, maskCount := 0, stall := false } := by
  simp only [Part.maskArrive, value, if_false]

end

/-! ### COMMIT (R281) -/

/-- What a COMMIT of the block asks of its staged set. -/
abbrev PanOk (c : PanCfg) : Prop := 16 ≤ c.interval.toNat ∧ c.interval.toNat ≤ c.limit.toNat ∧ c.limit.toNat ≤ 28

theorem panCommit_eq {p : Part} {ok : Bool} (h : decide (PanOk p.pan.st.stage) = ok) :
    p.panCommit = { p with pan := { p.pan with cfgMismatch := p.pan.cfgMismatch || !ok, st := p.pan.st.commit ok p.pansIdle } } := by
  subst h
  rfl

theorem panCommit_accepted {p : Part} (ok : PanOk p.pan.st.stage) :
    p.panCommit = { p with pan := { p.pan with st := p.pan.st.commit true p.pansIdle } } := by
  rw [panCommit_eq (decide_eq_true ok), Bool.not_true, Bool.or_false]

theorem panCommit_refused {p : Part} (bad : ¬ PanOk p.pan.st.stage) :
    p.panCommit = { p with pan := { p.pan with cfgMismatch := true, st := { p.pan.st with pend := none } } } := by
  rw [panCommit_eq (decide_eq_false bad), Bool.not_false, Bool.or_true]
  rfl

/-! ### Known-answer tests and retirement (R262, R277 to R280) -/

theorem panKatEnd_none {p : Part} {n : Nat} (failed : Bool) (quiet : (p.onePan n).katRun = false) : p.panKatEnd n failed = p := by
  simp only [Part.panKatEnd, quiet, Bool.not_false, if_true]

theorem katRecord_recorded (block index : Nat) (failed : Bool) (p : Part) : Recorded p (p.katRecord block index failed) :=
  when_keeps .refl p fun _ => Recorded.post ..

/-- A pan once its test has ended. -/
def panTested (n : Nat) (failed : Bool) (p : Part) : Part :=
  (p.modOnePan n fun x => { x with katRun := false, katDone := true, katFail := failed }).katRecord 1 n failed

theorem panKatEnd_eq {p : Part} {n : Nat} (failed : Bool) (runs : (p.onePan n).katRun = true) :
    p.panKatEnd n failed = (panTested n failed p).when failed (Part.panRetire 0 n) := by
  simp only [Part.panKatEnd, runs, Bool.not_true, Bool.false_eq_true, if_false]
  rfl

theorem Recorded.onePan {p q : Part} (h : Recorded p q) (n : Nat) : q.onePan n = p.onePan n := by rw [Part.onePan, h.pan, Part.onePan]

theorem panTested_spec (n : Nat) (failed : Bool) (p : Part) :
    let q := panTested n failed p
    Recorded { p with pan := { p.pan with pans := q.pan.pans } } q ∧
      q.onePan n = { p.onePan n with katRun := false, katDone := true, katFail := failed } := by
  have recorded := katRecord_recorded 1 n failed (p.modOnePan n fun x => { x with katRun := false, katDone := true, katFail := failed })
  refine ⟨?_, ?_⟩
  · rw [panTested, recorded.pan]
    exact recorded
  · rw [panTested, recorded.onePan, onePan_modOnePan_self]

/-- Between `p` and `q` operations have ended that pan `n` or its sequencer ran: the pan stays retired and takes no stream, no thread has
become busy, and flash, access rules and the secure core's memory stay. -/
structure WorkLost (n : Nat) (p q : Part) : Prop where
  stores  : StoresKept p q
  retired : (q.onePan n).retired = (p.onePan n).retired
  streams : (q.onePan n).streams.Sublist (p.onePan n).streams
  idle    : ∀ k, (p.thread k).busy = false → (q.thread k).busy = false

section
variable {n : Nat} {p q r : Part}

theorem WorkLost.refl (n : Nat) (p : Part) : WorkLost n p p := ⟨⟨rfl, rfl, rfl⟩, rfl, List.Sublist.refl _, fun _ h => h⟩

theorem WorkLost.trans (h : WorkLost n p q) (k : WorkLost n q r) : WorkLost n p r where
  stores := h.stores.trans k.stores
  retired := k.retired.trans h.retired
  streams := k.streams.trans h.streams
  idle t busy := k.idle t (h.idle t busy)

/-- What touches neither pans nor sequencers. -/
theorem WorkLost.of_kept (stores : StoresKept p q) (pan : q.pan = p.pan) (seq : q.seq = p.seq) : WorkLost n p q := by
  have one : q.onePan n = p.onePan n := by rw [Part.onePan, pan, Part.onePan]
  refine ⟨stores, by rw [one], by rw [one], fun k busy => ?_⟩
  rw [Part.thread, seq]
  exact busy

theorem Ended.workLost (h : Ended p q) : WorkLost n p q where
  stores := by constructor <;> rw [h.rest]
  retired := by rw [h.pan]
  streams := h.streams n
  idle k busy := by
    rw [Part.thread, h.rest]
    exact busy

theorem Queued.workLost (h : Queued p q) : WorkLost n p q := .of_kept h.stores (by rw [h.rest]) h.seq

theorem Recorded.workLost (h : Recorded p q) : WorkLost n p q := .of_kept h.stores h.pan h.seq

theorem SessionLeft.workLost (h : SessionLeft p q) : WorkLost n p q := by
  refine .of_kept ⟨?_, ?_, ?_⟩ ?_ ?_ <;> rw [h]

theorem thread_clearThread (p : Part) (k t : Nat) : (p.clearThread k).thread t = if t = k then {} else p.thread t :=
  Tab.get_set ({} : Thread) p.seq.threads k t {}

theorem clearThread_workLost (k : Nat) (p : Part) : WorkLost n p (p.clearThread k) := by
  refine ⟨⟨rfl, rfl, rfl⟩, rfl, List.Sublist.refl _, fun t busy => ?_⟩
  rw [thread_clearThread]
  split
  · rfl
  · exact busy

theorem dropEngOps_workLost (k : Nat) (p : Part) : WorkLost n p (p.dropEngOps k) :=
  .trans (q := Part.modRke _ p) (.of_kept ⟨rfl, rfl, rfl⟩ rfl rfl) (refill_queued _).workLost

/-- A harvest that ends leaves its thread idle, and makes none busy (R130, R152). -/
theorem endHarvest_workLost (k : Nat) (status detail : Byte) (res : List Byte) (out : Word) (p : Part) :
    WorkLost n p (p.endHarvest k status detail res out) ∧ ((p.endHarvest k status detail res out).thread k).busy = false := by
  simp only [Part.endHarvest]
  split
  · next quiet => exact ⟨.refl n p, Bool.not_inj (y := false) quiet⟩
  · refine ⟨?_, congrArg Thread.busy (Tab.get_set_self ({} : Thread) _ k {})⟩
    have counted : ∀ q : Part, WorkLost n q (q.modSeq fun s =>
        { s with units := s.units.upd {} (k / 32) fun u => { u with harvests := u.harvests + 1 } }) :=
      fun q => ⟨⟨rfl, rfl, rfl⟩, rfl, List.Sublist.refl _, fun _ h => h⟩
    refine .trans ?_ (counted _)
    refine .trans ?_ (clearThread_workLost k _)
    refine .trans ?_ (dropEngOps_workLost k _)
    refine .trans ?_ (finish_ended ..).workLost
    exact when_keeps (.refl n) p fun _ => (ledger_sessionLeft ..).workLost

end

/-- One step of the end of the harvests that `sel` picks. -/
def endPicked (sel : Nat → Bool) (status detail : Byte) (p : Part) (t : Nat × Thread) : Part :=
  if sel t.1 then p.endHarvest t.1 status detail [] 0 else p

theorem endHarvests_eq (sel : Nat → Bool) (status detail : Byte) (p : Part) :
    p.endHarvests sel status detail = p.seq.threads.foldl (endPicked sel status detail) p := rfl

theorem endPicked_workLost (n : Nat) (sel : Nat → Bool) (status detail : Byte) (p : Part) (t : Nat × Thread) :
    WorkLost n p (endPicked sel status detail p t) := by
  unfold endPicked
  split
  · exact (endHarvest_workLost ..).1
  · exact .refl n p

theorem endPicked_all_workLost (n : Nat) (sel : Nat → Bool) (status detail : Byte) (l : List (Nat × Thread)) (p : Part) :
    WorkLost n p (l.foldl (endPicked sel status detail) p) :=
  foldl_keeps (.refl n) .trans l (fun q t _ => endPicked_workLost n sel status detail q t) p

/-- A thread that `sel` picks is idle once the harvests of all listed threads that it picks have ended. -/
theorem endPicked_all_idle {sel : Nat → Bool} (status detail : Byte) {k : Nat} (picked : sel k = true) (l : List (Nat × Thread)) (p : Part)
    (h : (∃ t ∈ l, t.1 = k) ∨ (p.thread k).busy = false) : ((l.foldl (endPicked sel status detail) p).thread k).busy = false := by
  induction l generalizing p with
  | nil => simpa using h
  | cons a l ih =>
    by_cases here : a.1 = k
    · have ended : ((endPicked sel status detail p a).thread k).busy = false := by
        rw [endPicked, here, if_pos picked]
        exact (endHarvest_workLost (n := 0) ..).2
      exact (endPicked_all_workLost 0 sel status detail l _).idle k ended
    · refine ih _ (h.imp (fun ⟨t, ht, same⟩ => ⟨t, ?_, same⟩) ((endPicked_workLost 0 sel status detail p a).idle k))
      exact (List.mem_cons.1 ht).resolve_left fun e => here (e ▸ same)

/-- A thread that is not listed is idle. -/
theorem listed_or_idle (p : Part) (k : Nat) : (∃ t ∈ p.seq.threads, t.1 = k) ∨ (p.thread k).busy = false := by
  by_cases idle : p.thread k = {}
  · exact .inr (by rw [idle])
  · exact .inl ⟨_, listed_of_get_ne rfl idle, rfl⟩

theorem failUnits_workLost (n : Nat) (sel : UnitRef → Bool) (status detail : Byte) (p : Part) : WorkLost n p (p.failUnits sel status detail) := by
  refine foldl_keeps (.refl n) .trans p.dsp.ctxs (fun q c _ => ?_) p
  split
  · split
    · exact (finish_ended ..).workLost
    · exact .refl n q
  · exact .refl n q

/-- A pan erased holds no stream (R277, R278). -/
theorem erasePan_workLost (n : Nat) (status detail : Byte) (p : Part) :
    WorkLost n p (p.erasePan n status detail) ∧ ((p.erasePan n status detail).onePan n).streams = [] := by
  have failed : WorkLost n p (((p.pan.pans.get {} n).streams).foldl (fun p x => p.fail x.ctx status detail) p) :=
    foldl_keeps (R := WorkLost n) (.refl n) .trans _ (fun q x _ => (finish_ended ..).workLost) p
  simp only [Part.erasePan]
  generalize ((p.pan.pans.get {} n).streams).foldl (fun p x => p.fail x.ctx status detail) p = q at failed
  have erased := Tab.get_upd_self ({} : Pan) q.pan.pans n fun x => { x with stall := true, maskCount := 0, mask := [], streams := [] }
  refine ⟨failed.trans ⟨⟨rfl, rfl, rfl⟩, ?_, ?_, fun k busy => ?_⟩, ?_⟩
  · exact (congrArg Pan.retired erased).trans rfl
  · exact (congrArg Pan.streams erased).symm ▸ List.nil_sublist _
  · rw [Part.thread, Part.modSeq_seq, Part.modPan_seq, Tab.get_mapV _ _ _ _ (by split <;> rfl)]
    split
    · exact busy
    · exact busy
  · exact congrArg Pan.streams erased

/-- The domain of a pan and its sequencer lost: no stream, and no thread busy (R130, R278). -/
theorem domLoses_pan {n : Nat} (hn : n < 16) (p : Part) :
    let q := p.domLoses n
    WorkLost n p q ∧ (q.onePan n).streams = [] ∧ ∀ t, t < 32 → (q.thread (32 * n + t)).busy = false := by
  obtain ⟨erased, empty⟩ := erasePan_workLost n 0x30 1 p
  have harvests := endPicked_all_workLost n (fun k => k / 32 == n) 0x30 1 (p.erasePan n 0x30 1).seq.threads (p.erasePan n 0x30 1)
  have all := fun sel => harvests.trans (failUnits_workLost n sel 0x30 1 ((p.erasePan n 0x30 1).endHarvests (fun k => k / 32 == n) 0x30 1))
  have streams := fun sel => List.sublist_nil.1 (empty ▸ (all sel).streams)
  simp only [Part.domLoses, if_pos hn]
  refine ⟨erased.trans (all _), streams _, fun t ht => (failUnits_workLost n _ 0x30 1 _).idle _ ?_⟩
  exact endPicked_all_idle (sel := fun k => k / 32 == n) 0x30 1 (beq_iff_eq.2 (by omega)) _ (p.erasePan n 0x30 1) (listed_or_idle ..)

/-- Between `p` and `q` pan `n` has retired: it holds no stream, and its sequencer runs no harvest. -/
structure PanRetired (n : Nat) (p q : Part) : Prop where
  retired : (q.onePan n).retired = true
  streams : (q.onePan n).streams = []
  stores  : StoresKept p q
  idle    : ∀ t, t < 32 → (q.seq.threads.get {} (32 * n + t)).busy = false

theorem panRetire_retires {n : Nat} (hn : n < 16) (cause : BitVec 2) {p : Part} (alive : (p.onePan n).retired = false) :
    PanRetired n p (p.panRetire cause n) := by
  obtain ⟨lost, empty, idle⟩ := domLoses_pan hn (p.modOnePan n fun x => { x with retired := true })
  have recorded := Recorded.post 0x5001#16 (BitVec.ofNat 32 n ||| at' cause 8) 0 ((p.modOnePan n fun x => { x with retired := true }).domLoses n)
  simp only [Part.panRetire, alive, Bool.false_eq_true, if_false]
  refine ⟨?_, ?_, StoresKept.trans (q := p.modOnePan n _) ⟨rfl, rfl, rfl⟩ (lost.stores.trans recorded.stores), fun t ht => ?_⟩
  · rw [recorded.onePan, lost.retired, onePan_modOnePan_self]
  · rw [recorded.onePan, empty]
  · rw [recorded.seq]
    exact idle t ht

/-- A failed known-answer test retires its pan (R280). -/
theorem panKatEnd_retires {n : Nat} (hn : n < 16) {p : Part} (runs : (p.onePan n).katRun = true) (alive : (p.onePan n).retired = false) :
    PanRetired n p (p.panKatEnd n true) := by
  obtain ⟨recorded, own⟩ := panTested_spec n true p
  have alive' : ((panTested n true p).onePan n).retired = false := by
    rw [own]
    exact alive
  have ended := panRetire_retires hn 0 alive'
  rw [panKatEnd_eq true runs, Part.when_true]
  exact ⟨ended.retired, ended.streams, .trans ⟨recorded.nvm, recorded.acu, recorded.priv⟩ ended.stores, ended.idle⟩

theorem panRetire_retired {n : Nat} (cause : BitVec 2) {p : Part} (gone : (p.onePan n).retired = true) : p.panRetire cause n = p := by
  simp only [Part.panRetire, gone, if_true]

end Sys2Proof.Safety
end

section
/-! SUPPORT. Bulk streams: their start, their chunks and their end; and the statement on pans (R96, R97, R252, R253, R269 to R272). -/

namespace Sys2Proof.Safety

open Sys2Proof.Machine

/-! ### The start of a bulk stream (R253, R270, R271) -/

/-- A key that a bulk program may use is read without a change. -/
theorem bulkKey_answers {num fn field : Nat} {h : BitVec 32} {p : Part} {key : List Byte} :
    (Part.bulkKey num fn h field p).1 = .ok key → Part.bulkKey num fn h field p = (.ok key, p) := by
  unfold Part.bulkKey
  split
  · exact nofun
  · next read =>
    obtain ⟨-, rfl⟩ := Prod.mk.inj (read.symm.trans (slotRead_answers (congrArg Prod.fst read)))
    simp only
    split
    · exact nofun
    split
    · exact nofun
    · exact fun ok => Prod.ext ok rfl

/-- The keys that a bulk program reads: none, one, or under XTS two that differ and are as long (R271). -/
abbrev KeysRead (num fn : Nat) (hs : List (BitVec 32)) (key key2 : List Byte) (p : Part) : Prop :=
  (hs = [] ∧ key = [] ∧ key2 = []) ∨
    (∃ h, hs = [h] ∧ (Part.bulkKey num fn h 0 p).1 = .ok key ∧ key2 = []) ∨
    (∃ h h', hs = [h, h'] ∧ (Part.bulkKey num fn h 0 p).1 = .ok key ∧ (Part.bulkKey num fn h' 1 p).1 = .ok key2 ∧
      key.length = key2.length ∧ key ≠ key2)

theorem bulkStart_binds {p : Part} {n k : Nat} {hs : List (BitVec 32)} {key key2 : List Byte}
    (handles : (p.ctx n).handles.take (if (p.ctx n).program.toNat = 0x0860 then 0
      else if (p.ctx n).program.toNat = 0x0830 ∨ (p.ctx n).program.toNat = 0x0831 then 2 else 1) = hs)
    (pan : p.panOf n = some k) (queued : (p.ctx n).state = .queued) (bulk : (p.ctx n).bulk = true)
    (here : ∀ h ∈ hs, p.cellarWaits h = false) (len : p.bulkLengthOk n = true)
    (keys : KeysRead (p.ctx n).program.toNat (p.ctx n).fn hs key key2 p) : p.bulkStart n = p.bindStream n k key key2 := by
  have none : hs.any (fun h => p.cellarWaits h) = false := by simpa using here
  simp only [Part.bulkStart, pan, handles, queued, bulk, none, len, ne_eq, not_true_eq_false, Bool.not_true, Bool.false_eq_true, or_self,
    if_false]
  rcases keys with ⟨rfl, rfl, rfl⟩ | ⟨h, rfl, read, rfl⟩ | ⟨h, h', rfl, read, read', long, differ⟩
  · rfl
  · simp only [bulkKey_answers read]
  · simp only [bulkKey_answers read, bulkKey_answers read', long, differ, not_true_eq_false, if_false]

/-- A stream bound: its keys and start value taken, its context running. -/
theorem bindStream_spec (n k : Nat) (key key2 : List Byte) (p : Part) :
    let q := p.bindStream n k key key2
    ∃ iv, (q.onePan k).streams = (p.onePan k).streams.map (fun z =>
        if z.ctx = n then { z with started := true, key := key, key2 := key2, chain := iv } else z) ∧
      q.ctx n = { p.ctx n with state := .running } ∧
      q = { p with pan := { p.pan with pans := q.pan.pans }, dsp := { p.dsp with ctxs := q.dsp.ctxs } } :=
  ⟨_, congrArg Pan.streams (onePan_modOnePan_self p k _), ctx_modCtx_self .., rfl⟩

/-! ### A chunk (R96, R253, R275) -/

theorem issueRead_modPan (fn : Nat) (a : BitVec 64) (n : Nat) (g : PanBlock → PanBlock) (p : Part) :
    (p.modPan g).issueRead fn a n = (p.issueRead fn a n).modPan g :=
  List.foldl_hom (Part.modPan g) fun _ _ => rfl

theorem issueListRead_modPan (fn : Nat) (l : List (BitVec 64 × Nat)) (off n : Nat) (g : PanBlock → PanBlock) (p : Part) :
    (p.modPan g).issueListRead fn l off n = (p.issueListRead fn l off n).modPan g := by
  induction l generalizing off n p with
  | nil => rfl
  | cons x l ih =>
    obtain ⟨a, len⟩ := x
    simp only [Part.issueListRead]
    split
    · rfl
    split
    · exact ih ..
    · rw [issueRead_modPan, ih]

theorem issueWrites_modPan (fn : Nat) (ms : List (BitVec 64 × List Byte)) (g : PanBlock → PanBlock) (p : Part) :
    ms.foldl (fun r m => r.issueWrite fn m.1 m.2) (p.modPan g) = (ms.foldl (fun r m => r.issueWrite fn m.1 m.2) p).modPan g :=
  List.foldl_hom (Part.modPan g) fun _ _ => List.foldl_hom (Part.modPan g) fun _ _ => rfl

/-- Between `p` and `q` the part has issued messages under tags drawn, and nothing else has changed. -/
def Asked (p q : Part) : Prop := q = { p with free := q.free, hif := { p.hif with out := q.hif.out } }

theorem Asked.trans {p q r : Part} (h : Asked p q) (k : Asked q r) : Asked p r := by
  unfold Asked at *
  rw [k, h]

theorem issueRead_asked (fn : Nat) (a : BitVec 64) (n : Nat) (p : Part) : Asked p (p.issueRead fn a n) :=
  foldl_keeps (R := Asked) (fun _ => rfl) .trans _ (fun _ _ _ => by exact rfl) p

theorem issueListRead_asked (fn : Nat) (l : List (BitVec 64 × Nat)) (off n : Nat) (p : Part) : Asked p (p.issueListRead fn l off n) := by
  induction l generalizing off n p with
  | nil => exact rfl
  | cons x l ih =>
    obtain ⟨a, len⟩ := x
    simp only [Part.issueListRead]
    split
    · exact rfl
    split
    · exact ih ..
    · exact (issueRead_asked ..).trans (ih ..)

/-- Octets put to a context's output list: what is written to the host, and the count of them. -/
theorem putList_eq (n off : Nat) (bs : List Byte) (p : Part) :
    p.putList n off bs = ((Part.listWrites ((p.ctx n).lists.getD ([], [])).2 off bs).foldl
      (fun r m => r.issueWrite (p.ctx n).fn m.1 m.2) p).modCtx n fun c => { c with outList := c.outList + bs.length } := by
  cases lists : (p.ctx n).lists with
  | none => simp only [Part.putList, lists]; rfl
  | some l => simp only [Part.putList, lists]; rfl

@[simp] theorem length_fit (n : Nat) (bs : List Byte) : (Pk.fit n bs).length = n := by
  simp [Pk.fit, Crypto.padR]
  omega

theorem bulkStep_pos (num : Nat) (param : Word) (aad : Nat) (bs : List Byte) (y : Stream) :
    (Part.bulkStep num param aad bs y).2.pos = y.pos + bs.length := rfl

/-- The pans once the block's set has taken effect and stream `r` of pan `k` has gone on by `count` blocks. -/
def panAdvanced (k n : Nat) (r : Stream) (count : Nat) (b : PanBlock) : PanBlock :=
  { b with st := b.st.apply, pans := b.pans.upd {} k fun x =>
      { x with streams := x.streams.map (fun z => if z.ctx = n then r else z)
               blocks := x.blocks + BitVec.ofNat 32 count, maskCount := min (2 ^ 28) (x.maskCount + count) } }

theorem onePan_panAdvanced (k n : Nat) (r : Stream) (count : Nat) (p : Part) :
    (p.modPan (panAdvanced k n r count)).onePan k = { p.onePan k with
      streams := (p.onePan k).streams.map (fun z => if z.ctx = n then r else z)
      blocks := (p.onePan k).blocks + BitVec.ofNat 32 count, maskCount := min (2 ^ 28) ((p.onePan k).maskCount + count) } := by
  simp only [Part.onePan, Part.modPan_pan, panAdvanced, Tab.get_upd_self]

theorem onePan_modCtx (p : Part) (n k : Nat) (g : Ctx → Ctx) : (p.modCtx n g).onePan k = p.onePan k := rfl
theorem ctx_modPan (p : Part) (n : Nat) (g : PanBlock → PanBlock) : (p.modPan g).ctx n = p.ctx n := rfl
theorem fn_modPan (p : Part) (n : Nat) (g : PanBlock → PanBlock) : (p.modPan g).fn n = p.fn n := rfl

theorem panBlocks_panAdvanced (k n : Nat) (r : Stream) (count : Nat) (p : Part) :
    ((p.modPan fun b => { b with st := b.st.apply }).modOnePan k fun x =>
      { x with streams := x.streams.map fun z => if z.ctx = n then r else z }).panBlocks k count = p.modPan (panAdvanced k n r count) := by
  simp only [Part.panBlocks, Part.modOnePan, Part.modPan, panAdvanced, Tab.upd_upd]

section
variable {p : Part} {n k : Nat} {y : Stream}

/-- The octets of a stream's next chunk. -/
abbrev chunkLen (p : Part) (n k : Nat) (y : Stream) : Nat :=
  p.panApply.chunkRoom (p.ctx n) k y (min 512 ((p.ctx n).streamLen - y.pos))

/-- What a chunk of `len` octets puts out, and the stream after it. -/
abbrev chunkStep (p : Part) (n len : Nat) (data : List Byte) (y : Stream) : List Byte × Stream :=
  Part.bulkStep (p.ctx n).program.toNat (p.ctx n).param (p.ctx n).param2.toNat (Pk.fit len data) y

/-- The reads of a chunk's octets issued. -/
abbrev chunkRead (p : Part) (n len : Nat) (y : Stream) : Part :=
  Part.issueListRead (p.ctx n).fn (((p.ctx n).lists.getD ([], [])).1) y.pos len p

/-- The chunk's messages issued: its reads, and the writes of its output unless a drain discards it. -/
def chunkSent (p : Part) (n len : Nat) (y : Stream) (out : List Byte) : Part :=
  if (p.fn (p.ctx n).fn).draining = true then chunkRead p n len y
  else (Part.listWrites (((p.ctx n).lists.getD ([], [])).2) y.written out).foldl (fun r m => r.issueWrite (p.ctx n).fn m.1 m.2)
    (chunkRead p n len y)

theorem bulkChunk_none (data : List Byte) (stream : p.streamOf n = none) : p.bulkChunk n data = p := by
  simp only [Part.bulkChunk, stream]

theorem bulkChunk_waits (data : List Byte) (stream : p.streamOf n = some (k, y))
    (h : chunkLen p n k y = 0 ∨ p.panApply.panReady k = false) : p.bulkChunk n data = p := by
  have none : chunkLen p n k y = 0 ∨ (!p.panApply.panReady k) = true := h.imp_right fun h => by rw [h]; rfl
  simp only [Part.bulkChunk, stream]
  exact if_pos none

theorem bulkChunk_takes (data : List Byte) (stream : p.streamOf n = some (k, y)) (len : chunkLen p n k y ≠ 0)
    (ready : p.panApply.panReady k = true) :
    let r := chunkStep p n (chunkLen p n k y) data y
    p.bulkChunk n data = ((chunkSent p n (chunkLen p n k y) y r.1).modPan (panAdvanced k n r.2
      (Part.bulkBlocks (p.ctx n) r.2.pos false - Part.bulkBlocks (p.ctx n) y.pos false))).modCtx n fun c =>
        { c with outList := c.outList + r.1.length } := by
  intro r
  have taken : ¬ (chunkLen p n k y = 0 ∨ (!p.panApply.panReady k) = true) := by simp [len, ready]
  have asked : Asked p (chunkRead p n (chunkLen p n k y) y) := issueListRead_asked ..
  have read : Part.issueListRead (p.ctx n).fn (((p.ctx n).lists.getD ([], [])).1) y.pos (chunkLen p n k y) p.panApply =
    (chunkRead p n (chunkLen p n k y) y).modPan fun b => { b with st := b.st.apply } := issueListRead_modPan ..
  simp only [Part.bulkChunk, stream, chunkSent]
  rw [if_neg taken, read, panBlocks_panAdvanced]
  generalize chunkRead p n (chunkLen p n k y) y = q at asked
  have ctx : q.ctx n = p.ctx n := by rw [asked]; rfl
  have fn : q.fn (p.ctx n).fn = p.fn (p.ctx n).fn := by rw [asked]; rfl
  rw [putList_eq, ctx_modPan, fn_modPan, ctx, fn, issueWrites_modPan]
  split <;> rfl

theorem chunkSent_eq (p : Part) (n len : Nat) (y : Stream) (out : List Byte) : chunkSent p n len y out =
    { p with hif := (chunkSent p n len y out).hif, free := (chunkRead p n len y).free } := by
  have asked : Asked p (chunkRead p n len y) := issueListRead_asked ..
  unfold Asked at asked
  rw [chunkSent]
  split
  · rw [asked]
  · rw [(issueWrites_issued (p.ctx n).fn _ (chunkRead p n len y)).1, asked]

/-- What a chunk changes: its stream, the blocks of its pan, what its context has put out, and what the part has issued. -/
theorem bulkChunk_spec (data : List Byte) (stream : p.streamOf n = some (k, y)) (len : chunkLen p n k y ≠ 0)
    (ready : p.panApply.panReady k = true) :
    let q := p.bulkChunk n data
    let r := chunkStep p n (chunkLen p n k y) data y
    let pos := y.pos + chunkLen p n k y
    r.2.pos = pos ∧
      q = { p with pan := q.pan, dsp := { p.dsp with ctxs := q.dsp.ctxs }, hif := q.hif, free := (chunkRead p n (chunkLen p n k y) y).free } ∧
      (q.onePan k).streams = (p.onePan k).streams.map (fun z => if z.ctx = n then r.2 else z) ∧
      (q.onePan k).blocks = (p.onePan k).blocks +
        BitVec.ofNat 32 (Part.bulkBlocks (p.ctx n) pos false - Part.bulkBlocks (p.ctx n) y.pos false) ∧
      (q.ctx n).outList = (p.ctx n).outList + r.1.length ∧ q.hif = (chunkSent p n (chunkLen p n k y) y r.1).hif := by
  intro q r pos
  have step : r.2.pos = pos := by rw [bulkStep_pos, length_fit]
  have effect := bulkChunk_takes data stream len ready
  have sent := chunkSent_eq p n (chunkLen p n k y) y r.1
  rw [show q = _ from effect, step]
  generalize chunkSent p n (chunkLen p n k y) y r.1 = w at sent
  have pan : w.onePan k = p.onePan k := by rw [sent]; rfl
  have ctx : w.ctx n = p.ctx n := by rw [sent]; rfl
  refine ⟨rfl, ?_, ?_, ?_, ?_, rfl⟩
  · rw [sent]
    rfl
  · rw [onePan_modCtx, onePan_panAdvanced, pan]
  · rw [onePan_modCtx, onePan_panAdvanced, pan]
  · rw [ctx_modCtx_self, ctx_modPan, ctx]

end

/-! ### The end of a stream (R96, R272) -/

section
variable {p : Part} {n k : Nat} {y : Stream}

theorem bulkEnd_none (stream : p.streamOf n = none) : p.bulkEnd n = p := by simp only [Part.bulkEnd, stream]

theorem bulkEnd_waits (stream : p.streamOf n = some (k, y)) (h : y.pos < (p.ctx n).streamLen ∨ p.panReady k = false) :
    p.bulkEnd n = p := by
  have none : y.pos < (p.ctx n).streamLen ∨ (!p.panReady k) = true := h.imp_right fun h => by rw [h]; rfl
  simp only [Part.bulkEnd, stream]
  exact if_pos none

/-- The status of a program's end is 0 or 1. -/
theorem bulkResult_status (c : Ctx) (s : Stream) (expect : List Byte) (j : Nat) :
    (Part.bulkResult c s expect j).1 = 0 ∨ (Part.bulkResult c s expect j).1 = 1 := by
  simp only [Part.bulkResult]
  split
  case h_2 => exact ite_eq_or_eq ..
  case h_10 | h_11 => split <;> exact .inl rfl
  all_goals exact .inl rfl

/-- The end of a program as its stream gives it. -/
abbrev streamResult (p : Part) (n : Nat) (y : Stream) : Byte × List Byte × List Byte :=
  Part.bulkResult (p.ctx n) y (p.inline2 n 12 16) p.free

/-- The last blocks of a stream processed and its last octets put to the output list. -/
def streamFlushed (p : Part) (n k : Nat) (y : Stream) : Part :=
  let p1 := { p with free := p.free + 1 }.panBlocks k (Part.bulkBlocks (p.ctx n) y.pos true - Part.bulkBlocks (p.ctx n) y.pos false)
  if (p.fn (p.ctx n).fn).draining then p1 else p1.putList n y.written (streamResult p n y).2.2

theorem bulkEnd_finishes (stream : p.streamOf n = some (k, y)) (done : (p.ctx n).streamLen ≤ y.pos) (ready : p.panReady k = true) :
    p.bulkEnd n = (streamFlushed p n k y).finish n (streamResult p n y).1 0 (streamResult p n y).2.1
      (BitVec.ofNat 32 (y.written + (streamResult p n y).2.2.length)) := by
  have ends : ¬ (y.pos < (p.ctx n).streamLen ∨ (!p.panReady k) = true) := by simp [done, ready]
  simp only [Part.bulkEnd, stream]
  rw [if_neg ends]
  rfl

theorem streamFlushed_spec (p : Part) (n k : Nat) (y : Stream) :
    let q := streamFlushed p n k y
    q = { p with pan := q.pan, dsp := { p.dsp with ctxs := q.dsp.ctxs }, hif := q.hif, free := p.free + 1 } ∧
      (q.onePan k).streams = (p.onePan k).streams ∧ q.ctx n = { p.ctx n with outList := (q.ctx n).outList } := by
  intro q
  let p1 := { p with free := p.free + 1 }.panBlocks k (Part.bulkBlocks (p.ctx n) y.pos true - Part.bulkBlocks (p.ctx n) y.pos false)
  have streams : (p1.onePan k).streams = (p.onePan k).streams := 
    (congrArg Pan.streams (onePan_modOnePan_self { p with free := p.free + 1 } k _)).trans rfl
  have flushed : q = if (p.fn (p.ctx n).fn).draining then p1 else p1.putList n y.written (streamResult p n y).2.2 := rfl
  rw [flushed]
  split
  · exact ⟨rfl, streams, rfl⟩
  · have issued := issueWrites_issued (p1.ctx n).fn (Part.listWrites ((p1.ctx n).lists.getD ([], [])).2 y.written (streamResult p n y).2.2) p1
    rw [putList_eq]
    generalize List.foldl _ p1 _ = w at issued
    have ctx : w.ctx n = p.ctx n := by rw [issued.1]; rfl
    refine ⟨?_, ?_, by rw [ctx_modCtx_self, ctx]⟩
    · rw [issued.1]
      rfl
    · rw [← streams, issued.1]
      rfl

theorem streamOf_unit (stream : p.streamOf n = some (k, y)) : (p.ctx n).unit = some (.pan k) := by
  simp only [Part.streamOf, Part.panOf] at stream
  split at stream
  · next j unit =>
    obtain ⟨z, -, same⟩ := Option.map_eq_some_iff.1 stream
    rw [unit, (Prod.mk.inj same).1]
  · cases stream

/-- The end of a stream: it leaves its pan, and its context has the status and result of its program. -/
theorem bulkEnd_spec (stream : p.streamOf n = some (k, y)) (done : (p.ctx n).streamLen ≤ y.pos) (ready : p.panReady k = true)
    (running : (p.ctx n).state = .running) (counts : (p.ctx n).discard = false) :
    let q := p.bulkEnd n
    let r := streamResult p n y
    (q.onePan k).streams = (p.onePan k).streams.filter (fun z => z.ctx != n) ∧ (q.ctx n).state = .finished ∧ (q.ctx n).status = r.1 ∧
      (q.ctx n).result = (if r.1 = 0 ∨ r.1 = 1 then r.2.1 else []) ∧ (q.ctx n).outCount = BitVec.ofNat 32 (y.written + r.2.2.length) ∧
      q = { p with pan := q.pan, dsp := q.dsp, hif := q.hif, free := p.free + 1 } := by
  intro q r
  obtain ⟨frame, streams, ctx⟩ := streamFlushed_spec p n k y
  have effect : q = _ := bulkEnd_finishes stream done ready
  generalize streamFlushed p n k y = w at frame streams ctx effect
  have running' : (w.ctx n).state = .running := by rw [ctx, running]
  have counts' : (w.ctx n).discard = false := by rw [ctx, counts]
  have unit : (w.ctx n).unit = some (.pan k) := by rw [ctx]; exact streamOf_unit stream
  have ended := finish_running 0 r.2.1 (BitVec.ofNat 32 (y.written + r.2.2.length)) (status := r.1) running' counts'
  have own := finish_running_ctx 0 r.2.1 (BitVec.ofNat 32 (y.written + r.2.2.length)) (status := r.1) running' counts'
  have good : r.1 = 0 ∨ r.1 = 1 := bulkResult_status ..
  rw [effect]
  refine ⟨?_, ?_, ?_, ?_, ?_, ?_⟩
  · rw [ended, unbind_pan unit, ← streams]
    exact congrArg Pan.streams (onePan_modOnePan_self w k _)
  · rw [own]
  · rw [own]
  · rw [own]
  · rw [own]
    exact if_pos good
  · rw [ended, unbind_pan unit, frame]
    rfl

end

/-- Settles O23, event by event: masks, COMMIT, tests and retirement, then a stream's start, its chunks and its end. -/
theorem pansMaskStreamAndRetire : Obligations.PansMaskStreamAndRetire := by
  unfold Obligations.PansMaskStreamAndRetire
  intro s p
  refine ⟨fun n => ?pan, ?commit, ?start, fun c data none => ?noStream, ?stream⟩
  case pan =>
    intro x sent
    refine ⟨fun unsent alive up due => ?request, fun none => ?noRequest, fun spent => ?stall, fun fresh => ?noStall, fun empty => ?noArrive,
      fun value => ?arrive, ?kat, fun f quiet => ?noKatEnd, fun runs => ?katEnd, fun gone => ?noRetire, fun i event alive => ?retire⟩
    case request =>
      exact ⟨_, .of_onPart (g := Part.maskRequest n) rfl (maskRequest_asks unsent alive up due), entRequest_spec n .mask 32 p⟩
    case noRequest => exact .of_onPart (g := Part.maskRequest n) rfl (maskRequest_none none)
    case stall => exact ⟨_, .of_onPart (g := Part.maskStall n) rfl (maskStall_stalls spent), rfl, onePan_modOnePan_self ..⟩
    case noStall => exact .of_onPart (g := Part.maskStall n) rfl (maskStall_none fresh)
    case noArrive => exact .of_onPart (g := Part.maskArrive n) rfl (maskArrive_none empty)
    case arrive => exact ⟨_, .of_onPart (g := Part.maskArrive n) rfl (maskArrive_takes value), rfl, onePan_modOnePan_self ..⟩
    case kat => exact ⟨p.panKat n, .of_onPart (g := Part.panKat n) rfl rfl, rfl, onePan_modOnePan_self ..⟩
    case noKatEnd => exact .of_onPart (g := Part.panKatEnd n f) rfl (panKatEnd_none f quiet)
    case katEnd => exact ⟨_, .of_onPart (g := Part.panKatEnd n false) rfl (panKatEnd_eq false runs), panTested_spec n false p⟩
    case noRetire => exact .of_onPart (g := Part.panRetireWrite n) rfl (panRetire_retired 1 gone)
    case retire =>
      obtain ⟨q, yields, retired, streams, stores, idle⟩ : ∃ q, Yields i s q ∧ PanRetired n p q := by
        rcases event with rfl | ⟨rfl, runs⟩
        · exact ⟨_, .of_onPart (g := Part.panRetireWrite n) rfl rfl, panRetire_retires n.isLt 1 alive⟩
        · exact ⟨_, .of_onPart (g := Part.panKatEnd n true) rfl rfl, panKatEnd_retires n.isLt runs alive⟩
      exact ⟨q, yields, retired, streams, stores.acu, stores.nvm, stores.priv, idle⟩
  case commit =>
    intro c ok
    refine ⟨fun good idle => ?_, fun good busy => ?_, fun bad => .of_onPart (g := Part.panCommit) rfl (panCommit_refused bad)⟩
    · exact .of_onPart (g := Part.panCommit) rfl ((panCommit_accepted good).trans (by rw [idle]; rfl))
    · exact .of_onPart (g := Part.panCommit) rfl ((panCommit_accepted good).trans (by rw [busy]; rfl))
  case start =>
    intro c k key key2 x num hs pan queued bulk here len keys
    obtain ⟨iv, streams, ctx, frame⟩ := bindStream_spec c.toNat k key key2 p
    exact ⟨_, iv, .of_onPart (g := Part.bulkStart c.toNat) rfl (bulkStart_binds rfl pan queued bulk here len keys), streams, ctx, frame⟩
  case noStream =>
    exact ⟨.of_onPart (g := Part.bulkChunk c.toNat data) rfl (bulkChunk_none data none),
      .of_onPart (g := Part.bulkEnd c.toNat) rfl (bulkEnd_none none)⟩
  case stream =>
    intro c data k y stream x len
    refine ⟨fun waits => .of_onPart (g := Part.bulkChunk c.toNat data) rfl (bulkChunk_waits data stream waits), fun taken ready => ?_,
      fun waits => .of_onPart (g := Part.bulkEnd c.toNat) rfl (bulkEnd_waits stream waits), fun done ready running counts => ?_⟩
    · exact ⟨_, .of_onPart (g := Part.bulkChunk c.toNat data) rfl rfl, bulkChunk_spec data stream taken ready⟩
    · exact ⟨_, .of_onPart (g := Part.bulkEnd c.toNat) rfl rfl, bulkEnd_spec stream done ready running counts⟩

end Sys2Proof.Safety
end

section
/-! SUPPORT. The value of a sealed register nibble by nibble: octets and nibbles of a block, a value built from nibbles, a value cut at LEN
(R201). -/

namespace Sys2Proof.Safety

open Sys2Proof.Machine

/-! ### Strings of octets -/

@[simp] theorem length_leBytes (k v : Nat) : (leBytes k v).length = k := by
  induction k generalizing v with
  | zero => rfl
  | succ k ih => rw [leBytes, List.length_cons, ih]

@[simp] theorem length_beBytes (k v : Nat) : (beBytes k v).length = k := by
  rw [beBytes, List.length_reverse, length_leBytes]

/-- Octet `i` of a little-endian number. -/
theorem getD_leBytes {k i : Nat} (v : Nat) (hi : i < k) : (leBytes k v).getD i 0 = BitVec.ofNat 8 (v / 256 ^ i) := by
  induction k generalizing v i with
  | zero => cases hi
  | succ k ih =>
    cases i with
    | zero => simp [leBytes]
    | succ i => rw [leBytes, List.getD_cons_succ, ih _ (by omega), Nat.div_div_eq_div_mul, Nat.pow_succ']

theorem getD_reverse {α : Type} (l : List α) (d : α) {i : Nat} (hi : i < l.length) : l.reverse.getD i d = l.getD (l.length - 1 - i) d := by
  rw [List.getD_eq_getElem?_getD, List.getD_eq_getElem?_getD, List.getElem?_reverse hi]

/-- Octet `i` of a number of 16 octets, most significant first. -/
theorem getD_beBytes {i : Nat} (v : Block) (hi : i < 16) : (beBytes 16 v.toNat).getD i 0 = fld v (120 - 8 * i) 8 := by
  rw [beBytes, getD_reverse _ _ (by simpa using hi), length_leBytes, getD_leBytes _ (by omega)]
  apply BitVec.eq_of_toNat_eq
  have place : 120 - 8 * i = 8 * (16 - 1 - i) := by omega
  simp [fld, place, Nat.shiftRight_eq_div_pow, Nat.pow_mul]

/-- The number that octets spell, read octet by octet. -/
theorem ofLe_octet (bs : List Byte) (i : Nat) : ofLe bs / 256 ^ i % 256 = (bs.getD i 0).toNat := by
  induction bs generalizing i with
  | nil => simp [ofLe]
  | cons b bs ih =>
    have hb := b.isLt
    cases i with
    | zero => rw [ofLe, List.getD_cons_zero]; omega
    | succ i =>
      have rest : (b.toNat + 256 * ofLe bs) / 256 = ofLe bs := by omega
      rw [ofLe, List.getD_cons_succ, Nat.pow_succ', ← Nat.div_div_eq_div_mul, rest, ih]

theorem getD_fit {n i : Nat} (bs : List Byte) (hi : i < n) : (Pk.fit n bs).getD i 0 = bs.getD i 0 := by
  simp only [Pk.fit, Crypto.padR, List.getD_eq_getElem?_getD, List.getElem?_take, hi, if_true, List.getElem?_append]
  split
  · rfl
  · next beyond =>
    rw [List.getElem?_eq_none (by omega : bs.length ≤ i)]
    rw [List.getElem?_replicate]
    split <;> rfl

/-- Octet `i` of the value that octets make. -/
theorem octet_blockOf {i : Nat} (bs : List Byte) (hi : i < 16) : fld (Part.blockOf bs) (120 - 8 * i) 8 = bs.getD i 0 := by
  have place : 120 - 8 * i = 8 * (15 - i) := by omega
  have octet := ofLe_octet (Pk.fit 16 bs).reverse (15 - i)
  rw [getD_reverse _ _ (by simp; omega), length_fit, show 16 - 1 - (15 - i) = i by omega, getD_fit bs hi] at octet
  apply BitVec.eq_of_toNat_eq
  rw [← octet, Part.blockOf, ofBe, place]
  simp only [fld, BitVec.extractLsb'_toNat, BitVec.toNat_ofNat, Nat.shiftRight_eq_div_pow, Nat.pow_mul]
  have split : 2 ^ 128 = 256 ^ (15 - i) * (256 ^ i * 256) := by
    rw [← Nat.pow_succ, ← Nat.pow_add, show 15 - i + (i + 1) = 16 by omega]
    norm_num
  rw [split, show (2 : Nat) ^ 8 = 256 from rfl, Nat.mod_mul_right_div_self, Nat.mod_mul_left_mod]

/-! ### Nibbles -/

/-- The high and the low nibble of octet `j / 2`. -/
theorem nib_octet (v : Block) {j : Nat} (hj : j < 32) :
    Part.nib v j = fld (fld v (120 - 8 * (j / 2)) 8) (if j % 2 = 0 then 4 else 0) 4 := by
  rw [Part.nib, if_pos hj]
  ext i hi
  have place : 124 - 4 * j + i = 120 - 8 * (j / 2) + ((if j % 2 = 0 then 4 else 0) + i) := by split <;> omega
  have low : (if j % 2 = 0 then 4 else 0) + i < 8 := by split <;> omega
  simp [fld, low, place]

/-- Two values that agree nibble by nibble are the same. -/
theorem block_ext {a b : Block} (h : ∀ j, j < 32 → Part.nib a j = Part.nib b j) : a = b := by
  refine BitVec.eq_of_getLsbD_eq fun i hi => ?_
  have place : 124 - 4 * (31 - i / 4) + i % 4 = i := by omega
  have bit := congrArg (fun x : BitVec 4 => x.getLsbD (i % 4)) (h (31 - i / 4) (by omega))
  simpa [Part.nib, show 31 - i / 4 < 32 by omega, fld, Nat.mod_lt i (by omega : 4 > 0), place] using bit

/-- The nibbles of a value built from nibbles. -/
theorem nib_ofNibs (f : Nat → BitVec 4) {j : Nat} (hj : j < 32) : Part.nib (Part.ofNibs f) j = f j := by
  have built : ∀ n ≤ 32, ∀ i < 4 * n, ((List.range n).foldl (fun (v : Block) j => (v <<< 4) ||| (f j).setWidth 128) 0).getLsbD i =
      (f (n - 1 - i / 4)).getLsbD (i % 4) := by
    intro n
    induction n with
    | zero => intro _ i hi; omega
    | succ n ih =>
      intro hn i hi
      rw [List.range_succ, List.foldl_append, List.foldl_cons, List.foldl_nil, BitVec.getLsbD_or, BitVec.getLsbD_shiftLeft,
        BitVec.getLsbD_setWidth]
      by_cases low : i < 4
      · simp [low, show i < 128 by omega, show i / 4 = 0 by omega, Nat.mod_eq_of_lt low]
      · have beyond : (f n).getLsbD i = false := BitVec.getLsbD_of_ge _ _ (by omega)
        simp only [beyond, Bool.and_false, Bool.or_false, low, decide_false, Bool.not_false, Bool.and_true]
        rw [ih (by omega) (i - 4) (by omega), show n + 1 - 1 - i / 4 = n - 1 - (i - 4) / 4 by omega,
          show (i - 4) % 4 = i % 4 by omega]
        simp [show i < 128 by omega]
  rw [Part.nib, if_pos hj]
  ext i hi
  have bit := built 32 (by omega) (124 - 4 * j + i) (by omega)
  rw [show 32 - 1 - (124 - 4 * j + i) / 4 = j by omega, show (124 - 4 * j + i) % 4 = i by omega] at bit
  simpa [fld, hi, Part.ofNibs] using bit

/-- The nibbles of a value cut after `len` octets. -/
theorem nib_masked (len : Nat) (v : Block) {j : Nat} (hj : j < 32) :
    Part.nib (Part.masked len v) j = if j < 2 * len then Part.nib v j else 0 := by
  have hi : j / 2 < 16 := by omega
  rw [nib_octet _ hj, nib_octet _ hj, Part.masked, octet_blockOf _ hi, List.getD_eq_getElem?_getD, List.getElem?_take]
  by_cases within : j / 2 < len
  · rw [if_pos within, if_pos (show j < 2 * len by omega), ← List.getD_eq_getElem?_getD, getD_beBytes v hi]
  · rw [if_neg within, if_neg (show ¬ j < 2 * len by omega), Option.getD_none]
    split <;> rfl

/-- The nibbles of a register's value as an operand. -/
theorem nib_operand (s : SReg) (j : Nat) : Part.nib (Part.SReg.operand s) j = operandNib s j := by
  by_cases hj : j < 32
  · rw [Part.SReg.operand, nib_masked _ _ hj, operandNib, Part.nib, if_pos hj]
    simp [hj]
  · simp [Part.nib, operandNib, hj]

/-- A result register holds its nibbles below LEN, and zero beyond (R145, R201). -/
theorem plain_isPlain (t : Thread) (v : Block) (len : BitVec 5) (cls : BitVec 3) {f : Nat → BitVec 4}
    (h : ∀ j, j < 32 → j < 2 * len.toNat → Part.nib v j = f j) : IsPlain (Part.plain t v len cls) t.colour cls len f := by
  refine ⟨rfl, fun j hj => ?_⟩
  have cut := nib_masked len.toNat v hj
  rw [Part.nib, if_pos hj] at cut
  refine cut.trans ?_
  split
  · next within => exact h j hj within
  · rfl

end Sys2Proof.Safety
end

section
/-! SUPPORT. PIN blocks: the nibbles of what SPIN.PACK builds, what SPIN.UNPK reads of them, and the statement that it reads back the PIN
packed (R147, R148, R201, R703). -/

namespace Sys2Proof.Safety

open Sys2Proof.Machine

/-- The digits of a list read by position. -/
theorem map_range_getD {α : Type} (l : List α) (d : α) : (List.range l.length).map (fun j => l.getD j d) = l := by
  refine List.ext_getElem (by simp) fun i _ hi => ?_
  simp [List.getD_eq_getElem?_getD, List.getElem?_eq_getElem hi]

section
variable {ds pan : List (BitVec 4)} {rnd : List Byte}

/-- The nibbles of a canonical PIN: its length, its digits, and 0xF. -/
theorem nib_canonical (ds : List (BitVec 4)) {j : Nat} (hj : j < 16) :
    Part.nib (Part.canonical ds) j = if j = 0 then BitVec.ofNat 4 ds.length else ds.getD (j - 1) 0xF := by
  rw [Part.canonical, nib_masked _ _ (by omega), if_pos (by omega), nib_ofNibs _ (by omega)]

theorem canonical_length (short : ds.length ≤ 12) : (Part.nib (Part.canonical ds) 0).toNat = ds.length := by
  rw [nib_canonical ds (by omega), if_pos rfl, BitVec.toNat_ofNat]
  omega

/-- A block that carries a PIN of digits `ds`: a head nibble, the length, the digits, and fill. -/
def pinBody (ds : List (BitVec 4)) (head : BitVec 4) (fill : Nat → BitVec 4) (j : Nat) : BitVec 4 :=
  if j = 0 then head else if j = 1 then BitVec.ofNat 4 ds.length else if j < 2 + ds.length then ds.getD (j - 2) 0xF else fill j

/-- What SPIN.PACK writes into a nibble of its block. -/
def packedNib (f : BitVec 3) (ds pan : List (BitVec 4)) (rnd : List Byte) (j : Nat) : BitVec 4 :=
  let r := Part.nib (Part.blockOf rnd)
  match f.toNat with
  | 0 => pinBody ds 0 (fun _ => 0xF) j ^^^ (Part.panPart pan).getD j 0
  | 1 => pinBody ds 1 (fun j => r (j - 2)) j
  | 3 => pinBody ds 3 (fun j => 0xA + BitVec.ofNat 4 ((r (j - 2)).toNat % 6)) j ^^^ (Part.panPart pan).getD j 0
  | 4 => if j < 16 then pinBody ds 4 (fun _ => 0xA) j else r (j - 16)
  | _ => ds.getD j 0xF

/-- A nibble of the block that SPIN.PACK builds from a canonical PIN. -/
theorem nib_pinBlock {f : BitVec 3} (format : f = 0 ∨ f = 1 ∨ f = 3 ∨ f = 4 ∨ f = 7) (short : ds.length ≤ 12) {j : Nat}
    (hj : j < if f = 4 then 32 else 16) :
    Part.nib (Part.pinBlock f (Part.canonical ds) pan rnd) j = packedNib f ds pan rnd j := by
  have body : ∀ (head : BitVec 4) (fill : Nat → BitVec 4), j < 16 →
      (if j = 0 then head else if j = 1 then Part.nib (Part.canonical ds) 0
        else if j < 2 + (Part.nib (Part.canonical ds) 0).toNat then Part.nib (Part.canonical ds) (1 + (j - 2)) else fill j) =
        pinBody ds head fill j := by
    intro head fill hj
    rw [canonical_length short, nib_canonical ds (j := 0) (by omega), nib_canonical ds (by omega), if_pos rfl,
      if_neg (by omega : 1 + (j - 2) ≠ 0), Nat.add_sub_cancel_left]
    rfl
  have wide : j < 32 := by split at hj <;> omega
  rcases format with rfl | rfl | rfl | rfl | rfl
  case inr.inr.inr.inl =>
    refine (nib_ofNibs _ wide).trans ?_
    by_cases low : j < 16
    · exact (if_pos low).trans ((body 4 (fun _ => 0xA) low).trans (if_pos low).symm)
    · exact (if_neg low).trans (if_neg low).symm
  all_goals
    have narrow : j < 16 := hj
    refine (nib_masked 8 _ wide).trans ((if_pos (by omega)).trans ((nib_ofNibs _ wide).trans ?_))
  case inl => exact congrArg (· ^^^ (Part.panPart pan).getD j 0) (body 0 (fun _ => 0xF) narrow)
  case inr.inl => exact body 1 (fun j => Part.nib (Part.blockOf rnd) (j - 2)) narrow
  case inr.inr.inl =>
    exact congrArg (· ^^^ (Part.panPart pan).getD j 0)
      (body 3 (fun j => 0xA + BitVec.ofNat 4 ((Part.nib (Part.blockOf rnd) (j - 2)).toNat % 6)) narrow)
  case inr.inr.inr.inr =>
    beta_reduce
    rw [canonical_length short]
    by_cases digit : j < ds.length
    · rw [if_pos digit, nib_canonical ds (by omega), if_neg (by omega), Nat.add_sub_cancel_left]
      rfl
    · rw [if_neg digit]
      exact (List.getD_eq_default _ _ (by omega)).symm

/-- What a reader of nibbles `b` finds in a block that carries a PIN: its head, its length, its digits, its fill. -/
theorem pinBody_reads {head : BitVec 4} {fill b : Nat → BitVec 4} (short : ds.length ≤ 12) (hb : ∀ j, j < 16 → b j = pinBody ds head fill j) :
    b 0 = head ∧ (b 1).toNat = ds.length ∧ (List.range ds.length).map (fun j => b (2 + j)) = ds ∧
      (List.range (14 - ds.length)).map (fun j => b (2 + ds.length + j)) =
        (List.range (14 - ds.length)).map (fun j => fill (2 + ds.length + j)) := by
  refine ⟨hb 0 (by omega), ?_, ?_, List.map_congr_left fun j hj => ?_⟩
  · rw [hb 1 (by omega), pinBody, if_neg one_ne_zero, if_pos rfl, BitVec.toNat_ofNat]
    omega
  · refine (List.map_congr_left fun j hj => ?_).trans (map_range_getD ds 0xF)
    have digit := List.mem_range.1 hj
    rw [hb _ (by omega), pinBody, if_neg (by omega), if_neg (by omega), if_pos (by omega), Nat.add_sub_cancel_left]
  · have last := List.mem_range.1 hj
    rw [hb _ (by omega), pinBody, if_neg (by omega), if_neg (by omega), if_neg (by omega)]

/-- A nibble of a block operand as SPIN.UNPK takes it: in formats 0 and 3 the PAN part is taken off. -/
def readNib (f : BitVec 3) (s : SReg) (pan : List (BitVec 4)) (j : Nat) : BitVec 4 :=
  if f = 0 ∨ f = 3 then Part.nib (Part.SReg.operand s) j ^^^ (Part.panPart pan).getD j 0 else Part.nib (Part.SReg.operand s) j

/-- A block whose nibbles carry a PIN under its format's head and fill is valid, and the PIN is the one carried. -/
theorem pinOf_carried {f : BitVec 3} {s : SReg} {head : BitVec 4} {fill : Nat → BitVec 4} (long : 4 ≤ ds.length) (short : ds.length ≤ 12)
    (digits : ∀ d ∈ ds, d.toNat < 10) (len : s.len = if f = 4 then 16 else 8)
    (carried : ∀ j, j < 16 → readNib f s pan j = pinBody ds head fill j)
    (form : (f = 0 ∧ head = 0 ∧ ∀ j, fill j = 0xF) ∨ (f = 1 ∧ head = 1) ∨ (f = 3 ∧ head = 3 ∧ ∀ j, 10 ≤ (fill j).toNat) ∨
      (f = 4 ∧ head = 4 ∧ ∀ j, fill j = 0xA)) : Part.pinOf f s pan = some ds := by
  obtain ⟨first, count, digs, rest⟩ := pinBody_reads short carried
  have ten : (ds.all fun d => decide (d.toNat < 10)) = true := by simpa using digits
  unfold Part.pinOf
  extract_lets raw b n ds' rest' valid
  have hn : n = ds.length := count
  have hds : ds' = ds := by rw [← digs, ← hn]; rfl
  have hrest : rest' = (List.range (14 - ds.length)).map fun j => fill (2 + ds.length + j) := by rw [← rest, ← hn]; rfl
  have hvalid : valid = true := by simp only [valid, hn, hds, ten, long, short]; rfl
  have hfirst : b 0 = head := first
  rcases form with ⟨rfl, rfl, fills⟩ | ⟨rfl, rfl⟩ | ⟨rfl, rfl, fills⟩ | ⟨rfl, rfl, fills⟩
  all_goals simp_all

theorem operand_nib {s : SReg} {v : Block} (val : s.val = v) {j : Nat} (hj : j < 32) (inside : j < 2 * s.len.toNat) :
    Part.nib (Part.SReg.operand s) j = Part.nib v j := by
  rw [Part.SReg.operand, nib_masked _ _ hj, if_pos inside, val]

/-- The digits and the fill of the reference layout. -/
theorem pinOf_reference {s : SReg} (long : 4 ≤ ds.length) (short : ds.length ≤ 12) (digits : ∀ d ∈ ds, d.toNat < 10) (len : s.len = 8)
    (carried : ∀ j, j < 16 → Part.nib (Part.SReg.operand s) j = ds.getD j 0xF) : Part.pinOf 7 s pan = some ds := by
  have all : (List.range 16).map (Part.nib (Part.SReg.operand s)) = ds ++ List.replicate (16 - ds.length) 0xF := by
    refine List.ext_getElem (by simp; omega) fun j hj _ => ?_
    have low : j < 16 := by simpa using hj
    rw [List.getElem_map, List.getElem_range, carried j low, List.getD_eq_getElem?_getD, List.getElem_append]
    split
    · next digit => rw [List.getElem?_eq_getElem digit]; rfl
    · next beyond => rw [List.getElem?_eq_none (by omega), List.getElem_replicate]; rfl
  have taken : (ds ++ List.replicate (16 - ds.length) 0xF).takeWhile (fun d : BitVec 4 => decide (d.toNat < 10)) = ds := by
    rw [List.takeWhile_append_of_pos (by simpa using digits)]
    simp
  change (let all := (List.range 16).map (Part.nib (Part.SReg.operand s))
    let ds := all.takeWhile fun d => decide (d.toNat < 10)
    if s.len = 8 ∧ 4 ≤ ds.length ∧ ds.length ≤ 12 ∧ (all.drop ds.length).all (· == 0xF) then some ds else none) = some ds
  simp only [all, taken]
  simp [len, long, short]

end

/-- Taking the PAN part off a nibble gives the nibble that it was put on. -/
theorem readNib_of_panned {f : BitVec 3} {s : SReg} {pan : List (BitVec 4)} {j : Nat} {x : BitVec 4} (reads : f = 0 ∨ f = 3)
    (h : Part.nib (Part.SReg.operand s) j = x ^^^ (Part.panPart pan).getD j 0) : readNib f s pan j = x := by
  rw [readNib, if_pos reads, h, BitVec.xor_assoc, BitVec.xor_self, BitVec.xor_zero]

/-- The fill digits of format 3 are 0xA to 0xF. -/
theorem fill3_ge (x : BitVec 4) : 10 ≤ (0xA + BitVec.ofNat 4 (x.toNat % 6)).toNat := by
  revert x
  decide

/-- Settles O35, format by format: what is read of the block built is the PIN it carries. -/
theorem pinBlocksUnpackToThePinPacked : Obligations.PinBlocksUnpackToThePinPacked := by
  intro f ds pan rnd s format long short digits _ _ _ _ val len
  refine ⟨?_, fun j hj => ?_⟩
  · have nibs : ∀ j, j < 16 → Part.nib (Part.SReg.operand s) j = packedNib f ds pan rnd j := fun j hj => by
      rw [operand_nib val (by omega) (by rw [len]; split <;> simp <;> omega), nib_pinBlock format short (by split <;> omega)]
    have carries := @pinOf_carried ds pan f s
    rcases format with rfl | rfl | rfl | rfl | rfl
    · exact carries (fill := fun _ => 0xF) long short digits len (fun j hj => readNib_of_panned (.inl rfl) (nibs j hj))
        (.inl ⟨rfl, rfl, fun _ => rfl⟩)
    · exact carries (fill := fun j => Part.nib (Part.blockOf rnd) (j - 2)) long short digits len nibs (.inr (.inl ⟨rfl, rfl⟩))
    · exact carries (fill := fun j => 0xA + BitVec.ofNat 4 ((Part.nib (Part.blockOf rnd) (j - 2)).toNat % 6)) long short digits len
        (fun j hj => readNib_of_panned (.inr rfl) (nibs j hj)) (.inr (.inr (.inl ⟨rfl, rfl, fun _ => fill3_ge _⟩)))
    · exact carries (fill := fun _ => 0xA) long short digits len (fun j hj => (nibs j hj).trans (if_pos hj))
        (.inr (.inr (.inr ⟨rfl, rfl, fun _ => rfl⟩)))
    · exact pinOf_reference long short digits len nibs
  · have canonical := nib_canonical ds hj
    rwa [Part.nib, if_pos (by omega)] at canonical

end Sys2Proof.Safety
end

section
/-! SUPPORT. How a harvest ends (R130, R159, R163), and the rules of sealed instructions: on a ready thread they act on the part in which the
thread has had its turn and counted them (R144, R204, R205). -/

namespace Sys2Proof.Safety

open Sys2Proof.Machine

/-! ### Ends of harvests -/

@[simp] theorem thread_modThread_same (p : Part) (k : Nat) (g : Thread → Thread) : (p.modThread k g).thread k = g (p.thread k) :=
  thread_modThread_self p k g

theorem thread_modThread_other (p : Part) {k j : Nat} (g : Thread → Thread) (h : j ≠ k) : (p.modThread k g).thread j = p.thread j := by
  rw [thread_modThread, if_neg h]

/-- Thread `k` works in `r` as it does in `p`: it holds a harvest in the same context, and no context has changed. -/
structure AtWork (k : Nat) (p r : Part) : Prop where
  busy : (r.thread k).busy = true
  work : (r.thread k).ctx = (p.thread k).ctx
  ctxs : r.dsp.ctxs = p.dsp.ctxs

theorem AtWork.ctx {k : Nat} {p r : Part} (h : AtWork k p r) (n : Nat) : r.ctx n = p.ctx n := by rw [Part.ctx, h.ctxs, Part.ctx]

theorem Recorded.thread {p q : Part} (h : Recorded p q) (k : Nat) : q.thread k = p.thread k := by rw [Part.thread, h.seq, Part.thread]

theorem AtWork.recorded {k : Nat} {p r z : Part} (h : AtWork k p r) (e : Recorded r z) : AtWork k p z :=
  ⟨by rw [e.thread, h.busy], by rw [e.thread, h.work], by rw [e.dsp, h.ctxs]⟩

theorem AtWork.modThread {k : Nat} {p r : Part} (h : AtWork k p r) (g : Thread → Thread) (busy : (g (r.thread k)).busy = true)
    (work : (g (r.thread k)).ctx = (r.thread k).ctx) : AtWork k p (r.modThread k g) :=
  ⟨by rw [thread_modThread_same, busy], by rw [thread_modThread_same, work, h.work], h.ctxs⟩

/-- The part in which a busy thread has had its turn and counted its instruction. -/
theorem AtWork.counted {k : Nat} {p : Part} (busy : (p.thread k).busy = true) : AtWork k p ((turned p k).modThread k counted) :=
  AtWork.modThread (p := p) (r := turned p k) ⟨busy, rfl, rfl⟩ Safety.counted busy rfl

/-- Between `p` and `q` the harvest of thread `k` has ended: the thread is idle and the harvest counted, other threads and the operation
buffer stay, and its context, where it runs and nothing discards its completion, has finished with the outcome (R98, R99, R130). -/
structure HarvestDone (k : Nat) (status detail : Byte) (res : List Byte) (out : Word) (p q : Part) : Prop where
  idle   : q.thread k = {}
  others : ∀ j, j ≠ k → q.thread j = p.thread j
  buffer : q.opBuf = p.opBuf
  units  : q.seq.units = p.seq.units.upd {} (k / 32) fun u => { u with harvests := u.harvests + 1 }
  ctx    : (p.ctx (p.thread k).ctx).state = .running → (p.ctx (p.thread k).ctx).discard = false →
    q.ctx (p.thread k).ctx = { p.ctx (p.thread k).ctx with
      state := .finished, status := status, detail := detail, unit := none
      result := if status = 0 ∨ status = 1 then res else []
      outCount := if status = 0 ∨ status = 1 then out else BitVec.ofNat 32 (p.ctx (p.thread k).ctx).outList
      finOrder := p.dsp.nextOrder }

/-- Operations dropped and queued touch the engines, and which of them run under a set accepted later, only. -/
theorem Queued.dropped {p q : Part} {g : Rke → Rke} (h : Queued (p.modRke g) q) :
    q = { p with rke := q.rke, dsp := { p.dsp with late := q.dsp.late } } := by
  rw [h.rest]
  rfl

theorem dropEngOps_eq (k : Nat) (p : Part) :
    p.dropEngOps k = { p with rke := (p.dropEngOps k).rke, dsp := { p.dsp with late := (p.dropEngOps k).dsp.late } } :=
  Queued.dropped (refill_queued (Part.modRke _ p))

theorem endHarvest_done {p : Part} {k : Nat} (busy : (p.thread k).busy = true) (status detail : Byte) (res : List Byte) (out : Word) :
    HarvestDone k status detail res out p (p.endHarvest k status detail res out) := by
  have works : (!(p.seq.threads.get {} k).busy) = false := by rw [Bool.not_eq_false']; exact busy
  simp only [Part.endHarvest, works, Bool.false_eq_true, if_false]
  have sent : SessionLeft p (p.when (p.seq.threads.get {} k).swr
      (Part.ledger ((p.seq.threads.get {} k).swrSlots.flatMap p.slotItem) (some (p.seq.threads.get {} k).ctx) none)) :=
    when_keeps .refl p fun _ => ledger_sessionLeft ..
  generalize p.when _ _ = r at sent ⊢
  have same : ∀ n, r.ctx n = p.ctx n := fun n => by rw [sent]; rfl
  have ended := (finish_ended (p.thread k).ctx status detail res out r).rest
  have left := finish_running_ctx (p := r) (n := (p.thread k).ctx) (status := status) detail res out
  rw [show (p.seq.threads.get {} k).ctx = (p.thread k).ctx from rfl]
  generalize r.finish (p.thread k).ctx status detail res out = z at ended left ⊢
  have dropped := dropEngOps_eq k z
  generalize z.dropEngOps k = y at dropped ⊢
  have seq : y.seq = p.seq := by rw [dropped, ended, sent]
  refine ⟨?_, fun j hj => ?_, ?_, ?_, fun running counts => ?_⟩
  · exact (thread_clearThread y k k).trans (if_pos rfl)
  · refine (thread_clearThread y k j).trans ((if_neg hj).trans ?_)
    rw [Part.thread, seq, Part.thread]
  · rw [dropped, ended, sent]
    rfl
  · rw [← seq]
    rfl
  · have order : r.dsp.nextOrder = p.dsp.nextOrder := by rw [sent]
    have kept : ∀ n, y.ctx n = z.ctx n := fun n => by rw [dropped]; rfl
    rw [same, order] at left
    exact (kept _).trans (left running counts)

/-- The harvest of a thread at work ends. -/
theorem HarvestDone.ends {k : Nat} {status detail : Byte} {res : List Byte} {out : Word} {p r q : Part} (h : AtWork k p r)
    (done : HarvestDone k status detail res out r q) : HarvestEnds k status detail p q := by
  refine ⟨done.idle, fun running counts => ?_⟩
  have left := done.ctx
  rw [h.work, h.ctx] at left
  rw [left running counts]
  exact ⟨rfl, rfl, rfl⟩

/-- What SEQ_FAULT of a sequencer takes when a harvest of thread `k` faults (R163). -/
def faultWord (t : Thread) (k : Nat) (cause : BitVec 3) (status : Byte) : Word :=
  at' t.program 0 ||| at' (BitVec.ofNat 5 (k % 32)) 16 ||| at' cause 21 ||| at' status 24

/-- A harvest that faults has ended, with its fault and the instruction's address in its sequencer's registers (R163). -/
structure Faulted (k : Nat) (cause : BitVec 3) (status detail : Byte) (p r q : Part) : Prop where
  ends   : HarvestEnds k status detail p q
  buffer : q.opBuf = r.opBuf
  others : ∀ j, j ≠ k → q.thread j = r.thread j
  word   : (q.seq.units.get {} (k / 32)).fault = faultWord (r.thread k) k cause status
  pc     : (q.seq.units.get {} (k / 32)).faultPc = (r.thread k).pc

/-- The fault of thread `k` in its sequencer's registers. -/
def faultMarked (k : Nat) (cause : BitVec 3) (status : Byte) (r : Part) : Part :=
  r.modSeq fun s => { s with units := s.units.upd {} (k / 32) fun u =>
    { u with fault := faultWord (r.thread k) k cause status, faultPc := (r.thread k).pc } }

theorem faultMarked_unit (k : Nat) (cause : BitVec 3) (status : Byte) (r : Part) :
    (faultMarked k cause status r).seq.units.get {} (k / 32) =
      { r.seq.units.get {} (k / 32) with fault := faultWord (r.thread k) k cause status, faultPc := (r.thread k).pc } :=
  Tab.get_upd_self ({} : SeqUnit) r.seq.units (k / 32) fun u =>
    { u with fault := faultWord (r.thread k) k cause status, faultPc := (r.thread k).pc }

theorem harvestFault_faults {k : Nat} {p r : Part} (h : AtWork k p r) (cause : BitVec 3) (status detail : Byte) :
    Faulted k cause status detail p r (r.harvestFault k cause status detail) := by
  simp only [Part.harvestFault]
  generalize hz : Part.post _ _ _ _ = z
  have recorded : Recorded (faultMarked k cause status r) z := hz ▸ Recorded.post ..
  have work : AtWork k p z := .recorded (r := faultMarked k cause status r) ⟨h.busy, h.work, h.ctxs⟩ recorded
  have done := endHarvest_done work.busy status detail [] 0
  have unit := congrArg (Tab.get {} · (k / 32)) done.units
  rw [Tab.get_upd_self, recorded.seq, faultMarked_unit] at unit
  refine ⟨done.ends work, ?_, fun j hj => ?_, ?_, ?_⟩
  · rw [done.buffer, recorded.opBuf]
    rfl
  · rw [done.others j hj, recorded.thread]
    rfl
  · exact congrArg SeqUnit.fault unit
  · exact congrArg SeqUnit.faultPc unit

/-- A rule broken ends the harvest with INTERNAL_FAULT. -/
theorem threadFault_faults {k : Nat} {p r : Part} (h : AtWork k p r) (cause : BitVec 3) :
    Faulted k cause 0x7F 0 p r (r.threadFault k cause) := harvestFault_faults h cause 0x7F 0

/-! ### Changes of one thread -/

theorem modThread_modThread (p : Part) (k : Nat) (f g : Thread → Thread) :
    (p.modThread k f).modThread k g = p.modThread k fun t => g (f t) := by
  simp only [Part.modThread, Part.modSeq, Tab.upd_upd]

theorem modThread_congr {p : Part} {k : Nat} {f g : Thread → Thread} (h : f (p.thread k) = g (p.thread k)) :
    p.modThread k f = p.modThread k g := by
  simp only [Part.modThread, Part.modSeq, Tab.upd]
  rw [show f (p.seq.threads.get {} k) = g (p.seq.threads.get {} k) from h]

/-- Two changes of a thread in a row, as one. -/
theorem modThread_twice {p : Part} {k : Nat} {f g e : Thread → Thread} (h : g (f (p.thread k)) = e (p.thread k)) :
    (p.modThread k f).modThread k g = p.modThread k e := (modThread_modThread p k f g).trans (modThread_congr h)

/-- A ready thread that counts its instruction, writes one general register and goes on (R166, R205). -/
theorem counted_computes (p : Part) (n : Fin 16) (t : Fin 32) (rd : BitVec 5) (v pc : Word) :
    let k := Part.threadNo n t
    Computes (.thread n t) rd v pc p ((((turned p k).modThread k counted).setThreadReg k rd.toNat v).threadGo k pc) := by
  intro k
  have e : (((turned p k).modThread k counted).setThreadReg k rd.toNat v).threadGo k pc = (turned p k).modThread k fun m =>
      { counted m with regs := if rd.toNat = 0 then m.regs else m.regs.set 0 rd.toNat v, pc := pc } := by
    unfold Part.setThreadReg Part.threadGo
    split <;> simp only [modThread_modThread] <;> rfl
  rw [e]
  refine ⟨⟨rfl, fun d hd => thread_modThread_other _ _ hd, by simp [k]⟩, by simp [k, pcOf], fun r => ?_⟩
  simp only [reg, k, thread_modThread, turned_thread, if_true]
  exact regs_written _ _ _ _

/-! ### Instructions that may wait -/

theorem mustWait_settled {t : Thread} {rs : List Nat} (h : ∀ r ∈ rs, ∀ a ∈ t.reqs, r ∉ a.pendDest) : Part.mustWait t rs = false := by
  simp only [Part.mustWait, Part.pendingRegs, List.any_eq_false, List.contains_eq_mem, decide_eq_true_eq, List.mem_flatMap, not_exists,
    not_and]
  exact h

theorem verdict_settled {t : Thread} (h : ∀ r ∈ t.reqs, r.verifies = false) : Part.verdictPending t = false := by
  simpa only [Part.verdictPending, List.any_eq_false, Bool.not_eq_true] using h

section
variable {p : Part} {h : Fin 16} {t : Fin 32}

/-- An instruction of threads only, on a ready thread that need not wait. -/
theorem ThreadReady.threadOnly (ready : ThreadReady p (Part.threadNo h t)) (word : Word) (wait : Thread → Part → Bool)
    (body : Nat → Thread → Part → Part) (goes : wait (p.thread (Part.threadNo h t)) p = false) :
    p.threadOnly (.thread h t) word wait body =
      body (Part.threadNo h t) (p.thread (Part.threadNo h t)) ((turned p (Part.threadNo h t)).modThread (Part.threadNo h t) counted) := by
  simp only [Part.threadOnly, ready.scanOff]
  exact ready.threadStep wait _ goes

/-- While it waits it changes nothing (R126, R204). -/
theorem ThreadReady.threadOnly_waits (ready : ThreadReady p (Part.threadNo h t)) (word : Word) (wait : Thread → Part → Bool)
    (body : Nat → Thread → Part → Part) (waits : wait (p.thread (Part.threadNo h t)) p = true) :
    p.threadOnly (.thread h t) word wait body = p := by
  obtain ⟨arb, turn⟩ := Option.isSome_iff_exists.mp ready.turn
  have inside := Nat.not_lt.2 ready.inside
  simp [Part.threadOnly, ready.scanOff, Part.threadStep, turn, ready.busy, ready.budget, ready.aligned, inside, waits]

theorem ThreadReady.atWork (ready : ThreadReady p (Part.threadNo h t)) :
    AtWork (Part.threadNo h t) p ((turned p (Part.threadNo h t)).modThread (Part.threadNo h t) counted) := .counted ready.busy

variable {rs ws : List (BitVec 4)}

theorem SealedReady.mustWait (ready : SealedReady p (Part.threadNo h t) rs ws) :
    Part.mustWait (p.thread (Part.threadNo h t)) (rs.map BitVec.toNat ++ ws.map BitVec.toNat) = false := by
  refine mustWait_settled fun n hn => ?_
  rw [← List.map_append] at hn
  obtain ⟨r, hr, rfl⟩ := List.mem_map.1 hn
  exact ready.settled r hr

theorem SealedReady.oneColour (ready : SealedReady p (Part.threadNo h t) rs ws) :
    ((rs.map BitVec.toNat).any fun r => (Part.sreg (p.thread (Part.threadNo h t)) r).colour != (p.thread (Part.threadNo h t)).colour) =
      false := by
  simp only [List.any_eq_false, List.mem_map, bne_iff_ne, not_not, forall_exists_index, and_imp, forall_apply_eq_imp_iff₂]
  exact ready.colours

/-- A sealed instruction on a thread ready for it. -/
theorem SealedReady.sealedOp (ready : SealedReady p (Part.threadNo h t) rs ws) (word : Word) {verdict : Bool}
    (body : Nat → Thread → Part → Part) (free : verdict = false ∨ ∀ r ∈ (p.thread (Part.threadNo h t)).reqs, r.verifies = false) :
    p.sealedOp (.thread h t) word (rs.map BitVec.toNat) (ws.map BitVec.toNat) verdict body =
      body (Part.threadNo h t) (p.thread (Part.threadNo h t)) ((turned p (Part.threadNo h t)).modThread (Part.threadNo h t) counted) := by
  have goes : (Part.mustWait (p.thread (Part.threadNo h t)) (rs.map BitVec.toNat ++ ws.map BitVec.toNat) ||
      (verdict && Part.verdictPending (p.thread (Part.threadNo h t)))) = false := by
    rw [ready.mustWait, Bool.false_or]
    rcases free with rfl | none
    · rfl
    · rw [verdict_settled none, Bool.and_false]
  refine (ready.ready.threadOnly word _ _ goes).trans ?_
  rw [ready.oneColour]
  rfl

/-- What a sealed instruction leaves that writes one register and goes on. -/
def sealedWritten (p : Part) (k : Nat) (sd : BitVec 4) (v : SReg) : Part :=
  (turned p k).modThread k fun t => { counted t with sregs := t.sregs.set {} sd.toNat v, pc := t.pc + 4 }

theorem setSreg_written (p : Part) (k : Nat) (sd : BitVec 4) (v : SReg) :
    ((((turned p k).modThread k counted).setSreg k sd.toNat v).threadNext k (p.thread k)) = sealedWritten p k sd v := by
  simp only [Part.threadNext, Part.threadGo, Part.setSreg, modThread_modThread]
  exact modThread_congr rfl

theorem SealedReady.sealedReg {sd : BitVec 4} (ready : SealedReady p (Part.threadNo h t) rs [sd]) (word : Word) (f : Thread → SReg) :
    p.sealedReg (.thread h t) word sd rs f = sealedWritten p (Part.threadNo h t) sd (f (p.thread (Part.threadNo h t))) :=
  (ready.sealedOp word _ (.inl rfl)).trans (setSreg_written ..)

end

end Sys2Proof.Safety
end

section
/-! SUPPORT. The sealed register group: what its instructions compute nibble by nibble, and that they change nothing else (R143 to R145, R150,
R157, R158, R201). -/

namespace Sys2Proof.Safety

open Sys2Proof.Machine

/-! ### Nibbles of results -/

theorem nib_xor (a b : Block) (j : Nat) : Part.nib (a ^^^ b) j = Part.nib a j ^^^ Part.nib b j := by
  simp only [Part.nib, fld]
  split
  · rw [BitVec.extractLsb'_xor]
  · rfl

theorem nib_and (a b : Block) (j : Nat) : Part.nib (a &&& b) j = Part.nib a j &&& Part.nib b j := by
  simp only [Part.nib, fld]
  split
  · rw [BitVec.extractLsb'_and]
  · rfl

theorem nib_or (a b : Block) (j : Nat) : Part.nib (a ||| b) j = Part.nib a j ||| Part.nib b j := by
  simp only [Part.nib, fld]
  split
  · rw [BitVec.extractLsb'_or]
  · rfl

theorem byte_nibs (b : Byte) : b = fld b 4 4 ++ fld b 0 4 := by
  revert b
  decide

/-- An octet of a value is two of its nibbles. -/
theorem octet_nibs (v : Block) {i : Nat} (hi : i < 16) : fld v (120 - 8 * i) 8 = Part.nib v (2 * i) ++ Part.nib v (2 * i + 1) := by
  rw [nib_octet v (by omega), nib_octet v (by omega), if_pos (by omega), if_neg (by omega), show 2 * i / 2 = i by omega,
    show (2 * i + 1) / 2 = i by omega]
  exact byte_nibs _

/-- The first `n` octets of two values agree where their first nibbles do. -/
theorem take_octets_eq_iff (a b : Block) {n : Nat} (hn : n ≤ 16) :
    (beBytes 16 a.toNat).take n = (beBytes 16 b.toNat).take n ↔ ∀ j, j < 2 * n → Part.nib a j = Part.nib b j := by
  have octet : ∀ v : Block, ∀ i, i < n → ((beBytes 16 v.toNat).take n)[i]? = some (fld v (120 - 8 * i) 8) := fun v i hi => by
    rw [List.getElem?_take_of_lt hi, ← getD_beBytes v (by omega), List.getD_eq_getElem?_getD, List.getElem?_eq_getElem (by simp; omega)]
    rfl
  constructor
  · intro same j hj
    have at' := congrArg (·[j / 2]?) same
    simp only [octet _ _ (show j / 2 < n by omega), Option.some.injEq] at at'
    rw [nib_octet a (by omega), nib_octet b (by omega), at']
  · intro same
    refine List.ext_getElem? fun i => ?_
    by_cases hi : i < n
    · rw [octet a i hi, octet b i hi, octet_nibs a (by omega), octet_nibs b (by omega), same _ (by omega), same _ (by omega)]
    · rw [List.getElem?_eq_none (by simp; omega), List.getElem?_eq_none (by simp; omega)]

/-! ### The group -/

/-- An instruction that writes a result with no RELEASE, FORM or KSRC, and whose nibbles are known. -/
theorem writes_plain {s : State} {k : Nat} {i : Instr} {g : Part → Part} {sd : BitVec 4} {v : Block} {len : BitVec 5} {cls : BitVec 3}
    {f : Nat → BitVec 4} (arm : exec i s = onPart g s)
    (effect : g s.part = sealedWritten s.part k sd (Part.plain (s.part.thread k) v len cls)) (nibs : ∀ j, j < 32 → Part.nib v j = f j) :
    ∃ r, Yields i s (sealedWritten s.part k sd r) ∧ IsPlain r (s.part.thread k).colour cls len f :=
  ⟨_, .of_onPart arm effect, plain_isPlain _ v len cls fun j hj _ => nibs j hj⟩

/-- An instruction that breaks a rule. -/
theorem ends_fault {s : State} {k : Nat} {i : Instr} {g : Part → Part} {r : Part} {cause : BitVec 3} (arm : exec i s = onPart g s)
    (work : AtWork k s.part r) (effect : g s.part = r.threadFault k cause) : ∃ q, Yields i s q ∧ HarvestEnds k 0x7F 0 s.part q :=
  ⟨_, .of_onPart arm effect, (threadFault_faults work cause).ends⟩

/-- What SCOMB asks of its operands (R150). -/
def CombOk (t : Thread) (a b : SReg) : Prop :=
  t.library = true ∧ t.admin = true ∧ a.cls = 3 ∧ b.cls = 3 ∧ a.dec ≠ none ∧ b.dec ≠ none ∧ a.dec ≠ b.dec ∧ bitAt a.ksrc 2 = true ∧
    a.ksrc = b.ksrc

theorem combOk_iff (t : Thread) (a b : SReg) : (!t.library || !t.admin || a.cls != 3 || b.cls != 3 || a.dec.isNone || b.dec.isNone ||
    a.dec == b.dec || !bitAt a.ksrc 2 || a.ksrc != b.ksrc) = true ↔ ¬ CombOk t a b := by
  simp only [CombOk, Bool.or_eq_true, Bool.not_eq_true', bne_iff_ne, beq_iff_eq, Option.isNone_iff_eq_none, not_and_or, Bool.not_eq_true,
    not_not, ne_eq, or_assoc]

section
variable {p : Part} {h : Fin 16} {t : Fin 32} {sa sb sd : BitVec 4}

theorem scmp_sets {n : BitVec 5} (ready : SealedReady p (Part.threadNo h t) [sa, sb] [])
    (free : ∀ r ∈ (p.thread (Part.threadNo h t)).reqs, r.verifies = false) (acc : Bool) (hn : 1 ≤ n.toNat) (hn' : n.toNat ≤ 16) :
    let k := Part.threadNo h t
    let same := decide (∀ j, j < 2 * n.toNat → operandNib (sregOf p k sa) j = operandNib (sregOf p k sb) j)
    p.scmp acc (.thread h t) sa sb n = (turned p k).modThread k fun t =>
      { counted t with v := if acc then (p.thread k).v && same else same
                       vclass := Part.join t.vclass (Part.join (sregOf p k sa).cls (sregOf p k sb).cls), pc := t.pc + 4 } := by
  intro k same
  have range : ¬ (n = 0 ∨ 16 < n.toNat) := by
    rintro (rfl | out)
    · exact absurd hn (by decide)
    · omega
  have eq : ((beBytes 16 (Part.SReg.operand (sregOf p k sa)).toNat).take n.toNat ==
      (beBytes 16 (Part.SReg.operand (sregOf p k sb)).toNat).take n.toNat) = same := by
    refine Bool.eq_iff_iff.2 ?_
    simp only [beq_iff_eq, take_octets_eq_iff _ _ hn', nib_operand, same, decide_eq_true_eq]
  refine (ready.sealedOp _ _ (.inr free)).trans ((if_neg range).trans ?_)
  rw [← eq]
  simp only [Part.threadNext, Part.threadGo, modThread_modThread]
  exact modThread_congr rfl

theorem scmp_ends {n : BitVec 5} (ready : SealedReady p (Part.threadNo h t) [sa, sb] [])
    (free : ∀ r ∈ (p.thread (Part.threadNo h t)).reqs, r.verifies = false) (acc : Bool) (out : n = 0 ∨ 16 < n.toNat) :
    p.scmp acc (.thread h t) sa sb n =
      ((turned p (Part.threadNo h t)).modThread (Part.threadNo h t) counted).threadFault (Part.threadNo h t) Part.cIllegal :=
  (ready.sealedOp _ _ (.inr free)).trans (if_pos out)

end

/-- Settles O33, instruction by instruction. -/
theorem sealedRegistersAreCombined : Obligations.SealedRegistersAreCombined := by
  intro s h t p k x th writes ends sd sa sb a b len cls na nb
  have opA : ∀ j, Part.nib (Part.SReg.operand a) j = na j := nib_operand a
  have opB : ∀ j, Part.nib (Part.SReg.operand b) j = nb j := nib_operand b
  refine ⟨fun ready => ?clear, fun ready => ⟨?move, fun n => ⟨fun inRange => ?shift, fun out => ?shiftOut⟩⟩, fun ready =>
    ⟨?xor, ?and, ?or, fun u => ?permute, ?decode, fun free => ?select, fun good => ?combine, fun bad => ?combineNot⟩,
    fun ready free n => ⟨fun hn hn' => ?compare, fun out => ?compareOut⟩⟩
  case clear =>
    refine writes_plain (g := Part.sclr x sd) rfl (ready.sealedReg ..) fun j hj => ?_
    rw [Part.nib, if_pos hj]
    simp [fld]
  case move => exact .of_onPart (g := Part.smov x sd sa) rfl (ready.sealedReg ..)
  case shift =>
    refine writes_plain (g := Part.sshf x sd sa n) rfl
      ((ready.sealedOp _ _ (.inl rfl)).trans ((if_neg inRange).trans (setSreg_written ..))) fun j hj => ?_
    exact (nib_ofNibs _ hj).trans (if_congr Iff.rfl (opA _) rfl)
  case shiftOut =>
    exact ends_fault (g := Part.sshf x sd sa n) rfl ready.ready.atWork ((ready.sealedOp _ _ (.inl rfl)).trans (if_pos out))
  case xor =>
    refine writes_plain (g := Part.logic x 2 (· ^^^ ·) sd sa sb) rfl (ready.sealedReg ..) fun j hj => ?_
    rw [nib_xor]
    exact congrArg₂ _ (opA j) (opB j)
  case and =>
    refine writes_plain (g := Part.logic x 3 (· &&& ·) sd sa sb) rfl (ready.sealedReg ..) fun j hj => ?_
    rw [nib_and]
    exact congrArg₂ _ (opA j) (opB j)
  case or =>
    refine writes_plain (g := Part.logic x 4 (· ||| ·) sd sa sb) rfl (ready.sealedReg ..) fun j hj => ?_
    rw [nib_or]
    exact congrArg₂ _ (opA j) (opB j)
  case permute =>
    refine writes_plain (g := Part.sperm x sd sa sb u) rfl (ready.sealedReg ..) fun j hj => (nib_ofNibs _ hj).trans ?_
    refine if_congr ?_ ((opA _).trans (congrArg (fun n : BitVec 4 => na ((if u then 16 else 0) + n.toNat)) (opB _))) (opA j)
    cases u <;> simp only [if_true, Bool.false_eq_true, if_false] <;> omega
  case decode =>
    exact writes_plain (g := Part.sdec x sd sa sb) rfl (ready.sealedReg ..) fun j hj =>
      (nib_ofNibs _ hj).trans ((opB _).trans (congrArg (fun n : BitVec 4 => nb n.toNat) (opA j)))
  case select =>
    have chosen := writes_plain (i := .ssel x sd sa sb) (g := Part.ssel x sd sa sb) rfl ((ready.sealedOp _ _ (.inr free)).trans (setSreg_written ..))
      fun j _ => nib_operand (if th.v then a else b) j
    rwa [apply_ite SReg.len, apply_ite operandNib] at chosen
  case combine =>
    have passes := fun bad => (combOk_iff th a b).1 bad good
    refine ⟨Part.plain th (Part.SReg.operand a ^^^ Part.SReg.operand b) len 3, .of_onPart (g := Part.scomb x sd sa sb) rfl
      ((ready.sealedOp _ _ (.inl rfl)).trans ((if_neg passes).trans (setSreg_written ..))), plain_isPlain _ _ _ _ fun j _ _ => ?_⟩
    rw [nib_xor, opA, opB]
  case combineNot =>
    exact ends_fault (g := Part.scomb x sd sa sb) rfl ready.ready.atWork
      ((ready.sealedOp _ _ (.inl rfl)).trans (if_pos ((combOk_iff th a b).2 bad)))
  case compare =>
    exact ⟨.of_onPart (g := Part.scmp false x sa sb n) rfl (scmp_sets ready free false hn hn'),
      .of_onPart (g := Part.scmp true x sa sb n) rfl ((scmp_sets ready free true hn hn').trans (modThread_congr rfl))⟩
  case compareOut =>
    exact ⟨ends_fault (g := Part.scmp false x sa sb n) rfl ready.ready.atWork (scmp_ends ready free false out),
      ends_fault (g := Part.scmp true x sa sb n) rfl ready.ready.atWork (scmp_ends ready free true out)⟩

end Sys2Proof.Safety
end

section
/-! SUPPORT. SPIN.UNPK and SPIN.PACK: what they write, the tags they give it, and that they change nothing else (R145, R147, R148, R201,
R703). -/

namespace Sys2Proof.Safety

open Sys2Proof.Machine

/-! ### Draws of the Brine Wells -/

/-- A draw that is served at once depends on the Brine Wells, changes them, and posts what they record. -/
theorem entDraw_spec (cls : EntClass) (n : Nat) (p : Part) :
    Recorded { p with ent := (p.entDraw cls n).2.ent } (p.entDraw cls n).2 :=
  (entTrack_spec _).1

theorem entDraw_modThread (cls : EntClass) (n k : Nat) (g : Thread → Thread) (p : Part) :
    ((p.modThread k g).entDraw cls n).1 = (p.entDraw cls n).1 := rfl

/-! ### Formats -/

/-- The format reads the PAN operand (R703). -/
abbrev ReadsPan (f : BitVec 3) : Prop := f = 0 ∨ f = 3 ∨ f = 4

/-- The format draws random fill (R148). -/
abbrev DrawsFill (f : BitVec 3) : Prop := f = 1 ∨ f = 3 ∨ f = 4

/-- A known format whose PAN operand, where it reads one, has LEN 10 or 16. -/
abbrev PinLegal (f : BitVec 3) (b : SReg) : Prop :=
  (f = 0 ∨ f = 1 ∨ f = 3 ∨ f = 4 ∨ f = 7) ∧ (ReadsPan f → b.len = 10 ∨ b.len = 16)

theorem readsPan_iff (f : BitVec 3) : Part.readsPan f = true ↔ ReadsPan f := by
  simp only [Part.readsPan, Bool.or_eq_true, beq_iff_eq, or_assoc]

theorem drawsFill_iff (f : BitVec 3) : (f == 1 || f == 3 || f == 4) = true ↔ DrawsFill f := by
  simp only [Bool.or_eq_true, beq_iff_eq, or_assoc]

theorem pinIllegal_iff (f : BitVec 3) (b : SReg) : (!Part.pinFmt f || !Part.panLenOk f b) = true ↔ ¬ PinLegal f b := by
  rw [← Bool.not_and, Bool.not_eq_true', ← Bool.not_eq_true, not_iff_not, Bool.and_eq_true]
  refine and_congr ?_ ?_
  · simp only [Part.pinFmt, Bool.or_eq_true, beq_iff_eq, or_assoc]
  · simp only [Part.panLenOk, Bool.or_eq_true, Bool.not_eq_true', ← Bool.not_eq_true, readsPan_iff, beq_iff_eq, or_assoc, imp_iff_not_or]

/-- The PAN digits that a format is given. -/
def pinPan (f : BitVec 3) (b : SReg) : Option (List (BitVec 4)) := if ReadsPan f then Part.panDigits b else some []

theorem pinPan_eq (f : BitVec 3) (b : SReg) : (if Part.readsPan f then Part.panDigits b else some []) = pinPan f b :=
  if_congr (readsPan_iff f) rfl rfl

/-! ### SPIN.UNPK -/

/-- What SPIN.UNPK writes. -/
def unpkResult (t : Thread) (f : BitVec 3) (a b : SReg) : SReg :=
  let cls := Part.join 4 (if ReadsPan f then Part.join a.cls b.cls else a.cls)
  let got := (pinPan f b).bind (Part.pinOf f a)
  { Part.plain t (match got with | some ds => Part.canonical ds | none => 0) 8 cls with
    form := if cls = 4 then (if got.isSome && (a.form == 0 || a.form == 2) then 1 else 0) else 0 }

/-- The class of what SPIN.UNPK writes (R145). -/
abbrev unpkClass (f : BitVec 3) (a b : SReg) : BitVec 3 := Part.join 4 (if ReadsPan f then Part.join a.cls b.cls else a.cls)

theorem unpkResult_valid (t : Thread) {f : BitVec 3} {a b : SReg} {ds : List (BitVec 4)} (pin : (pinPan f b).bind (Part.pinOf f a) = some ds) :
    unpkResult t f a b = { Part.plain t (Part.canonical ds) 8 (unpkClass f a b) with
      form := if unpkClass f a b = 4 ∧ (a.form = 0 ∨ a.form = 2) then 1 else 0 } := by
  simp only [unpkResult, pin, Option.isSome_some, Bool.true_and, Bool.or_eq_true, beq_iff_eq, ite_and]

theorem unpkResult_invalid (t : Thread) {f : BitVec 3} {a b : SReg} (pin : (pinPan f b).bind (Part.pinOf f a) = none) :
    unpkResult t f a b = Part.plain t 0 8 (unpkClass f a b) := by
  simp only [unpkResult, pin, Option.isSome_none, Bool.false_and, Bool.false_eq_true, if_false, ite_self]
  rfl

theorem nib_zero (j : Nat) : Part.nib 0 j = 0 := by
  unfold Part.nib
  split
  · simp [fld]
  · rfl

section
variable {p : Part} {h : Fin 16} {t : Fin 32} {sd sa sb : BitVec 4} {f : BitVec 3}

theorem unpkRegs (sa sb : BitVec 4) (f : BitVec 3) :
    (sa.toNat :: if Part.readsPan f then [sb.toNat] else []) = (if ReadsPan f then [sa, sb] else [sa]).map BitVec.toNat := by
  by_cases reads : ReadsPan f
  · rw [if_pos ((readsPan_iff f).2 reads), if_pos reads]
    rfl
  · rw [if_neg (mt (readsPan_iff f).1 reads), if_neg reads]
    rfl

theorem spinUnpk_ends (ready : SealedReady p (Part.threadNo h t) (if ReadsPan f then [sa, sb] else [sa]) [sd])
    (free : ∀ r ∈ (p.thread (Part.threadNo h t)).reqs, r.verifies = false) (bad : ¬ PinLegal f (sregOf p (Part.threadNo h t) sb)) :
    p.spinUnpk (.thread h t) sd sa sb f =
      ((turned p (Part.threadNo h t)).modThread (Part.threadNo h t) counted).threadFault (Part.threadNo h t) Part.cIllegal := by
  simp only [Part.spinUnpk, unpkRegs]
  exact (ready.sealedOp _ _ (.inr free)).trans (if_pos ((pinIllegal_iff ..).2 bad))

theorem spinUnpk_sets (ready : SealedReady p (Part.threadNo h t) (if ReadsPan f then [sa, sb] else [sa]) [sd])
    (free : ∀ r ∈ (p.thread (Part.threadNo h t)).reqs, r.verifies = false) (legal : PinLegal f (sregOf p (Part.threadNo h t) sb))
    {v : SReg} {got : Option (List (BitVec 4))}
    (result : unpkResult (p.thread (Part.threadNo h t)) f (sregOf p (Part.threadNo h t) sa) (sregOf p (Part.threadNo h t) sb) = v)
    (pin : (pinPan f (sregOf p (Part.threadNo h t) sb)).bind (Part.pinOf f (sregOf p (Part.threadNo h t) sa)) = got) :
    p.spinUnpk (.thread h t) sd sa sb f = (turned p (Part.threadNo h t)).modThread (Part.threadNo h t) fun t' =>
      { counted t' with
        sregs := t'.sregs.set {} sd.toNat v, v := t'.v && got.isSome
        vclass := Part.join t'.vclass (sregOf p (Part.threadNo h t) sa).cls, pc := t'.pc + 4 } := by
  subst result pin
  simp only [Part.spinUnpk, unpkRegs, pinPan_eq, if_congr (readsPan_iff f) (rfl : Part.join _ _ = _) rfl]
  refine (ready.sealedOp _ _ (.inr free)).trans ((if_neg (mt (pinIllegal_iff ..).1 (not_not.2 legal))).trans ?_)
  simp only [Part.setSreg, Part.threadNext, Part.threadGo, modThread_modThread]
  exact modThread_congr rfl

/-! ### SPIN.PACK -/

/-- What SPIN.PACK writes. -/
def packResult (t : Thread) (f : BitVec 3) (a b : SReg) (rnd : List Byte) : SReg :=
  let cls := Part.join a.cls b.cls
  let len : BitVec 5 := if f = 4 then 16 else 8
  match pinPan f b with
  | some ds =>
    { Part.plain t (Part.pinBlock f (Part.SReg.operand a) ds rnd) len cls with form := if a.form = 1 ∧ cls = 4 then 2 else 0 }
  | none => Part.plain t 0 len cls

/-- A thread that SPIN.PACK has moved on. -/
def packed (f : BitVec 3) (sd : BitVec 4) (v b : SReg) (t : Thread) : Thread :=
  { t with
    sregs := t.sregs.set {} sd.toNat v, pc := t.pc + 4
    panField := if f = 4 then (match pinPan f b with | some ds => some (Part.panField4 ds, b.cls) | none => t.panField) else t.panField }

/-- The part once the fill of a format is drawn. -/
def fillDrawn (f : BitVec 3) (p : Part) : Part := if DrawsFill f then (p.entDraw .mask 8).2 else p

/-- The fill of a format, where it can be had now. -/
def fillOf (f : BitVec 3) (p : Part) : Option (List Byte) := if DrawsFill f then (p.entDraw .mask 8).1 else some []

theorem fillDrawn_recorded (f : BitVec 3) (p : Part) : Recorded { p with ent := (fillDrawn f p).ent } (fillDrawn f p) := by
  unfold fillDrawn
  split
  · exact entDraw_spec ..
  · exact .refl p

/-- SPIN.PACK waits for its registers, and while its fill cannot be served. -/
def packWaits (sd sa sb : BitVec 4) (f : BitVec 3) (t : Thread) (p : Part) : Bool :=
  Part.mustWait t [sd.toNat, sa.toNat, sb.toNat] || ((f == 1 || f == 3 || f == 4) && (p.entDraw .mask 8).1.isNone)

theorem fill_drawn {rnd : List Byte} (drawn : fillOf f p = some rnd) :
    (if (f == 1 || f == 3 || f == 4) = true then p.entDraw .mask 8 else (some [], p)) = (some rnd, fillDrawn f p) := by
  rw [if_congr (drawsFill_iff f) rfl rfl, fillDrawn]
  unfold fillOf at drawn
  split
  · next fill => exact Prod.ext (by rwa [if_pos fill] at drawn) rfl
  · next none => exact Prod.ext (by rwa [if_neg none] at drawn) rfl

theorem fillDrawn_thread (f : BitVec 3) (k : Nat) (p : Part) : (fillDrawn f p).thread k = p.thread k :=
  (fillDrawn_recorded f p).thread k

theorem spinPack_goes (ready : SealedReady p (Part.threadNo h t) [sa, sb] [sd]) {rnd : List Byte} (drawn : fillOf f p = some rnd) :
    packWaits sd sa sb f (p.thread (Part.threadNo h t)) p = false := by
  have settled : Part.mustWait (p.thread (Part.threadNo h t)) [sd.toNat, sa.toNat, sb.toNat] = false := by
    refine mustWait_settled fun n hn => ?_
    obtain ⟨r, hr, rfl⟩ : ∃ r ∈ [sa, sb] ++ [sd], r.toNat = n := by
      simp only [List.mem_cons, List.not_mem_nil, or_false] at hn
      rcases hn with rfl | rfl | rfl <;> simp
    exact ready.settled r hr
  rw [packWaits, settled, Bool.false_or, Bool.eq_false_iff, ne_eq, Bool.and_eq_true, drawsFill_iff, Option.isNone_iff_eq_none]
  rintro ⟨fill, none⟩
  rw [fillOf, if_pos fill, none] at drawn
  cases drawn

theorem spinPack_waits (ready : SealedReady p (Part.threadNo h t) [sa, sb] [sd]) (fill : DrawsFill f) (none : (p.entDraw .mask 8).1 = none) :
    p.spinPack (.thread h t) sd sa sb f = p := by
  unfold Part.spinPack
  refine ready.ready.threadOnly_waits _ (packWaits sd sa sb f) _ ?_
  rw [packWaits, Bool.or_eq_true, Bool.and_eq_true, drawsFill_iff, Option.isNone_iff_eq_none]
  exact .inr ⟨fill, none⟩

theorem spinPack_ends (ready : SealedReady p (Part.threadNo h t) [sa, sb] [sd]) {rnd : List Byte} (drawn : fillOf f p = some rnd)
    (bad : ¬ PinLegal f (sregOf p (Part.threadNo h t) sb)) :
    p.spinPack (.thread h t) sd sa sb f =
      ((turned p (Part.threadNo h t)).modThread (Part.threadNo h t) counted).threadFault (Part.threadNo h t) Part.cIllegal := by
  unfold Part.spinPack
  refine (ready.ready.threadOnly _ (packWaits sd sa sb f) _ (spinPack_goes ready drawn)).trans ?_
  have colours := ready.oneColour
  exact (if_neg (Bool.eq_false_iff.1 colours)).trans (if_pos ((pinIllegal_iff ..).2 bad))

/-- The end of SPIN.PACK: its result written, the PAN field latched, and on to the next instruction. -/
theorem pack_moves {q : Part} {k : Nat} {th : Thread} (v b : SReg) (pc : (q.thread k).pc = th.pc) :
    (match pinPan f b with
      | some ds => (q.setSreg k sd.toNat v).when (f == 4) (Part.modThread k fun t => { t with panField := some (Part.panField4 ds, b.cls) })
      | none => q.setSreg k sd.toNat v).threadNext k th = q.modThread k (packed f sd v b) := by
  simp only [Part.threadNext, Part.threadGo, ← pc]
  by_cases four : f = 4
  · subst four
    cases pan : pinPan 4 b <;> simp only [Part.setSreg, BEq.rfl, Part.when_true, modThread_modThread] <;> refine modThread_congr ?_ <;>
      simp only [packed, pan, if_true]
  · have other : (f == 4) = false := beq_eq_false_iff_ne.2 four
    cases pinPan f b <;> simp only [Part.setSreg, other, Part.when_false, modThread_modThread] <;> refine modThread_congr ?_ <;>
      simp only [packed, four, if_false]

theorem spinPack_writes (ready : SealedReady p (Part.threadNo h t) [sa, sb] [sd]) {rnd : List Byte} (drawn : fillOf f p = some rnd)
    (legal : PinLegal f (sregOf p (Part.threadNo h t) sb)) :
    p.spinPack (.thread h t) sd sa sb f =
      (fillDrawn f ((turned p (Part.threadNo h t)).modThread (Part.threadNo h t) counted)).modThread (Part.threadNo h t)
        (packed f sd (packResult (p.thread (Part.threadNo h t)) f (sregOf p (Part.threadNo h t) sa) (sregOf p (Part.threadNo h t) sb) rnd)
          (sregOf p (Part.threadNo h t) sb)) := by
  unfold Part.spinPack
  refine (ready.ready.threadOnly _ (packWaits sd sa sb f) _ (spinPack_goes ready drawn)).trans ?_
  refine (if_neg (Bool.eq_false_iff.1 ready.oneColour)).trans ((if_neg (mt (pinIllegal_iff ..).1 (not_not.2 legal))).trans ?_)
  have fill : fillOf f ((turned p (Part.threadNo h t)).modThread (Part.threadNo h t) counted) = some rnd := drawn
  rw [pinPan_eq]
  simp only [fill_drawn fill]
  refine pack_moves _ _ ?_
  rw [fillDrawn_thread, thread_modThread_same]
  rfl

end

/-- Settles O38: UNPK and PACK by the lemmas on what they write. -/
theorem pinBlockInstructionsTagTheirResult : Obligations.PinBlockInstructionsTagTheirResult := by
  intro s h t sd sa sb f p k x th a b reads legal pan fill
  refine ⟨fun ready free => ⟨fun bad => ?unpkBad, fun good => ⟨fun ds pin => ?unpk, fun pin => ?unpkInvalid⟩⟩,
    fun ready => ⟨fun bad drawn => ?packBad, fun fill none => ?packWaits, fun good rnd drawn => ?pack⟩⟩
  case unpkBad => exact ends_fault (g := Part.spinUnpk x sd sa sb f) rfl ready.ready.atWork (spinUnpk_ends ready free bad)
  case unpk =>
    exact ⟨Part.plain th (Part.canonical ds) 8 (unpkClass f a b), .of_onPart (g := Part.spinUnpk x sd sa sb f) rfl
      (spinUnpk_sets ready free good (unpkResult_valid th pin) pin), plain_isPlain _ _ _ _ fun j _ low => nib_canonical ds low⟩
  case unpkInvalid =>
    exact ⟨Part.plain th 0 8 (unpkClass f a b), .of_onPart (g := Part.spinUnpk x sd sa sb f) rfl
      (spinUnpk_sets ready free good (unpkResult_invalid th pin) pin), plain_isPlain _ _ _ _ fun j _ _ => nib_zero j⟩
  case packBad =>
    obtain ⟨rnd, known⟩ : ∃ rnd, fillOf f p = some rnd := by
      unfold fillOf
      split
      · next fill => exact Option.ne_none_iff_exists'.1 (drawn.resolve_left (not_not.2 fill))
      · exact ⟨[], rfl⟩
    exact ends_fault (g := Part.spinPack x sd sa sb f) rfl ready.ready.atWork (spinPack_ends ready known bad)
  case packWaits => exact .of_onPart (g := Part.spinPack x sd sa sb f) rfl (spinPack_waits ready fill none)
  case pack =>
    have recorded := fillDrawn_recorded f ((turned p k).modThread k counted)
    have thread : ∀ j, (fillDrawn f ((turned p k).modThread k counted)).thread j = ((turned p k).modThread k counted).thread j :=
      fun j => recorded.thread j
    refine ⟨_, packResult th f a b rnd, .of_onPart (g := Part.spinPack x sd sa sb f) rfl (spinPack_writes ready drawn good), ?_,
      fun j hj => ?_, fun none => ?_, ?_, fun bad => ?_, fun ds digits => ?_⟩
    · rw [thread_modThread_same, thread, thread_modThread_same]
      rfl
    · rw [thread_modThread_other _ _ hj, thread, thread_modThread_other _ _ hj]
      rfl
    · rw [fillDrawn, if_neg none]
      rfl
    · clear thread
      generalize fillDrawn f ((turned p k).modThread k counted) = z at recorded ⊢
      unfold Recorded at recorded ⊢
      rw [recorded]
      rfl
    · rw [packResult, show pinPan f b = none from bad]
      exact plain_isPlain _ _ _ _ fun j _ _ => nib_zero j
    · refine ⟨Part.plain th (Part.pinBlock f (Part.SReg.operand a) ds rnd) (if f = 4 then 16 else 8) (Part.join a.cls b.cls), ?_,
        plain_isPlain _ _ _ _ fun j hj _ => if_pos hj⟩
      rw [packResult, show pinPan f b = some ds from digits]

end Sys2Proof.Safety
end

section
/-! SUPPORT. The system group and the special registers: what each instruction does on a ready core, and that threads may not issue those of
cores (R168, R169, R179, R182, R183, R195 to R198). -/

namespace Sys2Proof.Safety

open Sys2Proof.Machine

/-! ### Changes of one core -/

theorem core_modCore_self (p : Part) (c : Nat) (g : Core → Core) : (p.modCore c g).core c = g (p.core c) :=
  (core_modCore p c c g).trans (if_pos rfl)

theorem modCore_modCore (p : Part) (c : Nat) (f g : Core → Core) : (p.modCore c f).modCore c g = p.modCore c fun m => g (f m) := by
  simp only [Part.modCore, Tab.upd_upd]

theorem modCore_congr {p : Part} {c : Nat} {f g : Core → Core} (h : f (p.core c) = g (p.core c)) : p.modCore c f = p.modCore c g := by
  simp only [Part.modCore, Tab.upd]
  rw [show f (p.cores.get {} c) = g (p.cores.get {} c) from h]

/-- A core that writes one general register and goes on. -/
theorem core_computes (p : Part) (c : Fin 5) (rd : BitVec 5) (v pc : Word) :
    Computes (.core c) rd v pc p ((p.setCoreReg c.val rd.toNat v).coreGo c.val pc) := by
  have e : (p.setCoreReg c.val rd.toNat v).coreGo c.val pc = p.modCore c.val fun m =>
      { m with regs := if rd.toNat = 0 then m.regs else m.regs.set 0 rd.toNat v, pc := pc } := by
    unfold Part.setCoreReg Part.coreGo
    split <;> simp only [modCore_modCore]
  rw [e]
  refine ⟨⟨rfl, fun d hd => by rw [core_modCore, if_neg hd], by rw [core_modCore_self]⟩, congrArg Core.pc (core_modCore_self ..), fun r => ?_⟩
  simp only [reg, core_modCore_self]
  exact regs_written _ _ _ _

section
variable {p : Part} {c : Fin 5}

/-- A write of a general register and a step onward keep the debugger's step request. -/
theorem stepOne_written (p : Part) (c : Nat) (r : Nat) (v pc : Word) :
    (((p.setCoreReg c r v).coreGo c pc).core c).stepOne = (p.core c).stepOne := by
  unfold Part.setCoreReg Part.coreGo
  split <;> simp only [core_modCore_self]

/-- An instruction of cores only, on a ready core. -/
theorem CoreReady.coreOnly (ready : CoreReady p c) {core : Nat → Core → Part → Part} {q : Part} (body : core c (p.core c) p = q)
    (steady : (q.core c).stepOne = (p.core c).stepOne) : p.coreOnly (.core c) core = q := by
  subst body
  exact ready.onProc core _ (steady.trans ready.unstepped)

/-- A privileged instruction on a ready privileged core. -/
theorem CoreReady.privileged (ready : CoreReady p c) (priv : (p.core c).priv = true) {word : Word} {core : Nat → Core → Part → Part} {q : Part}
    (body : core c (p.core c) p = q) (steady : (q.core c).stepOne = (p.core c).stepOne) : p.privileged (.core c) word core = q :=
  ready.coreOnly ((if_pos priv).trans body) steady

theorem stepOne_modCore {g : Core → Core} (kept : (g (p.core c)).stepOne = (p.core c).stepOne) :
    ((p.modCore c g).core c).stepOne = (p.core c).stepOne := by
  rw [core_modCore_self, kept]

end

/-! ### Threads -/

/-- An instruction that a thread may not issue ends its harvest (R176, R179). -/
theorem coreOnly_ends {s : State} {n : Fin 16} {t : Fin 32} (ready : ThreadReady s.part (Part.threadNo n t)) {i : Instr} {g : Part → Part}
    {core : Nat → Core → Part → Part} (arm : exec i s = onPart g s) (is : g s.part = s.part.coreOnly (.thread n t) core) :
    ∃ q, Yields i s q ∧ HarvestEnds (Part.threadNo n t) 0x7F 0 s.part q :=
  ends_fault arm ready.atWork (is.trans (ready.onProc core _))

theorem privileged_ends {s : State} {n : Fin 16} {t : Fin 32} (ready : ThreadReady s.part (Part.threadNo n t)) {i : Instr} {g : Part → Part}
    {word : Word} {core : Nat → Core → Part → Part} (arm : exec i s = onPart g s)
    (is : g s.part = s.part.privileged (.thread n t) word core) :
    ∃ q, Yields i s q ∧ HarvestEnds (Part.threadNo n t) 0x7F 0 s.part q := coreOnly_ends ready arm is

/-! ### Special registers -/

/-- What MFSR reads of the listed registers, but for CYCLE_LO (R168). -/
def Reads (c : Nat) (m : Core) (sr : BitVec 12) (v : Word) : Prop :=
  m.priv = true ∧
    ((sr = 0x000 ∧ v = (bit' m.priv 0 ||| bit' m.ie 1 ||| bit' m.exl 2 ||| bit' m.ppriv 3 ||| bit' m.pie 4 ||| bit' (c == 4) 8)) ∨
      (sr = 0x001 ∧ v = m.dbk.setWidth 32) ∨ (sr = 0x002 ∧ v = (m.pendIbk.getD m.ibk).setWidth 32) ∨ (sr = 0x003 ∧ v = m.epc) ∨
      (sr = 0x004 ∧ v = m.ecause) ∨ (sr = 0x005 ∧ v = m.eaddr) ∨ (sr = 0x006 ∧ v = (0#8 ++ m.fbk ++ m.eibk ++ m.edbk)) ∨
      (sr = 0x007 ∧ v = m.evec) ∨ (sr = 0x008 ∧ v = m.scratch0) ∨ (sr = 0x009 ∧ v = m.scratch1)) ∨
    (sr = 0x011 ∧ v = m.cycleHi) ∨ (sr = 0x012 ∧ v = if c = 4 then 0x10 else BitVec.ofNat 32 c)

theorem at_zero {n : Nat} (v : BitVec n) : at' v 0 = v.setWidth 32 := by simp [at']

/-- Octets side by side, bit by bit. -/
theorem getLsbD_octets {w : Nat} (x : BitVec w) (d b a : Byte) (i : Nat) : (x ++ d ++ b ++ a).getLsbD i =
    if i < 8 then a.getLsbD i else if i < 16 then b.getLsbD (i - 8) else if i < 24 then d.getLsbD (i - 16) else x.getLsbD (i - 24) := by
  simp only [BitVec.getLsbD_append, Nat.sub_sub, show i - 8 < 8 ↔ i < 16 ∨ i < 8 by omega, show i - (8 + 8) < 8 ↔ i < 24 by omega]
  grind

/-- FAULT_BANKS as its fields side by side. -/
theorem banks_word (a b d : Byte) : (at' a 0 ||| at' b 8 ||| at' d 16) = (0#8 ++ d ++ b ++ a : Word) := by
  refine BitVec.eq_of_getLsbD_eq fun i hi => .trans ?_ (getLsbD_octets 0#8 d b a i).symm
  simp only [at', BitVec.getLsbD_or, BitVec.getLsbD_shiftLeft, BitVec.getLsbD_setWidth, hi, decide_true, Bool.true_and]
  split_ifs with first second third
  · simp [first, show i < 16 by omega, show i < 32 by omega]
  · simp [first, second, show i - 8 < 32 by omega, BitVec.getLsbD_of_ge a i (by omega), show i < 32 by omega]
  · simp [first, second, show i - 16 < 32 by omega, BitVec.getLsbD_of_ge a i (by omega), BitVec.getLsbD_of_ge b (i - 8) (by omega)]
  · simp [BitVec.getLsbD_of_ge a i (by omega), BitVec.getLsbD_of_ge b (i - 8) (by omega), BitVec.getLsbD_of_ge d (i - 16) (by omega)]

theorem specialReg_reads {c : Nat} {m : Core} {sr : BitVec 12} {v : Word} (h : Reads c m sr v) :
    Part.specialReg c m sr.toNat = some v ∧ (!m.priv && !Part.userReg sr.toNat) = false ∧ sr.toNat ≠ 0x010 := by
  rcases h with ⟨priv, h⟩ | ⟨rfl, rfl⟩ | ⟨rfl, rfl⟩
  · rcases h with ⟨rfl, rfl⟩ | ⟨rfl, rfl⟩ | ⟨rfl, rfl⟩ | ⟨rfl, rfl⟩ | ⟨rfl, rfl⟩ |
    ⟨rfl, rfl⟩ | ⟨rfl, rfl⟩ | ⟨rfl, rfl⟩ | ⟨rfl, rfl⟩ | ⟨rfl, rfl⟩
    case inr.inr.inr.inr.inr.inr.inl => exact ⟨congrArg some (banks_word ..), by rw [priv]; rfl, by decide⟩
    case inr.inl => exact ⟨congrArg some (at_zero _), by rw [priv]; rfl, by decide⟩
    case inr.inr.inl => exact ⟨congrArg some (at_zero _), by rw [priv]; rfl, by decide⟩
    all_goals exact ⟨rfl, by rw [priv]; rfl, by decide⟩
  · exact ⟨rfl, Bool.and_false _, by decide⟩
  · exact ⟨rfl, Bool.and_false _, by decide⟩

/-- The fields that MTSR writes of the listed registers (R168). -/
def Writes (m : Core) (sr : BitVec 12) (v : Word) (m' : Core) : Prop :=
  (sr = 0x000 ∧ m' = { m with ie := bitAt v 1, exl := m.exl && bitAt v 2, ppriv := bitAt v 3, pie := bitAt v 4 }) ∨
    (sr = 0x001 ∧ m' = { m with dbk := fld v 0 8 }) ∨ (sr = 0x002 ∧ m' = { m with pendIbk := some (fld v 0 8) }) ∨
    (sr = 0x003 ∧ m' = { m with epc := v }) ∨ (sr = 0x004 ∧ m' = m) ∨ (sr = 0x005 ∧ m' = { m with eaddr := v }) ∨
    (sr = 0x006 ∧ m' = { m with edbk := fld v 0 8, eibk := fld v 8 8 }) ∨ (sr = 0x007 ∧ m' = { m with evec := v &&& 0xFFFFFCFF#32 }) ∨
    (sr = 0x008 ∧ m' = { m with scratch0 := v }) ∨ (sr = 0x009 ∧ m' = { m with scratch1 := v })

theorem writeSpecial_writes {m m' : Core} {sr : BitVec 12} {v : Word} (h : Writes m sr v m') (c : Nat) :
    Part.writeSpecial sr.toNat v m = m' ∧ (Part.specialReg c m sr.toNat).isNone = false ∧ Part.userReg sr.toNat = false ∧
      m'.stepOne = m.stepOne := by
  rcases h with ⟨rfl, rfl⟩ | ⟨rfl, rfl⟩ | ⟨rfl, rfl⟩ | ⟨rfl, rfl⟩ | ⟨rfl, rfl⟩ |
    ⟨rfl, rfl⟩ | ⟨rfl, rfl⟩ | ⟨rfl, rfl⟩ | ⟨rfl, rfl⟩ | ⟨rfl, rfl⟩
  case inr.inl => exact ⟨congrArg (fun b => { m with dbk := b }) (vector_bank v), rfl, rfl, rfl⟩
  case inr.inr.inl => exact ⟨congrArg (fun b => { m with pendIbk := some b }) (vector_bank v), rfl, rfl, rfl⟩
  all_goals exact ⟨rfl, rfl, rfl, rfl⟩

section
variable {p : Part} {c : Fin 5}

theorem mfsr_eq (ready : CoreReady p c) (rd : BitVec 5) {sr : BitVec 12} {v : Word} (h : Reads c.val (p.core c) sr v) :
    p.mfsr (.core c) rd sr = (p.setCoreReg c rd.toNat v).coreGo c ((p.core c).pc + 4) := by
  obtain ⟨reads, may, notLow⟩ := specialReg_reads h
  unfold Part.mfsr
  refine ready.coreOnly ?_ (stepOne_written ..)
  simp only [reads, may, notLow, Option.isNone_some, Bool.false_eq_true, and_false, if_false, Option.getD_some]

/-- CYCLE_LO reads free and latches a free CYCLE_HI (R168). -/
theorem mfsr_cycle (ready : CoreReady p c) (rd : BitVec 5) :
    p.mfsr (.core c) rd 0x010 = ((p.draw.2.modCore c fun m => { m with cycleHi := fld (Config.freeLong p.free) 32 32 }).setCoreReg c rd.toNat
      (fld (Config.freeLong p.free) 0 32)).coreGo c ((p.core c).pc + 4) := by
  unfold Part.mfsr
  refine ready.coreOnly ?_ ((stepOne_written ..).trans (stepOne_modCore (p := p.draw.2) rfl))
  have user : (!(p.core c).priv && !Part.userReg 0x010) = false := Bool.and_false _
  exact (if_neg fun h => h.1 rfl).trans ((if_neg (Bool.eq_false_iff.1 user)).trans (if_pos rfl))

theorem written_cycleHi (p : Part) (c r : Nat) (v pc : Word) :
    (((p.setCoreReg c r v).coreGo c pc).core c).cycleHi = (p.core c).cycleHi := by
  unfold Part.setCoreReg Part.coreGo
  split <;> simp only [core_modCore_self]

/-- A free value drawn before a core goes on leaves its trace in the count of free values only. -/
theorem draw_written (p : Part) (c r : Nat) (v pc : Word) (g : Core → Core) :
    { ((p.draw.2.modCore c g).setCoreReg c r v).coreGo c pc with free := p.free } = ((p.modCore c g).setCoreReg c r v).coreGo c pc := by
  unfold Part.setCoreReg
  split <;> rfl

theorem mtsr_eq (ready : CoreReady p c) (priv : (p.core c).priv = true) {ra : BitVec 5} {sr : BitVec 12} {m' : Core}
    (h : Writes (p.core c) sr (reg p (.core c) ra) m') :
    p.mtsr (.core c) sr ra = p.modCore c fun _ => { m' with pc := (p.core c).pc + 4 } := by
  obtain ⟨writes, known, notUser, kept⟩ := writeSpecial_writes h c
  unfold Part.mtsr
  refine ready.coreOnly ?_ (stepOne_modCore kept)
  have value : Part.coreReg (p.core c) ra.toNat = reg p (.core c) ra := congrFun (coreReg_eq p c) ra
  simp only [known, notUser, priv, value, Bool.or_self, Bool.not_true, Bool.false_eq_true, if_false, Part.coreGo, modCore_modCore]
  refine modCore_congr ?_
  rw [writes]

theorem brk_halts (ready : CoreReady p c) (attached : p.dbg.attached = true) (steers : p.steers c = true) :
    p.brk (.core c) = p.draw.2.modCore c fun m =>
      { m with run := .halted, pc := if bitAt (Config.freeWord p.free) 0 then m.pc + 4 else m.pc } := by
  have both : (p.dbg.attached && p.steers c) = true := by rw [attached, steers]; rfl
  unfold Part.brk
  exact ready.coreOnly (if_pos both) (stepOne_modCore (p := p.draw.2) rfl)

theorem interruptTake_none {n : Nat} (h : p.irqLine n = false ∨ ((p.core n).run = .running ∧ p.mayInterrupt n = false)) :
    p.interruptTake n = p := by
  simp only [Part.interruptTake]
  rcases h with quiet | ⟨runs, mask⟩
  · rw [if_pos (by simp [quiet])]
  split
  · rfl
  · next line =>
    have line : p.irqLine n = true := by simp_all
    have masked : ((p.core n).ie && !(p.core n).exl) = false := by simpa [Part.mayInterrupt, line] using mask
    rw [if_neg (Bool.eq_false_iff.1 masked), if_neg (by rw [runs]; decide)]

/-- A request that may not be taken ends DOZE (R195). -/
theorem interruptTake_wakes {n : Nat} (dozes : (p.core n).run = .doze) (on : p.sys.scanStopped = false) (line : p.irqLine n = true)
    (mask : p.mayInterrupt n = false) : p.interruptTake n = p.modCore n fun m => { m with run := .running, pc := m.pc + 4 } := by
  have masked : ((p.core n).ie && !(p.core n).exl) = false := by simpa [Part.mayInterrupt, line] using mask
  simp only [Part.interruptTake]
  rw [if_neg (by simp [on, dozes, line]), if_neg (Bool.eq_false_iff.1 masked), if_pos dozes]

end

/-- Settles O29, clause by clause. -/
theorem systemInstructionsOfProcessors : Obligations.SystemInstructionsOfProcessors := by
  intro s p
  refine ⟨fun x i ready is => ?fence, fun n t i ready is => ?threads, fun c => ?cores⟩
  case fence =>
    have effect : p.fence x = p.regOp x 0 fun _ => 0 := rfl
    rcases is with rfl | rfl
    · exact ⟨_, .of_onPart (g := Part.fence x) rfl effect, regOp_computes ready 0 fun _ => 0⟩
    · exact ⟨_, .of_onPart (g := Part.fence x) rfl effect, regOp_computes ready 0 fun _ => 0⟩
  case threads =>
    rcases is with ⟨w, undefined, rfl⟩ | ⟨k, rfl⟩ | rfl | rfl | rfl | rfl | ⟨rd, sr, rfl⟩ | ⟨sr, ra, rfl⟩
    · refine ends_fault (g := Part.illegal (.thread n t) w) rfl ready.atWork ((if_neg ?_).trans (ready.onProc ..))
      rw [undefined]
      exact Bool.false_ne_true
    · exact coreOnly_ends ready (g := Part.trap (.thread n t) k) rfl rfl
    · exact privileged_ends ready (g := Part.privileged (.thread n t) (Dibry.fmtY 0 0 0 1) fun c _ => Part.returnTrap c) rfl rfl
    · exact coreOnly_ends ready (g := Part.brk (.thread n t)) rfl rfl
    · exact privileged_ends ready (g := Part.doze (.thread n t)) rfl rfl
    · exact privileged_ends ready (g := Part.fenceRule (.thread n t)) rfl rfl
    · exact coreOnly_ends ready (g := Part.mfsr (.thread n t) rd sr) rfl rfl
    · exact coreOnly_ends ready (g := Part.mtsr (.thread n t) sr ra) rfl rfl
  case cores =>
    intro m x
    refine ⟨fun ready priv quiet => ?ruleGoes, fun ready priv old => ?ruleWaits, fun waits runs quiet => ?ruleEnds, fun not => ?ruleEndsNot,
      fun ready priv => ?doze, fun dozes on line mask => ?wake, fun not => ?wakeNot, fun not => ?takeNot, fun ready attached steers => ?brk,
      fun ready rd sr v reads => ?mfsr, fun ready rd => ?cycle, fun ready priv ra sr m' writes => ?mtsr⟩
    case ruleGoes =>
      refine .of_onPart (g := Part.fenceRule x) rfl (ready.privileged priv ((if_neg ?_).trans (modCore_congr rfl)) (stepOne_modCore rfl))
      rw [quiet]
      exact Bool.false_ne_true
    case ruleWaits => exact .of_onPart (g := Part.fenceRule x) rfl (ready.privileged priv (if_pos old) (stepOne_modCore rfl))
    case doze => exact .of_onPart (g := Part.doze x) rfl (ready.privileged priv rfl (stepOne_modCore rfl))
    case mfsr =>
      exact ⟨_, .of_onPart (g := Part.mfsr x rd sr) rfl (mfsr_eq ready rd reads), core_computes ..⟩
    case mtsr => exact .of_onPart (g := Part.mtsr x sr ra) rfl (mtsr_eq ready priv writes)
    case ruleEnds =>
      refine .of_onPart (g := Part.fenceComplete c) rfl ?_
      rw [Part.fenceComplete, show (p.core c).fence = true from waits, show (p.core c).run = .running from runs, quiet]
      rfl
    case ruleEndsNot =>
      refine .of_onPart (g := Part.fenceComplete c) rfl (when_keeps (R := fun p q => q = p) (fun _ => rfl) p fun waits => ?_)
      simp only [Bool.and_eq_true, Bool.not_eq_true', beq_iff_eq] at waits
      obtain ⟨⟨fence, quiet⟩, runs⟩ := waits
      rcases not with out | stopped | old
      · exact absurd (out.symm.trans fence) Bool.false_ne_true
      · exact absurd runs stopped
      · exact absurd (quiet.symm.trans old) Bool.false_ne_true
    case wake =>
      refine .of_onPart (g := Part.dozeWake c) rfl ?_
      rw [Part.dozeWake, show (p.core c).run = .doze from dozes]
      exact interruptTake_wakes dozes on line mask
    case wakeNot =>
      refine .of_onPart (g := Part.dozeWake c) rfl (when_keeps (R := fun p q => q = p) (fun _ => rfl) p fun dozes => ?_)
      exact interruptTake_none (.inl (not.resolve_left (not_not.2 (beq_iff_eq.1 dozes))))
    case takeNot => exact .of_onPart (g := Part.interruptTake c) rfl (interruptTake_none not)
    case brk =>
      refine ⟨_, .of_onPart (g := Part.brk x) rfl (brk_halts ready attached steers), rfl, fun d hd => (core_modCore ..).trans (if_neg hd), ?_⟩
      rw [core_modCore_self]
      refine ⟨rfl, ?_⟩
      dsimp only
      split
      · exact .inr rfl
      · exact .inl rfl
    case cycle =>
      refine ⟨_, fld (Config.freeLong p.free) 0 32, .of_onPart (g := Part.mfsr x rd 0x010) rfl (mfsr_cycle ready rd), ?_⟩
      rw [written_cycleHi, core_modCore_self, draw_written]
      exact core_computes (p.modCore c fun m => { m with cycleHi := fld (Config.freeLong p.free) 32 32 }) ..

end Sys2Proof.Safety
end

section
/-! SUPPORT. Loads and stores: what a load reads and leaves, and that a store changes its octets, reservations and the program counter only
(R132, R170, R176, R180, R181, R185, R206). -/

namespace Sys2Proof.Safety

open Sys2Proof.Machine

/-! ### Octets loaded -/

theorem ofLe_lt (bs : List Byte) : ofLe bs < 2 ^ (8 * bs.length) := by
  induction bs with
  | nil => exact Nat.one_pos
  | cons b bs ih =>
    have hb := b.isLt
    have split : 2 ^ (8 * (b :: bs).length) = 256 * 2 ^ (8 * bs.length) := by
      rw [List.length_cons, Nat.mul_add, Nat.pow_add, Nat.mul_comm]
    rw [split, ofLe]
    omega

@[simp] theorem length_read (d : Byte) (m : Mem) (a n : Nat) : (m.read d a n).length = n := by
  induction n generalizing a with
  | zero => rfl
  | succ n ih => rw [Mem.read, List.length_cons, ih]

/-- The word that octets read make: extended by zeros. -/
theorem loaded_unsigned {n : Nat} {bs : List Byte} (len : bs.length = n) (narrow : 8 * n ≤ 32) :
    Dibry.loaded false bs = (BitVec.ofNat (8 * n) (ofLe bs)).setWidth 32 := by
  subst len
  have small := ofLe_lt bs
  refine BitVec.eq_of_toNat_eq ?_
  simp only [Dibry.loaded, Bool.false_and, Bool.false_eq_true, if_false, BitVec.toNat_ofNat, BitVec.toNat_setWidth, Nat.mod_eq_of_lt small]

/-- The word that octets read make: extended by their sign. -/
theorem loaded_signed {n : Nat} {bs : List Byte} (len : bs.length = n) (some : 0 < n) :
    Dibry.loaded true bs = (BitVec.ofNat (8 * n) (ofLe bs)).signExtend 32 := by
  subst len
  have small := ofLe_lt bs
  have value : ((BitVec.ofNat (8 * bs.length) (ofLe bs)).toInt : Int) =
      if 2 ^ (8 * bs.length - 1) ≤ ofLe bs then (ofLe bs : Int) - 2 ^ (8 * bs.length) else ofLe bs := by
    have half : 2 ^ (8 * bs.length) = 2 * 2 ^ (8 * bs.length - 1) := by
      rw [← Nat.pow_succ']
      congr 1
      omega
    rw [BitVec.toInt_eq_toNat_cond, BitVec.toNat_ofNat, Nat.mod_eq_of_lt small]
    push_cast
    split <;> split <;> omega
  rw [BitVec.signExtend, value, Dibry.loaded]
  simp only [Bool.true_and, decide_eq_true_eq]
  split
  · rfl
  · exact (BitVec.ofInt_natCast ..).symm

/-- The word that octets read make. -/
theorem loaded_eq {n : Nat} {bs : List Byte} (signed : Bool) (len : bs.length = n) (some : 0 < n) (narrow : 8 * n ≤ 32) :
    Dibry.loaded signed bs = if signed then (BitVec.ofNat (8 * n) (ofLe bs)).signExtend 32 else (BitVec.ofNat (8 * n) (ofLe bs)).setWidth 32 := by
  cases signed
  · exact loaded_unsigned len narrow
  · exact loaded_signed len some

/-! ### Reads of the map -/

theorem dspRead_part (o : Nat) (p : Part) : (p.dspRead o).2 = p := by
  unfold Part.dspRead
  split <;> rfl

theorem vaultRead_cores (p : Part) : (p.vaultAccess none).2.cores = p.cores := by
  simp only [Part.vaultAccess]
  split
  · rfl
  split <;> rfl

/-- A register read leaves the cores. -/
theorem csrRead_cores (w : World) (b o : Nat) (p : Part) : (p.csrRead w b o).2.cores = p.cores := by
  unfold Part.csrRead
  split
  case h_2 => split <;> rfl
  case h_4 => rw [dspRead_part]
  case h_9 =>
    split
    · exact vaultRead_cores p
    · rfl
  case h_10 =>
    split
    · rfl
    split <;> rfl
  case h_16 =>
    split
    · rfl
    split <;> rfl
  all_goals rfl

/-- Octets read of registers: four of each, and the cores stay. -/
theorem csrFold_spec (w : World) (l : List Nat) (x : List Byte × Part) :
    let y := l.foldl (fun (x : List Byte × Part) k =>
      let (v, p) := x.2.csrRead w (4 * k / 0x100000) (4 * k % 0x100000)
      (x.1 ++ leBytes 4 v.toNat, p)) x
    y.1.length = x.1.length + 4 * l.length ∧ y.2.cores = x.2.cores := by
  induction l generalizing x with
  | nil => exact ⟨rfl, rfl⟩
  | cons k l ih =>
    obtain ⟨len, cores⟩ := ih (x.1 ++ leBytes 4 (x.2.csrRead w (4 * k / 0x100000) (4 * k % 0x100000)).1.toNat,
      (x.2.csrRead w (4 * k / 0x100000) (4 * k % 0x100000)).2)
    refine ⟨len.trans ?_, cores.trans (csrRead_cores ..)⟩
    simp only [List.length_append, length_leBytes, List.length_cons]
    omega

theorem csrLoad_spec (w : World) (o : Nat) {n : Nat} (some : 0 < n) (p : Part) :
    (p.csrLoad w o n).1.length = n ∧ (p.csrLoad w o n).2.cores = p.cores := by
  obtain ⟨len, cores⟩ := csrFold_spec w (Part.csrSpan o n) ([], p)
  refine ⟨?_, cores⟩
  have span : (Part.csrSpan o n).length = (o + n + 3) / 4 - o / 4 := by
    rw [Part.csrSpan, if_neg (by omega), List.length_map, List.length_range]
  simp only [Part.csrLoad, List.length_take, List.length_drop]
  rw [len, span, List.length_nil]
  omega

/-- A load delivers its octets and leaves the cores. -/
theorem load_spec (w : World) (s : Space) (o : Nat) {n : Nat} (some : 0 < n) (p : Part) :
    (p.load w s o n).1.length = n ∧ (p.load w s o n).2.cores = p.cores := by
  cases s with
  | csr => exact csrLoad_spec w o some p
  | boot => exact ⟨by simp [Part.load], rfl⟩
  | none => exact ⟨by simp [Part.load], rfl⟩
  | _ => exact ⟨length_read .., rfl⟩

/-- A read of a memory changes nothing. -/
theorem load_part (w : World) {s : Space} (o n : Nat) (p : Part) (h : s ≠ .csr) : (p.load w s o n).2 = p := by
  cases s with
  | csr => exact absurd rfl h
  | _ => rfl

/-- What a load reads of each memory. -/
theorem load_octets (w : World) (s : Space) (o n : Nat) (p : Part) :
    (s = .ob → (p.load w s o n).1 = p.opBuf.read ram o n) ∧ (s = .cc → (p.load w s o n).1 = p.ccMem.read ram o n) ∧
      (s = .priv → (p.load w s o n).1 = p.priv.read ram o n) ∧ (s = .es → (p.load w s o n).1 = p.evr.store.read ram o n) := by
  refine ⟨?_, ?_, ?_, ?_⟩ <;> rintro rfl <;> rfl

/-! ### Loads -/

/-- The loads: how many octets, and whether signed. -/
def IsLoad (x : Proc) (rd ra : BitVec 5) (imm : BitVec 16) (n : Nat) (sg : Bool) (i : Instr) : Prop :=
  (n = 1 ∧ sg = true ∧ i = Instr.lb x rd ra imm) ∨ (n = 2 ∧ sg = true ∧ i = .lh x rd ra imm) ∨
    (n = 4 ∧ sg = false ∧ i = .lw x rd ra imm) ∨ (n = 1 ∧ sg = false ∧ i = .lbu x rd ra imm) ∨ (n = 2 ∧ sg = false ∧ i = .lhu x rd ra imm)

theorem IsLoad.arm {x : Proc} {rd ra : BitVec 5} {imm : BitVec 16} {n : Nat} {sg : Bool} {i : Instr} (h : IsLoad x rd ra imm n sg i) (s : State) :
    exec i s = onPart (Part.loadOp x n sg rd ra imm) s ∧ 0 < n ∧ 8 * n ≤ 32 := by
  rcases h with ⟨rfl, rfl, rfl⟩ | ⟨rfl, rfl, rfl⟩ | ⟨rfl, rfl, rfl⟩ | ⟨rfl, rfl, rfl⟩ | ⟨rfl, rfl, rfl⟩ <;>
    exact ⟨rfl, by decide, by decide⟩

section
variable {p : Part} {c : Fin 5} {n : Nat}

/- The kernel must not evaluate the map on a symbolic address: its comparisons would unfold literals, so the map stands as a variable. -/
theorem coreLoad_reads {a : Word} {so : Space × Nat} {r : List Byte × Part} (sg : Bool) (rd : BitVec 5) (aligned : a.toNat % n = 0)
    (admitted : (p.coreCheck c kRead (Part.bankAddr (p.core c).dbk a) n).1 = none)
    (place : spaceOf p.sys.handed (c.val == 4) (Part.bankAddr (p.core c).dbk a) n = so) (read : p.load (Part.coreWorld c) so.1 so.2 n = r) :
    p.coreLoad n sg rd.toNat a c (p.core c) = (r.2.setCoreReg c rd.toNat (Dibry.loaded sg r.1)).coreGo c ((p.core c).pc + 4) := by
  subst read
  rcases so with ⟨s, o⟩
  obtain ⟨map, opaqueMap⟩ : ∃ map, map = spaceOf := ⟨_, rfl⟩
  unfold Part.coreLoad
  rw [← opaqueMap] at place ⊢
  simp only [aligned, ne_eq, not_true_eq_false, if_false, coreCheck_admitted admitted, place]

theorem bankAddr_eq (b : Byte) (a : Word) : Part.bankAddr b a = b.toNat * 2 ^ 32 + a.toNat := rfl

theorem loadOp_core {so : Space × Nat} {r : List Byte × Part} (ready : CoreReady p c) (sg : Bool) (rd ra : BitVec 5) (imm : BitVec 16)
    (some : 0 < n) (aligned : (reg p (.core c) ra + imm.signExtend 32).toNat % n = 0)
    (admitted : (p.coreCheck c kRead ((p.core c).dbk.toNat * 2 ^ 32 + (reg p (.core c) ra + imm.signExtend 32).toNat) n).1 = none)
    (place : spaceOf p.sys.handed (c.val == 4) ((p.core c).dbk.toNat * 2 ^ 32 + (reg p (.core c) ra + imm.signExtend 32).toNat) n = so)
    (read : p.load (Part.coreWorld c) so.1 so.2 n = r) :
    p.loadOp (.core c) n sg rd ra imm = (r.2.setCoreReg c rd.toNat (Dibry.loaded sg r.1)).coreGo c ((p.core c).pc + 4) := by
  rw [← bankAddr_eq] at admitted place
  have value : Part.coreReg (p.core c) ra.toNat = reg p (.core c) ra := congrFun (coreReg_eq p c) ra
  have reads : p.coreLoad n sg rd.toNat (Part.coreReg (p.core c) ra.toNat + Dibry.sext16 imm) c (p.core c) =
      (r.2.setCoreReg c rd.toNat (Dibry.loaded sg r.1)).coreGo c ((p.core c).pc + 4) := by
    rw [value]
    exact coreLoad_reads sg rd aligned admitted place read
  have cores : r.2.core c = p.core c := by rw [Part.core, ← read, (load_spec _ so.1 so.2 some p).2, Part.core]
  refine (ready.onProc _ _ ?_).trans reads
  rw [reads, stepOne_written, cores, ready.unstepped]

/-! ### Stores -/

theorem coreStore_writes {bs : List Byte} {a : Word} {so : Space × Nat} (f : Fuses) (len : bs.length = n) (aligned : a.toNat % n = 0)
    (admitted : (p.coreCheck c kWrite (Part.bankAddr (p.core c).dbk a) n).1 = none)
    (place : spaceOf p.sys.handed (c.val == 4) (Part.bankAddr (p.core c).dbk a) n = so) :
    Part.coreStore bs a c (p.core c) (f, p) = Part.store (Part.coreWorld c) so.1 so.2 bs (f, p.coreGo c ((p.core c).pc + 4)) := by
  subst len
  rcases so with ⟨s, o⟩
  obtain ⟨map, opaqueMap⟩ : ∃ map, map = spaceOf := ⟨_, rfl⟩
  unfold Part.coreStore
  rw [← opaqueMap] at place ⊢
  simp only [aligned, ne_eq, not_true_eq_false, if_false, coreCheck_admitted admitted, place]

theorem CoreReady.coreStepF (ready : CoreReady p c) (f : Fuses) {body : Core → Fuses × Part → Fuses × Part} {y : Fuses × Part}
    (done : body (p.core c) (f, p) = y) : Part.coreStepF c body (f, p) = (y.1, y.2.stepStop c) := by
  subst done
  simp only [Part.coreStepF, ready.coreEnter, if_true]

theorem storeOp_core {so : Space × Nat} (ready : CoreReady p c) (f : Fuses) (rs ra : BitVec 5) (imm : BitVec 16)
    (aligned : (reg p (.core c) ra + imm.signExtend 32).toNat % n = 0)
    (admitted : (p.coreCheck c kWrite ((p.core c).dbk.toNat * 2 ^ 32 + (reg p (.core c) ra + imm.signExtend 32).toNat) n).1 = none)
    (place : spaceOf p.sys.handed (c.val == 4) ((p.core c).dbk.toNat * 2 ^ 32 + (reg p (.core c) ra + imm.signExtend 32).toNat) n = so)
    {y : Fuses × Part} (stored : Part.store (Part.coreWorld c) so.1 so.2 (leBytes n (reg p (.core c) rs).toNat)
      (f, p.modCore c fun m => { m with pc := m.pc + 4 }) = y) :
    Part.storeOp (.core c) n rs ra imm (f, p) = (y.1, y.2.stepStop c) := by
  rw [← bankAddr_eq] at admitted place
  have value : ∀ r : BitVec 5, Part.coreReg (p.core c) r.toNat = reg p (.core c) r := congrFun (coreReg_eq p c)
  change Part.coreStepF c.val (fun m => Part.coreStore (leBytes n (Part.coreReg m rs.toNat).toNat)
    (Part.coreReg m ra.toNat + Dibry.sext16 imm) c.val m) (f, p) = _
  refine ready.coreStepF f ?_
  rw [value, value]
  exact (coreStore_writes f (length_leBytes ..) aligned admitted place).trans stored

end

/-- Between `p` and `q` one of the memories has been written: the three are as given, and of the cores only reservations have gone. -/
structure Written (ob cc pr : Mem) (p q : Part) : Prop where
  rest  : q = { p with cores := q.cores, opBuf := ob, ccMem := cc, priv := pr }
  cores : ∀ d, q.core d = { p.core d with resv := (q.core d).resv }

theorem loseResv_core (a n : Nat) (p : Part) (d : Nat) : (p.loseResv a n).core d = { p.core d with resv := ((p.loseResv a n).core d).resv } := by
  unfold Part.loseResv
  refine foldl_keeps (R := fun p q => q.core d = { p.core d with resv := (q.core d).resv }) (fun _ => rfl) (fun h k => ?_) (List.range 5)
    (fun q c _ => ?_) p
  · rw [k, h]
  · dsimp only
    split
    · rw [core_modCore]
      split
      · next same => rw [same]
      · rfl
    · rfl

theorem loseResv_written (a n : Nat) {p r : Part} {ob cc pr : Mem} (same : r = { p with opBuf := ob, ccMem := cc, priv := pr }) :
    Written ob cc pr p (r.loseResv a n) := by
  subst same
  exact ⟨loseResv_cores .., loseResv_core a n { p with opBuf := ob, ccMem := cc, priv := pr }⟩

theorem writeOb_written (o : Nat) (bs : List Byte) (p : Part) : Written (p.opBuf.write ram o bs) p.ccMem p.priv p (p.writeOb o bs) :=
  loseResv_written _ _ rfl
theorem writeCc_written (o : Nat) (bs : List Byte) (p : Part) : Written p.opBuf (p.ccMem.write ram o bs) p.priv p (p.writeCc o bs) :=
  loseResv_written _ _ rfl
theorem writePriv_written (o : Nat) (bs : List Byte) (p : Part) : Written p.opBuf p.ccMem (p.priv.write ram o bs) p (p.writePriv o bs) :=
  loseResv_written _ _ rfl

/-- The stores: how many octets. -/
def IsStore (x : Proc) (rs ra : BitVec 5) (imm : BitVec 16) (n : Nat) (i : Instr) : Prop :=
  (n = 1 ∧ i = Instr.sb x rs ra imm) ∨ (n = 2 ∧ i = .sh x rs ra imm) ∨ (n = 4 ∧ i = .sw x rs ra imm)

theorem IsStore.arm {x : Proc} {rs ra : BitVec 5} {imm : BitVec 16} {n : Nat} {i : Instr} (h : IsStore x rs ra imm n i) (s : State) :
    exec i s = onBoth (Part.storeOp x n rs ra imm) s ∧ 0 < n := by
  rcases h with ⟨rfl, rfl⟩ | ⟨rfl, rfl⟩ | ⟨rfl, rfl⟩ <;> exact ⟨rfl, by decide⟩

/-- A command that may blow fuses and blows none. -/
theorem Yields.of_onBoth {i : Instr} {s : State} {g : Fuses × Part → Fuses × Part} {q : Part} (arm : exec i s = onBoth g s)
    (effect : g (s.fuses, s.part) = (s.fuses, q)) : Yields i s q := by
  rw [Yields, arm, onBoth, effect]

/-- What a store of a core to a memory leaves: one memory written at its octets, the core moved on, reservations lost. -/
structure CoreStored (c o n : Nat) (bs : List Byte) (s : Space) (p q : Part) : Prop where
  rest  : q = { p with cores := q.cores, opBuf := q.opBuf, ccMem := q.ccMem, priv := q.priv }
  cores : ∀ d, q.core d = { p.core d with resv := (q.core d).resv, pc := if d = c then (p.core c).pc + 4 else (p.core d).pc }
  ob    : q.opBuf = if s = .ob then p.opBuf.write ram o bs else p.opBuf
  cc    : q.ccMem = if s = .cc then p.ccMem.write ram o bs else p.ccMem
  priv  : q.priv = if s = .priv then p.priv.write ram o bs else p.priv

theorem Written.coreStored {c o n : Nat} {bs : List Byte} {s : Space} {p q : Part} {ob cc pr : Mem}
    (h : Written ob cc pr (p.modCore c fun m => { m with pc := m.pc + 4 }) q) (hob : ob = if s = .ob then p.opBuf.write ram o bs else p.opBuf)
    (hcc : cc = if s = .cc then p.ccMem.write ram o bs else p.ccMem) (hpr : pr = if s = .priv then p.priv.write ram o bs else p.priv) :
    CoreStored c o n bs s p q := by
  have cores := h.cores
  have rest := h.rest
  refine ⟨?_, fun d => ?_, ?_, ?_, ?_⟩
  · rw [rest]
    rfl
  · rw [cores, core_modCore]
    split
    · next same => rw [same]
    · rfl
  · rw [rest]
    exact hob
  · rw [rest]
    exact hcc
  · rw [rest]
    exact hpr

/-- A store to one of the memories, and the debugger's step not asked for. -/
theorem store_stored {c : Nat} {p : Part} (w : World) {s : Space} (o n : Nat) (bs : List Byte) (f : Fuses) (unstepped : (p.core c).stepOne = false)
    (memory : s = .ob ∨ s = .cc ∨ s = .priv) :
    ∃ q, Part.store w s o bs (f, p.modCore c fun m => { m with pc := m.pc + 4 }) = (f, q) ∧ q.stepStop c = q ∧ CoreStored c o n bs s p q := by
  have steady : ∀ {ob cc pr q}, Written ob cc pr (p.modCore c fun m => { m with pc := m.pc + 4 }) q → q.stepStop c = q := fun h => by
    rw [Part.stepStop, h.cores, core_modCore_self, unstepped]
    rfl
  rcases memory with rfl | rfl | rfl
  · have h := writeOb_written o bs (p.modCore c fun m => { m with pc := m.pc + 4 })
    exact ⟨_, rfl, steady h, h.coreStored rfl rfl rfl⟩
  · have h := writeCc_written o bs (p.modCore c fun m => { m with pc := m.pc + 4 })
    exact ⟨_, rfl, steady h, h.coreStored rfl rfl rfl⟩
  · have h := writePriv_written o bs (p.modCore c fun m => { m with pc := m.pc + 4 })
    exact ⟨_, rfl, steady h, h.coreStored rfl rfl rfl⟩

/-! ### Threads -/

section
variable {p : Part} {h : Fin 16} {t : Fin 32} {n : Nat}

theorem inContext_inside {th : Thread} {a : Word}
    (inside : 0x20000000 + 512 * th.ctx ≤ a.toNat ∧ a.toNat + n ≤ 0x20000000 + 512 * th.ctx + 512) :
    Part.inContext th a n = some (a.toNat - 0x20000000) := if_pos inside

theorem inContext_outside {th : Thread} {a : Word}
    (outside : ¬ (0x20000000 + 512 * th.ctx ≤ a.toNat ∧ a.toNat + n ≤ 0x20000000 + 512 * th.ctx + 512)) : Part.inContext th a n = none :=
  if_neg outside

/-- An access inside the context that its colour admits. -/
theorem threadCheck_admitted {k o : Nat} {th : Thread} {a : Word} (kind : BitVec 3) (place : Part.inContext th a n = some o)
    (colour : p.colourCheck .ob o n th.colour false = none) : p.threadCheck k th kind a n = (some o, p) := by
  simp only [Part.threadCheck, place, colour]

theorem thread_value (p : Part) (h : Fin 16) (t : Fin 32) (r : BitVec 5) :
    Part.threadReg (p.thread (Part.threadNo h t)) r.toNat = reg p (.thread h t) r := congrFun (threadReg_eq p h t) r

/-- The part in which thread `k` has counted its instruction. -/
abbrev issuing (p : Part) (k : Nat) : Part := (turned p k).modThread k counted

theorem threadLoad_reads {o : Nat} {a : Word} (sg : Bool) (rd : BitVec 5) (aligned : a.toNat % n = 0)
    (place : Part.inContext (p.thread (Part.threadNo h t)) a n = some o)
    (colour : p.colourCheck .ob o n (p.thread (Part.threadNo h t)).colour false = none) :
    (issuing p (Part.threadNo h t)).threadLoad n sg rd.toNat a (Part.threadNo h t) (p.thread (Part.threadNo h t)) =
      ((issuing p (Part.threadNo h t)).setThreadReg (Part.threadNo h t) rd.toNat (Dibry.loaded sg (p.opBuf.read ram o n))).threadGo
        (Part.threadNo h t) ((p.thread (Part.threadNo h t)).pc + 4) := by
  have checked := threadCheck_admitted (p := issuing p (Part.threadNo h t)) (k := Part.threadNo h t) kRead place colour
  simp only [Part.threadLoad, aligned, ne_eq, not_true_eq_false, if_false, checked]
  rfl

theorem threadLoad_faults {k : Nat} {th : Thread} {a : Word} (sg : Bool) (rd : Nat) (r : Part)
    (out : a.toNat % n ≠ 0 ∨ Part.inContext th a n = none) : r.threadLoad n sg rd a k th = r.threadFault k Part.cBounds := by
  unfold Part.threadLoad
  split
  · rfl
  · next aligned =>
    have outside := out.resolve_left aligned
    simp only [Part.threadCheck, outside]

theorem threadStore_writes {o : Nat} {a : Word} {bs : List Byte} (len : bs.length = n) (aligned : a.toNat % n = 0)
    (place : Part.inContext (p.thread (Part.threadNo h t)) a n = some o)
    (colour : p.colourCheck .ob o n (p.thread (Part.threadNo h t)).colour false = none) :
    (issuing p (Part.threadNo h t)).threadStore bs a (Part.threadNo h t) (p.thread (Part.threadNo h t)) =
      ((issuing p (Part.threadNo h t)).writeOb o bs).threadGo (Part.threadNo h t) ((p.thread (Part.threadNo h t)).pc + 4) := by
  subst len
  have checked := threadCheck_admitted (p := issuing p (Part.threadNo h t)) (k := Part.threadNo h t) kWrite place colour
  simp only [Part.threadStore, aligned, ne_eq, not_true_eq_false, if_false, checked]

theorem threadStore_faults {k : Nat} {th : Thread} {a : Word} {bs : List Byte} (len : bs.length = n) (r : Part)
    (out : a.toNat % n ≠ 0 ∨ Part.inContext th a n = none) : r.threadStore bs a k th = r.threadFault k Part.cBounds := by
  subst len
  unfold Part.threadStore
  split
  · rfl
  · next aligned =>
    have outside := out.resolve_left aligned
    simp only [Part.threadCheck, outside]

/-- What a thread leaves that has written octets of the operation buffer and gone on. -/
structure ThreadWrote (k : Nat) (buffer : Mem) (p q : Part) : Prop where
  buffer : q.opBuf = buffer
  thread : q.thread k = { counted (p.thread k) with pc := (p.thread k).pc + 4 }
  others : ∀ j, j ≠ k → q.thread j = p.thread j
  cores  : ∀ d, q.core d = { p.core d with resv := (q.core d).resv }
  rest   : q = { p with opBuf := q.opBuf, cores := q.cores, seq := { (turned p k).seq with threads := q.seq.threads } }

theorem Written.threadWrote {k : Nat} {buffer : Mem} {q : Part} (h : Written buffer p.ccMem p.priv (issuing p k) q) :
    ThreadWrote k buffer p (q.threadGo k ((p.thread k).pc + 4)) := by
  have rest := h.rest
  have thread : ∀ j, q.thread j = (issuing p k).thread j := fun j => by rw [rest]; rfl
  refine ⟨by rw [rest]; rfl, ?_, fun j hj => ?_, h.cores, ?_⟩
  · rw [Part.threadGo, thread_modThread_same, thread, thread_modThread_same]
    rfl
  · rw [Part.threadGo, thread_modThread_other _ _ hj, thread, thread_modThread_other _ _ hj]
    rfl
  · rw [rest]
    rfl

theorem writeOb_threadWrote (p : Part) (k o : Nat) (bs : List Byte) :
    ThreadWrote k (p.opBuf.write ram o bs) p (((issuing p k).writeOb o bs).threadGo k ((p.thread k).pc + 4)) :=
  Written.threadWrote (writeOb_written o bs (issuing p k))

end

/-! ### The clauses -/

section
variable {s : State} {rd ra : BitVec 5} {imm : BitVec 16} {n : Nat} {i : Instr} {so : Space × Nat}

/-- A load of a ready core, aligned and admitted, at the place that the map gives. -/
theorem core_loads {c : Fin 5} {sg : Bool} (ready : CoreReady s.part c) (is : IsLoad (.core c) rd ra imm n sg i)
    (aligned : (reg s.part (.core c) ra + imm.signExtend 32).toNat % n = 0)
    (admitted : (s.part.coreCheck c kRead ((s.part.core c).dbk.toNat * 2 ^ 32 + (reg s.part (.core c) ra + imm.signExtend 32).toNat) n).1 = none)
    (place : spaceOf s.part.sys.handed (c.val == 4)
      ((s.part.core c).dbk.toNat * 2 ^ 32 + (reg s.part (.core c) ra + imm.signExtend 32).toNat) n = so) :
    let p := s.part
    let r := p.load (if c.val = 4 then World.secure else World.normal) so.1 so.2 n
    let b := BitVec.ofNat (8 * n) (ofLe r.1)
    (∃ q, Yields i s q ∧ Computes (.core c) rd (if sg then b.signExtend 32 else b.setWidth 32) ((p.core c).pc + 4) r.2 q) ∧
      (so.1 ≠ .csr → r.2 = p) ∧ (so.1 = .ob → r.1 = p.opBuf.read ram so.2 n) ∧ (so.1 = .cc → r.1 = p.ccMem.read ram so.2 n) ∧
      (so.1 = .priv → r.1 = p.priv.read ram so.2 n) ∧ (so.1 = .es → r.1 = p.evr.store.read ram so.2 n) := by
  intro p r b
  obtain ⟨arm, some, narrow⟩ := IsLoad.arm is s
  refine ⟨⟨_, .of_onPart arm (loadOp_core ready sg rd ra imm some aligned admitted place (r := r) rfl), ?_⟩, load_part _ so.2 n p,
    load_octets _ so.1 so.2 n p⟩
  rw [loaded_eq sg (load_spec _ so.1 so.2 some p).1 some narrow]
  exact core_computes ..

/-- A store of a ready core to a register is that register's write, after the core has moved on. -/
theorem core_stores_csr {c : Fin 5} (ready : CoreReady s.part c) (is : IsStore (.core c) rd ra imm n i)
    (aligned : (reg s.part (.core c) ra + imm.signExtend 32).toNat % n = 0)
    (admitted : (s.part.coreCheck c kWrite ((s.part.core c).dbk.toNat * 2 ^ 32 + (reg s.part (.core c) ra + imm.signExtend 32).toNat) n).1 = none)
    (place : spaceOf s.part.sys.handed (c.val == 4)
      ((s.part.core c).dbk.toNat * 2 ^ 32 + (reg s.part (.core c) ra + imm.signExtend 32).toNat) n = so) (csr : so.1 = .csr) :
    let y := Part.csrStore (if c.val = 4 then World.secure else World.normal) so.2 (leBytes n (reg s.part (.core c) rd).toNat)
      (s.fuses, s.part.modCore c fun m => { m with pc := m.pc + 4 })
    exec i s = .next { s with fuses := y.1, part := y.2.stepStop c } := by
  intro y
  obtain ⟨arm, some⟩ := IsStore.arm is s
  have stored : Part.store (Part.coreWorld c) so.1 so.2 (leBytes n (reg s.part (.core c) rd).toNat)
      (s.fuses, s.part.modCore c fun m => { m with pc := m.pc + 4 }) = y := by
    rw [csr]
    rfl
  rw [arm, onBoth, storeOp_core ready s.fuses rd ra imm aligned admitted place stored]

/-- Octets written over part of a memory leave the others. -/
theorem get_written {m m' : Mem} {o b : Nat} {bs : List Byte} (len : bs.length = n) (outside : b < o ∨ o + n ≤ b)
    (same : m' = m ∨ m' = m.write ram o bs) : Tab.get ram m' b = Tab.get ram m b := by
  subst len
  rcases same with rfl | rfl
  · rfl
  · exact Mem.get_write_other ram m o b bs outside

/-- A store of a ready core to a memory. -/
theorem core_stores_memory {c : Fin 5} (ready : CoreReady s.part c) (is : IsStore (.core c) rd ra imm n i)
    (aligned : (reg s.part (.core c) ra + imm.signExtend 32).toNat % n = 0)
    (admitted : (s.part.coreCheck c kWrite ((s.part.core c).dbk.toNat * 2 ^ 32 + (reg s.part (.core c) ra + imm.signExtend 32).toNat) n).1 = none)
    (place : spaceOf s.part.sys.handed (c.val == 4)
      ((s.part.core c).dbk.toNat * 2 ^ 32 + (reg s.part (.core c) ra + imm.signExtend 32).toNat) n = so)
    (memory : so.1 = .ob ∨ so.1 = .cc ∨ so.1 = .priv) :
    let p := s.part
    let bs := leBytes n (reg p (.core c) rd).toNat
    ∃ q, Yields i s q ∧ q = { p with cores := q.cores, opBuf := q.opBuf, ccMem := q.ccMem, priv := q.priv } ∧
      (∀ d, q.core d = { p.core d with resv := (q.core d).resv, pc := if d = c.val then (p.core c).pc + 4 else (p.core d).pc }) ∧
      (so.1 = .ob → q.opBuf = p.opBuf.write ram so.2 bs) ∧ (so.1 = .cc → q.ccMem = p.ccMem.write ram so.2 bs) ∧
      (so.1 = .priv → q.priv = p.priv.write ram so.2 bs) ∧
      (so.1 ≠ .ob → q.opBuf = p.opBuf) ∧ (so.1 ≠ .cc → q.ccMem = p.ccMem) ∧ (so.1 ≠ .priv → q.priv = p.priv) ∧
      (∀ b, b < so.2 ∨ so.2 + n ≤ b → Tab.get ram q.opBuf b = Tab.get ram p.opBuf b ∧ Tab.get ram q.ccMem b = Tab.get ram p.ccMem b ∧
        Tab.get ram q.priv b = Tab.get ram p.priv b) := by
  intro p bs
  obtain ⟨arm, -⟩ := IsStore.arm is s
  have len : bs.length = n := length_leBytes ..
  obtain ⟨q, stored, steady, left⟩ := store_stored (Part.coreWorld c) so.2 n bs s.fuses ready.unstepped memory
  have effect := storeOp_core ready s.fuses rd ra imm aligned admitted place stored
  rw [steady] at effect
  have either : ∀ {m m' w : Mem} {d : Prop} [Decidable d], m' = (if d then w else m) → m' = m ∨ m' = w := fun h => by
    split at h
    · exact .inr h
    · exact .inl h
  exact ⟨q, .of_onBoth arm effect, left.rest, left.cores, fun h => left.ob.trans (if_pos h), fun h => left.cc.trans (if_pos h),
    fun h => left.priv.trans (if_pos h), fun h => left.ob.trans (if_neg h), fun h => left.cc.trans (if_neg h),
    fun h => left.priv.trans (if_neg h),
    fun b out => ⟨get_written len out (either left.ob), get_written len out (either left.cc), get_written len out (either left.priv)⟩⟩

end

section
variable {s : State} {rd ra : BitVec 5} {imm : BitVec 16} {n : Nat} {i : Instr} {h : Fin 16} {t : Fin 32}

/-- The address lies in the context of thread `th`. -/
abbrev Inside (th : Thread) (a : Word) (n : Nat) : Prop :=
  0x20000000 + 512 * th.ctx ≤ a.toNat ∧ a.toNat + n ≤ 0x20000000 + 512 * th.ctx + 512

/-- A load of a ready thread in its own context. -/
theorem thread_loads {sg : Bool} (ready : ThreadReady s.part (Part.threadNo h t)) (is : IsLoad (.thread h t) rd ra imm n sg i)
    (aligned : (reg s.part (.thread h t) ra + imm.signExtend 32).toNat % n = 0)
    (inside : Inside (s.part.thread (Part.threadNo h t)) (reg s.part (.thread h t) ra + imm.signExtend 32) n)
    (colour : s.part.colourCheck .ob ((reg s.part (.thread h t) ra + imm.signExtend 32).toNat - 0x20000000) n
      (s.part.thread (Part.threadNo h t)).colour false = none) :
    let b := BitVec.ofNat (8 * n) (ofLe (s.part.opBuf.read ram ((reg s.part (.thread h t) ra + imm.signExtend 32).toNat - 0x20000000) n))
    ∃ q, Yields i s q ∧ Computes (.thread h t) rd (if sg then b.signExtend 32 else b.setWidth 32)
      ((s.part.thread (Part.threadNo h t)).pc + 4) s.part q := by
  intro b
  obtain ⟨arm, some, narrow⟩ := IsLoad.arm is s
  rw [← loaded_eq sg (length_read ..) some narrow]
  refine ⟨_, .of_onPart arm ?_, counted_computes ..⟩
  refine (ready.onProc ..).trans ?_
  rw [thread_value]
  exact threadLoad_reads sg rd aligned (inContext_inside inside) colour

/-- A load of a ready thread that its alignment or the bounds of its context refuse. -/
theorem thread_load_faults {sg : Bool} (ready : ThreadReady s.part (Part.threadNo h t)) (is : IsLoad (.thread h t) rd ra imm n sg i)
    (out : (reg s.part (.thread h t) ra + imm.signExtend 32).toNat % n ≠ 0 ∨
      ¬ Inside (s.part.thread (Part.threadNo h t)) (reg s.part (.thread h t) ra + imm.signExtend 32) n) :
    ∃ q, Yields i s q ∧ HarvestEnds (Part.threadNo h t) 0x7F 0 s.part q ∧ q.opBuf = s.part.opBuf := by
  obtain ⟨arm, -, -⟩ := IsLoad.arm is s
  have faulted := threadFault_faults ready.atWork Part.cBounds
  refine ⟨_, .of_onPart arm ?_, faulted.ends, faulted.buffer⟩
  refine (ready.onProc ..).trans ?_
  rw [thread_value]
  exact threadLoad_faults sg _ _ (out.imp_right inContext_outside)

/-- A store of a ready thread in its own context. -/
theorem thread_stores (ready : ThreadReady s.part (Part.threadNo h t)) (is : IsStore (.thread h t) rd ra imm n i)
    (aligned : (reg s.part (.thread h t) ra + imm.signExtend 32).toNat % n = 0)
    (inside : Inside (s.part.thread (Part.threadNo h t)) (reg s.part (.thread h t) ra + imm.signExtend 32) n)
    (colour : s.part.colourCheck .ob ((reg s.part (.thread h t) ra + imm.signExtend 32).toNat - 0x20000000) n
      (s.part.thread (Part.threadNo h t)).colour false = none) :
    ∃ q, Yields i s q ∧ ThreadWrote (Part.threadNo h t)
      (s.part.opBuf.write ram ((reg s.part (.thread h t) ra + imm.signExtend 32).toNat - 0x20000000) (leBytes n (reg s.part (.thread h t) rd).toNat))
      s.part q := by
  obtain ⟨arm, -⟩ := IsStore.arm is s
  have effect := (ready.onProc (fun _ _ p => p) fun k t => Part.threadStore (leBytes n (Part.threadReg t rd.toNat).toNat)
    (Part.threadReg t ra.toNat + Dibry.sext16 imm) k t)
  rw [thread_value, thread_value] at effect
  replace effect := effect.trans (threadStore_writes (length_leBytes ..) aligned (inContext_inside inside) colour)
  exact ⟨_, .of_onBoth arm (congrArg (Prod.mk _) effect), writeOb_threadWrote ..⟩

/-- A store of a ready thread that its alignment or the bounds of its context refuse. -/
theorem thread_store_faults (ready : ThreadReady s.part (Part.threadNo h t)) (is : IsStore (.thread h t) rd ra imm n i)
    (out : (reg s.part (.thread h t) ra + imm.signExtend 32).toNat % n ≠ 0 ∨
      ¬ Inside (s.part.thread (Part.threadNo h t)) (reg s.part (.thread h t) ra + imm.signExtend 32) n) :
    ∃ q, Yields i s q ∧ HarvestEnds (Part.threadNo h t) 0x7F 0 s.part q ∧ q.opBuf = s.part.opBuf := by
  obtain ⟨arm, -⟩ := IsStore.arm is s
  have faulted := threadFault_faults ready.atWork Part.cBounds
  refine ⟨_, .of_onBoth arm (congrArg (Prod.mk _) ?_), faulted.ends, faulted.buffer⟩
  refine (ready.onProc ..).trans ?_
  rw [thread_value, thread_value]
  exact threadStore_faults (length_leBytes ..) _ (out.imp_right inContext_outside)

end

/-- Settles O30: loads and stores of cores, then those of threads. -/
theorem loadsReadAndStoresWriteOnlyTheirBytes : Obligations.LoadsReadAndStoresWriteOnlyTheirBytes := by
  intro s rd ra imm p f
  refine ⟨fun c => ?cores, fun h t => ?threads⟩
  case cores =>
    intro x m a pa w ready
    refine ⟨fun n sg i is aligned admitted => core_loads ready is aligned admitted rfl, fun n i is aligned admitted => ?store⟩
    intro so bs
    exact ⟨core_stores_csr ready is aligned admitted rfl, core_stores_memory ready is aligned admitted rfl⟩
  case threads =>
    intro x k th a inside o ready
    refine ⟨fun n sg i is => ⟨thread_loads ready is, thread_load_faults ready is⟩,
      fun n i is => ⟨fun aligned within colour => ?_, thread_store_faults ready is⟩⟩
    obtain ⟨q, yields, wrote⟩ := thread_stores ready is aligned within colour
    exact ⟨q, yields, wrote.buffer, fun b out => get_written (length_leBytes ..) out (.inr wrote.buffer), wrote.thread, wrote.others, wrote.cores,
      wrote.rest⟩

end Sys2Proof.Safety
end

section
/-! SUPPORT. The run of a library program where the table of threads lists its thread twice; and the refutation of the statement on sealed
values and the context. -/

namespace Sys2Proof.Safety

open Sys2Proof.Machine

/-- A part whose table lists thread 1 twice, first as it reads and then with class AUTH, beside thread 0. The table is a list of pairs, and
the statement does not ask that it list an index only once. -/
def threadTwice : Part :=
  { dsp := { ctxs := [(0, { state := .running })] }
    seq := { threads := [(0, { busy := true, cls := 1 }),
      (1, { busy := true, budget := 1, segLen := 4, cls := 1 }), (1, { busy := true, cls := 0 })] } }

/-- The second listing gives thread 1 its turn. -/
theorem threadTwice_ready : ThreadReady threadTwice 1 :=
  ⟨by decide, by decide, by decide, by decide, by decide, by decide⟩

/-- The run writes the thread before its HEND, and with that the second listing goes: thread 0 is next, and the run does not come about. -/
theorem threadTwice_waits : ((threadTwice.hendOrRun (.thread 0 1) 0 0).thread 1).busy = true := by decide +kernel

/-- Refutes O34: HEND as the first command of library program 0x0000 does not end a harvest that the table of threads lists twice. -/
theorem not_sealedValuesMeetTheContext : ¬ Obligations.SealedValuesMeetTheContext := by
  unfold Obligations.SealedValuesMeetTheContext
  intro holds
  obtain ⟨-, -, -, first, -⟩ := holds { pending := [], fuses := Fuses.shipped, part := threadTwice } 0 1
  obtain ⟨q, yields, ⟨idle, -⟩, -⟩ := first 0 0 threadTwice_ready rfl rfl rfl rfl rfl (by decide) rfl (by decide) rfl rfl rfl rfl
  have result : threadTwice.hendOrRun (.thread 0 1) 0 0 = q := by
    injection yields with next
    exact congrArg State.part next
  have busy := threadTwice_waits
  rw [result] at busy
  exact absurd (busy.symm.trans (congrArg Thread.busy idle)) (by decide)

end Sys2Proof.Safety
end

section
/-! SUPPORT. ENGX: the engine that an operation goes to, what its instruction asks of the operand map and its ranges, and what it sends (R126, R127,
R203, R286 to R293). -/

namespace Sys2Proof.Safety

open Sys2Proof.Machine

/-! ### The shallowest engine -/

/-- The shallower of two engines, the earlier where they are as deep. -/
def shallower (depth : Nat → Nat) (b : Option Nat) (e : Nat) : Option Nat :=
  match b with
  | none => some e
  | some a => if depth e < depth a then some e else some a

/-- Of engines in rising order the walk finds the shallowest, and none as shallow before it. -/
theorem shallower_foldl (depth : Nat → Nat) (l : List Nat) (a : Nat) (rising : (a :: l).Pairwise (· < ·)) :
    ∃ e ∈ a :: l, l.foldl (shallower depth) (some a) = some e ∧ ∀ d ∈ a :: l, depth e < depth d ∨ (depth e = depth d ∧ e ≤ d) := by
  induction l generalizing a with
  | nil => exact ⟨a, by simp, rfl, by simp⟩
  | cons b l ih =>
    have before : a < b := List.rel_of_pairwise_cons rising (by simp)
    rw [List.foldl_cons, shallower]
    by_cases less : depth b < depth a
    · obtain ⟨e, he, walk, least⟩ := ih b rising.of_cons
      refine ⟨e, List.mem_cons_of_mem _ he, (if_pos less ▸ walk), List.forall_mem_cons.2 ⟨?_, least⟩⟩
      have := least b (by simp)
      omega
    · obtain ⟨e, he, walk, least⟩ := ih a (rising.sublist (by simp))
      have atA := least a (by simp)
      have rest : ∀ d ∈ l, depth e < depth d ∨ (depth e = depth d ∧ e ≤ d) := fun d hd => least d (by simp [hd])
      refine ⟨e, ?_, (if_neg less ▸ walk), List.forall_mem_cons.2 ⟨atA, List.forall_mem_cons.2 ⟨by omega, rest⟩⟩⟩
      rcases List.mem_cons.1 he with rfl | he <;> simp [*]

theorem enginesOf_rising (g : Bool) : (Part.enginesOf g).Pairwise (· < ·) := by
  cases g <;> decide

/-- Engine `e` is of the class, up, and holds fewer than `depth` queued operations. -/
def Fits (p : Part) (grainer : Bool) (depth e : Nat) : Prop :=
  e ∈ Part.enginesOf grainer ∧ p.engineUp e = true ∧ (p.eng e).queue.length < depth

/-- The engine picked, where one fits. -/
theorem pickEngine_spec (p : Part) (g : Bool) (depth : Nat) :
    ((∀ e, ¬ Fits p g depth e) ∧ p.pickEngine g depth = none) ∨
      ∃ e, Fits p g depth e ∧ p.pickEngine g depth = some e ∧
        ∀ d, Fits p g depth d → p.depthOf e < p.depthOf d ∨ (p.depthOf e = p.depthOf d ∧ e ≤ d) := by
  have member : ∀ e, e ∈ (Part.enginesOf g).filter (fun e => p.engineUp e && decide ((p.eng e).queue.length < depth)) ↔ Fits p g depth e := by
    simp [Fits]
  have rising := (enginesOf_rising g).filter fun e => p.engineUp e && decide ((p.eng e).queue.length < depth)
  have walk : p.pickEngine g depth =
      ((Part.enginesOf g).filter fun e => p.engineUp e && decide ((p.eng e).queue.length < depth)).foldl (shallower p.depthOf) none := rfl
  rw [walk]
  generalize (Part.enginesOf g).filter (fun e => p.engineUp e && decide ((p.eng e).queue.length < depth)) = l at member rising
  cases l with
  | nil => exact .inl ⟨fun e fits => by simpa using (member e).2 fits, rfl⟩
  | cons a l =>
    obtain ⟨e, he, found, least⟩ := shallower_foldl p.depthOf l a rising
    exact .inr ⟨e, (member e).1 he, found, fun d fits => least d ((member d).2 fits)⟩

theorem sendOp_picked {p : Part} {o : EngOp} {e : Nat} (h : p.pickEngine (Pk.grainer o.mode.toNat) o.depth = some e) :
    p.sendOp o = (p.dspNow (Part.engKey e)).modEng e fun x => { x with queue := x.queue ++ [o] } := by
  rw [Part.sendOp, show p.pickEngine (o.mode.toNat / 64 == 2) o.depth = some e from h]
  rfl

theorem sendOp_waits {p : Part} {o : EngOp} (h : p.pickEngine (Pk.grainer o.mode.toNat) o.depth = none) :
    p.sendOp o = { p with rke := { p.rke with waiting := p.rke.waiting ++ [o] } } := by
  rw [Part.sendOp, show p.pickEngine (o.mode.toNat / 64 == 2) o.depth = none from h]
  rfl

/-! ### The instruction -/

section
variable {p : Part} {h : Fin 16} {t : Fin 32} {sd ss : BitVec 4} {kf : BitVec 5} {op : BitVec 9} {f : Nat}

/-- A thread is ready for ENGX: a request free, the registers that the op touches settled, those that it reads of its colour (R126, R144, R204). -/
structure EngxReady (p : Part) (h : Fin 16) (t : Fin 32) (op : BitVec 9) (sd ss : BitVec 4) (kf : BitVec 5) : Prop where
  ready   : ThreadReady p (Part.threadNo h t)
  room    : (p.thread (Part.threadNo h t)).reqs.length < 4
  colour  : (sregOf p (Part.threadNo h t) ss).colour = (p.thread (Part.threadNo h t)).colour
  inputs  : ∀ r ∈ Part.mapInRegs (sregOf p (Part.threadNo h t) ss) sd.toNat,
    (Part.sreg (p.thread (Part.threadNo h t)) r).colour = (p.thread (Part.threadNo h t)).colour
  settled : ∀ a ∈ (p.thread (Part.threadNo h t)).reqs, ∀ r ∈ a.pendDest,
    r ∉ p.engxTouches op.toNat (p.thread (Part.threadNo h t)) sd.toNat ss.toNat kf

theorem EngxReady.goes (r : EngxReady p h t op sd ss kf) :
    (Part.mustWait (p.thread (Part.threadNo h t)) (p.engxTouches op.toNat (p.thread (Part.threadNo h t)) sd.toNat ss.toNat kf) ||
      decide (4 ≤ (p.thread (Part.threadNo h t)).reqs.length)) = false := by
  rw [mustWait_settled fun n hn a ha pending => r.settled a ha n pending hn, Bool.false_or, decide_eq_false_iff_not]
  exact Nat.not_le.2 r.room

theorem EngxReady.oneColour (r : EngxReady p h t op sd ss kf) :
    ¬ ((Part.sreg (p.thread (Part.threadNo h t)) ss.toNat).colour ≠ (p.thread (Part.threadNo h t)).colour ∨
      ((Part.mapInRegs (Part.sreg (p.thread (Part.threadNo h t)) ss.toNat) sd.toNat).any fun i =>
        (Part.sreg (p.thread (Part.threadNo h t)) i).colour != (p.thread (Part.threadNo h t)).colour) = true) := by
  rintro (other | other)
  · exact other r.colour
  · obtain ⟨i, hi, differs⟩ := List.any_eq_true.1 other
    exact bne_iff_ne.1 differs (r.inputs i hi)

/-- K names a sealed register. -/
theorem engx_register (r : EngxReady p h t op sd ss kf) (reg : kf.toNat < 0x10) :
    p.engx op (.thread h t) sd ss kf = (issuing p (Part.threadNo h t)).endHarvest (Part.threadNo h t) 0x12 0x10 [] 0 := by
  unfold Part.engx
  exact (r.ready.threadOnly _ _ _ r.goes).trans ((if_neg r.oneColour).trans (if_pos reg))

theorem keyField_none (high : 0x14 ≤ kf.toNat) : Part.keyField kf = none := if_neg (by omega)

theorem keyField_range (field : Part.keyField kf = some f) : 0x10 ≤ kf.toNat := by
  unfold Part.keyField at field
  split at field
  · omega
  · cases field

/-- K names neither a register nor a handle field. -/
theorem engx_neither (r : EngxReady p h t op sd ss kf) (high : 0x14 ≤ kf.toNat) :
    p.engx op (.thread h t) sd ss kf = (issuing p (Part.threadNo h t)).threadFault (Part.threadNo h t) Part.cIllegal := by
  unfold Part.engx
  refine (r.ready.threadOnly _ _ _ r.goes).trans ((if_neg r.oneColour).trans ((if_neg (by omega)).trans ?_))
  rw [keyField_none high]

/-- The operand map, or a register of the result, breaks a rule (R288). -/
def MapBad (o : Nat) (th : Thread) (y : SReg) (sd : BitVec 4) (alg : Nat) : Prop :=
  Part.mapIllegal o th y sd.toNat alg = true ∨ (Pk.verifies o = true ∧ sd ≠ 0) ∨ 16 < sd.toNat + Part.engxRegs o alg sd.toNat ∨
    (Part.engxRegs o alg sd.toNat = 2 ∧ sd.toNat % 2 = 1)

theorem mapBad_iff (o : Nat) (th : Thread) (y : SReg) (sd : BitVec 4) (alg : Nat) :
    (Part.mapIllegal o th y sd.toNat alg || (Pk.verifies o && sd != 0) || decide (16 < sd.toNat + Part.engxRegs o alg sd.toNat) ||
      (Part.engxRegs o alg sd.toNat == 2 && decide (sd.toNat % 2 = 1))) = true ↔ MapBad o th y sd alg := by
  simp only [MapBad, Bool.or_eq_true, Bool.and_eq_true, bne_iff_ne, beq_iff_eq, decide_eq_true_eq, or_assoc]

/-- The result passes the room that it may take (R289). -/
def NoRoom (p : Part) (o : Nat) (th : Thread) (y : SReg) (slot : Slot) : Prop :=
  ((Pk.signs o = true ∨ o = Pk.mlkemEnc) ∧ (fld (Part.mapWord y 2) 16 16).toNat < Pk.outLen o slot.alg.toNat slot.modLimbs.toNat) ∨
    (bitAt (Part.mapWord y 3) 2 = true ∧ (p.ctx th.ctx).sglOut.2 = 0) ∨
    (if bitAt (Part.mapWord y 3) 2 then Part.outListLen (p.ctx th.ctx) else 384) <
      (fld (Part.mapWord y 2) 0 16).toNat + (fld (Part.mapWord y 2) 16 16).toNat

theorem noRoom_iff (p : Part) (o : Nat) (th : Thread) (y : SReg) (slot : Slot) :
    (decide ((if bitAt (Part.mapWord y 3) 2 then Part.outListLen (p.ctx th.ctx) else 384) <
        (fld (Part.mapWord y 2) 0 16).toNat + (fld (Part.mapWord y 2) 16 16).toNat) ||
      (bitAt (Part.mapWord y 3) 2 && (p.ctx th.ctx).sglOut.2 == 0) ||
      ((Pk.signs o || o == Pk.mlkemEnc) && decide ((fld (Part.mapWord y 2) 16 16).toNat < Pk.outLen o slot.alg.toNat slot.modLimbs.toNat))) = true
      ↔ NoRoom p o th y slot := by
  simp only [NoRoom, Bool.or_eq_true, Bool.and_eq_true, beq_iff_eq, decide_eq_true_eq]
  tauto

/-- The first and the second input that an operand map names. -/
def mapIn1 (p : Part) (th : Thread) (y : SReg) (sd : BitVec 4) : Option (List Byte) :=
  p.mapInput th (fld (Part.mapWord y 3) 0 2).toNat (fld (Part.mapWord y 0) 0 16).toNat (fld (Part.mapWord y 0) 16 16).toNat sd.toNat
def mapIn2 (p : Part) (th : Thread) (y : SReg) : Option (List Byte) :=
  p.mapInput th (if bitAt (Part.mapWord y 3) 3 then 1 else 0) (fld (Part.mapWord y 1) 0 16).toNat (fld (Part.mapWord y 1) 16 16).toNat 0

/-- The slot that a handle field of a thread names. -/
abbrev fieldSlot (p : Part) (th : Thread) (f : Nat) : Slot := p.slot (hIndex (p.fieldHandle th f))

theorem engx_illegal (r : EngxReady p h t op sd ss kf) (field : Part.keyField kf = some f)
    (bad : MapBad op.toNat (p.thread (Part.threadNo h t)) (sregOf p (Part.threadNo h t) ss) sd
      (fieldSlot p (p.thread (Part.threadNo h t)) f).alg.toNat) :
    p.engx op (.thread h t) sd ss kf = (issuing p (Part.threadNo h t)).threadFault (Part.threadNo h t) Part.cIllegal := by
  have high := keyField_range field
  unfold Part.engx
  refine (r.ready.threadOnly _ _ _ r.goes).trans ((if_neg r.oneColour).trans ((if_neg (by omega)).trans ?_))
  rw [field]
  exact if_pos ((mapBad_iff ..).2 bad)

theorem engx_bounds (r : EngxReady p h t op sd ss kf) (field : Part.keyField kf = some f)
    (good : ¬ MapBad op.toNat (p.thread (Part.threadNo h t)) (sregOf p (Part.threadNo h t) ss) sd
      (fieldSlot p (p.thread (Part.threadNo h t)) f).alg.toNat)
    (out : mapIn1 p (p.thread (Part.threadNo h t)) (sregOf p (Part.threadNo h t) ss) sd = none ∨
      mapIn2 p (p.thread (Part.threadNo h t)) (sregOf p (Part.threadNo h t) ss) = none ∨
      NoRoom p op.toNat (p.thread (Part.threadNo h t)) (sregOf p (Part.threadNo h t) ss) (fieldSlot p (p.thread (Part.threadNo h t)) f)) :
    p.engx op (.thread h t) sd ss kf = (issuing p (Part.threadNo h t)).threadFault (Part.threadNo h t) Part.cBounds := by
  have high := keyField_range field
  unfold Part.engx
  refine (r.ready.threadOnly _ _ _ r.goes).trans ((if_neg r.oneColour).trans ((if_neg (by omega)).trans ?_))
  rw [field]
  refine (if_neg (mt (mapBad_iff ..).1 good)).trans ?_
  generalize first : Part.mapInput _ _ _ _ _ _ = in1
  generalize second : Part.mapInput _ _ _ _ _ _ = in2
  cases in1 with
  | none => rfl
  | some in1 =>
    cases in2 with
    | none => rfl
    | some in2 =>
      have room := (out.resolve_left fun none => Option.some_ne_none in1 (first.symm.trans none)).resolve_left fun none =>
        Option.some_ne_none in2 (second.symm.trans none)
      exact if_pos ((noRoom_iff ..).2 room)

/-- The request that an ENGX adds. -/
def engxReq (o : Nat) (th : Thread) (regs : List Nat) : EngReq :=
  { id := th.nextReq, ready := false, fixed := o == Pk.mldsaSign, dest := [], window := [], verifies := Pk.verifies o, verdict := none, fail := none
    pc := th.pc, unit := if Pk.grainer o then .grainer 0 else .rake 0, pendDest := regs }

/-- The operation that an ENGX sends. -/
def engxOp (p : Part) (k o f : Nat) (th : Thread) (y : SReg) (sd : BitVec 4) (in1 in2 : List Byte) : EngOp :=
  { owner := .thread k th.nextReq, cls := th.cls, fn := (p.ctx th.ctx).fn, mode := BitVec.ofNat 9 o, handle := p.fieldHandle th f, field := f
    colour := th.colour, in1 := if o = Pk.mlkemEnc then [] else in1, in2 := if Pk.verifies o then in2 else []
    outLen := (fld (Part.mapWord y 2) 16 16).toNat
    outPos := if Pk.signs o = true ∨ o = Pk.mlkemEnc then some (fld (Part.mapWord y 2) 0 16).toNat else none, sd := sd.toNat
    word3 := Part.mapWord y 3, depth := if Pk.grainer o then (p.ctx th.ctx).depthG else (p.ctx th.ctx).depthR }

theorem engx_sends (r : EngxReady p h t op sd ss kf) (field : Part.keyField kf = some f)
    (good : ¬ MapBad op.toNat (p.thread (Part.threadNo h t)) (sregOf p (Part.threadNo h t) ss) sd
      (fieldSlot p (p.thread (Part.threadNo h t)) f).alg.toNat)
    (room : ¬ NoRoom p op.toNat (p.thread (Part.threadNo h t)) (sregOf p (Part.threadNo h t) ss) (fieldSlot p (p.thread (Part.threadNo h t)) f))
    {in1 in2 : List Byte} (first : mapIn1 p (p.thread (Part.threadNo h t)) (sregOf p (Part.threadNo h t) ss) sd = some in1)
    (second : mapIn2 p (p.thread (Part.threadNo h t)) (sregOf p (Part.threadNo h t) ss) = some in2) :
    let k := Part.threadNo h t
    let th := p.thread k
    let regs := (List.range (Part.engxRegs op.toNat (fieldSlot p th f).alg.toNat sd.toNat)).map (sd.toNat + ·)
    p.engx op (.thread h t) sd ss kf =
      (((turned p k).modThread k fun t => { counted t with reqs := t.reqs ++ [engxReq op.toNat th regs], nextReq := t.nextReq + 1 }).sendOp
        (engxOp p k op.toNat f th (sregOf p k ss) sd in1 in2)).modThread k fun t => { t with pc := th.pc + 4 } := by
  intro k th regs
  have high := keyField_range field
  unfold Part.engx
  refine (r.ready.threadOnly _ _ _ r.goes).trans ((if_neg r.oneColour).trans ((if_neg (by omega)).trans ?_))
  rw [field]
  refine (if_neg (mt (mapBad_iff ..).1 good)).trans ?_
  generalize one : Part.mapInput _ _ _ _ _ _ = a
  generalize two : Part.mapInput _ _ _ _ _ _ = b
  cases one.symm.trans first
  cases two.symm.trans second
  refine (if_neg (mt (noRoom_iff ..).1 room)).trans ?_
  have added : (issuing p k).addReq k (engxReq op.toNat th regs) =
      (turned p k).modThread k fun t => { counted t with reqs := t.reqs ++ [engxReq op.toNat th regs], nextReq := t.nextReq + 1 } :=
    modThread_twice rfl
  have outs : (if (Pk.signs op.toNat || op.toNat == Pk.mlkemEnc) = true then some (fld (Part.mapWord (sregOf p k ss) 2) 0 16).toNat else none) =
      if Pk.signs op.toNat = true ∨ op.toNat = Pk.mlkemEnc then some (fld (Part.mapWord (sregOf p k ss) 2) 0 16).toNat else none :=
    if_congr (by simp) rfl rfl
  rw [← added, engxOp, ← outs, BitVec.ofNat_toNat, BitVec.setWidth_eq]
  rfl

end

/-- The ENGX instructions. -/
def IsEngx (x : Proc) (sd ss : BitVec 4) (kf : BitVec 5) (o : Nat) (i : Instr) : Prop :=
  (o = 0x000 ∧ i = .rsaSign x sd ss kf) ∨ (o = 0x001 ∧ i = .rsaVerify x sd ss kf) ∨ (o = 0x002 ∧ i = .rsaOaepDec x sd ss kf) ∨
    (o = 0x040 ∧ i = .ecSign x sd ss kf) ∨ (o = 0x041 ∧ i = .ecVerify x sd ss kf) ∨ (o = 0x042 ∧ i = .ecDh x sd ss kf) ∨
    (o = 0x048 ∧ i = .edSign x sd ss kf) ∨ (o = 0x049 ∧ i = .edVerify x sd ss kf) ∨ (o = 0x080 ∧ i = .mldsaSign x sd ss kf) ∨
    (o = 0x081 ∧ i = .mldsaVerify x sd ss kf) ∨ (o = 0x088 ∧ i = .mlkemEnc x sd ss kf) ∨ (o = 0x089 ∧ i = .mlkemDec x sd ss kf) ∨
    (o = 0x090 ∧ i = .slhFors x sd ss kf) ∨ (o = 0x091 ∧ i = .slhLayer x sd ss kf) ∨ (o = 0x092 ∧ i = .slhVerify x sd ss kf)

theorem IsEngx.arm {x : Proc} {sd ss : BitVec 4} {kf : BitVec 5} {o : Nat} {i : Instr} (h : IsEngx x sd ss kf o i) :
    ∃ op : BitVec 9, op.toNat = o ∧ ∀ s, exec i s = onPart (Part.engx op x sd ss kf) s := by
  rcases h with ⟨rfl, rfl⟩ | ⟨rfl, rfl⟩ | ⟨rfl, rfl⟩ | ⟨rfl, rfl⟩ | ⟨rfl, rfl⟩ |
    ⟨rfl, rfl⟩ | ⟨rfl, rfl⟩ | ⟨rfl, rfl⟩ | ⟨rfl, rfl⟩ | ⟨rfl, rfl⟩ |
    ⟨rfl, rfl⟩ | ⟨rfl, rfl⟩ | ⟨rfl, rfl⟩ | ⟨rfl, rfl⟩ | ⟨rfl, rfl⟩ <;> exact ⟨BitVec.ofNat 9 _, rfl, fun _ => rfl⟩

/-- Settles O37: the engine by the walk over its class, the instruction by what it asks of K, of its map and of its ranges. -/
theorem engineOperationsAreSent : Obligations.EngineOperationsAreSent := by
  refine ⟨?queue, ?instruction⟩
  case queue =>
    intro p o fits
    rcases pickEngine_spec p (Pk.grainer o.mode.toNat) o.depth with ⟨none, picked⟩ | ⟨e, fit, picked, least⟩
    · exact ⟨fun _ => sendOp_waits picked, fun ⟨e, fit⟩ => absurd fit (none e)⟩
    · exact ⟨fun none => absurd fit (none e), fun _ => ⟨e, fit, sendOp_picked picked, least⟩⟩
  case instruction =>
    intro s h t sd ss kf o i p k x th y is ready room colour inputs settled
    obtain ⟨op, rfl, arm⟩ := IsEngx.arm is
    have r : EngxReady p h t op sd ss kf := ⟨ready, room, colour, inputs, settled⟩
    refine ⟨fun high => ends_fault (arm s) ready.atWork (engx_neither r high), fun low => ?_, fun f field => ⟨fun out => ?_, ?_⟩⟩
    · exact ⟨_, .of_onPart (arm s) (engx_register r low), (endHarvest_done ready.atWork.busy ..).ends ready.atWork⟩
    · by_cases bad : MapBad op.toNat th y sd (fieldSlot p th f).alg.toNat
      · exact ends_fault (arm s) ready.atWork (engx_illegal r field bad)
      · exact ends_fault (arm s) ready.atWork (engx_bounds r field bad (out.resolve_left bad))
    · intro good space a b first second
      exact .of_onPart (arm s) (engx_sends r field good space first second)

end Sys2Proof.Safety
end

section
/-! SUPPORT. The sealed engine group: the key that K names, what a pan computes of one piece and how its request is tagged (R145, R146, R149, R155,
R255 to R263, R708). -/

namespace Sys2Proof.Safety

open Sys2Proof.Machine

/-! ### Reads of the Cellar -/

section
variable (p : Part) (q : Seq)

/-- What the Cellar answers has nothing to do with the sequencers. -/
theorem headCheck_seq (h : BitVec 32) (colour : BitVec 12) (accepted : List (BitVec 4)) :
    (Part.headCheck h colour accepted { p with seq := q }).1 = (p.headCheck h colour accepted).1 := by
  simp only [Part.headCheck, apply_ite Prod.fst]
  rfl

theorem chainCheck_seq (i : Nat) (s : Slot) (k n : Nat) :
    (Part.chainCheck i s k n { p with seq := q }).1 = (p.chainCheck i s k n).1 := by
  induction n generalizing k with
  | zero => rfl
  | succ n ih =>
    simp only [Part.chainCheck, apply_ite Prod.fst, ih]
    rfl

theorem slotRead_seq (h : BitVec 32) (colour : BitVec 12) (accepted : List (BitVec 4)) :
    (Part.slotRead h colour accepted { p with seq := q }).1 = (p.slotRead h colour accepted).1 := by
  have head := headCheck_seq p q h colour accepted
  unfold Part.slotRead
  rcases one : p.headCheck h colour accepted with ⟨_ | e, p'⟩ <;>
    rcases two : Part.headCheck h colour accepted { p with seq := q } with ⟨_ | e', q'⟩ <;> rw [one, two] at head <;> cases head
  · obtain ⟨-, rfl⟩ := Prod.mk.inj (one.symm.trans (headCheck_passes (congrArg Prod.fst one)))
    obtain ⟨-, rfl⟩ := Prod.mk.inj (two.symm.trans (headCheck_passes (congrArg Prod.fst two)))
    have chain := chainCheck_seq p' q (hIndex h) (p'.slot (hIndex h)) 1 ((p'.slot (hIndex h)).chainLen.toNat - 1)
    have slot : Part.slot { p' with seq := q } = p'.slot := rfl
    simp only [slot]
    rcases one : Part.chainCheck _ _ _ _ p' with ⟨_ | e, a⟩ <;> rcases two : Part.chainCheck _ _ _ _ { p' with seq := q } with ⟨_ | e', b⟩ <;>
      rw [one, two] at chain <;> cases chain
    · obtain ⟨-, rfl⟩ := Prod.mk.inj (one.symm.trans (chainCheck_passes (congrArg Prod.fst one)))
      obtain ⟨-, rfl⟩ := Prod.mk.inj (two.symm.trans (chainCheck_passes (congrArg Prod.fst two)))
      rfl
    · rfl
  · rfl

/-- A read of the Cellar that fails marks a slot bad and records it, at most. -/
theorem markBad_seq (i : Nat) (b : Bool) : (p.markBad i b).seq = p.seq := by
  unfold Part.markBad
  split
  · rfl
  · exact (Recorded.post ..).seq

theorem headCheck_keeps (h : BitVec 32) (colour : BitVec 12) (accepted : List (BitVec 4)) : (p.headCheck h colour accepted).2.seq = p.seq := by
  simp only [Part.headCheck, apply_ite Prod.snd, apply_ite Part.seq, markBad_seq, ite_self]

theorem chainCheck_keeps (i : Nat) (s : Slot) (k n : Nat) : (p.chainCheck i s k n).2.seq = p.seq := by
  induction n generalizing k with
  | zero => rfl
  | succ n ih => simp only [Part.chainCheck, Part.when, apply_ite Prod.snd, apply_ite Part.seq, markBad_seq, ih, ite_self]

theorem slotRead_keeps (h : BitVec 32) (colour : BitVec 12) (accepted : List (BitVec 4)) : (p.slotRead h colour accepted).2.seq = p.seq := by
  have head := headCheck_keeps p h colour accepted
  unfold Part.slotRead
  generalize p.headCheck h colour accepted = a at head ⊢
  obtain ⟨_ | e, a⟩ := a
  · have chain := chainCheck_keeps a (hIndex h) (a.slot (hIndex h)) 1 ((a.slot (hIndex h)).chainLen.toNat - 1)
    simp only
    generalize Part.chainCheck _ _ _ _ _ = b at chain ⊢
    obtain ⟨_ | e, b⟩ := b <;> exact chain.trans head
  · exact head

end

/-! ### Keys (R145, R149, R155) -/

section
variable {p : Part} {k f : Nat} {t : Thread} {ws : List Nat} {algOk : Byte → Bool} {need : BitVec 16 → Bool} {key : Part.PanKey} {kf : BitVec 5}

/-- A key that a slot gives is given whatever the sequencers hold and whichever registers wait for it, and reading it changes nothing. -/
theorem slotKey_ok (ok : (p.slotKey k f t ws algOk need).1 = .ok key) (ws' : List Nat) (q : Seq) :
    Part.slotKey k f t ws' algOk need { p with seq := q } = (.ok key, { p with seq := q }) := by
  unfold Part.slotKey at ok ⊢
  rcases read : p.slotRead (p.fieldHandle t f) t.colour [1] with ⟨e | ss, p'⟩ <;> rw [read] at ok
  · cases ok
  · obtain ⟨-, rfl⟩ := Prod.mk.inj (read.symm.trans (slotRead_answers (congrArg Prod.fst read)))
    have again : Part.slotRead (Part.fieldHandle { p' with seq := q } t f) t.colour [1] { p' with seq := q } = (.ok ss, { p' with seq := q }) :=
      slotRead_answers ((slotRead_seq p' q ..).trans (congrArg Prod.fst read))
    have use : Part.useCheck { p' with seq := q } = p'.useCheck := rfl
    rw [again]
    simp only [use] at ok ⊢
    split at ok
    · cases ok
    · split at ok
      · next needed =>
        cases ok
        exact if_pos needed
      · cases ok

theorem panKey_ok (ok : (p.panKey k t ws kf algOk need).1 = .ok key) (ws' : List Nat) (q : Seq) :
    Part.panKey k t ws' kf algOk need { p with seq := q } = (.ok key, { p with seq := q }) := by
  unfold Part.panKey at ok ⊢
  split at ok
  · next reg => exact (if_pos reg).trans (congrArg (·, _) ok)
  · next reg =>
    rw [if_neg reg]
    cases field : Part.keyField kf with
    | none =>
      rw [field] at ok
      cases ok
    | some f =>
      rw [field] at ok
      exact slotKey_ok ok ws' q

/-- A slot whose read fails. -/
theorem panKey_late {st why : Byte} (field : Part.keyField kf = some f)
    (fails : (p.slotRead (p.fieldHandle t f) t.colour [1]).1 = .error (st, why)) (q : Seq) :
    ∃ z, z.seq = q ∧ Part.panKey k t ws kf algOk need { p with seq := q } = (.error (Part.lateFail k t ws st (Part.keyDetail why f)), z) := by
  have high := keyField_range field
  have again := slotRead_seq p q (p.fieldHandle t f) t.colour [1]
  have keeps := slotRead_keeps { p with seq := q } (p.fieldHandle t f) t.colour [1]
  have handle : Part.fieldHandle { p with seq := q } t f = p.fieldHandle t f := rfl
  rw [Part.panKey, if_neg (by omega), field]
  simp only [Part.slotKey, handle]
  generalize Part.slotRead _ _ _ { p with seq := q } = a at again keeps ⊢
  obtain ⟨_ | ss, a⟩ := a
  · cases again.trans fails
    exact ⟨a, keeps, rfl⟩
  · cases again.trans fails

end

/-! ### Instructions of the group and their requests -/

section
variable {p : Part} {h : Fin 16} {t : Fin 32} {ss : BitVec 4} {kf : BitVec 5} {ws : List Nat}

/-- An instruction of the engine group on a thread ready for it. -/
theorem EngineReady.panOp (r : EngineReady p h t ss kf ws) (fn sd : BitVec 4) (m : BitVec 9) {rs : Thread → Part → List Nat}
    (body : Nat → Thread → SReg → Part → Part) (among : ∀ n ∈ rs (p.thread (Part.threadNo h t)) p, n = ss.toNat ∨ n ∈ ws) :
    p.panOp (.thread h t) fn sd ss kf m rs body =
      body (Part.threadNo h t) (p.thread (Part.threadNo h t)) (sregOf p (Part.threadNo h t) ss) (issuing p (Part.threadNo h t)) := by
  have settled : Part.mustWait (p.thread (Part.threadNo h t))
      (rs (p.thread (Part.threadNo h t)) p ++ if kf.toNat < 0x10 then Part.keyRegs kf.toNat else []) = false := by
    refine mustWait_settled fun n hn a ha pending => ?_
    obtain ⟨noSs, noWs, noKey⟩ := r.settled a ha n pending
    rcases List.mem_append.1 hn with hn | hn
    · exact (among n hn).elim noSs noWs
    · split at hn
      · next reg => exact noKey reg hn
      · cases hn
  have room : decide (4 ≤ (p.thread (Part.threadNo h t)).reqs.length) = false := decide_eq_false (Nat.not_le.2 r.room)
  have pan : Part.procPan (.thread h t) p = true := r.pan
  unfold Part.panOp
  refine (r.ready.threadOnly _ _ _ ?_).trans (if_neg (not_not.2 r.colour))
  rw [settled, room, r.keyRead, pan]
  rfl

theorem threadNo_unit (h : Fin 16) (t : Fin 32) : Part.threadNo h t / 32 = h.val := by
  have := t.isLt
  unfold Part.threadNo
  omega

/-- A pan's request, with the chain that its thread keeps. -/
theorem panReq_issued (p : Part) (h : Fin 16) (t : Fin 32) (c : Option Chain) (dest : List (Nat × SReg)) (blocks : Nat) :
    let k := Part.threadNo h t
    ((issuing p k).modThread k fun t => { t with chain := c }).panReq k (p.thread k) dest blocks =
      (turned p k).modThread k fun t => { panIssued h dest blocks t with chain := c } := by
  intro k
  simp only [Part.panReq, Part.addReq, Part.threadNext, Part.threadGo, modThread_modThread, threadNo_unit, k]
  exact modThread_congr rfl

/-- A pan's request of an instruction that leaves the chain. -/
theorem panReq_kept (p : Part) (h : Fin 16) (t : Fin 32) (dest : List (Nat × SReg)) (blocks : Nat) :
    let k := Part.threadNo h t
    (issuing p k).panReq k (p.thread k) dest blocks =
      (turned p k).modThread k fun t => { panIssued h dest blocks t with chain := (p.thread k).chain } := by
  intro k
  simp only [Part.panReq, Part.addReq, Part.threadNext, Part.threadGo, modThread_modThread, threadNo_unit, k]
  exact modThread_congr rfl

/-- The request of an instruction whose key could not be read (R155). -/
theorem lateFail_issued {z : Part} (p : Part) (h : Fin 16) (t : Fin 32) (seq : z.seq = (issuing p (Part.threadNo h t)).seq) (ws : List Nat)
    (status detail : Byte) :
    let k := Part.threadNo h t
    let th := p.thread k
    let q := Part.lateFail k th ws status detail z
    (∀ j, j ≠ k → q.thread j = p.thread j) ∧ q.thread k = { counted th with
      reqs := th.reqs ++ [{ id := th.nextReq, dest := [], window := [], verdict := none, unit := .pan h, pc := th.pc
                            fail := some (status, detail), pendDest := ws }]
      nextReq := th.nextReq + 1, pc := th.pc + 4 } := by
  intro k th q
  have threads : ∀ j, z.thread j = (issuing p k).thread j := fun j => by rw [Part.thread, seq, Part.thread]
  refine ⟨fun j other => ?_, ?_⟩
  · simp only [q, Part.lateFail, Part.addReq, Part.threadNext, Part.threadGo, thread_modThread_other _ _ other, threads]
    rfl
  · simp only [q, Part.lateFail, Part.addReq, Part.threadNext, Part.threadGo, thread_modThread_same, threads, threadNo_unit, k]
    rfl

end

/-! ### ENC and DEC -/

theorem intact_iff (y : SReg) : Part.intact y = true ↔
    y.cls = 0 ∨ y.cls = 1 ∨ (y.cls = 4 ∧ y.form = 2) ∨ ((y.cls = 2 ∨ y.cls = 3) ∧ bitAt y.ksrc 2 = true) := by
  unfold Part.intact
  generalize y.cls = c
  split_ifs with low pin key
  · exact iff_of_true rfl (low.elim .inl (.inr ∘ .inl))
  · simp [pin]
  · rcases key with rfl | rfl <;> simp
  · simp_all

section
variable {p : Part} {h : Fin 16} {t : Fin 32} {sd fn : BitVec 4} {kf : BitVec 5} {m : BitVec 9} {enc : Bool} {y : SReg} {key : Part.PanKey}

/-- The key of an instruction that has been counted. -/
theorem issuing_panKey {k : Nat} {th : Thread} {algOk : Byte → Bool} {need : BitVec 16 → Bool}
    (known : (p.panKey k th [] kf algOk need).1 = .ok key) (ws : List Nat) :
    (issuing p k).panKey k th ws kf algOk need = (.ok key, issuing p k) := panKey_ok known ws (issuing p k).seq

/-- The blocks of a piece. -/
abbrev pieces (m : BitVec 9) (y : SReg) : Nat := ((Part.SReg.bytes y).length + Part.famBlock (Part.fam m) - 1) / Part.famBlock (Part.fam m)

theorem cipher_one (ok : Part.cipherOk m = true) (f4 : Part.fun' m ≠ 5) (one : Part.phase m = 0)
    (piece : Part.pieceOk (Part.fam m) (Part.fun' m) 0 (Part.SReg.bytes y).length = true)
    (known : (p.panKey (Part.threadNo h t) (p.thread (Part.threadNo h t)) [] kf (Part.famAlg m) (Part.cipherNeed enc false)).1 = .ok key) :
    let k := Part.threadNo h t
    let th := p.thread k
    (issuing p k).cipher enc fn sd kf m k th y = (issuing p k).panReq k th [(sd.toNat, Part.cipherReg enc th key y.cls (Part.intact y)
      (Part.cipherRun enc m key.key (List.replicate (Part.famBlock (Part.fam m)) 0) (Part.SReg.bytes y)).1)] (pieces m y) := by
  intro k th
  have no4 : (Part.fun' m == 5) = false := beq_false_of_ne f4
  simp only [Part.cipher, no4, ok, one, piece, k, th]
  simp [issuing_panKey known, pieces]

theorem cipher_load (ok : Part.cipherOk m = true) (f4 : Part.fun' m ≠ 5) (load : Part.phase m = 1)
    (size : (Part.SReg.bytes y).length = Part.famBlock (Part.fam m))
    (known : (p.panKey (Part.threadNo h t) (p.thread (Part.threadNo h t)) [] kf (Part.famAlg m) (Part.cipherNeed enc false)).1 = .ok key) :
    let k := Part.threadNo h t
    let th := p.thread k
    (issuing p k).cipher enc fn 0 kf m k th y = ((issuing p k).modThread k fun t => { t with chain := some { Part.newChain th fn kf m with
      cls := y.cls, lowOnly := Part.low y, ivPub := y.cls == 0, state := Part.SReg.bytes y } }).panReq k th [] 0 := by
  intro k th
  have no4 : (Part.fun' m == 5) = false := beq_false_of_ne f4
  simp only [Part.cipher, no4, ok, load, k, th, size]
  simp [issuing_panKey known, Part.panTake]

theorem cipher_chain (ok : Part.cipherOk m = true) (f4 : Part.fun' m ≠ 5) (later : 2 ≤ Part.phase m)
    (piece : Part.pieceOk (Part.fam m) (Part.fun' m) (Part.phase m) (Part.SReg.bytes y).length = true) {c0 : Chain}
    (open' : Part.chainFor (p.thread (Part.threadNo h t)) fn kf m = some c0)
    (known : (p.panKey (Part.threadNo h t) (p.thread (Part.threadNo h t)) [] kf (Part.famAlg m) (Part.cipherNeed enc false)).1 = .ok key) :
    let k := Part.threadNo h t
    let th := p.thread k
    let c := Part.chainData y c0
    let r := Part.cipherRun enc m key.key c.state (Part.SReg.bytes y)
    (issuing p k).cipher enc fn sd kf m k th y =
      ((issuing p k).modThread k fun t => { t with chain := if Part.phase m = 3 then none else some { c with state := r.2 } }).panReq k th
        [(sd.toNat, Part.cipherReg enc th key c.cls (Part.chainIntact c) r.1)] (pieces m y) := by
  intro k th c r
  have no4 : (Part.fun' m == 5) = false := beq_false_of_ne f4
  have notLoad : Part.phase m ≠ 1 := by omega
  have notOne : Part.phase m ≠ 0 := by omega
  have noLoad : (Part.phase m == Part.pLoad) = false := beq_false_of_ne notLoad
  simp only [Part.cipher, no4, ok, noLoad, piece, k, th, c, r, open', if_neg notLoad, if_neg notOne]
  simp [issuing_panKey known, pieces]

theorem cipher_late {f : Nat} {st why : Byte} (ok : Part.cipherOk m = true) (f4 : Part.fun' m ≠ 5) (one : Part.phase m = 0)
    (piece : Part.pieceOk (Part.fam m) (Part.fun' m) 0 (Part.SReg.bytes y).length = true) (field : Part.keyField kf = some f)
    (fails : (p.slotRead (p.fieldHandle (p.thread (Part.threadNo h t)) f) (p.thread (Part.threadNo h t)).colour [1]).1 = .error (st, why)) :
    let k := Part.threadNo h t
    let th := p.thread k
    ∃ z, z.seq = (issuing p k).seq ∧
      (issuing p k).cipher enc fn sd kf m k th y = Part.lateFail k th [sd.toNat] st (Part.keyDetail why f) z := by
  intro k th
  have no4 : (Part.fun' m == 5) = false := beq_false_of_ne f4
  obtain ⟨z, seq, late⟩ := panKey_late (p := p) (k := k) (t := th) (ws := [sd.toNat]) (algOk := Part.famAlg m) (need := Part.cipherNeed enc false)
    field fails (issuing p k).seq
  have late' : (issuing p k).panKey k th [sd.toNat] kf (Part.famAlg m) (Part.cipherNeed enc false) = _ := late
  refine ⟨z, seq, ?_⟩
  simp only [Part.cipher, no4, ok, one, piece]
  simp [late']

/-- ENC or DEC in the AES and TDES families. -/
theorem encDec_cipher {ss : BitVec 4} (family : Part.fam m ≤ 1)
    (r : EngineReady p h t ss kf (if Part.phase m = 1 then [] else [sd.toNat])) :
    p.encDec enc (.thread h t) sd ss kf m = (issuing p (Part.threadNo h t)).cipher enc (if enc then 0 else 1) sd kf m (Part.threadNo h t)
      (p.thread (Part.threadNo h t)) (sregOf p (Part.threadNo h t) ss) := by
  have notTransport : Part.fam m ≠ 4 := by omega
  unfold Part.encDec
  refine (r.panOp _ _ _ _ fun n hn => ?_).trans (if_neg notTransport)
  rw [if_pos notTransport] at hn
  exact List.mem_cons.1 hn

end

/-! ### MAC, HASH and KDER -/

section
variable {p : Part} {h : Fin 16} {t : Fin 32} {sd ss : BitVec 4} {kf : BitVec 5} {m : BitVec 9} {key : Part.PanKey}

/-- The message of one piece. -/
theorem gather_one (fn : BitVec 4) (one : Part.phase m = 0) (th : Thread) (y : SReg) :
    Part.gather fn kf m th y = some { Part.chainData y (Part.newChain th fn kf m) with state := Part.SReg.bytes y } := by
  rw [Part.gather, if_pos (.inl one)]
  rfl

/-- A message of one piece is intact (R258). -/
theorem chainIntact_one (fn : BitVec 4) (th : Thread) (y : SReg) (bs : List Byte) :
    Part.chainIntact { Part.chainData y (Part.newChain th fn kf m) with state := bs } = (Part.low y || (Part.intact y && y.len != 0)) := by
  refine Bool.eq_iff_iff.2 ?_
  simp only [Part.chainIntact, Part.chainData, Part.newChain, Bool.or_eq_true, Bool.and_eq_true, decide_eq_true_eq, bne_iff_ne, Bool.true_and]
  by_cases none : y.len = 0#5 <;> simp [none]

theorem mac_one (ok : Part.macOk m = true) (one : Part.phase m = 0) (r : EngineReady p h t ss kf [sd.toNat])
    (known : (p.panKey (Part.threadNo h t) (p.thread (Part.threadNo h t)) [] kf (Part.famAlg m) fun u => Part.has 2 u || Part.has 3 u).1 = .ok key) :
    let k := Part.threadNo h t
    let th := p.thread k
    let y := sregOf p k ss
    p.mac (.thread h t) sd ss kf m = (issuing p k).panReq k th
      [(sd.toNat, { Part.resReg th (Part.macOf m key.key (Part.SReg.bytes y)) (Part.join (Part.join 0 y.cls) 1) with
        release := Part.mayRelease key (Part.join 0 y.cls) (Part.low y || (Part.intact y && y.len != 0)) && Part.has 2 key.usage })]
      (Part.macBlocks m (Part.SReg.bytes y).length true) := by
  intro k th y
  unfold Part.mac
  refine (r.panOp _ _ _ _ fun n hn => ?_).trans ?_
  · simpa [one] using hn
  · simp only [gather_one 2 one, ok, chainIntact_one]
    simp [issuing_panKey known, one, Part.pieceBlocks]
    rfl

theorem hash_one (noKey : kf = 0x1F) (family : Part.fam m = 3) (code : Part.fun' m < 8) (one : Part.phase m = 0)
    (r : EngineReady p h t ss kf ((List.range ((Crypto.digestLen (Part.fun' m) + 15) / 16)).map (sd.toNat + ·)))
    (least : 16 ≤ Crypto.digestLen (Part.fun' m)) (most : Crypto.digestLen (Part.fun' m) ≤ 64)
    (fits : sd.toNat + (Crypto.digestLen (Part.fun' m) + 15) / 16 ≤ 16) :
    let k := Part.threadNo h t
    let th := p.thread k
    let y := sregOf p k ss
    p.hash (.thread h t) sd ss kf m = (issuing p k).panReq k th
      ((Crypto.pieces 16 (Crypto.digest (Part.fun' m) (Crypto.digestLen (Part.fun' m)) (Part.SReg.bytes y))).zipIdx.map fun z =>
        (sd.toNat + z.2, Part.resReg th z.1 (Part.join 0 y.cls)))
      (Part.hashBlocks (Part.fun' m) (Part.SReg.bytes y).length true) := by
  intro k th y
  have legal : ¬ (Part.fam m ≠ 3 ∨ 9 < Part.fun' m ∨ kf ≠ 0x1F ∨ ((!(0 == Part.pOne || 0 == Part.pLast)) && sd != 0) = true) := by
    rintro (other | high | other | nonzero)
    · exact other family
    · omega
    · exact other noKey
    · exact Bool.false_ne_true nonzero
  have range : ¬ (Crypto.digestLen (Part.fun' m) < 16 ∨ 64 < Crypto.digestLen (Part.fun' m) ∨
      16 < sd.toNat + (Crypto.digestLen (Part.fun' m) + 15) / 16) := by omega
  unfold Part.hash
  refine (r.panOp _ _ _ _ fun n hn => ?_).trans ?_
  · simp only [one, code, if_true, true_or, List.mem_cons] at hn
    refine hn.imp_right fun hn => hn.elim (fun e => ?_) id
    exact List.mem_map.2 ⟨0, List.mem_range.2 (by omega), e.symm⟩
  · simp only [gather_one 3 one, code, if_true, one, legal, range, if_false, Part.pieceBlocks]
    rfl

theorem kder_sends (method : [0x001, 0x002, 0x003, 0x010, 0x011, 0x020, 0x021, 0x030].contains m.toNat = true)
    (clear : m ≠ 0x003 ∨ (sregOf p (Part.threadNo h t) ss).cls = 0) (r : EngineReady p h t ss kf (Part.keyRegs sd.toNat))
    (known : (p.panKey (Part.threadNo h t) (p.thread (Part.threadNo h t)) [] kf (Part.kderAlg m.toNat) (Part.has 6)).1 = .ok key)
    (pair : (Part.kderRun m.toNat key (Part.SReg.bytes (sregOf p (Part.threadNo h t) ss))).1.length ≤ 16 ∨ sd.toNat % 2 = 0) :
    let k := Part.threadNo h t
    let th := p.thread k
    let y := sregOf p k ss
    let d := Part.kderRun m.toNat key (Part.SReg.bytes y)
    p.kder (.thread h t) sd ss kf m = (issuing p k).panReq k th
      ((Crypto.pieces 16 d.1).zipIdx.map fun z =>
        (sd.toNat + z.2, { Part.resReg th z.1 (Part.join 2 (Part.join y.cls key.cls)) with ksrc := key.ksrc })) d.2 := by
  intro k th y d
  have legal : (!([0x001, 0x002, 0x003, 0x010, 0x011, 0x020, 0x021, 0x030].contains m.toNat) || (m.toNat == 0x003 && y.cls != 0)) = false := by
    rw [method, Bool.not_true, Bool.false_or, Bool.and_eq_false_iff, beq_eq_false_iff_ne, bne_eq_false_iff_eq]
    exact clear.imp_left fun other same => other (BitVec.eq_of_toNat_eq same)
  have even : ¬ (16 < d.1.length ∧ sd.toNat % 2 = 1) := by
    intro odd
    rcases pair with short | even
    · exact absurd odd.1 (Nat.not_lt.2 short)
    · omega
  unfold Part.kder
  refine (r.panOp _ _ _ _ fun n hn => List.mem_cons.1 hn).trans ?_
  refine (if_neg (Bool.eq_false_iff.1 legal)).trans ?_
  rw [issuing_panKey known]
  exact if_neg even

end

/-- Settles O36, instruction by instruction. -/
theorem panInstructionsComputeAndTag : Obligations.PanInstructionsComputeAndTag := by
  intro s h t sd ss kf m p k x th y bs issues reg1 intact
  have whole : Part.intact y = decide intact := Bool.eq_iff_iff.2 ((intact_iff y).trans decide_eq_true_iff.symm)
  refine ⟨?cipher, ?mac, ?hash, ?kder⟩
  case cipher =>
    intro enc i is family f4 ok ready size blocks
    have arm : exec i s = onPart (Part.encDec enc x sd ss kf m) s := by
      subst is
      cases enc <;> rfl
    have runs := encDec_cipher (enc := enc) family ready
    refine ⟨fun f st why field fails one piece => ?late, ?known⟩
    case late =>
      obtain ⟨z, seq, late⟩ := cipher_late (enc := enc) (fn := if enc then 0 else 1) (sd := sd) ok f4 one piece field fails
      obtain ⟨others, own⟩ := lateFail_issued p h t seq [sd.toNat] st (Part.keyDetail why f)
      exact ⟨_, .of_onPart arm (runs.trans late), others, own⟩
    case known =>
      intro key known out
      have result : ∀ cls ok bs, Part.cipherReg enc th key cls ok bs = out cls ok bs := fun cls ok bs => by
        cases enc <;> rfl
      refine ⟨fun one piece => ?one, fun load zero full => ?load, fun c0 later piece started => ?chain⟩
      case one =>
        refine .of_onPart arm (runs.trans ((cipher_one ok f4 one piece known).trans ?_))
        rw [result, whole]
        exact panReq_kept ..
      case load =>
        subst zero
        exact .of_onPart arm (runs.trans ((cipher_load ok f4 load full known).trans (panReq_issued ..)))
      case chain =>
        refine .of_onPart arm (runs.trans ((cipher_chain ok f4 later piece started known).trans ?_))
        rw [result]
        exact panReq_issued ..
  case mac =>
    intro key known ready ok one
    refine .of_onPart (g := Part.mac x sd ss kf m) rfl ((mac_one ok one ready known).trans ?_)
    rw [whole]
    exact panReq_kept ..
  case hash =>
    intro noKey family code one d n ready least most fits
    exact .of_onPart (g := Part.hash x sd ss kf m) rfl ((hash_one noKey family code one ready least most fits).trans (panReq_kept ..))
  case kder =>
    intro key known method clear ready r pair
    exact .of_onPart (g := Part.kder x sd ss kf m) rfl ((kder_sends method clear ready known pair).trans (panReq_kept ..))

end Sys2Proof.Safety
end

section
/-! SUPPORT. Threads: the values that a harvest starts with, how requests land and budgets end, landing slots, and the loading and the budget set of
the sequencers (R125 to R129, R137 to R139, R205, R268, R299). -/

namespace Sys2Proof.Safety

open Sys2Proof.Machine

/-! ### Starts (R129) -/

/-- Registers written one by one from the first. -/
theorem get_zipIdx_set {α : Type} [DecidableEq α] (d : α) (l : List α) (n : Nat) (t : Tab α) (i : Nat) :
    ((l.zipIdx n).foldl (fun t x => t.set d x.2 x.1) t).get d i = if n ≤ i ∧ i < n + l.length then l.getD (i - n) d else t.get d i := by
  induction l generalizing n t with
  | nil => simp
  | cons a l ih =>
    rw [List.zipIdx_cons, List.foldl_cons, ih, Tab.get_set]
    by_cases first : i = n
    · subst first
      simp
    · by_cases later : n + 1 ≤ i
      · have place : i - n = (i - (n + 1)) + 1 := by omega
        simp only [later, first, true_and, if_false, show n ≤ i by omega, List.length_cons, place, List.getD_cons_succ,
          show n + 1 + l.length = n + (l.length + 1) by omega]
      · simp [later, first, show ¬ n ≤ i by omega]

theorem startRegs_get (n : Nat) (c : Ctx) (i : Nat) : (Part.startRegs n c).get 0 i =
    ([0, c.handles.getD 0 0, c.handles.getD 1 0, c.handles.getD 2 0, c.handles.getD 3 0, c.param, c.param2, BitVec.ofNat 32 c.inLen,
      BitVec.ofNat 32 c.outLen, 0x20000080#32 + BitVec.ofNat 32 (512 * n), at' c.effClass 0 ||| at' (Part.colourOf c.fn) 16] : List Word).getD i 0 := by
  rw [Part.startRegs, get_zipIdx_set]
  split
  · rfl
  · next out =>
    rw [List.getD_eq_getElem?_getD, List.getElem?_eq_none (by simpa using out)]
    rfl

theorem startSregs_get (colour : BitVec 12) {i : Nat} (hi : i < 16) : (Part.startSregs colour).get {} i = { colour := colour } := by
  rw [Part.startSregs, get_foldl_set ({} : SReg) fun _ => { colour := colour }, if_pos (List.mem_range.2 hi)]

/-! ### Results that land (R126, R286) -/

/-- Between `p` and `q` a thread's results have left its sequencer: for the operation buffer, or for the host. -/
def Delivered (p q : Part) : Prop := q = { p with opBuf := q.opBuf, cores := q.cores, hif := q.hif, dsp := q.dsp }

theorem Delivered.refl (p : Part) : Delivered p p := rfl

theorem Delivered.trans {p q r : Part} (h : Delivered p q) (k : Delivered q r) : Delivered p r := by
  unfold Delivered at *
  rw [k, h]

theorem putData_delivered (n off : Nat) (bs : List Byte) (p : Part) :
    Delivered p (p.putData n off bs) ∧ (p.putData n off bs).opBuf = p.opBuf.write ram (Part.dataArea n + off) bs := by
  have rest := (writeOb_written (Part.dataArea n + off) bs p).rest
  unfold Delivered Part.putData
  rw [rest]
  exact ⟨rfl, rfl⟩

theorem putList_delivered (n off : Nat) (bs : List Byte) (p : Part) : Delivered p (p.putList n off bs) ∧ (p.putList n off bs).opBuf = p.opBuf := by
  rw [putList_eq]
  have rest := (issueWrites_issued (p.ctx n).fn (Part.listWrites ((p.ctx n).lists.getD ([], [])).2 off bs) p).1
  generalize List.foldl _ p _ = q at rest ⊢
  unfold Delivered
  rw [rest]
  exact ⟨rfl, rfl⟩

theorem window_delivered (n : Nat) (l : List (Nat × List Byte)) (p : Part) :
    let q := l.foldl (fun p x => p.putData n x.1 (x.2.take (384 - x.1))) p
    Delivered p q ∧ q.opBuf = l.foldl (fun m y => m.write ram (Part.dataArea n + y.1) (y.2.take (384 - y.1))) p.opBuf := by
  induction l generalizing p with
  | nil => exact ⟨.refl p, rfl⟩
  | cons a l ih =>
    obtain ⟨one, buffer⟩ := putData_delivered n a.1 (a.2.take (384 - a.1)) p
    obtain ⟨rest, buffers⟩ := ih (p.putData n a.1 (a.2.take (384 - a.1)))
    rw [buffer] at buffers
    exact ⟨one.trans rest, buffers⟩

/-- Sealed registers written one after another, after another change of their thread. -/
theorem setSregs_eq (k : Nat) (l : List (Nat × SReg)) (p : Part) (g : Thread → Thread) :
    l.foldl (fun p x => p.setSreg k x.1 x.2) (p.modThread k g) =
      p.modThread k fun t => { g t with sregs := l.foldl (fun a y => a.set {} y.1 y.2) (g t).sregs } := by
  induction l generalizing g with
  | nil => rfl
  | cons a l ih =>
    rw [List.foldl_cons, Part.setSreg, modThread_modThread, ih]
    rfl

section
variable {p : Part} {k : Nat} {r : EngReq}

/-- The part in which thread `k` no longer holds request `r`. -/
abbrev unrequested (p : Part) (k : Nat) (r : EngReq) : Part := p.modThread k fun t => { t with reqs := t.reqs.filter fun x => x.id != r.id }

theorem unrequested_atWork (busy : (p.thread k).busy = true) : AtWork k p (unrequested p k r) :=
  AtWork.modThread (p := p) (r := p) ⟨busy, rfl, rfl⟩ _ busy rfl

/-- What the thread keeps of a request that has landed. -/
def landed (r : EngReq) (t : Thread) : Thread :=
  { t with
    reqs := t.reqs.filter fun y => y.id != r.id
    sregs := r.dest.foldl (fun a y => a.set {} y.1 y.2) t.sregs
    v := t.v && (match r.verdict with | some (v, _) => v | none => true)
    vclass := (match r.verdict with | some (_, c) => Part.join t.vclass c | none => t.vclass) }

/-- The result of an engine for one odd register and the next. -/
def OddPair (r : EngReq) : Prop := (∀ m, r.unit ≠ .pan m) ∧ ∃ a b, r.dest = [a, b] ∧ a.1 % 2 = 1

theorem oddPair_iff (r : EngReq) : ((match r.dest with | [a, _] => a.1 % 2 == 1 | _ => false) &&
    (match r.unit with | .pan _ => false | _ => true)) = true ↔ OddPair r := by
  rw [Bool.and_eq_true, and_comm]
  refine and_congr ?_ ?_
  · cases r.unit <;> simp
  · rcases r.dest with _ | ⟨a, _ | ⟨b, _ | _⟩⟩ <;> simp

theorem landReq_fails {st d : Byte} (fail : r.fail = some (st, d)) : p.landReq k r = (unrequested p k r).endHarvest k st d [] 0 := by
  simp only [Part.landReq, fail]

theorem landReq_odd (fine : r.fail = none) (odd : OddPair r) :
    p.landReq k r = ((unrequested p k r).threadGo k r.pc).threadFault k Part.cIllegal := by
  simp only [Part.landReq, fine]
  exact if_pos ((oddPair_iff r).2 odd)

/-- Between `p` and `q` thread `k` has become `th` and its results have been delivered, the operation buffer with them. -/
def Lands (p : Part) (k : Nat) (th : Thread) (buffer : Mem) (q : Part) : Prop :=
  q = { p with seq := { p.seq with threads := q.seq.threads }, opBuf := q.opBuf, cores := q.cores, hif := q.hif, dsp := q.dsp } ∧
    q.thread k = th ∧ q.opBuf = buffer

theorem Delivered.lands {g : Thread → Thread} {q : Part} (h : Delivered (p.modThread k g) q) : Lands p k (g (p.thread k)) q.opBuf q := by
  refine ⟨?_, ?_, rfl⟩
  · unfold Delivered at h
    rw [h]
    rfl
  · exact (congrArg (fun q => Part.thread q k) h).trans (thread_modThread_same p k g)

theorem Lands.modThread {th : Thread} {buffer : Mem} {q : Part} (h : Lands p k th buffer q) (g : Thread → Thread) :
    Lands p k (g th) buffer (q.modThread k g) := by
  obtain ⟨rest, rfl, rfl⟩ := h
  refine ⟨?_, thread_modThread_same q k g, rfl⟩
  rw [rest]
  rfl

/-- The octets that a request's result writes in a data area. -/
abbrev windowed (n : Nat) (r : EngReq) (m : Mem) : Mem :=
  r.window.foldl (fun m y => m.write ram (Part.dataArea n + y.1) (y.2.take (384 - y.1))) m

/-- The thread with the registers of a request written. -/
abbrev stored (r : EngReq) (t : Thread) : Thread :=
  { t with reqs := t.reqs.filter fun x => x.id != r.id, sregs := r.dest.foldl (fun a y => a.set {} y.1 y.2) t.sregs }

theorem landReq_lands (fine : r.fail = none) (even : ¬ OddPair r) :
    Lands p k (landed r (p.thread k)) (windowed (p.thread k).ctx r p.opBuf) (p.landReq k r) := by
  have verdict : ∀ w, Delivered (p.modThread k (stored r)) w → w.opBuf = windowed (p.thread k).ctx r p.opBuf →
      Lands p k (landed r (p.thread k)) (windowed (p.thread k).ctx r p.opBuf)
        (match r.verdict with
        | some (v, c) => w.modThread k fun t => { t with v := t.v && v, vclass := Part.join t.vclass c }
        | none => w) := fun w sent buffer => by
    have lands := sent.lands
    rw [buffer] at lands
    unfold landed
    rcases r.verdict with _ | ⟨v, c⟩
    · simpa only [Bool.and_true] using lands
    · exact lands.modThread _
  obtain ⟨sent, buffer⟩ := window_delivered (p.thread k).ctx r.window (p.modThread k (stored r))
  unfold Part.landReq
  rw [fine]
  simp only
  split_ifs with odd
  · exact absurd ((oddPair_iff r).1 odd) even
  rw [thread_modThread_same, setSregs_eq]
  generalize List.foldl _ _ r.window = w at sent buffer ⊢
  rcases r.listOut with _ | ⟨o, bs⟩
  · exact verdict w sent buffer
  · obtain ⟨list, same⟩ := putList_delivered (p.thread k).ctx o bs w
    exact verdict _ (sent.trans list) (same.trans buffer)

/-- ENGINE_RESULT of a request that is not ready, or not its to deliver. -/
theorem engineResult_keeps {fixed : Bool} {i : Nat} (none : ∀ r, (p.thread k).reqs[i]? = some r → r.ready = false ∨ r.fixed ≠ fixed) :
    p.engineResult fixed k i = p := by
  unfold Part.engineResult
  split
  · next r found =>
    refine if_neg ?_
    rcases none r found with unready | other
    · simp [unready]
    · simp [other]
  · rfl

theorem engineResult_lands {fixed : Bool} {i : Nat} (found : (p.thread k).reqs[i]? = some r) (ready : r.ready = true) (own : r.fixed = fixed)
    (done : ∀ m, r.unit = .pan m → r.blocks = 0) : p.engineResult fixed k i = p.landReq k r := by
  have lands : p.panRun k r = p.landReq k r := by
    unfold Part.panRun
    split
    · next m pan => exact if_pos (done m pan)
    · rfl
  simp only [Part.engineResult, found, ready, own, BEq.rfl, Bool.and_self, if_true, lands]

end

/-! ### Starts of harvests (R125, R129, R217, R276) -/

section
variable {p : Part} {n q u t : Nat}

/-- A context starts on thread `t` of sequencer `q`. -/
structure StartsOn (p : Part) (n q u t : Nat) : Prop where
  placed : (p.ctx n).unit = some (.thread q u)
  free   : p.startsOn q u = some t
  queued : (p.ctx n).state = .queued
  run    : p.seq.run = true
  pan    : p.panReady q = true

theorem harvestStart_keeps (none : ∀ q u t, ¬ StartsOn p n q u t) : p.harvestStart n = p := by
  unfold Part.harvestStart
  simp only
  split
  · next q u placed =>
    split_ifs with idle
    · rfl
    · simp only [ne_eq, not_or, not_not, Bool.not_eq_true', Bool.not_eq_false] at idle
      obtain ⟨queued, run, pan⟩ := idle
      split
      · rfl
      · next t free => exact absurd ⟨placed, free, queued, run, pan⟩ (none q u t)
  · rfl

/-- The part in which a harvest is about to start: the accepted sets in effect, the context placed, a mask taken. -/
def starting (p : Part) (n q t : Nat) : Part :=
  ((p.seqApply.dspNow q).modCtx n fun c => { c with unit := some (.thread q t) }).modOnePan q fun x =>
    { x with maskCount := min (2 ^ 28) (x.maskCount + 1) }

/-- The part in which it has started. -/
def started (p : Part) (n q t : Nat) : Part :=
  ((starting p n q t).modThread (32 * q + t) fun _ => (starting p n q t).startThread n (p.ctx n)).modCtx n fun c => { c with state := .running }

/-- The input of a library harvest is well formed. -/
def InputFits (p : Part) (n : Nat) : Prop :=
  Library.inputOk (p.ctx n).program.toNat (p.ctx n).param (p.ctxData n 0 (p.ctx n).inLen ++ (p.ctx n).inData) = true ∧ p.emvPadded (p.ctx n) = false

theorem not_inputFits_iff (b : Bool) (p : Part) (n : Nat) :
    (b && (!Library.inputOk (p.ctx n).program.toNat (p.ctx n).param (p.ctxData n 0 (p.ctx n).inLen ++ (p.ctx n).inData) ||
      p.emvPadded (p.ctx n))) = true ↔ b = true ∧ ¬ InputFits p n := by
  simp only [InputFits, Bool.and_eq_true, Bool.or_eq_true, Bool.not_eq_true', not_and_or, Bool.not_eq_true, Bool.not_eq_false]

theorem StartsOn.ready (s : StartsOn p n q u t) : ¬ ((p.ctx n).state ≠ .queued ∨ (!p.seq.run) = true ∨ (!p.panReady q) = true) := by
  simp [s.queued, s.run, s.pan]

theorem harvestStart_starts (s : StartsOn p n q u t)
    (fits : ((starting p n q t).startThread n (p.ctx n)).library = false ∨ InputFits p n) : p.harvestStart n = started p n q t := by
  unfold Part.harvestStart
  simp only [s.placed, if_neg s.ready, s.free]
  refine if_neg fun refused => ?_
  obtain ⟨library, bad⟩ := (not_inputFits_iff ((starting p n q t).startThread n (p.ctx n)).library p n).1 refused
  exact fits.elim (fun owner => Bool.false_ne_true (owner.symm.trans library)) bad

theorem harvestStart_refuses (s : StartsOn p n q u t) (library : ((starting p n q t).startThread n (p.ctx n)).library = true)
    (bad : ¬ InputFits p n) : p.harvestStart n = (started p n q t).endHarvest (32 * q + t) 0x10 0x0A [] 0 := by
  unfold Part.harvestStart
  simp only [s.placed, if_neg s.ready, s.free]
  exact if_pos ((not_inputFits_iff _ p n).2 ⟨library, bad⟩)

theorem started_thread (p : Part) (n q t : Nat) :
    (started p n q t).thread (32 * q + t) = (starting p n q t).startThread n (p.ctx n) :=
  thread_modThread_same (starting p n q t) (32 * q + t) _

theorem started_ctx (p : Part) (n q t : Nat) :
    (started p n q t).ctx n = { p.ctx n with unit := some (.thread q t), state := .running } := by
  have placed : (starting p n q t).ctx n = { p.ctx n with unit := some (.thread q t) } :=
    ctx_modCtx_self (p.seqApply.dspNow q) n fun c => { c with unit := some (.thread q t) }
  have running : (started p n q t).ctx n = { (starting p n q t).ctx n with state := .running } :=
    ctx_modCtx_self ((starting p n q t).modThread (32 * q + t) fun _ => (starting p n q t).startThread n (p.ctx n)) n _
  rw [running, placed]

/-- A harvest refused as it starts. -/
theorem started_refused (p : Part) (n q t : Nat) :
    let r := (started p n q t).endHarvest (32 * q + t) 0x10 0x0A [] 0
    r.thread (32 * q + t) = {} ∧
      ((p.ctx n).discard = false → (r.ctx n).state = .finished ∧ (r.ctx n).status = 0x10 ∧ (r.ctx n).detail = 0x0A) := by
  have thread := started_thread p n q t
  have ctx := started_ctx p n q t
  have done := endHarvest_done (p := started p n q t) (k := 32 * q + t) (by rw [thread]; rfl) 0x10 0x0A [] 0
  refine ⟨done.idle, fun counts => ?_⟩
  have left := done.ctx
  rw [thread, show ((starting p n q t).startThread n (p.ctx n)).ctx = n from rfl, ctx] at left
  rw [left rfl counts]
  exact ⟨rfl, rfl, rfl⟩

end

/-! ### Landing slots (R152, R268, R341) -/

section
variable {p : Part} {k f : Nat} {tpl : BitVec 64} {key : List Byte}

/-- The handle that a landing write goes to. -/
abbrev landHandle (p : Part) (k f : Nat) : BitVec 32 := (p.ctx (p.thread k).ctx).handles.getD f 0

/-- The part in which the landing write of thread `k` is done with. -/
abbrev unlanding (p : Part) (k : Nat) : Part := p.modThread k fun t => { t with landing := none }

theorem landingWrite_idle (none' : (p.thread k).landing = none) : p.landingWrite k = p := by
  rw [Part.landingWrite, none']

theorem landingWrite_waits (on : (p.thread k).landing = some (f, tpl, key))
    (waits : (p.cellarWaits (landHandle p k f) || p.commitsEarlier (p.thread k).ctx) = true) : p.landingWrite k = p := by
  simp only [Part.landingWrite, on]
  exact if_pos waits

/-- The bank's check of the slot, for a write that waits for nothing. -/
theorem landing_checked (sound : (p.headCheck (landHandle p k f) (p.thread k).colour [5]).1 = none) :
    (unlanding p k).headCheck (landHandle p k f) (p.thread k).colour [5] = (none, unlanding p k) :=
  headCheck_passes ((headCheck_seq p (unlanding p k).seq ..).trans sound)

/-- The slot is open for landing under the template that the key has. -/
def Admits (p : Part) (h : BitVec 32) (tpl : BitVec 64) : Prop :=
  (p.slot (hIndex h)).state = Slot.landing ∧ (Template.ofEntry tpl).agrees (p.slc.template (p.slot (hIndex h)).child.toNat) = true

theorem not_admits_iff (p : Part) (h : BitVec 32) (tpl : BitVec 64) :
    ((p.slot (hIndex h)).state ≠ Slot.landing ∨
      (!(Template.ofEntry tpl).agrees (p.slc.template (p.slot (hIndex h)).child.toNat)) = true) ↔ ¬ Admits p h tpl := by
  rw [Admits, not_and_or, Bool.not_eq_true', Bool.not_eq_true]

theorem landingWrite_writes (on : (p.thread k).landing = some (f, tpl, key))
    (goes : (p.cellarWaits (landHandle p k f) || p.commitsEarlier (p.thread k).ctx) = false)
    (sound : (p.headCheck (landHandle p k f) (p.thread k).colour [5]).1 = none) (admits : Admits p (landHandle p k f) tpl) :
    let i := hIndex (landHandle p k f)
    let y := p.slot i
    p.landingWrite k = ((p.modSlc fun c => c.putChain i y.colour (p.slc.template y.child.toNat) y.notAfter 0 [key]).modThread k fun a =>
      { a with landing := none, swr := true, swrSlots := a.swrSlots ++ [i] }).modCtx (p.thread k).ctx fun c => { c with classA := true } := by
  intro i y
  simp only [Part.landingWrite, on]
  refine (if_neg (Bool.eq_false_iff.1 goes)).trans ?_
  rw [landing_checked sound]
  refine (if_neg (mt (not_admits_iff ..).1 (not_not.2 admits))).trans ?_
  exact congrArg (Part.modCtx _ _) (modThread_modThread
      (p.modSlc fun c => c.putChain i y.colour (p.slc.template y.child.toNat) y.notAfter 0 [key]) k (fun t => { t with landing := none }) _)

theorem landingWrite_denies (on : (p.thread k).landing = some (f, tpl, key))
    (goes : (p.cellarWaits (landHandle p k f) || p.commitsEarlier (p.thread k).ctx) = false)
    (sound : (p.headCheck (landHandle p k f) (p.thread k).colour [5]).1 = none) (admits : ¬ Admits p (landHandle p k f) tpl) :
    p.landingWrite k = (unlanding p k).endHarvest k 0x12 (Part.keyDetail 1 f) [] 0 := by
  simp only [Part.landingWrite, on]
  refine (if_neg (Bool.eq_false_iff.1 goes)).trans ?_
  rw [landing_checked sound]
  exact if_pos ((not_admits_iff ..).2 admits)

end

/-! ### Budgets and program memory (R128, R137 to R139, R205) -/

section
variable {p : Part}

/-- A spent budget ends the harvest, and SEQ_FAULT records it. -/
theorem budgetExhausted_faults {k : Nat} (busy : (p.thread k).busy = true) (spent : (p.thread k).budget = 0) :
    Faulted k Part.cBudget 0x7F 0 p p (p.budgetExhausted k) := by
  have reached : ((p.thread k).busy && (p.thread k).budget == 0) = true := by rw [busy, spent]; rfl
  rw [Part.budgetExhausted, reached]
  exact threadFault_faults ⟨busy, rfl, rfl⟩ Part.cBudget

theorem budgetExhausted_keeps {k : Nat} (left : (p.thread k).busy = false ∨ (p.thread k).budget ≠ 0) : p.budgetExhausted k = p := by
  have under : ((p.thread k).busy && (p.thread k).budget == 0) = false := by
    rw [Bool.and_eq_false_iff, beq_eq_false_iff_ne]
    exact left
  rw [Part.budgetExhausted, under]
  rfl

/-- A word goes to program memory while it is open, in ASSAY only. -/
theorem pmemWrite_open {v : Word} (opened : p.seq.loadOpen = true) : p.pmemWrite v = if p.sys.mode ≠ .assay then p
    else { p with seq := { p.seq with pmem := p.seq.pmem.set 0 p.seq.pmemWord.toNat v, pmemWord := p.seq.pmemWord + 1 } } := by
  rw [Part.pmemWrite, opened]
  rfl

/-- The staged budgets are legal (R128). -/
abbrev BudgetOk (q : Seq) : Prop := q.st.stage.1.toNat ≤ q.st.stage.2.toNat ∧ q.st.stage.1 ≠ 0 ∧ q.st.stage.2 ≠ 0

theorem seqCommit_eq {ok idle : Bool} (legal : ok = true ↔ BudgetOk p.seq) (free : idle = true ↔ ∀ t ∈ p.seq.threads, t.2.busy = false) :
    p.seqCommit = { p with seq := { p.seq with cfgMismatch := p.seq.cfgMismatch || !ok, st := p.seq.st.commit ok idle } } := by
  obtain rfl : (decide (p.seq.st.stage.1.toNat ≤ p.seq.st.stage.2.toNat) && p.seq.st.stage.1 != 0 && p.seq.st.stage.2 != 0) = ok :=
    Bool.eq_iff_iff.2 (by simp only [legal, Bool.and_eq_true, decide_eq_true_eq, bne_iff_ne, and_assoc, BudgetOk])
  obtain rfl : (p.seq.threads.all fun t => !t.2.busy) = idle :=
    Bool.eq_iff_iff.2 (by simp only [free, List.all_eq_true, Bool.not_eq_true'])
  rfl

end

/-- Settles O24, clause by clause. -/
theorem threadsStartTakeResultsAndClose : Obligations.ThreadsStartTakeResultsAndClose := by
  refine ⟨?values, fun s => ⟨?starts, ?threads, ?memory⟩⟩
  case values =>
    intro p n c th
    refine ⟨rfl, rfl, rfl, rfl, rfl, rfl, rfl, rfl, fun i hi => startSregs_get _ hi, fun i hi => ?_, startRegs_get n c 5, startRegs_get n c 6,
      fun r hr => ?_⟩
    · refine (startRegs_get n c (i + 1)).trans ?_
      interval_cases i <;> rfl
    · refine (startRegs_get n c r).trans ?_
      rw [List.getD_eq_getElem?_getD, List.getElem?_eq_none hr]
      rfl
  case starts =>
    intro c n x starts
    refine ⟨fun none => ?_, fun q u t start => ?_⟩
    · exact .of_onPart (g := Part.harvestStart n) rfl (harvestStart_keeps fun q u t h => none q u t ⟨h.placed, h.free, h.queued, h.run, h.pan⟩)
    · obtain ⟨placed, free, queued, run, pan⟩ := start
      have start : StartsOn s.part n q u t := ⟨placed, free, queued, run, pan⟩
      refine ⟨fun fits => ?_, fun library bad => ?_⟩
      · exact .of_onPart (g := Part.harvestStart n) rfl (harvestStart_starts start fits)
      · obtain ⟨idle, ended⟩ := started_refused s.part n q t
        exact ⟨_, .of_onPart (g := Part.harvestStart n) rfl (harvestStart_refuses start library bad), idle, ended⟩
  case threads =>
    intro q t k th
    have unit : k / 32 = q.val := threadNo_unit q t
    refine ⟨fun n f i is => ?results, fun busy spent => ?budget, fun left => ?unspent, fun none => ?idle, fun f tpl key on => ?landing⟩
    case results =>
      have arm : exec i s = onPart (Part.engineResult f k n.val) s := by
        subst is
        cases f <;> rfl
      refine ⟨fun none => .of_onPart arm (engineResult_keeps none), fun r found ready own done => ?_⟩
      have lands := engineResult_lands found ready own done
      refine ⟨fun st d fail busy => ?_, fun fine busy engine odd => ?_, fun fine even => ?_⟩
      · have work := unrequested_atWork (r := r) busy
        exact ⟨_, .of_onPart arm (lands.trans (landReq_fails fail)), (endHarvest_done work.busy ..).ends work⟩
      · have work := (unrequested_atWork (r := r) busy).modThread (fun t => { t with pc := r.pc }) (unrequested_atWork busy).busy rfl
        have faulted := threadFault_faults work Part.cIllegal
        refine ⟨_, .of_onPart arm (lands.trans (landReq_odd fine ⟨engine, odd⟩)), faulted.ends, ?_⟩
        rw [← unit]
        refine faulted.pc.trans ?_
        rw [thread_modThread_same]
      · have notOdd : ¬ OddPair r := by
          rintro ⟨engine, a, b, dest, odd⟩
          rcases even with ⟨m, pan⟩ | even
          · exact engine m pan
          · have := even a b dest
            omega
        obtain ⟨rest, thread, buffer⟩ := landReq_lands (p := s.part) (k := k) fine notOdd
        exact ⟨_, .of_onPart arm lands, rest, thread, buffer⟩
    case budget =>
      have faulted := budgetExhausted_faults busy spent
      refine ⟨_, .of_onPart (g := Part.budgetExhausted k) rfl rfl, faulted.ends, ?_, ?_⟩
      · rw [← unit]
        exact faulted.pc
      · have number : k % 32 = t.val := by
          have := t.isLt
          simp only [k, Part.threadNo]
          omega
        have none : at' Part.cBudget 21 = 0#32 := by decide
        rw [← unit, faulted.word, faultWord, number, none, BitVec.or_zero]
        rfl
    case unspent =>
      exact .of_onPart (g := Part.budgetExhausted k) rfl (budgetExhausted_keeps left)
    case idle =>
      exact .of_onPart (g := Part.landingWrite k) rfl (landingWrite_idle none)
    case landing =>
      intro h i y opened waits
      refine ⟨fun held => ?_, fun goes sound landing agrees => ?_, fun goes sound busy differs => ?_⟩
      · exact .of_onPart (g := Part.landingWrite k) rfl (landingWrite_waits on held)
      · exact .of_onPart (g := Part.landingWrite k) rfl (landingWrite_writes on goes sound ⟨landing, agrees⟩)
      · have work : AtWork k s.part (unlanding s.part k) :=
          AtWork.modThread (r := s.part) ⟨busy, rfl, rfl⟩ (fun t => { t with landing := none }) busy rfl
        have shut : ¬ Admits s.part h tpl := fun ⟨landing, agrees⟩ =>
          differs.elim (· landing) fun other => Bool.false_ne_true (other.symm.trans agrees)
        exact ⟨_, .of_onPart (g := Part.landingWrite k) rfl (landingWrite_denies on goes sound shut), (endHarvest_done work.busy ..).ends work⟩
  case memory =>
    intro e
    refine ⟨fun v => ⟨fun opened assay => ?_, fun opened other => ?_, fun closed => ?_⟩, fun opened => ⟨?_, ?_⟩,
      fun closed => ⟨?_, ?_⟩, ?budgets⟩
    · exact .of_onPart (g := Part.pmemWrite v) rfl ((pmemWrite_open opened).trans (if_neg (not_not.2 assay)))
    · exact .of_onPart (g := Part.pmemWrite v) rfl ((pmemWrite_open opened).trans (if_pos other))
    · exact .of_onPart (g := Part.pmemWrite v) rfl (if_pos (congrArg (!·) closed))
    · refine .of_onPart (g := Part.loadClose) rfl ?_
      rw [Part.loadClose, opened]
      rfl
    · refine .of_onPart (g := Part.seqRun) rfl ?_
      rw [Part.seqRun, opened]
      rfl
    · refine .of_onPart (g := Part.loadClose) rfl ?_
      rw [Part.loadClose, closed]
      rfl
    · exact .of_onPart (g := Part.seqRun) rfl (if_pos (congrArg (!·) closed))
    case budgets =>
      intro legal idle
      refine ⟨fun ok free => ?_, fun ok works => ?_, fun bad => ?_⟩
      · refine .of_onPart (g := Part.seqCommit) rfl ((seqCommit_eq (iff_of_true rfl ok) (iff_of_true rfl free)).trans ?_)
        rw [Bool.not_true, Bool.or_false]
        rfl
      · refine .of_onPart (g := Part.seqCommit) rfl ((seqCommit_eq (iff_of_true rfl ok) (iff_of_false Bool.false_ne_true works)).trans ?_)
        rw [Bool.not_true, Bool.or_false]
        rfl
      · refine .of_onPart (g := Part.seqCommit) rfl
          ((seqCommit_eq (idle := decide idle) (iff_of_false Bool.false_ne_true bad) decide_eq_true_iff).trans ?_)
        rw [Bool.not_false, Bool.or_true]
        rfl

end Sys2Proof.Safety
end

section
/-! SUPPORT. The instruction words of Dibry: a format's word put together from its fields and taken apart again; and the statements that the
decoder reads back what the encoder writes and nothing else (R174 to R179, R200 to R203). -/

namespace Sys2Proof.Dibry

/-! ### Fields of a word put together, and of a word taken apart -/

theorem fld_self {n : Nat} (x : BitVec n) : fld x 0 n = x := BitVec.extractLsb'_eq_self

theorem fld_append_low {m n : Nat} (x : BitVec m) (y : BitVec n) : fld (x ++ y) 0 n = y :=
  (BitVec.extractLsb'_append_eq_of_add_le (Nat.zero_add n).le).trans (fld_self y)

theorem fld_append_high {m n k len : Nat} {x : BitVec m} {z : BitVec len} (y : BitVec n) (h : fld x k len = z) :
    fld (x ++ y) (k + n) len = z := by
  rw [fld, BitVec.extractLsb'_append_eq_of_le (Nat.le_add_left ..), Nat.add_sub_cancel]
  exact h

theorem fld_append_top {m n : Nat} (x : BitVec m) (y : BitVec n) : fld (x ++ y) n m = x := by
  have top := fld_append_high y (fld_self x)
  rwa [Nat.zero_add] at top

theorem fld_join {n : Nat} (v : BitVec n) (lo a b : Nat) : fld v (lo + a) b ++ fld v lo a = fld v lo (b + a) :=
  BitVec.extractLsb'_append_extractLsb'_eq_extractLsb' rfl

section
variable (op : BitVec 6) (rd ra rb : BitVec 5) (fn : BitVec 11) (imm : BitVec 16) (off : BitVec 26) (sr : BitVec 12) (fn4 : BitVec 4)

@[simp] theorem fields_fmtR : fOp (fmtR op rd ra rb fn) = op ∧ fA (fmtR op rd ra rb fn) = rd ∧ fB (fmtR op rd ra rb fn) = ra ∧
    fC (fmtR op rd ra rb fn) = rb ∧ fFn (fmtR op rd ra rb fn) = fn := by
  refine ⟨?_, ?_, ?_, ?_, fld_append_low _ fn⟩
  · exact fld_append_high fn (fld_append_high rb (fld_append_high ra (fld_append_top op rd)))
  · exact fld_append_high fn (fld_append_high rb (fld_append_high ra (fld_append_low op rd)))
  · exact fld_append_high fn (fld_append_high rb (fld_append_low _ ra))
  · exact fld_append_high fn (fld_append_low _ rb)

@[simp] theorem fields_fmtI : fOp (fmtI op rd ra imm) = op ∧ fA (fmtI op rd ra imm) = rd ∧ fB (fmtI op rd ra imm) = ra ∧
    fImm (fmtI op rd ra imm) = imm := by
  refine ⟨?_, ?_, ?_, fld_append_low _ imm⟩
  · exact fld_append_high imm (fld_append_high ra (fld_append_top op rd))
  · exact fld_append_high imm (fld_append_high ra (fld_append_low op rd))
  · exact fld_append_high imm (fld_append_low _ ra)

@[simp] theorem fields_fmtJ : fOp (fmtJ op off) = op ∧ fOff (fmtJ op off) = off := ⟨fld_append_top op off, fld_append_low op off⟩

@[simp] theorem fields_fmtY : fOp (fmtY rd ra sr fn4) = 0x30 ∧ fA (fmtY rd ra sr fn4) = rd ∧ fB (fmtY rd ra sr fn4) = ra ∧
    fSr (fmtY rd ra sr fn4) = sr ∧ fFn4 (fmtY rd ra sr fn4) = fn4 := by
  refine ⟨?_, ?_, ?_, ?_, fld_append_low _ fn4⟩
  · exact fld_append_high fn4 (fld_append_high sr (fld_append_high ra (fld_append_top 0x30#6 rd)))
  · exact fld_append_high fn4 (fld_append_high sr (fld_append_high ra (fld_append_low 0x30#6 rd)))
  · exact fld_append_high fn4 (fld_append_high sr (fld_append_low _ ra))
  · exact fld_append_high fn4 (fld_append_low _ sr)

end

section
variable (fn : BitVec 5) (sd sa sb : BitVec 4) (aux : BitVec 9) (g : BitVec 5) (imm : BitVec 12) (fn4 : BitVec 4) (k : BitVec 5)

@[simp] theorem fields_fmtSA : fOp (fmtSA fn sd sa sb aux) = 0x38 ∧ fSaFn (fmtSA fn sd sa sb aux) = fn ∧ fSd (fmtSA fn sd sa sb aux) = sd ∧
    fSa (fmtSA fn sd sa sb aux) = sa ∧ fSb (fmtSA fn sd sa sb aux) = sb ∧ fAux (fmtSA fn sd sa sb aux) = aux := by
  refine ⟨?_, ?_, ?_, ?_, ?_, fld_append_low _ aux⟩
  · exact fld_append_high aux (fld_append_high sb (fld_append_high sa (fld_append_high sd (fld_append_top 0x38#6 fn))))
  · exact fld_append_high aux (fld_append_high sb (fld_append_high sa (fld_append_high sd (fld_append_low 0x38#6 fn))))
  · exact fld_append_high aux (fld_append_high sb (fld_append_high sa (fld_append_low _ sd)))
  · exact fld_append_high aux (fld_append_high sb (fld_append_low _ sa))
  · exact fld_append_high aux (fld_append_low _ sb)

@[simp] theorem fields_fmtSG : fOp (fmtSG fn sd g imm) = 0x39 ∧ fSaFn (fmtSG fn sd g imm) = fn ∧ fSd (fmtSG fn sd g imm) = sd ∧
    fG (fmtSG fn sd g imm) = g ∧ fImm12 (fmtSG fn sd g imm) = imm := by
  refine ⟨?_, ?_, ?_, ?_, fld_append_low _ imm⟩
  · exact fld_append_high imm (fld_append_high g (fld_append_high sd (fld_append_top 0x39#6 fn)))
  · exact fld_append_high imm (fld_append_high g (fld_append_high sd (fld_append_low 0x39#6 fn)))
  · exact fld_append_high imm (fld_append_high g (fld_append_low _ sd))
  · exact fld_append_high imm (fld_append_low _ g)

@[simp] theorem fields_fmtSE : fOp (fmtSE fn4 sd sa k aux) = 0x3A ∧ fSeFn (fmtSE fn4 sd sa k aux) = fn4 ∧ fSeSd (fmtSE fn4 sd sa k aux) = sd ∧
    fSs (fmtSE fn4 sd sa k aux) = sa ∧ fK (fmtSE fn4 sd sa k aux) = k ∧ fAux (fmtSE fn4 sd sa k aux) = aux := by
  refine ⟨?_, ?_, ?_, ?_, ?_, fld_append_low _ aux⟩
  · exact fld_append_high aux (fld_append_high k (fld_append_high sa (fld_append_high sd (fld_append_top 0x3A#6 fn4))))
  · exact fld_append_high aux (fld_append_high k (fld_append_high sa (fld_append_high sd (fld_append_low 0x3A#6 fn4))))
  · exact fld_append_high aux (fld_append_high k (fld_append_high sa (fld_append_low _ sd)))
  · exact fld_append_high aux (fld_append_high k (fld_append_low _ sa))
  · exact fld_append_high aux (fld_append_low _ k)

end

theorem fmtR_fields (w : Word) : fmtR (fOp w) (fA w) (fB w) (fC w) (fFn w) = w := by
  rw [fmtR, fOp, fA, fB, fC, fFn, fld_join w 21 5 6, fld_join w 16 5 11, fld_join w 11 5 16, fld_join w 0 11 21]
  exact fld_self w

theorem fmtI_fields (w : Word) : fmtI (fOp w) (fA w) (fB w) (fImm w) = w := by
  rw [fmtI, fOp, fA, fB, fImm, fld_join w 21 5 6, fld_join w 16 5 11, fld_join w 0 16 16]
  exact fld_self w

theorem fmtJ_fields (w : Word) : fmtJ (fOp w) (fOff w) = w := by
  rw [fmtJ, fOp, fOff, fld_join w 0 26 6]
  exact fld_self w

/-- A word of the system group. -/
theorem fmtY_fields {w : Word} (op : fOp w = 0x30) : fmtY (fA w) (fB w) (fSr w) (fFn4 w) = w := by
  rw [fmtY, ← show fOp w = 0x30#6 from op, fOp, fA, fB, fSr, fFn4, fld_join w 21 5 6, fld_join w 16 5 11, fld_join w 4 12 16, fld_join w 0 4 28]
  exact fld_self w

theorem fmtSA_fields {w : Word} (op : fOp w = 0x38) : fmtSA (fSaFn w) (fSd w) (fSa w) (fSb w) (fAux w) = w := by
  rw [fmtSA, ← show fOp w = 0x38#6 from op, fOp, fSaFn, fSd, fSa, fSb, fAux, fld_join w 21 5 6, fld_join w 17 4 11, fld_join w 13 4 15,
    fld_join w 9 4 19, fld_join w 0 9 23]
  exact fld_self w

theorem fmtSG_fields {w : Word} (op : fOp w = 0x39) : fmtSG (fSaFn w) (fSd w) (fG w) (fImm12 w) = w := by
  rw [fmtSG, ← show fOp w = 0x39#6 from op, fOp, fSaFn, fSd, fG, fImm12, fld_join w 21 5 6, fld_join w 17 4 11, fld_join w 12 5 15,
    fld_join w 0 12 20]
  exact fld_self w

theorem fmtSE_fields {w : Word} (op : fOp w = 0x3A) : fmtSE (fSeFn w) (fSeSd w) (fSs w) (fK w) (fAux w) = w := by
  rw [fmtSE, ← show fOp w = 0x3A#6 from op, fOp, fSeFn, fSeSd, fSs, fK, fAux, fld_join w 22 4 6, fld_join w 18 4 10, fld_join w 14 4 14,
    fld_join w 9 5 18, fld_join w 0 9 23]
  exact fld_self w


theorem fields_append {m n : Nat} (x : BitVec m) (y : BitVec n) : fld (x ++ y) n m = x ∧ fld (x ++ y) 0 n = y :=
  ⟨fld_append_top x y, fld_append_low x y⟩

/-- The decoder reads the encoder's word of a well-formed instruction as that instruction (R174 to R179, R200 to R203). -/
theorem decode_encode {i : Instr} {x : Proc} {w : Word} (wf : i.wf = true) (enc : encode i = some (x, w)) : decode x w = some i := by
  cases i
  case add | sub | and | or | xor | slt | sltu | sll | srl | sra | slli | srli | srai | mul | mulhi | mulhiu | div | divu | mod | modu =>
    cases enc
    simp [decode, decodeAlu]
  case addi | andi | ori | xori | slti | sltiu | lih | lb | lh | lw | lbu | lhu | sb | sh | sw | lr | sc | tas | beq | bne | blt | bge |
      bltu | bgeu | j | call | jlr =>
    cases enc
    simp [decode, given]
  case trap | eret | brk | doze | fence | fenceCode | fenceRule | mfsr | mtsr =>
    cases enc
    simp [decode, decodeSys, given]
  case sclr | smov | sxor | sand | sor | sdec | ssel | scomb =>
    cases enc
    simp [decode, decodeSealed, given]
  case sperm x sd sa sb h =>
    cases enc
    cases h <;> simp [decode, decodeSealed, given, fld]
  case sshf x sd sa k =>
    cases enc
    simpa [decode, decodeSealed, given, fields_append 0#3 k, Instr.wf] using wf
  case scmp x sa sb n | scmpA x sa sb n =>
    cases enc
    simpa [decode, decodeSealed, given, fields_append 0#4 n, Instr.wf] using wf
  case spinUnpk x sd sa sb f | spinPack x sd sa sb f =>
    cases enc
    simpa [decode, decodeSealed, given, fields_append 0#6 f, Instr.wf] using wf
  case sld x sd ga n off =>
    cases enc
    simpa [decode, decodeGeneral, given, fields_append n off, Instr.wf] using wf
  case sins x sd gs k | sext x gd ss k | swr x ss k =>
    cases enc
    simp [decode, decodeGeneral, given, fields_append 0#10 k]
  case hend x gs gl =>
    cases enc
    simp [decode, decodeGeneral, given, fields_append 0#7 gl]
  case emit =>
    cases enc
    simp [decode, decodeGeneral, given]
  case enc | dec | mac | hash | kder =>
    cases enc
    simpa [decode, decodeEngine, given, Instr.wf] using wf
  case rsaSign | rsaVerify | rsaOaepDec | ecSign | ecVerify | ecDh | edSign | edVerify | mldsaSign | mldsaVerify | mlkemEnc | mlkemDec |
      slhFors | slhLayer | slhVerify =>
    cases enc
    simpa [decode, decodeEngine, decodeEngx, given, Instr.wf] using wf
  all_goals cases enc

/-- What the decoder must give for a word of one meaning: the word is the encoder's of the command, which is well-formed. -/
def MeansWord (x : Proc) (w : Word) (i : Instr) : Prop := encode i = some (x, w) ∧ i.wf = true

theorem given_some {b : Bool} {i j : Instr} (h : given b i = some j) : b = true ∧ i = j := by
  cases b with
  | false => cases h
  | true => exact ⟨rfl, Option.some.inj h⟩

/-- A field whose number a match has told. -/
theorem code_eq {n k : Nat} {v : BitVec n} (h : v.toNat = k) : v = BitVec.ofNat n k := by
  rw [← h, BitVec.ofNat_toNat, BitVec.setWidth_eq]

section
variable {x : Proc} {w : Word} {i : Instr}

theorem decodeAlu_means (op : fOp w = 0) (h : decodeAlu x w = some i) : MeansWord x w i := by
  have word := fmtR_fields w
  unfold decodeAlu at h
  split at h
  case h_21 => cases h
  all_goals
    next code =>
    cases h
    rw [op, code_eq code] at word
    exact ⟨congrArg (fun v => some (x, v)) word, rfl⟩

theorem decodeSys_means (op : fOp w = 0x30) (h : decodeSys x w = some i) : MeansWord x w i := by
  have word := fmtY_fields op
  unfold decodeSys at h
  split at h
  case h_10 => cases h
  all_goals
    next code =>
    obtain ⟨unused, rfl⟩ := given_some h
    simp only [Bool.and_eq_true, beq_iff_eq] at unused
    simp only [unused, code_eq code] at word
    exact ⟨congrArg (fun v => some (x, v)) word, rfl⟩

/-- A value whose upper bits are zero is its lower field. -/
theorem low_of_high_zero {m n : Nat} {v : BitVec (m + n)} (h : fld v n m = 0) : 0#m ++ fld v 0 n = v := by
  have join := fld_join v 0 n m
  rw [Nat.zero_add, h] at join
  exact join.trans (fld_self v)

/-- A value of one bit, as a truth value and back. -/
theorem bit_of_high_zero {v : BitVec 9} (h : fld v 1 8 = 0) : (if bitAt v 0 then 1 else 0) = v := by
  have low : 0#8 ++ fld v 0 1 = v := low_of_high_zero h
  rw [← low]
  rcases BitVec.eq_zero_or_eq_one (fld v 0 1) with zero | one
  · rw [zero]
    rfl
  · rw [one]
    rfl

theorem decodeSealed_means (op : fOp w = 0x38) (h : decodeSealed x w = some i) : MeansWord x w i := by
  have word := fmtSA_fields op
  unfold decodeSealed at h
  split at h
  case h_15 => cases h
  case h_6 code =>
    obtain ⟨fields, rfl⟩ := given_some h
    simp only [Bool.and_eq_true, beq_iff_eq, bne_iff_ne] at fields
    obtain ⟨⟨unused, high⟩, range⟩ := fields
    have aux : 0#3 ++ fld (fAux w) 0 6 = fAux w := low_of_high_zero high
    rw [code_eq code, unused, ← aux] at word
    exact ⟨congrArg (fun v => some (x, v)) word, bne_iff_ne.2 range⟩
  case h_7 code =>
    obtain ⟨high, rfl⟩ := given_some h
    rw [code_eq code, ← bit_of_high_zero (beq_iff_eq.1 high)] at word
    exact ⟨congrArg (fun v => some (x, v)) word, rfl⟩
  case h_10 code | h_11 code =>
    obtain ⟨fields, rfl⟩ := given_some h
    simp only [Bool.and_eq_true, beq_iff_eq] at fields
    obtain ⟨⟨unused, high⟩, range⟩ := fields
    have aux : 0#4 ++ fld (fAux w) 0 5 = fAux w := low_of_high_zero high
    rw [code_eq code, unused, ← aux] at word
    exact ⟨congrArg (fun v => some (x, v)) word, range⟩
  case h_13 code | h_14 code =>
    obtain ⟨fields, rfl⟩ := given_some h
    simp only [Bool.and_eq_true, beq_iff_eq] at fields
    obtain ⟨high, range⟩ := fields
    have aux : 0#6 ++ fld (fAux w) 0 3 = fAux w := low_of_high_zero high
    rw [code_eq code, ← aux] at word
    exact ⟨congrArg (fun v => some (x, v)) word, range⟩
  all_goals
    next code =>
    obtain ⟨unused, rfl⟩ := given_some h
    simp only [Bool.and_eq_true, beq_iff_eq] at unused
    simp only [unused, code_eq code] at word
    exact ⟨congrArg (fun v => some (x, v)) word, rfl⟩

theorem decodeGeneral_means (op : fOp w = 0x39) (h : decodeGeneral x w = some i) : MeansWord x w i := by
  have word := fmtSG_fields op
  unfold decodeGeneral at h
  split at h
  case h_7 => cases h
  case h_1 code =>
    obtain ⟨range, rfl⟩ := given_some h
    have imm : fld (fImm12 w) 7 5 ++ fld (fImm12 w) 0 7 = fImm12 w := (fld_join (fImm12 w) 0 7 5).trans (fld_self _)
    rw [code_eq code, ← imm] at word
    exact ⟨congrArg (fun v => some (x, v)) word, range⟩
  case h_4 code =>
    obtain ⟨unused, rfl⟩ := given_some h
    rw [code_eq code, beq_iff_eq.1 unused] at word
    exact ⟨congrArg (fun v => some (x, v)) word, rfl⟩
  case h_2 code | h_3 code =>
    obtain ⟨high, rfl⟩ := given_some h
    have imm : 0#10 ++ fld (fImm12 w) 0 2 = fImm12 w := low_of_high_zero (beq_iff_eq.1 high)
    rw [code_eq code, ← imm] at word
    exact ⟨congrArg (fun v => some (x, v)) word, rfl⟩
  case h_5 code =>
    obtain ⟨fields, rfl⟩ := given_some h
    simp only [Bool.and_eq_true, beq_iff_eq] at fields
    obtain ⟨unused, high⟩ := fields
    have imm : 0#7 ++ fld (fImm12 w) 0 5 = fImm12 w := low_of_high_zero high
    rw [code_eq code, unused, ← imm] at word
    exact ⟨congrArg (fun v => some (x, v)) word, rfl⟩
  case h_6 code =>
    obtain ⟨fields, rfl⟩ := given_some h
    simp only [Bool.and_eq_true, beq_iff_eq] at fields
    obtain ⟨unused, high⟩ := fields
    have imm : 0#10 ++ fld (fImm12 w) 0 2 = fImm12 w := low_of_high_zero high
    rw [code_eq code, unused, ← imm] at word
    exact ⟨congrArg (fun v => some (x, v)) word, rfl⟩

theorem decodeEngx_means (op : fOp w = 0x3A) (fn : fSeFn w = 8) (h : decodeEngx x w = some i) : MeansWord x w i := by
  have word := fmtSE_fields op
  unfold decodeEngx at h
  split at h
  case h_16 => cases h
  all_goals
    next code =>
    obtain ⟨range, rfl⟩ := given_some h
    rw [fn, code_eq code] at word
    exact ⟨congrArg (fun v => some (x, v)) word, range⟩

theorem decodeEngine_means (op : fOp w = 0x3A) (h : decodeEngine x w = some i) : MeansWord x w i := by
  have word := fmtSE_fields op
  unfold decodeEngine at h
  split at h
  case h_7 => cases h
  case h_6 code => exact decodeEngx_means op (code_eq code) h
  all_goals
    next code =>
    obtain ⟨range, rfl⟩ := given_some h
    rw [code_eq code] at word
    exact ⟨congrArg (fun v => some (x, v)) word, range⟩

/-- A word that decodes is the encoder's word of the command it decodes to (R175). -/
theorem decode_means (h : decode x w = some i) : MeansWord x w i := by
  have wordR := fmtR_fields w
  have wordI := fmtI_fields w
  have wordJ := fmtJ_fields w
  unfold decode at h
  split at h
  case h_1 code => exact decodeAlu_means (code_eq code) h
  case h_8 code => exact decodeSys_means (code_eq code) h
  case h_9 code => exact decodeSealed_means (code_eq code) h
  case h_10 code => exact decodeGeneral_means (code_eq code) h
  case h_11 code => exact decodeEngine_means (code_eq code) h
  case h_2 code | h_3 code | h_5 code =>
    obtain ⟨unused, rfl⟩ := given_some h
    rw [code_eq code, beq_iff_eq.1 unused] at wordI
    exact ⟨congrArg (fun v => some (x, v)) wordI, rfl⟩
  case h_4 code =>
    obtain ⟨unused, rfl⟩ := given_some h
    rw [code_eq code, beq_iff_eq.1 unused] at wordR
    exact ⟨congrArg (fun v => some (x, v)) wordR, rfl⟩
  case h_6 code | h_7 code =>
    cases h
    rw [code_eq code] at wordJ
    exact ⟨congrArg (fun v => some (x, v)) wordJ, rfl⟩
  case h_33 => cases h
  all_goals
    next code =>
    cases h
    rw [code_eq code] at wordI
    exact ⟨congrArg (fun v => some (x, v)) wordI, rfl⟩

end

/-- Settles O3: instruction by instruction, the decoder finds in the encoder's word the fields put there. -/
theorem dibryDecodeReadsBackEveryEncoding : Obligations.DibryDecodeReadsBackEveryEncoding := fun _ _ _ => decode_encode

/-- Settles O4: group by group of the decoder, the word is put together again from its fields. -/
theorem dibryWordHasOneMeaning : Obligations.DibryWordHasOneMeaning := fun _ _ _ => decode_means

/-- Settles O5: each of the words is the encoder's word of its instruction. -/
theorem dibryWordsDecode : Obligations.DibryWordsDecode := by
  intro x
  have reads : ∀ {i : Instr} {w : Word}, encode i = some (x, w) → i.wf = true → decode x w = some i := fun enc wf => decode_encode wf enc
  and_intros <;> exact reads rfl rfl

end Sys2Proof.Dibry
end

section
/-! SUPPORT. Register operations, division and changes of the program counter, as the tables state them; and the statements on them (R166, R171,
R172, R176 to R178, R184, R206). -/

namespace Sys2Proof.Safety

open Sys2Proof.Machine

/-! ### Words as integers and as numbers -/

theorem add_ofInt (a b : Word) : a + b = BitVec.ofInt 32 (a.toInt + b.toInt) := by
  rw [BitVec.ofInt_add, BitVec.ofInt_toInt, BitVec.ofInt_toInt]

theorem sub_ofInt (a b : Word) : a - b = BitVec.ofInt 32 (a.toInt - b.toInt) := by
  rw [BitVec.sub_eq_add_neg, Int.sub_eq_add_neg, BitVec.ofInt_add, BitVec.ofInt_neg, BitVec.ofInt_toInt, BitVec.ofInt_toInt]

theorem mul_ofNat (a b : Word) : a * b = BitVec.ofNat 32 (a.toNat * b.toNat % 2 ^ 32) := by
  apply BitVec.eq_of_toNat_eq
  simp

theorem shiftLeft_ofNat (a : Word) (n : Nat) : a <<< n = BitVec.ofNat 32 (a.toNat * 2 ^ n) := by
  apply BitVec.eq_of_toNat_eq
  simp [Nat.shiftLeft_eq]

theorem ushiftRight_ofNat (a : Word) (n : Nat) : a >>> n = BitVec.ofNat 32 (a.toNat / 2 ^ n) := by
  have small : a.toNat / 2 ^ n < 2 ^ 32 := lt_of_le_of_lt (Nat.div_le_self ..) a.isLt
  apply BitVec.eq_of_toNat_eq
  rw [BitVec.toNat_ushiftRight, Nat.shiftRight_eq_div_pow, BitVec.toNat_ofNat, Nat.mod_eq_of_lt small]

theorem sshiftRight_ofInt (a : Word) (n : Nat) : a.sshiftRight n = BitVec.ofInt 32 (a.toInt / 2 ^ n) := by
  rw [BitVec.sshiftRight, Int.shiftRight_eq_div_pow]
  rfl

/-- The bits of rb that a shift by register uses (R177). -/
theorem shiftCount (v : Word) : v.toNat % 32 = (fld v 0 5).toNat := by simp [fld]

theorem lih_ofNat (i : BitVec 16) : Dibry.zext16 i <<< 16 = BitVec.ofNat 32 (i.toNat * 2 ^ 16) := by
  apply BitVec.eq_of_toNat_eq
  simp [Dibry.zext16, Nat.shiftLeft_eq]

theorem bne_eq_decide (a b : Word) : (a != b) = decide (a ≠ b) := by rw [bne, beq_eq_decide, decide_not]

theorem not_slt_eq_decide (a b : Word) : (!a.slt b) = decide (b.toInt ≤ a.toInt) := by
  rw [BitVec.slt, ← decide_not, decide_eq_decide, not_lt]

theorem not_ult_eq_decide (a b : Word) : (!a.ult b) = decide (b.toNat ≤ a.toNat) := by
  rw [BitVec.ult, ← decide_not, decide_eq_decide, not_lt]

/-- An offset of `n` bits counted in words, as a branch or a jump adds it to the program counter. -/
theorem offset_ofInt {n : Nat} (off : BitVec n) : (off.signExtend 32) <<< 2 = BitVec.ofInt 32 (4 * off.toInt) := by
  rw [BitVec.shiftLeft_eq_mul_twoPow, BitVec.mul_comm, BitVec.ofInt_mul, BitVec.signExtend]
  rfl

/-! ### Register operations (R176, R177) -/

/-- A command that is a register operation leaves rd at the value that the tables give, where the model's value is that one. -/
theorem regOp_does {i : Instr} {x : Proc} {rd : BitVec 5} {g : (BitVec 5 → Word) → Word} {s : State} {v : Word} (ready : Ready s.part x)
    (arm : exec i s = onPart (Part.regOp x rd g) s) (value : g (reg s.part x) = v) :
    ∃ q, Yields i s q ∧ Computes x rd v (pcOf s.part x + 4) s.part q :=
  ⟨_, .of_onPart arm rfl, value ▸ regOp_computes ready rd g⟩

/-- Settles O26: the value of each command of the two groups, against the table; most stand there in the words of the model. -/
theorem registerOperationsComputeTheirResult : Obligations.RegisterOperationsComputeTheirResult := by
  intro x rd ra rb imm
  have byRegister : ∀ {g : Word → Nat → Word} (r : BitVec 5 → Word), g (r ra) ((r rb).toNat % 32) = g (r ra) (fld (r rb) 0 5).toNat :=
    fun r => by rw [shiftCount]
  refine ⟨?add, ?sub, ?and, ?or, ?xor, ?slt, ?sltu, ?sll, ?srl, ?sra, ?slli, ?srli, ?srai, ?mul, ?mulhi, ?mulhiu, ?div, ?divu, ?mod, ?modu,
    ?addi, ?andi, ?ori, ?xori, ?slti, ?sltiu, ?lih⟩
  case add => exact fun s ready => regOp_does ready rfl (add_ofInt ..)
  case sub => exact fun s ready => regOp_does ready rfl (sub_ofInt ..)
  case sll => exact fun s ready => regOp_does ready rfl ((byRegister _).trans (shiftLeft_ofNat ..))
  case srl => exact fun s ready => regOp_does ready rfl ((byRegister _).trans (ushiftRight_ofNat ..))
  case sra => exact fun s ready => regOp_does ready rfl ((byRegister _).trans (sshiftRight_ofInt ..))
  case slli => exact fun s ready => regOp_does ready rfl (shiftLeft_ofNat ..)
  case srli => exact fun s ready => regOp_does ready rfl (ushiftRight_ofNat ..)
  case srai => exact fun s ready => regOp_does ready rfl (sshiftRight_ofInt ..)
  case mul => exact fun s ready => regOp_does ready rfl (mul_ofNat ..)
  case lih => exact fun s ready => regOp_does ready rfl (lih_ofNat imm)
  all_goals exact fun s ready => regOp_does ready rfl (rfl)

/-! ### Division (R178) -/

section
variable {a b : Word}

theorem div_zero (zero : b = 0) : Dibry.div a b = if a.toInt < 0 then 0x80000000 else 0x7FFFFFFF := if_pos zero

theorem div_overflow (least : a = 0x80000000) (minusOne : b = 0xFFFFFFFF) : Dibry.div a b = 0x7FFFFFFF := by
  subst least minusOne
  rfl

theorem divu_zero (zero : b = 0) : Dibry.divu a b = 0xFFFFFFFF := if_pos zero

theorem mod_zero (zero : b = 0) : Dibry.mod a b = 0 := if_pos (.inl zero)

theorem mod_overflow (least : a = 0x80000000) (minusOne : b = 0xFFFFFFFF) : Dibry.mod a b = 0 := if_pos (.inr ⟨least, minusOne⟩)

theorem modu_zero (zero : b = 0) : Dibry.modu a b = 0 := if_pos zero

end

/-- Settles O27: what each of the four does is in O26; here its values at the edges. -/
theorem divisionSaturates : Obligations.DivisionSaturates := by
  intro s x rd ra rb ready a b i is
  rcases is with rfl | rfl | rfl | rfl
  case inl =>
    obtain ⟨q, yields, computes⟩ := regOp_does (i := .div x rd ra rb) (v := Dibry.div a b) ready rfl rfl
    refine ⟨_, q, yields, computes, fun _ zero sign => (div_zero zero).trans (if_neg (not_lt.2 sign)),
      fun _ zero sign => (div_zero zero).trans (if_pos sign), nofun, by simp, fun least minusOne => ⟨fun _ => div_overflow least minusOne, nofun⟩⟩
  case inr.inl =>
    obtain ⟨q, yields, computes⟩ := regOp_does (i := .divu x rd ra rb) (v := Dibry.divu a b) ready rfl rfl
    exact ⟨_, q, yields, computes, nofun, nofun, fun _ => divu_zero, by simp, fun _ _ => ⟨nofun, nofun⟩⟩
  case inr.inr.inl =>
    obtain ⟨q, yields, computes⟩ := regOp_does (i := .mod x rd ra rb) (v := Dibry.mod a b) ready rfl rfl
    exact ⟨_, q, yields, computes, nofun, nofun, nofun, fun _ => mod_zero, fun least minusOne => ⟨nofun, fun _ => mod_overflow least minusOne⟩⟩
  case inr.inr.inr =>
    obtain ⟨q, yields, computes⟩ := regOp_does (i := .modu x rd ra rb) (v := Dibry.modu a b) ready rfl rfl
    exact ⟨_, q, yields, computes, nofun, nofun, nofun, fun _ => modu_zero, fun _ _ => ⟨nofun, nofun⟩⟩

/-! ### Branches and jumps (R172, R176, R184) -/

section
variable {p : Part} {x : Proc}

theorem core_value (p : Part) (c : Fin 5) (r : BitVec 5) : Part.coreReg (p.core c) r.toNat = reg p (.core c) r := congrFun (coreReg_eq p c) r

/-- An instruction on a ready core, where it leaves a request of the debugger's to step as it was. -/
theorem CoreReady.acts {c : Fin 5} (ready : CoreReady p c) {core : Nat → Core → Part → Part} {thread : Nat → Thread → Part → Part} {q : Part}
    (body : core c (p.core c) p = q) (steady : (q.core c).stepOne = (p.core c).stepOne) : p.onProc (.core c) core thread = q := by
  subst body
  exact ready.onProc core thread (steady.trans ready.unstepped)

/-- A conditional branch goes on at the offset where its comparison holds, else at the next word, and writes nothing. -/
theorem branchOp_computes (ready : Ready p x) (ra rb : BitVec 5) (off : BitVec 16) (f : Word → Word → Bool) :
    Computes x 0 0 (if f (reg p x ra) (reg p x rb) then pcOf p x + BitVec.ofInt 32 (4 * off.toInt) else pcOf p x + 4) p
      (p.branchOp x ra rb off f) := by
  rw [← offset_ofInt, ← apply_ite (pcOf p x + ·)]
  cases x with
  | core c =>
    have goes : p.branchOp (.core c) ra rb off f = p.coreGo c (pcOf p (.core c) + if f (reg p (.core c) ra) (reg p (.core c) rb) then Dibry.branchOff off else 4) := by
      refine CoreReady.acts ready ?_ (stepOne_modCore rfl)
      rw [core_value, core_value]
      rfl
    rw [goes]
    exact core_computes p c 0 0 _
  | thread n t =>
    have goes : p.branchOp (.thread n t) ra rb off f = (issuing p (Part.threadNo n t)).threadGo (Part.threadNo n t) (pcOf p (.thread n t) +
        if f (reg p (.thread n t) ra) (reg p (.thread n t) rb) then Dibry.branchOff off else 4) := by
      refine (ThreadReady.onProc ready _ _).trans ?_
      rw [thread_value, thread_value]
      rfl
    rw [goes]
    exact counted_computes p n t 0 0 _

/-- Core `m` after a taken jump to `t` that writes `link` to register `r`: a pending bank has taken effect (R172). -/
def jumped (r : BitVec 5) (link t : Word) (m : Core) : Core :=
  { m with regs := if r = 0 then m.regs else m.regs.set 0 r.toNat link, pc := t, ibk := m.pendIbk.getD m.ibk, pendIbk := none }

theorem coreJump_jumped (p : Part) (c : Nat) (r : BitVec 5) (link t : Word) :
    (p.setCoreReg c r.toNat link).coreJump c t = p.modCore c (jumped r link t) := by
  by_cases zero : r = 0
  · subst zero
    rfl
  · have nonzero : r.toNat ≠ 0 := fun h => zero (BitVec.eq_of_toNat_eq h)
    simp only [Part.setCoreReg, Part.coreJump, if_neg nonzero, modCore_modCore]
    refine modCore_congr ?_
    simp only [jumped, if_neg zero]

variable {c : Fin 5}

/-- J and CALL on a core; J writes the register that discards. -/
theorem jumpOp_core (ready : CoreReady p c) (link : Bool) (off : BitVec 26) : p.jumpOp (.core c) link off =
    p.modCore c (jumped (if link then 31 else 0) ((p.core c).pc + 4) ((p.core c).pc + BitVec.ofInt 32 (4 * off.toInt))) := by
  rw [← offset_ofInt]
  refine ready.acts ?_ (stepOne_modCore rfl)
  cases link with
  | false => exact coreJump_jumped p c 0 _ _
  | true => exact coreJump_jumped p c 31 _ _

theorem jlr_core (ready : CoreReady p c) (rd ra : BitVec 5) (imm : BitVec 16)
    (aligned : (reg p (.core c) ra + imm.signExtend 32).toNat % 4 = 0) :
    p.jlr (.core c) rd ra imm = p.modCore c (jumped rd ((p.core c).pc + 4) (reg p (.core c) ra + imm.signExtend 32)) := by
  refine ready.acts ?_ (stepOne_modCore rfl)
  rw [core_value]
  exact (if_neg (not_not.2 aligned)).trans (coreJump_jumped ..)

section
variable {n : Fin 16} {t : Fin 32}

/-- J and CALL on a thread; J writes the register that discards. -/
theorem jumpOp_thread (ready : ThreadReady p (Part.threadNo n t)) (link : Bool) (off : BitVec 26) :
    Computes (.thread n t) (if link then 31 else 0) (if link then pcOf p (.thread n t) + 4 else 0)
      (pcOf p (.thread n t) + BitVec.ofInt 32 (4 * off.toInt)) p (p.jumpOp (.thread n t) link off) := by
  rw [← offset_ofInt, Part.jumpOp, ready.onProc]
  cases link with
  | false => exact counted_computes p n t 0 0 _
  | true => exact counted_computes p n t 31 _ _

theorem jlr_thread (ready : ThreadReady p (Part.threadNo n t)) (rd ra : BitVec 5) (imm : BitVec 16)
    (aligned : (reg p (.thread n t) ra + imm.signExtend 32).toNat % 4 = 0) :
    Computes (.thread n t) rd (pcOf p (.thread n t) + 4) (reg p (.thread n t) ra + imm.signExtend 32) p (p.jlr (.thread n t) rd ra imm) := by
  rw [Part.jlr, ready.onProc, thread_value]
  exact (if_neg (not_not.2 aligned)) ▸ counted_computes p n t rd _ _

/-- A misaligned target ends a thread's harvest (R184, R206; log entry 46). -/
theorem jlr_thread_faults (ready : ThreadReady p (Part.threadNo n t)) (rd ra : BitVec 5) (imm : BitVec 16)
    (misaligned : (reg p (.thread n t) ra + imm.signExtend 32).toNat % 4 ≠ 0) :
    ∃ cause, p.jlr (.thread n t) rd ra imm = (issuing p (Part.threadNo n t)).threadFault (Part.threadNo n t) cause := by
  rw [Part.jlr, ready.onProc, thread_value]
  exact ⟨_, if_pos misaligned⟩

end

end

/-- Settles O28: branches on either processor, jumps on cores, jumps on threads. -/
theorem branchesAndJumpsGoWhereTheyShould : Obligations.BranchesAndJumpsGoWhereTheyShould := by
  intro s x ready p pc
  refine ⟨fun ra rb off => ?branches, fun off rd ra imm => ⟨?cores, ?threads⟩⟩
  case branches =>
    have goes : ∀ {i : Instr} {f : Word → Word → Bool} {t : Bool}, exec i s = onPart (Part.branchOp x ra rb off f) s → f (reg p x ra) (reg p x rb) = t →
        ∃ q, Yields i s q ∧ Computes x 0 0 (if t then pc + BitVec.ofInt 32 (4 * off.toInt) else pc + 4) p q :=
      fun {i f t} arm compares => ⟨_, .of_onPart arm rfl, compares ▸ branchOp_computes ready ra rb off f⟩
    exact ⟨goes rfl (beq_eq_decide ..), goes rfl (bne_eq_decide ..), goes rfl rfl, goes rfl (not_slt_eq_decide ..), goes rfl rfl,
      goes rfl (not_ult_eq_decide ..)⟩
  case cores =>
    rintro c rfl jt
    refine ⟨.of_onPart (g := Part.jumpOp _ false off) rfl (jumpOp_core ready false off),
      .of_onPart (g := Part.jumpOp _ true off) rfl (jumpOp_core ready true off), fun aligned => ?_⟩
    exact .of_onPart (g := Part.jlr _ rd ra imm) rfl (jlr_core ready rd ra imm aligned)
  case threads =>
    rintro n t rfl
    refine ⟨⟨_, .of_onPart (g := Part.jumpOp _ false off) rfl rfl, jumpOp_thread ready false off⟩,
      ⟨_, .of_onPart (g := Part.jumpOp _ true off) rfl rfl, jumpOp_thread ready true off⟩,
      fun aligned => ⟨_, .of_onPart (g := Part.jlr _ rd ra imm) rfl rfl, jlr_thread ready rd ra imm aligned⟩, fun misaligned => ?_⟩
    obtain ⟨cause, faults⟩ := jlr_thread_faults ready rd ra imm misaligned
    exact ends_fault (g := Part.jlr _ rd ra imm) rfl ready.atWork faults

end Sys2Proof.Safety
end

section
/-! SUPPORT. Cores at reset and at their controls; and the statements on them (R167, R425, R427, R428, R440, R444, R454, R620). -/

namespace Sys2Proof.Safety

open Sys2Proof.Machine

theorem bitsKept_refl {n : Nat} (a : BitVec n) : bitsKept a a := BitVec.and_self

theorem FusesGrow.refl (f : Fuses) : FusesGrow f f :=
  ⟨bitsKept_refl _, id, id, bitsKept_refl _, id, id, bitsKept_refl _, List.prefix_rfl, rfl, rfl, rfl, rfl, rfl⟩

/-- Settles O7: the state at reset is written out in the model; of the cores only the secure one is listed. -/
theorem resetLeavesTheStatedState : Obligations.ResetLeavesTheStatedState := by
  have held : ∀ c, c < 4 → State.reset.part.core c = { run := .held } := fun c hc =>
    Tab.get_below _ _ c fun x listed => by
      rw [List.mem_singleton.1 listed]
      exact hc
  exact ⟨rfl, .refl _, rfl, rfl, rfl, held, rfl, rfl, rfl, rfl, rfl, rfl, rfl, rfl⟩

/-- A command that changes core `c` and no other thing. -/
theorem yields_modCore {i : Instr} {s : State} {c : Nat} {g : Core → Core} {m : Core} (yields : Yields i s (s.part.modCore c g))
    (core : g (s.part.core c) = m) :
    ∃ q, Yields i s q ∧ q = { s.part with cores := q.cores } ∧ (∀ d, d ≠ c → q.core d = s.part.core d) ∧ q.core c = m :=
  ⟨_, yields, rfl, fun _ hd => (core_modCore ..).trans (if_neg hd), (core_modCore_self ..).trans core⟩

/-- Settles O9, control by control. -/
theorem coresStartAndStopAtTheirControls : Obligations.CoresStartAndStopAtTheirControls := by
  intro s c p
  refine ⟨rfl, rfl, rfl, rfl, rfl, fun off => ?ignored, fun held => ?runs, ?holds, ?normal, ?secure⟩
  case ignored => exact .of_onPart (g := Part.ccRun c) rfl (if_neg off)
  case runs => exact yields_modCore (.of_onPart (g := Part.ccRun c) rfl (if_pos held)) rfl
  case holds => exact yields_modCore (.of_onPart (g := Part.ccHold c) rfl rfl) rfl
  case normal =>
    rw [← List.drop_one]
    exact .of_onPart (g := Part.faultPop .normal) rfl rfl
  case secure =>
    rw [← List.drop_one]
    exact .of_onPart (g := Part.faultPop .secure) rfl rfl

end Sys2Proof.Safety
end

section
/-! SUPPORT. The entry of an exception in a core, after whatever check has refused what raised it; and the statements on exceptions and on SC
(R180, R181, R185, R186, R190 to R192). -/

namespace Sys2Proof.Safety

open Sys2Proof.Machine

/-! ### The entry of an exception -/

/-- Between `p` and `q` core `c` has entered the exception `x`, and a refusal may have been recorded: nothing else has changed. -/
structure Entered (p : Part) (c : Nat) (x : Trap) (q : Part) : Prop where
  core   : ∃ fbk, (∀ b, x.bank = some b → fbk = b) ∧ q.core c = entered (p.core c) x fbk
  others : ∀ d, d ≠ c → q.core d = p.core d
  rest   : q = { p with
    cores := q.cores, evr := q.evr, free := q.free
    acu := { p.acu with nfault := q.acu.nfault, sfault := q.acu.sfault, nOverflow := q.acu.nOverflow, sOverflow := q.acu.sOverflow }
    bat := { p.bat with evidN := q.bat.evidN, evidH := q.bat.evidH } }

/-- Apart from the cores an exception draws at most a free value. -/
theorem takeTrap_rest {p : Part} {c : Nat} (exl : (p.core c).exl = false) (x : Trap) :
    p.takeTrap c x = { p with cores := (p.takeTrap c x).cores, free := (p.takeTrap c x).free } := by
  unfold Part.takeTrap
  rw [if_neg (Bool.eq_false_iff.1 exl)]
  cases x.bank <;> rfl

section
variable {p r q : Part} {c : Nat} {x : Trap}

theorem FaultRecorded.cores (h : FaultRecorded p r) : r.cores = p.cores := by
  unfold FaultRecorded at h
  exact h.cores.trans rfl

theorem FaultRecorded.core (h : FaultRecorded p r) (d : Nat) : r.core d = p.core d := by rw [Part.core, h.cores, Part.core]

theorem FaultRecorded.entered (h : FaultRecorded p r) (exl : (p.core c).exl = false) : Entered p c x (r.takeTrap c x) := by
  have exl' : (r.core c).exl = false := (congrArg Core.exl (h.core c)).trans exl
  obtain ⟨core, others⟩ := takeTrap_entered r c x exl'
  refine ⟨h.core c ▸ core, fun d hd => (others d hd).trans (h.core d), ?_⟩
  rw [takeTrap_rest exl', show r = _ from h]

theorem Entered.stepOne (h : Entered p c x q) : (q.core c).stepOne = (p.core c).stepOne := by
  obtain ⟨fbk, -, core⟩ := h.core
  rw [core]
  rfl

theorem Entered.unstopped (h : Entered p c x q) (unstepped : (p.core c).stepOne = false) : q.stepStop c = q :=
  if_neg (by rw [h.stepOne, unstepped]; exact Bool.false_ne_true)

end

/-- Command `i` makes core `c` enter the exception `x`. -/
def Traps (i : Instr) (s : State) (c : Nat) (x : Trap) : Prop := ∃ q, Yields i s q ∧ Entered s.part c x q

section
variable {s : State} {c : Fin 5} {i : Instr} {x : Trap} {r : Part}

theorem Traps.of_onPart {g : Part → Part} (recorded : FaultRecorded s.part r) (exl : (s.part.core c).exl = false) (arm : exec i s = onPart g s)
    (effect : g s.part = r.takeTrap c x) : Traps i s c x := ⟨_, .of_onPart arm effect, recorded.entered exl⟩

/-- An instruction that raises an exception on a ready core. -/
theorem CoreReady.raise {p : Part} (ready : CoreReady p c) (exl : (p.core c).exl = false) (recorded : FaultRecorded p r)
    {core : Nat → Core → Part → Part} {thread : Nat → Thread → Part → Part} (body : core c (p.core c) p = r.takeTrap c x) :
    p.onProc (.core c) core thread = r.takeTrap c x := ready.acts body (recorded.entered exl).stepOne

theorem CoreReady.raise_coreOnly {p : Part} (ready : CoreReady p c) (exl : (p.core c).exl = false) (recorded : FaultRecorded p r)
    {core : Nat → Core → Part → Part} (body : core c (p.core c) p = r.takeTrap c x) : p.coreOnly (.core c) core = r.takeTrap c x :=
  ready.raise exl recorded body

theorem CoreReady.raise_privileged {p : Part} (ready : CoreReady p c) (exl : (p.core c).exl = false) (user : (p.core c).priv = false)
    {core : Nat → Core → Part → Part} (word : Word) : p.privileged (.core c) word core = p.corePrivileged c word :=
  ready.raise_coreOnly exl (.refl p) (if_neg (Bool.eq_false_iff.1 user))

theorem storeOp_acts {p : Part} (ready : CoreReady p c) (f : Fuses) (n : Nat) (rs ra : BitVec 5) (imm : BitVec 16) {y : Fuses × Part}
    (body : Part.coreStore (leBytes n (reg p (.core c) rs).toNat) (reg p (.core c) ra + imm.signExtend 32) c (p.core c) (f, p) = y) :
    Part.storeOp (.core c) n rs ra imm (f, p) = (y.1, y.2.stepStop c) := by
  change Part.coreStepF c.val (fun m => Part.coreStore (leBytes n (Part.coreReg m rs.toNat).toNat)
    (Part.coreReg m ra.toNat + Dibry.sext16 imm) c.val m) (f, p) = _
  refine ready.coreStepF f ?_
  rw [core_value, core_value]
  exact body

/-- A store that raises an exception on a ready core. -/
theorem CoreReady.store_traps (ready : CoreReady s.part c) (exl : (s.part.core c).exl = false) {n : Nat} {rs ra : BitVec 5} {imm : BitVec 16}
    (is : IsStore (.core c) rs ra imm n i)
    (body : Part.coreStore (leBytes n (reg s.part (.core c) rs).toNat) (reg s.part (.core c) ra + imm.signExtend 32) c (s.part.core c)
      (s.fuses, s.part) = (s.fuses, r.takeTrap c x)) (recorded : FaultRecorded s.part r) : Traps i s c x := by
  have enters := recorded.entered (c := c) (x := x) exl
  obtain ⟨arm, -⟩ := is.arm s
  refine ⟨_, .of_onBoth arm ((storeOp_acts ready s.fuses n rs ra imm body).trans ?_), enters⟩
  rw [enters.unstopped ready.unstepped]

end

/-! ### Accesses that are not admitted (R180, R181) -/

section
variable {p r : Part} {c n : Nat} {m : Core} {a : Word} {bus : Bool}

/-- What the checkpoint of a core answers where it refuses an access. -/
theorem coreCheck_refused {kind : BitVec 3} {a : Nat} (no : (p.coreCheck c kind a n).1 = some bus) :
    ∃ r, p.coreCheck c kind a n = (some bus, r) ∧ FaultRecorded p r := by
  have recorded := (coreCheck_spec c kind a n p).2
  generalize p.coreCheck c kind a n = y at no recorded ⊢
  obtain ⟨_, r⟩ := y
  subst no
  exact ⟨r, rfl, recorded⟩

/- As for an admitted load, the kernel must not evaluate the map on a symbolic address: the map stands as a variable. -/
theorem coreLoad_refused {sg : Bool} {rd : Nat} (aligned : a.toNat % n = 0) (check : p.coreCheck c kRead (Part.bankAddr m.dbk a) n = (some bus, r)) :
    p.coreLoad n sg rd a c m = r.dataTrap c m (if bus then xLoadBus else xLoadAccess) false a n := by
  obtain ⟨map, opaqueMap⟩ : ∃ map, map = spaceOf := ⟨_, rfl⟩
  unfold Part.coreLoad
  rw [← opaqueMap]
  simp only [aligned, ne_eq, not_true_eq_false, if_false, check]

theorem coreStore_refused {bs : List Byte} {f : Fuses} (len : bs.length = n) (aligned : a.toNat % n = 0)
    (check : p.coreCheck c kWrite (Part.bankAddr m.dbk a) n = (some bus, r)) :
    Part.coreStore bs a c m (f, p) = (f, r.dataTrap c m (if bus then xStoreBus else xStoreAccess) false a n) := by
  subst len
  obtain ⟨map, opaqueMap⟩ : ∃ map, map = spaceOf := ⟨_, rfl⟩
  unfold Part.coreStore
  rw [← opaqueMap]
  simp only [aligned, ne_eq, not_true_eq_false, if_false, check]

theorem coreStore_misaligned {bs : List Byte} {f : Fuses} (len : bs.length = n) (misaligned : a.toNat % n ≠ 0) :
    Part.coreStore bs a c m (f, p) = (f, p.dataTrap c m xStoreMis false a n) := by
  subst len
  exact if_pos misaligned

/-- The map and the check as variables: the kernel must evaluate neither on a symbolic address. -/
theorem exists_map_and_check : ∃ map checks, map = spaceOf ∧ checks = @Part.coreCheck := ⟨_, _, rfl, rfl⟩

theorem coreLr_misaligned {rd : Nat} (misaligned : a.toNat % 4 ≠ 0) : p.coreLr rd a c m = p.dataTrap c m xLoadMis true a 4 := by
  obtain ⟨map, checks, opaqueMap, opaqueChecks⟩ := exists_map_and_check
  rw [show @Part.coreLr = _ by delta Part.coreLr; rfl, ← opaqueMap, ← opaqueChecks]
  exact if_pos misaligned

end

/-! ### Special registers that an instruction may not name (R168, R169) -/

theorem specialReg_low (c : Nat) (m : Core) {n : Nat} (low : n ≤ 9) : (Part.specialReg c m n).isNone = false ∧ Part.userReg n = false := by
  interval_cases n <;> exact ⟨rfl, rfl⟩

theorem specialReg_high (c : Nat) (m : Core) {n : Nat} (high : 9 < n) (notHi : n ≠ 0x11) (notId : n ≠ 0x12) : Part.specialReg c m n = none := by
  unfold Part.specialReg
  split
  case h_13 => rfl
  all_goals omega

/-- MTSR may name the registers up to 9 only. -/
theorem specialReg_notWritten (c : Nat) (m : Core) {n : Nat} (high : 9 < n) : (Part.specialReg c m n).isNone = true ∨ Part.userReg n = true := by
  by_cases user : n = 0x11 ∨ n = 0x12
  · right
    rcases user with rfl | rfl <;> rfl
  · rw [not_or] at user
    exact .inl (Option.isNone_iff_eq_none.2 (specialReg_high c m high user.1 user.2))

section
variable {s : State} {c : Fin 5}

theorem raises_traps (ready : CoreReady s.part c) (exl : (s.part.core c).exl = false) {i : Instr} {x : Trap} (raises : Raises s.part c i x) :
    Traps i s c x := by
  have unrecorded := FaultRecorded.refl s.part
  cases raises with
  | illegal w undefined =>
    have word : ¬ (Dibry.decode (.core c) w).isSome = true := by rw [undefined]; exact Bool.false_ne_true
    exact .of_onPart unrecorded exl (g := Part.illegal (.core c) w) rfl ((if_neg word).trans (ready.raise exl unrecorded rfl))
  | sealedGroup sd =>
    refine .of_onPart unrecorded exl (g := Part.sclr (.core c) sd) rfl ?_
    exact ready.raise exl unrecorded (core := fun c _ p => p.coreIllegal c (Dibry.fmtSA 0 sd 0 0 0)) (thread := fun _ _ p => p) rfl
  | userEret user =>
    exact .of_onPart unrecorded exl (g := Part.privileged (.core c) (Dibry.fmtY 0 0 0 1) fun c _ => Part.returnTrap c) rfl
      (ready.raise_privileged exl user _)
  | userDoze user => exact .of_onPart unrecorded exl (g := Part.doze (.core c)) rfl (ready.raise_privileged exl user _)
  | userFenceRule user => exact .of_onPart unrecorded exl (g := Part.fenceRule (.core c)) rfl (ready.raise_privileged exl user _)
  | userMfsr rd sr user low =>
    refine .of_onPart unrecorded exl (g := Part.mfsr (.core c) rd sr) rfl ?_
    unfold Part.mfsr
    refine ready.raise_coreOnly exl unrecorded ?_
    obtain ⟨known, notUser⟩ := specialReg_low c (s.part.core c) low
    simp only [known, notUser, user, Bool.false_eq_true, and_false, if_false, Bool.not_false, Bool.and_self, if_true]
    rfl
  | noMfsr rd sr high notLo notHi notId =>
    refine .of_onPart unrecorded exl (g := Part.mfsr (.core c) rd sr) rfl ?_
    unfold Part.mfsr
    refine ready.raise_coreOnly exl unrecorded (if_pos ⟨notLo, ?_⟩)
    rw [specialReg_high c _ high notHi notId, Option.isNone_none]
  | userMtsr sr ra user low =>
    refine .of_onPart unrecorded exl (g := Part.mtsr (.core c) sr ra) rfl ?_
    unfold Part.mtsr
    refine ready.raise_coreOnly exl unrecorded ?_
    obtain ⟨known, notUser⟩ := specialReg_low c (s.part.core c) low
    simp only [known, notUser, user, Bool.or_self, Bool.false_eq_true, if_false, Bool.not_false, if_true]
    rfl
  | noMtsr sr ra high =>
    refine .of_onPart unrecorded exl (g := Part.mtsr (.core c) sr ra) rfl ?_
    unfold Part.mtsr
    refine ready.raise_coreOnly exl unrecorded (if_pos (Bool.or_eq_true_iff.2 (specialReg_notWritten c _ high)))
  | jump rd ra imm misaligned =>
    refine .of_onPart unrecorded exl (g := Part.jlr (.core c) rd ra imm) rfl (ready.raise exl unrecorded ?_)
    rw [core_value]
    exact if_pos misaligned
  | loadMisaligned rd ra imm misaligned =>
    refine .of_onPart unrecorded exl (g := Part.loadOp (.core c) 4 false rd ra imm) rfl (ready.raise exl unrecorded ?_)
    rw [core_value]
    exact if_pos misaligned
  | storeMisaligned rs ra imm misaligned =>
    refine ready.store_traps exl (n := 2) (.inr (.inl ⟨rfl, rfl⟩)) (r := s.part) ?_ unrecorded
    rw [coreStore_misaligned (length_leBytes ..) misaligned]
    rfl
  | loadDenied rd ra imm bus no =>
    obtain ⟨r, check, recorded⟩ := coreCheck_refused no
    refine .of_onPart recorded exl (g := Part.loadOp (.core c) 1 false rd ra imm) rfl (ready.raise exl recorded ?_)
    rw [core_value]
    exact coreLoad_refused (Nat.mod_one _) check
  | storeDenied rs ra imm bus no =>
    obtain ⟨r, check, recorded⟩ := coreCheck_refused no
    refine ready.store_traps exl (n := 1) (.inl ⟨rfl, rfl⟩) (r := r) ?_ recorded
    rw [coreStore_refused (length_leBytes ..) (Nat.mod_one _) check]
    rfl
  | atomicLoad rd ra misaligned =>
    refine .of_onPart unrecorded exl (g := Part.coreOnly (.core c) fun c m => Part.coreLr rd.toNat (Part.coreReg m ra.toNat) c m) rfl
      (ready.raise_coreOnly exl unrecorded ?_)
    rw [core_value]
    exact coreLr_misaligned misaligned
  | trap n =>
    refine .of_onPart unrecorded exl (g := Part.trap (.core c) n) rfl ?_
    unfold Part.trap
    exact ready.raise_coreOnly exl unrecorded rfl
  | brk free =>
    refine .of_onPart unrecorded exl (g := Part.brk (.core c)) rfl ?_
    unfold Part.brk
    refine ready.raise_coreOnly exl unrecorded (if_neg ?_)
    rw [free]
    exact Bool.false_ne_true

/-- A refused fetch, or one from no region, before any instruction (R191). -/
theorem coreEnter_refused {p : Part} {bus : Bool} (runs : (p.core c).run = .running) (unfenced : (p.core c).fence = false)
    (undivided : p.mayInterrupt c = false) (on : p.sys.scanStopped = false) (aligned : (p.core c).pc.toNat % 4 = 0)
    (unstepped : (p.core c).stepOne = false) (exl : (p.core c).exl = false)
    (no : (p.coreCheck c kFetch (Part.bankAddr (p.core c).ibk (p.core c).pc) 4).1 = some bus) :
    ∃ q, p.coreEnter c = (false, q) ∧ Entered p c { cause := if bus then xFetchBus else xFetchAccess, epc := (p.core c).pc
                                                    addr := (p.core c).pc, bank := some (p.core c).ibk } q := by
  obtain ⟨r, check, recorded⟩ := coreCheck_refused no
  have enters := recorded.entered (c := c) (x := { cause := if bus then xFetchBus else xFetchAccess, epc := (p.core c).pc
                                                   addr := (p.core c).pc, bank := some (p.core c).ibk }) exl
  refine ⟨_, ?_, enters⟩
  unfold Part.coreEnter
  simp only [runs, unfenced, undivided, on, aligned, check, enters.unstopped unstepped, ne_eq, not_true_eq_false, Bool.false_eq_true, or_self,
    if_false]

/-- An interrupt that may be taken (R194, R195). -/
theorem interruptTake_traps (runs : (s.part.core c).run = .running ∨ (s.part.core c).run = .doze) (on : s.part.sys.scanStopped = false)
    (may : s.part.mayInterrupt c = true) : Traps (.interruptTake c) s c
      { cause := xInterrupt, epc := if (s.part.core c).run = .doze then (s.part.core c).pc + 4 else (s.part.core c).pc } := by
  obtain ⟨⟨line, ie⟩, exl⟩ : (s.part.irqLine c = true ∧ (s.part.core c).ie = true) ∧ (s.part.core c).exl = false := by
    simpa [Part.mayInterrupt] using may
  refine .of_onPart (.refl _) exl (g := Part.interruptTake c) rfl ?_
  have taken : (s.part.sys.scanStopped || !((s.part.core c).run == .running || (s.part.core c).run == .doze) || !s.part.irqLine c) = false := by
    rw [on, line]
    rcases runs with h | h <;> rw [h] <;> rfl
  unfold Part.interruptTake
  simp only [taken, ie, exl, Bool.false_eq_true, Bool.not_false, Bool.and_self, if_false, if_true]

/-- What the clause on refused fetches lists. -/
def FetchListed (c : Fin 5) (i : Instr) : Prop :=
  (∃ rd ra rb, i = .add (.core c) rd ra rb) ∨ (∃ rd ra imm, i = .lw (.core c) rd ra imm) ∨ (∃ rs ra imm, i = .sw (.core c) rs ra imm) ∨
    i = .eret (.core c) ∨ (∃ n, i = .trap (.core c) n)

theorem fetch_traps {i : Instr} {q : Part} (listed : FetchListed c i) (enters : s.part.coreEnter c = (false, q)) : Yields i s q := by
  have body : ∀ core thread, s.part.onProc (.core c) core thread = q := fun core _ => by
    change s.part.coreStep c (core c) = q
    rw [Part.coreStep, enters]
    rfl
  rcases listed with ⟨rd, ra, rb, rfl⟩ | ⟨rd, ra, imm, rfl⟩ | ⟨rs, ra, imm, rfl⟩ | rfl | ⟨n, rfl⟩
  · exact .of_onPart (g := Part.regOp (.core c) rd fun r => r ra + r rb) rfl (body ..)
  · exact .of_onPart (g := Part.loadOp (.core c) 4 false rd ra imm) rfl (body ..)
  · refine .of_onBoth (g := Part.storeOp (.core c) 4 rs ra imm) rfl ?_
    change Part.coreStepF c.val (fun m => Part.coreStore (leBytes 4 (Part.coreReg m rs.toNat).toNat)
      (Part.coreReg m ra.toNat + Dibry.sext16 imm) c.val m) (s.fuses, s.part) = _
    simp only [Part.coreStepF, enters, Bool.false_eq_true, if_false]
  · exact .of_onPart (g := Part.privileged (.core c) (Dibry.fmtY 0 0 0 1) fun c _ => Part.returnTrap c) rfl
      (body (fun c m p => if m.priv then p.returnTrap c else p.corePrivileged c (Dibry.fmtY 0 0 0 1)) fun k _ p => p.threadFault k Part.cIllegal)
  · refine .of_onPart (g := Part.trap (.core c) n) rfl ?_
    unfold Part.trap
    exact body ..

/-- ERET of a privileged core (R192). -/
theorem eret_returns (ready : CoreReady s.part c) (priv : (s.part.core c).priv = true) :
    Yields (.eret (.core c)) s (s.part.returnTrap c) :=
  .of_onPart (g := Part.privileged (.core c) (Dibry.fmtY 0 0 0 1) fun c _ => Part.returnTrap c) rfl
    (ready.privileged priv rfl (stepOne_modCore rfl))

end

/-- Settles O25: the cases of `Raises` one by one, then a fetch refused, an interrupt, and the return. -/
theorem exceptionEntryFollowsItsSteps : Obligations.ExceptionEntryFollowsItsSteps := by
  intro s c p m enters
  have of_traps : ∀ {i x}, Traps i s c x → enters i x := fun ⟨q, yields, h⟩ =>
    have ⟨fbk, bank, core⟩ := h.core
    ⟨q, fbk, yields, bank, core, h.others, h.rest⟩
  refine ⟨fun ready exl i x raises => of_traps (raises_traps ready exl raises), ?fetch,
    fun runs on may => of_traps (interruptTake_traps runs on may), fun ready priv => yields_modCore (eret_returns ready priv) rfl⟩
  case fetch =>
    intro runs unfenced unstepped exl undivided on aligned bus no i listed
    obtain ⟨q, entry, entered⟩ := coreEnter_refused runs unfenced undivided on aligned unstepped exl no
    exact of_traps ⟨q, fetch_traps listed entry, entered⟩

/-! ### SC (R186) -/

/-- The end of an SC that raises nothing: rd is written, the reservation is gone, the core goes on. -/
def scEnds (c rd : Nat) (m : Core) (v : Word) (p : Part) : Part :=
  ((p.setCoreReg c rd v).modCore c fun m => { m with resv := none }).coreGo c (m.pc + 4)

theorem scEnds_eq (c : Nat) (rd : BitVec 5) (v : Word) (p : Part) (m : Core) :
    scEnds c rd.toNat m v p = p.modCore c fun m' =>
      { m' with regs := if rd = 0 then m'.regs else m'.regs.set 0 rd.toNat v, resv := none, pc := m.pc + 4 } := by
  unfold scEnds Part.setCoreReg Part.coreGo
  by_cases zero : rd = 0
  · rw [if_pos (zero ▸ rfl)]
    simp only [zero, if_true, modCore_modCore]
  · have nonzero : rd.toNat ≠ 0 := fun h => zero (BitVec.eq_of_toNat_eq h)
    simp only [zero, nonzero, if_false, modCore_modCore]

section
variable {p r : Part} {c rd : Nat} {m : Core} {v a : Word}

theorem coreSc_misaligned (misaligned : a.toNat % 4 ≠ 0) : p.coreSc rd v a c m = p.dataTrap c m xStoreMis true a 4 := by
  obtain ⟨map, checks, opaqueMap, opaqueChecks⟩ := exists_map_and_check
  rw [show @Part.coreSc = _ by delta Part.coreSc; rfl, ← opaqueMap, ← opaqueChecks]
  exact if_pos misaligned

variable (aligned : a.toNat % 4 = 0)
include aligned

theorem coreSc_unreserved (unreserved : m.resv ≠ some (Part.bankAddr m.dbk a / 64)) : p.coreSc rd v a c m = scEnds c rd m 1 p := by
  obtain ⟨map, checks, opaqueMap, opaqueChecks⟩ := exists_map_and_check
  rw [show @Part.coreSc = _ by delta Part.coreSc; rfl, ← opaqueMap, ← opaqueChecks]
  exact (if_neg (not_not_intro aligned)).trans (if_pos unreserved)

section
variable (reserved : m.resv = some (Part.bankAddr m.dbk a / 64)) {so : Space × Nat}
  (place : spaceOf p.sys.handed (c == 4) (Part.bankAddr m.dbk a) 4 = so)
include reserved place

theorem coreSc_unlockable (unlockable : (so.1 != .none && !Part.lockable so.1) = true) :
    p.coreSc rd v a c m = p.dataTrap c m xStoreAccess true a 4 := by
  obtain ⟨map, checks, opaqueMap, opaqueChecks⟩ := exists_map_and_check
  rcases so with ⟨s, o⟩
  rw [← opaqueMap] at place
  rw [show @Part.coreSc = _ by delta Part.coreSc; rfl, ← opaqueMap, ← opaqueChecks]
  simp only [place, unlockable, aligned, reserved, ne_eq, not_true_eq_false, if_false, if_true]

variable (open_ : (so.1 != .none && !Part.lockable so.1) = false)
include open_

theorem coreSc_refused {bus : Bool} (check : p.coreCheck c kWrite (Part.bankAddr m.dbk a) 4 = (some bus, r)) :
    p.coreSc rd v a c m = r.dataTrap c m (if bus then xStoreBus else xStoreAccess) true a 4 := by
  obtain ⟨map, checks, opaqueMap, opaqueChecks⟩ := exists_map_and_check
  rcases so with ⟨s, o⟩
  rw [← opaqueMap] at place
  rw [← opaqueChecks] at check
  rw [show @Part.coreSc = _ by delta Part.coreSc; rfl, ← opaqueMap, ← opaqueChecks]
  simp only [place, check, open_, aligned, reserved, ne_eq, not_true_eq_false, Bool.false_eq_true, if_false]

theorem coreSc_stores (check : p.coreCheck c kWrite (Part.bankAddr m.dbk a) 4 = (none, r)) :
    p.coreSc rd v a c m = scEnds c rd m 0 (r.writeWord so.1 so.2 v) := by
  obtain ⟨map, checks, opaqueMap, opaqueChecks⟩ := exists_map_and_check
  rcases so with ⟨s, o⟩
  rw [← opaqueMap] at place
  rw [← opaqueChecks] at check
  rw [show @Part.coreSc = _ by delta Part.coreSc; rfl, ← opaqueMap, ← opaqueChecks]
  simp only [place, check, open_, aligned, reserved, ne_eq, not_true_eq_false, Bool.false_eq_true, if_false]
  rfl

end
end

section
variable {p : Part} {c : Nat} {kind : BitVec 3} {a n : Nat}

theorem coreCheck_bus (bus : (p.coreCheck c kind a n).1 = some true) : (spaceOf p.sys.handed (c == 4) a n).1 = .none := by
  obtain ⟨map, opaqueMap⟩ : ∃ map, map = spaceOf := ⟨_, rfl⟩
  unfold Part.coreCheck at bus
  rw [← opaqueMap] at bus ⊢
  by_contra region
  simp only [region, decide_false, Bool.false_and, Bool.false_eq_true, if_false] at bus
  split at bus <;> simp at bus

theorem coreCheck_region (admitted : (p.coreCheck c kind a n).1 = none) : (spaceOf p.sys.handed (c == 4) a n).1 ≠ .none := by
  intro none
  obtain ⟨map, opaqueMap⟩ : ∃ map, map = spaceOf := ⟨_, rfl⟩
  unfold Part.coreCheck at admitted
  rw [← opaqueMap] at admitted none
  simp only [none, decide_true, Bool.true_and, if_true] at admitted
  split at admitted
  · cases admitted
  · split at admitted <;> cases admitted

end

theorem Entered.noReservation {p q : Part} {c : Nat} {x : Trap} (h : Entered p c x q) :
    (q.core c).resv = none ∧ ∀ d, d ≠ c → q.core d = { p.core d with resv := (q.core d).resv } := by
  obtain ⟨fbk, -, core⟩ := h.core
  refine ⟨by rw [core]; rfl, fun d hd => ?_⟩
  rw [h.others d hd]

theorem Entered.memories {p q : Part} {c : Nat} {x : Trap} (h : Entered p c x q) : q.opBuf = p.opBuf ∧ q.ccMem = p.ccMem ∧ q.priv = p.priv := by
  have rest := h.rest
  exact ⟨(congrArg Part.opBuf rest).trans rfl, (congrArg Part.ccMem rest).trans rfl, (congrArg Part.priv rest).trans rfl⟩

/-- An SC that stores a word. -/
theorem Written.scEnds {c : Nat} {rd : BitVec 5} {v : Word} {p w : Part} {ob cc pr : Mem} (h : Written ob cc pr p w) :
    let q := scEnds c rd.toNat (p.core c) v w
    q = { p with cores := q.cores, opBuf := ob, ccMem := cc, priv := pr } ∧
      q.core c = { p.core c with regs := if rd = 0 then (p.core c).regs else (p.core c).regs.set 0 rd.toNat v, resv := none
                                 pc := (p.core c).pc + 4 } ∧
      ∀ d, d ≠ c → q.core d = { p.core d with resv := (q.core d).resv } := by
  intro q
  refine ⟨?_, ?_, fun d hd => ?_⟩
  · simp only [q, scEnds_eq, Part.modCore]
    rw [h.rest]
  · simp only [q, scEnds_eq, core_modCore_self]
    rw [h.cores c]
  · simp only [q, scEnds_eq, core_modCore, if_neg hd]
    exact h.cores d

section
variable {s : State} {c : Fin 5} {rd ra rs : BitVec 5} {x : Trap} {q r : Part}

theorem sc_yields (ready : CoreReady s.part c)
    (body : s.part.coreSc rd.toNat (reg s.part (.core c) rs) (reg s.part (.core c) ra) c (s.part.core c) = q)
    (steady : (q.core c).stepOne = (s.part.core c).stepOne) : Yields (.sc (.core c) rd ra rs) s q :=
  .of_onPart (g := Part.coreOnly (.core c) fun c m => Part.coreSc rd.toNat (Part.coreReg m rs.toNat) (Part.coreReg m ra.toNat) c m) rfl
    (ready.coreOnly (by rw [core_value, core_value]; exact body) steady)

theorem sc_traps (ready : CoreReady s.part c) (exl : (s.part.core c).exl = false) (recorded : FaultRecorded s.part r)
    (body : s.part.coreSc rd.toNat (reg s.part (.core c) rs) (reg s.part (.core c) ra) c (s.part.core c) = r.takeTrap c x) :
    Traps (.sc (.core c) rd ra rs) s c x :=
  ⟨_, sc_yields ready body (recorded.entered exl).stepOne, recorded.entered exl⟩

end

/-- A region SC acts on. -/
theorem lockable_iff (s : Space) : Part.lockable s = true ↔ s = .cc ∨ s = .ob ∨ s = .priv := by
  simp only [Part.lockable, Bool.or_eq_true, beq_iff_eq, or_assoc]

/-- SC where it does not store, with a reservation. -/
theorem sc_refused {s : State} {c : Fin 5} {rd ra rs : BitVec 5} (ready : CoreReady s.part c) (exl : (s.part.core c).exl = false)
    {so : Space × Nat} {adm : Option Bool} {pa : Nat} (at_ : Part.bankAddr (s.part.core c).dbk (reg s.part (.core c) ra) = pa)
    (aligned : (reg s.part (.core c) ra).toNat % 4 = 0) (reserved : (s.part.core c).resv = some (pa / 64))
    (place : spaceOf s.part.sys.handed (c.val == 4) pa 4 = so) (check : (s.part.coreCheck c kWrite pa 4).1 = adm)
    (no : so.1 = .none ∨ ¬ (so.1 = .cc ∨ so.1 = .ob ∨ so.1 = .priv) ∨ adm ≠ none) :
    Traps (.sc (.core c) rd ra rs) s c
      { cause := if adm = some true then xStoreBus else xStoreAccess, epc := (s.part.core c).pc, addr := reg s.part (.core c) ra
        bank := some (s.part.core c).dbk, atomic := true, size := 2 } := by
  subst at_
  cases closed : so.1 != .none && !Part.lockable so.1 with
  | true =>
    have region : so.1 ≠ .none := by
      rintro none
      rw [none] at closed
      cases closed
    have noBus : adm ≠ some true := fun bus => region (place ▸ coreCheck_bus (check.trans bus))
    rw [if_neg noBus]
    exact sc_traps ready exl (.refl _) (coreSc_unlockable aligned reserved place closed)
  | false =>
    cases adm with
    | some bus =>
      obtain ⟨r, check, recorded⟩ := coreCheck_refused check
      have cause : (if some bus = some true then xStoreBus else xStoreAccess) = if bus then xStoreBus else xStoreAccess := by cases bus <;> rfl
      rw [cause]
      exact sc_traps ready exl recorded (coreSc_refused aligned reserved place closed check)
    | none =>
      have region : so.1 ≠ .none := place ▸ coreCheck_region check
      have acts : Part.lockable so.1 = true := by
        simpa [bne_iff_ne, region] using closed
      rw [lockable_iff] at acts
      tauto

theorem writeWord_written {sp : Space} (o : Nat) (v : Word) (p : Part) (acts : sp = .cc ∨ sp = .ob ∨ sp = .priv) :
    Written (if sp = .ob then p.opBuf.write ram o (leBytes 4 v.toNat) else p.opBuf)
      (if sp = .cc then p.ccMem.write ram o (leBytes 4 v.toNat) else p.ccMem)
      (if sp = .priv then p.priv.write ram o (leBytes 4 v.toNat) else p.priv) p (p.writeWord sp o v) := by
  rcases acts with rfl | rfl | rfl
  · exact writeCc_written ..
  · exact writeOb_written ..
  · exact writePriv_written ..

/-- SC where it stores. -/
theorem sc_stores {s : State} {c : Fin 5} {rd ra rs : BitVec 5} (ready : CoreReady s.part c) {so : Space × Nat} {pa : Nat}
    (at_ : Part.bankAddr (s.part.core c).dbk (reg s.part (.core c) ra) = pa) (aligned : (reg s.part (.core c) ra).toNat % 4 = 0)
    (reserved : (s.part.core c).resv = some (pa / 64)) (place : spaceOf s.part.sys.handed (c.val == 4) pa 4 = so)
    (acts : so.1 = .cc ∨ so.1 = .ob ∨ so.1 = .priv) (admitted : (s.part.coreCheck c kWrite pa 4).1 = none) :
    Yields (.sc (.core c) rd ra rs) s (scEnds c rd.toNat (s.part.core c) 0 (s.part.writeWord so.1 so.2 (reg s.part (.core c) rs))) := by
  subst at_
  have open_ : (so.1 != .none && !Part.lockable so.1) = false := by rw [(lockable_iff _).2 acts, Bool.not_true, Bool.and_false]
  refine sc_yields ready (coreSc_stores aligned reserved place open_ (coreCheck_admitted admitted)) ?_
  rw [(writeWord_written so.2 _ s.part acts).scEnds.2.1]

/-- Settles O31, in the order of R186: alignment, reservation, check. -/
theorem storeConditionalDecidesItsOutcome : Obligations.StoreConditionalDecidesItsOutcome := by
  intro s c rd ra rs p m x a v pa so adm acts i ends keeps ready exl
  refine ⟨fun misaligned => ?misaligned, fun aligned unreserved => ?unreserved, fun aligned reserved no => ?refused,
    fun aligned reserved acts admitted => ?stores⟩
  case misaligned =>
    obtain ⟨q, yields, entered⟩ := sc_traps (rd := rd) (rs := rs) ready exl (.refl p) (coreSc_misaligned misaligned)
    obtain ⟨fbk, bank, core⟩ := entered.core
    exact ⟨q, fbk, yields, entered.noReservation, entered.memories, bank _ rfl, core⟩
  case unreserved =>
    exact sc_yields ready ((coreSc_unreserved aligned unreserved).trans ((scEnds_eq ..).trans (modCore_congr rfl))) (stepOne_modCore rfl)
  case refused =>
    obtain ⟨q, yields, entered⟩ := sc_refused (rd := rd) (rs := rs) (so := so) (adm := adm) (pa := pa) ready exl rfl aligned reserved rfl rfl no
    obtain ⟨fbk, bank, core⟩ := entered.core
    exact ⟨q, yields, entered.noReservation, entered.memories, bank _ rfl ▸ core⟩
  case stores =>
    have yields : Yields i s (scEnds c rd.toNat (p.core c) 0 (p.writeWord so.1 so.2 v)) :=
      sc_stores (rd := rd) (rs := rs) (so := so) (pa := pa) ready rfl aligned reserved rfl acts admitted
    obtain ⟨rest, core, others⟩ := (writeWord_written so.2 v p acts).scEnds (c := c) (rd := rd) (v := 0)
    generalize scEnds c rd.toNat (p.core c) 0 (p.writeWord so.1 so.2 v) = q at yields rest core others
    have ob := congrArg Part.opBuf rest
    have cc := congrArg Part.ccMem rest
    have priv := congrArg Part.priv rest
    dsimp only at ob cc priv
    refine ⟨q, yields, ⟨by rw [core], others⟩, ?_, ?_, ?_, core, by rw [ob, cc, priv]; exact rest⟩
    all_goals
      intro at_
      rw [ob, cc, priv, at_]
      exact ⟨rfl, rfl, rfl⟩

end Sys2Proof.Safety
end

section
/-! SUPPORT. The test access port: a part on which SCAN leaves WAKE; and the statement on it (R448, R451, R671). -/

namespace Sys2Proof.Safety

open Sys2Proof.Machine

/-- A part in WAKE that is freezing, under a debug grant of SCAN, with one operation left, whose completion a drain discards. -/
def freezesInWake : Part :=
  { sys := { mode := .wake, freezing := true }
    dsp := { ctxs := [(0, { state := .running, discard := true })] }
    dbg := { granted := 0x100 } }

/-- The alarm of SCAN ends the operation, which was the last that the freeze waited for: QUARANTINE is then entered from FROZEN. -/
theorem freezesInWake_scanned : freezesInWake.tapScan.sys.mode = .quarantine := by decide +kernel

/-- Refutes O59: a SCAN under a grant does not leave the mode WAKE where the alarm's responses complete a freeze. -/
theorem not_testAccessPortAndDebugPort : ¬ Obligations.TestAccessPortAndDebugPort := by
  unfold Obligations.TestAccessPortAndDebugPort
  intro holds
  obtain ⟨-, -, -, -, -, -, -, -, -, -, -, -, -, -, -, -, scans⟩ := holds { pending := [], fuses := Fuses.shipped, part := freezesInWake }
  obtain ⟨q, yields, -, -, -, -, -, granted, -⟩ := scans rfl (by decide) rfl
  obtain ⟨-, -, mode⟩ := granted (by decide)
  have result : freezesInWake.tapScan = q := by
    injection yields with next
    exact congrArg State.part next
  have quarantined := freezesInWake_scanned
  rw [result] at quarantined
  exact absurd (quarantined.symm.trans (mode (by decide))) (by decide)

end Sys2Proof.Safety
end

section
/-! SUPPORT. Secure jobs, known-answer tests and the retirement of rakes and grainers; and the statement on them (R309 to R316). -/

namespace Sys2Proof.Safety

open Sys2Proof.Machine

/-! ### COMMIT (R315) -/

/-- The block of the rakes, or of the grainers. -/
def engBlock (grn : Bool) (p : Part) : EngBlock := if grn then p.rke.grn else p.rke.rke

/-- The part with that block changed. -/
def withBlock (grn : Bool) (b : EngBlock) (p : Part) : Part :=
  p.modRke fun r => if grn then { r with grn := b } else { r with rke := b }

/-- A depth that COMMIT accepts. -/
abbrev DepthOk (b : EngBlock) : Prop := 1 ≤ b.st.stage.toNat ∧ b.st.stage.toNat ≤ 32

theorem rkeCommit_eq {p : Part} {grn ok : Bool} (h : decide (DepthOk (engBlock grn p)) = ok) :
    let b := engBlock grn p
    p.rkeCommit grn = withBlock grn { b with cfgMismatch := b.cfgMismatch || !ok, st := b.st.commit ok true } p := by
  subst h
  cases grn <;> rfl

theorem rkeCommit_accepted {p : Part} {grn : Bool} (ok : DepthOk (engBlock grn p)) :
    let b := engBlock grn p
    p.rkeCommit grn = withBlock grn { b with st := { b.st with pend := none, eff := b.st.stage } } p := by
  rw [rkeCommit_eq (decide_eq_true ok), Bool.not_true, Bool.or_false]
  rfl

theorem rkeCommit_refused {p : Part} {grn : Bool} (bad : (engBlock grn p).st.stage.toNat = 0 ∨ 32 < (engBlock grn p).st.stage.toNat) :
    let b := engBlock grn p
    p.rkeCommit grn = withBlock grn { b with cfgMismatch := true, st := { b.st with pend := none } } p := by
  rw [rkeCommit_eq (decide_eq_false (by omega)), Bool.not_false, Bool.or_true]
  rfl

/-! ### Retirement (R314) -/

/-- Between `p` and `q` engine `e`, if retired, has been left as it was, and flash, access rules and the secure core's memory too. -/
structure RetiredKept (e : Nat) (p q : Part) : Prop where
  engine : (p.eng e).retired = true → q.eng e = p.eng e
  stores : StoresKept p q

theorem RetiredKept.refl (e : Nat) (p : Part) : RetiredKept e p p := ⟨fun _ => rfl, rfl, rfl, rfl⟩

theorem RetiredKept.trans {e : Nat} {p q r : Part} (h : RetiredKept e p q) (k : RetiredKept e q r) : RetiredKept e p r where
  engine gone := (k.engine (by rw [h.engine gone, gone])).trans (h.engine gone)
  stores := h.stores.trans k.stores

theorem Answered.retiredKept {p q : Part} (h : Answered p q) (e : Nat) : RetiredKept e p q := ⟨fun _ => h.eng e, h.stores⟩

/-- No operation is sent to a retired engine (R111, R314). -/
theorem sendOp_retiredKept (e : Nat) (o : EngOp) (p : Part) : RetiredKept e p (p.sendOp o) := by
  refine ⟨fun gone => ?_, (sendOp_queued o p).stores⟩
  rcases pickEngine_spec p (Pk.grainer o.mode.toNat) o.depth with ⟨-, none⟩ | ⟨d, ⟨-, up, -⟩, picked, -⟩
  · rw [sendOp_waits none]
    rfl
  · have other : e ≠ d := by
      rintro rfl
      rw [Part.engineUp, gone, Bool.not_true, Bool.and_false] at up
      exact absurd up Bool.false_ne_true
    rw [sendOp_picked picked, eng_modEng, if_neg other]
    rfl

theorem replaceOp_retiredKept (e : Nat) (o : EngOp) (p : Part) : RetiredKept e p (p.replaceOp o) := by
  unfold Part.replaceOp
  split
  · exact ⟨fun _ => rfl, rfl, rfl, rfl⟩
  · exact sendOp_retiredKept e o p
  · exact sendOp_retiredKept e o p
  · exact (endFail_answered ..).retiredKept e

/-- A retired engine runs nothing and has nothing queued; its tests' outcome stays. -/
theorem engineRetire_retires {p : Part} {e : Nat} (cause : BitVec 2) (alive : (p.eng e).retired = false) :
    let q := p.engineRetire cause e
    q.eng e = { p.eng e with retired := true, cur := none, parked := none, queue := [], ops := (q.eng e).ops } ∧ StoresKept p q := by
  let started := ((p.eng e).cur.map Running.op).toList ++ ((p.eng e).parked.map Running.op).toList
  let r := p.modEng e fun x =>
    { x with retired := true, cur := none, parked := none, queue := [], ops := x.ops + BitVec.ofNat 32 started.length }
  have own : r.eng e = { p.eng e with
      retired := true, cur := none, parked := none, queue := [], ops := (p.eng e).ops + BitVec.ofNat 32 started.length } := eng_modEng_self ..
  have ended : RetiredKept e r (started.foldl (fun p o => p.endFail o 0x30 (Part.lostDetail e) (Part.lostDetail e)) r) :=
    foldl_keeps (R := RetiredKept e) (.refl e) .trans started (fun q o _ => (endFail_answered ..).retiredKept e) r
  have placed := ended.trans (foldl_keeps (R := RetiredKept e) (.refl e) .trans (p.eng e).queue (fun q o _ => replaceOp_retiredKept e o q) _)
  have posted := fun code detail =>
    placed.trans (r := Part.post code detail 0 _) ⟨fun _ => (Recorded.post ..).eng e, (Recorded.post ..).stores⟩
  have all : RetiredKept e r (p.engineRetire cause e) := by
    simp only [Part.engineRetire, alive, Bool.false_eq_true, if_false]
    exact iteInduction (motive := RetiredKept e r) (fun _ => posted ..) fun _ => posted ..
  refine ⟨?_, StoresKept.trans (q := r) ⟨rfl, rfl, rfl⟩ all.stores⟩
  rw [all.engine (by rw [own]), own]

theorem engineRetire_retired {p : Part} {e : Nat} (cause : BitVec 2) (gone : (p.eng e).retired = true) : p.engineRetire cause e = p := by
  simp only [Part.engineRetire, gone, if_true]

/-! ### Known-answer tests (R309, R314) -/

theorem engineKatEnd_none {p : Part} {e : Nat} (failed : Bool) (quiet : (p.eng e).katRun = false) : p.engineKatEnd e failed = p := by
  simp only [Part.engineKatEnd, quiet, Bool.not_false, if_true]

/-- An engine once its test has ended. -/
def engineTested (e : Nat) (failed : Bool) (p : Part) : Part :=
  (p.modEng e fun x => { x with katRun := false, katDone := true, katFail := failed }).katRecord
    (if Part.isGrainer e then 3 else 2) (if Part.isGrainer e then e - 48 else e) failed

theorem engineKatEnd_eq {p : Part} {e : Nat} (failed : Bool) (runs : (p.eng e).katRun = true) :
    p.engineKatEnd e failed = (engineTested e failed p).when failed (Part.engineRetire 0 e) := by
  simp only [Part.engineKatEnd, runs, Bool.not_true, Bool.false_eq_true, if_false]
  rfl

theorem engineTested_spec (e : Nat) (failed : Bool) (p : Part) :
    let q := engineTested e failed p
    Recorded { p with rke := { p.rke with engines := q.rke.engines } } q ∧
      q.eng e = { p.eng e with katRun := false, katDone := true, katFail := failed } := by
  have recorded := katRecord_recorded (if Part.isGrainer e then 3 else 2) (if Part.isGrainer e then e - 48 else e) failed
    (p.modEng e fun x => { x with katRun := false, katDone := true, katFail := failed })
  refine ⟨?_, ?_⟩
  · rw [engineTested, recorded.rke]
    exact recorded
  · rw [engineTested, recorded.eng, eng_modEng_self]

/-- A failed known-answer test retires its engine (R314). -/
theorem engineKatEnd_retires {p : Part} {e : Nat} (runs : (p.eng e).katRun = true) (alive : (p.eng e).retired = false) :
    let q := p.engineKatEnd e true
    (q.eng e).katFail = true ∧ (q.eng e).retired = true ∧ (q.eng e).cur = none ∧ (q.eng e).queue = [] ∧ StoresKept p q := by
  obtain ⟨recorded, own⟩ := engineTested_spec e true p
  obtain ⟨engine, stores⟩ := engineRetire_retires 0 (p := engineTested e true p) (e := e) (by rw [own]; exact alive)
  rw [engineKatEnd_eq true runs, Part.when_true]
  refine ⟨?_, ?_, ?_, ?_, StoresKept.trans ⟨recorded.nvm, recorded.acu, recorded.priv⟩ stores⟩ <;> rw [engine]
  rw [own]

/-! ### Secure jobs (R311, R312) -/

/-- A job slot named for a job. -/
def jobNamed (engine : BitVec 6) (kind : BitVec 4) (param : BitVec 16) (x : Sjob) : Sjob :=
  { x with engine := engine, kind := kind, param := param }

/-- The engine that ENGINE names in slot `j`: a rake of slots 0 to 3, a grainer of slots 4 to 7. -/
def jobTarget (j : Nat) (engine : BitVec 6) : Nat := if 4 ≤ j then 48 + engine.toNat % 8 else engine.toNat

/-- A kind of slots 0 to 3, of the rakes, or of slots 4 to 7, of the grainers (R311). -/
abbrev KindListed (j : Nat) (kind : BitVec 4) : Prop :=
  (if 4 ≤ j then kind == 4 || kind == 5 else kind == 1 || kind == 2 || kind == 3) = true

section
variable {p : Part} {j : Nat} {engine : BitVec 6} {kind : BitVec 4} {param : BitVec 16}

theorem jobGo_busy (busy : (p.rke.jobs.get {} j).busy = true) : p.jobGo j engine kind param = p := by
  simp only [Part.jobGo, busy, if_true]

/-- The job slot changed, and no other. -/
def modJob (j : Nat) (g : Sjob → Sjob) (p : Part) : Part := p.modRke fun r => { r with jobs := r.jobs.upd {} j g }

theorem modJob_job (g : Sjob → Sjob) : (modJob j g p).rke.jobs.get {} j = g (p.rke.jobs.get {} j) := Tab.get_upd_self ..

theorem modJob_modJob (g h : Sjob → Sjob) : modJob j h (modJob j g p) = modJob j (fun x => h (g x)) p := by
  simp only [modJob, Part.modRke, Tab.upd_upd]

section
variable (idle : (p.rke.jobs.get {} j).busy = false)
  (listed : KindListed j kind)
include idle listed

theorem jobGo_idle : p.jobGo j engine kind param =
    let q := modJob j (jobNamed engine kind param) p
    if p.jobParamOk kind.toNat param.toNat = false ∨ (j < 4 ∧ 48 ≤ jobTarget j engine) then
      modJob j (fun x => { x with done := true, result := 0x10 }) q
    else if p.engineUp (jobTarget j engine) = false then modJob j (fun x => { x with done := true, result := 0x30 }) q
    else (modJob j (fun x => { x with busy := true }) q).enqueue (jobTarget j engine)
      { owner := .job j, cls := 0, mode := 0x1C0#9 + kind.setWidth 9, param := param, handle := (p.rke.jobs.get {} j).addr
        colour := 0xFFF } := by
  have target : (if decide (4 ≤ j) = true then 48 + engine.toNat % 8 else engine.toNat) = jobTarget j engine := by simp [jobTarget]
  have kindOk : (if decide (4 ≤ j) = true then kind == 4 || kind == 5 else kind == 1 || kind == 2 || kind == 3) = true := by
    simpa using listed
  simp only [Part.jobGo, idle, target, kindOk]
  rw [if_neg Bool.false_ne_true]
  refine if_congr ?_ rfl (if_congr ?_ rfl rfl)
  · rw [Bool.not_true, Bool.false_or, Bool.or_eq_true, Bool.and_eq_true, decide_eq_true_iff, Bool.not_eq_true', Bool.not_eq_true',
      decide_eq_false_iff_not, Nat.not_le]
    rfl
  · rw [Bool.not_eq_true']
    rfl

/-- A job that R312 does not admit ends at once (R312). -/
theorem jobGo_malformed (bad : p.jobParamOk kind.toNat param.toNat = false ∨ (j < 4 ∧ 48 ≤ jobTarget j engine)) :
    p.jobGo j engine kind param = modJob j (fun x => { jobNamed engine kind param x with done := true, result := 0x10 }) p := by
  rw [jobGo_idle idle listed]
  exact (if_pos bad).trans (modJob_modJob ..)

section
variable (good : p.jobParamOk kind.toNat param.toNat = true) (rake : j < 4 → jobTarget j engine < 48)
include good rake

omit idle listed in
theorem not_malformed : ¬ (p.jobParamOk kind.toNat param.toNat = false ∨ (j < 4 ∧ 48 ≤ jobTarget j engine)) := by
  rintro (bad | ⟨low, beyond⟩)
  · rw [good] at bad
    exact absurd bad (by decide)
  · exact absurd (rake low) (Nat.not_lt.2 beyond)

/-- The engine of a job is lost (R312). -/
theorem jobGo_lost (down : p.engineUp (jobTarget j engine) = false) :
    p.jobGo j engine kind param = modJob j (fun x => { jobNamed engine kind param x with done := true, result := 0x30 }) p := by
  rw [jobGo_idle idle listed]
  exact (if_neg (not_malformed good rake)).trans ((if_pos down).trans (modJob_modJob ..))

theorem jobGo_queues (up : p.engineUp (jobTarget j engine) = true) :
    p.jobGo j engine kind param = (modJob j (fun x => { jobNamed engine kind param x with busy := true }) p).enqueue (jobTarget j engine)
      { owner := .job j, cls := 0, mode := 0x1C0#9 + kind.setWidth 9, param := param, handle := (p.rke.jobs.get {} j).addr
        colour := 0xFFF } := by
  rw [jobGo_idle idle listed]
  refine (if_neg (not_malformed good rake)).trans ((if_neg (by rw [up]; decide)).trans ?_)
  rw [modJob_modJob]

end

end

/-! ### The end of a job (R311) -/

theorem jobDone_none (idle : p.jobEngine j = none) : p.jobDone j = p := by simp only [Part.jobDone, idle]

/-- The result of a job: for the RSA check its answer. -/
def jobResult (r : Running) : Byte :=
  if r.op.mode.toNat - 0x1C0 = 3 then (if Standard.rsaConsistent (fld r.w3 16 9).toNat r.mat then 0 else 1) else 0

/-- What a job writes: a generated key pair. -/
def jobWritten (r : Running) (p : Part) : Part :=
  if r.op.mode.toNat - 0x1C0 = 3 then p
  else p.writePriv (r.op.handle.toNat % 0x200000) (Pk.keygen (r.op.mode.toNat - 0x1C0) r.op.param.toNat r.rnd)

theorem jobWritten_priv (r : Running) (p : Part) : Written p.opBuf p.ccMem (if r.op.mode.toNat - 0x1C0 = 3 then p.priv else
    p.priv.write ram (r.op.handle.toNat % 0x200000) (Pk.keygen (r.op.mode.toNat - 0x1C0) r.op.param.toNat r.rnd)) p (jobWritten r p) := by
  unfold jobWritten
  split
  · exact ⟨rfl, fun _ => rfl⟩
  · exact writePriv_written ..

theorem jobDone_eq {e : Nat} {r : Running} (runs : p.jobEngine j = some (e, r)) :
    p.jobDone j = (modJob j (fun x => { x with busy := false, done := true, result := jobResult r }) (jobWritten r p)).engineFree e := by
  simp only [Part.jobDone, runs]
  rfl

/-- The end of a job that an engine runs. -/
theorem jobDone_ends {e : Nat} {r : Running} (runs : p.jobEngine j = some (e, r)) :
    let q := p.jobDone j
    (q.eng e).cur = none ∧
      q.rke.jobs.get {} j = { p.rke.jobs.get {} j with busy := false, done := true, result := jobResult r } ∧
      q.nvm = p.nvm ∧ q.acu = p.acu ∧ q.priv = (jobWritten r p).priv := by
  have written := (jobWritten_priv r p).rest
  rw [jobDone_eq runs]
  generalize jobWritten r p = w at written
  have stores := (engineFree_kept e (modJob j (fun x => { x with busy := false, done := true, result := jobResult r }) w)).1
  have jobs : ∀ q : Part, (q.engineFree e).rke.jobs = q.rke.jobs := fun q => congrArg (fun q => q.rke.jobs) (refill_queued _).rest
  refine ⟨by rw [engineFree_engine], ?_, stores.nvm.trans ?_, stores.acu.trans ?_, stores.priv⟩
  · rw [jobs, modJob_job, written]
  · exact show w.nvm = p.nvm by rw [written]
  · exact show w.acu = p.acu by rw [written]

end

/-- Settles O20: each command on engines and job slots by what the engine or slot holds. -/
theorem engineTestsRetirementAndSecureJobs : Obligations.EngineTestsRetirementAndSecureJobs := by
  unfold Obligations.EngineTestsRetirementAndSecureJobs
  intro s p
  refine ⟨⟨fun lo hi => ?rkeAccepted, fun bad => ?rkeRefused⟩, ⟨fun lo hi => ?grnAccepted, fun bad => ?grnRefused⟩, fun e =>
    ⟨?kat, fun f quiet => ?noTest, fun runs => ?passed, fun runs alive => ?failed, fun gone => ?retired, fun alive => ?retires⟩,
    fun j engine param i slot e kind gives => ?job, fun j idle => ?noJob, fun j e r => ?jobEnds⟩
  case rkeAccepted => exact .of_onPart (g := Part.rkeCommit false) rfl (rkeCommit_accepted (grn := false) ⟨lo, hi⟩)
  case rkeRefused => exact .of_onPart (g := Part.rkeCommit false) rfl (rkeCommit_refused (grn := false) bad)
  case grnAccepted => exact .of_onPart (g := Part.rkeCommit true) rfl (rkeCommit_accepted (grn := true) ⟨lo, hi⟩)
  case grnRefused => exact .of_onPart (g := Part.rkeCommit true) rfl (rkeCommit_refused (grn := true) bad)
  case kat => exact ⟨p.engineKat e, .of_onPart (g := Part.engineKat e) rfl rfl, rfl, eng_modEng_self ..⟩
  case noTest => exact .of_onPart (g := Part.engineKatEnd e f) rfl (engineKatEnd_none f quiet)
  case passed =>
    obtain ⟨recorded, own⟩ := engineTested_spec e false p
    exact ⟨_, .of_onPart (g := Part.engineKatEnd e false) rfl (engineKatEnd_eq false runs), recorded, own⟩
  case failed =>
    obtain ⟨failed, gone, cur, queue, stores⟩ := engineKatEnd_retires runs alive
    exact ⟨_, .of_onPart (g := Part.engineKatEnd e true) rfl rfl, failed, gone, cur, queue, stores.kept⟩
  case retired => exact .of_onPart (g := Part.engineRetire 1 e) rfl (engineRetire_retired 1 gone)
  case retires =>
    obtain ⟨engine, stores⟩ := engineRetire_retires 1 alive
    exact ⟨_, .of_onPart (g := Part.engineRetire 1 e) rfl rfl, by rw [engine], by rw [engine], by rw [engine], stores.kept⟩
  case job =>
    obtain ⟨arm, rfl, listed⟩ : exec i s = onPart (Part.jobGo slot engine kind param) s ∧ e = jobTarget slot engine ∧
        KindListed slot kind := by
      have low : ¬ 4 ≤ j.val := Nat.not_le.2 j.isLt
      have high : 4 ≤ 4 + j.val := Nat.le_add_right ..
      rcases gives with ⟨rfl, rfl, rfl, rfl⟩ | ⟨rfl, rfl, rfl, rfl⟩ | ⟨rfl, rfl, rfl, rfl⟩ | ⟨rfl, rfl, rfl, rfl⟩ |
        ⟨rfl, rfl, rfl, rfl⟩
      · exact ⟨rfl, (if_neg low).symm, (if_neg low).trans rfl⟩
      · exact ⟨rfl, (if_neg low).symm, (if_neg low).trans rfl⟩
      · exact ⟨rfl, (if_neg low).symm, (if_neg low).trans rfl⟩
      · exact ⟨rfl, (if_pos high).symm, (if_pos high).trans rfl⟩
      · exact ⟨rfl, (if_pos high).symm, (if_pos high).trans rfl⟩
    intro x named
    refine ⟨fun busy => .of_onPart arm (jobGo_busy busy), fun idle bad => ?_, fun idle good rake down => ?_, fun idle good rake up => ?_⟩
    · exact ⟨_, .of_onPart arm (jobGo_malformed idle listed bad), rfl, modJob_job _⟩
    · exact ⟨_, .of_onPart arm (jobGo_lost idle listed good rake down), rfl, modJob_job _⟩
    · have own := modJob_job (p := p) (j := slot) fun x => { jobNamed engine kind param x with busy := true }
      exact ⟨_, _, .of_onPart arm (jobGo_queues idle listed good rake up), rfl, own, eng_modEng_self .., rfl, rfl, rfl, rfl, rfl⟩
  case noJob => exact .of_onPart (g := Part.jobDone j) rfl (jobDone_none idle)
  case jobEnds =>
    intro kind runs
    obtain ⟨cur, own, nvm, acu, priv⟩ := jobDone_ends runs
    rw [(jobWritten_priv r p).rest] at priv
    refine ⟨_, .of_onPart (g := Part.jobDone j) rfl rfl, cur, by rw [own], by rw [own], nvm, acu, fun check => ⟨?_, ?_⟩,
      fun pair => ⟨?_, ?_⟩⟩
    · rw [priv, if_pos check]
    · rw [own, jobResult, if_pos check]
    · rw [own, jobResult, if_neg pair]
    · rw [priv, if_neg pair]

end Sys2Proof.Safety
end

section
/-! SUPPORT. Slots of the Salt Cellar as commands write them: the fields of their words, a chain written, destroyed or narrowed (R320, R328,
R336, R338). -/

namespace Sys2Proof.Safety

open Sys2Proof.Machine

/-! ### Fields of a word put together -/

theorem fld_or {n : Nat} (a b : BitVec n) (lo len : Nat) : fld (a ||| b) lo len = fld a lo len ||| fld b lo len :=
  BitVec.extractLsb'_or

theorem getLsbD_at' {n : Nat} (v : BitVec n) (lo i : Nat) (hi : i < 32) : (at' v lo).getLsbD i = (decide (lo ≤ i) && v.getLsbD (i - lo)) := by
  rw [at', BitVec.getLsbD_shiftLeft, BitVec.getLsbD_setWidth]
  by_cases low : lo ≤ i
  · simp [hi, low, Nat.not_lt.2 low, Nat.lt_of_le_of_lt (Nat.sub_le i lo) hi]
  · simp [low, Nat.lt_of_not_le low]

/-- The field that was put there. -/
theorem fld_at'_same {n lo : Nat} (v : BitVec n) (fits : lo + n ≤ 32) : fld (at' v lo) lo n = v := by
  refine BitVec.eq_of_getLsbD_eq fun i hi => ?_
  rw [BitVec.getLsbD_extractLsb', getLsbD_at' v lo (lo + i) (by omega)]
  simp [hi]

/-- A field apart from the one that was put there. -/
theorem fld_at'_apart {n s : Nat} (v : BitVec n) {lo len : Nat} (fits : lo + len ≤ 32) (apart : s + n ≤ lo ∨ lo + len ≤ s) :
    fld (at' v s) lo len = 0 := by
  refine BitVec.eq_of_getLsbD_eq fun i hi => ?_
  rw [BitVec.getLsbD_extractLsb', getLsbD_at' v s (lo + i) (by omega)]
  rcases apart with below | above
  · simp [BitVec.getLsbD_of_ge v (lo + i - s) (by omega)]
  · simp [show ¬ s ≤ lo + i by omega]

theorem fld_bit'_apart (b : Bool) {s lo len : Nat} (fits : lo + len ≤ 32) (apart : s + 1 ≤ lo ∨ lo + len ≤ s) : fld (bit' b s) lo len = 0 := by
  cases b with
  | false => exact BitVec.extractLsb'_zero ..
  | true =>
    have one : bit' true s = at' (1#1) s := by simp [bit', at']
    rw [one, fld_at'_apart (1#1) fits apart]

/-! ### The words of a slot (R320) -/

/-- The fields of word 0. -/
theorem word0_fields (colour : BitVec 12) (hclass : BitVec 4) (gen alg : Byte) :
    let w := Slot.word0 colour hclass gen alg
    fld w 0 12 = colour ∧ fld w 12 4 = hclass ∧ fld w 16 8 = gen ∧ fld w 24 8 = alg := by
  refine ⟨?_, ?_, ?_, ?_⟩ <;> rw [Slot.word0, fld_or, fld_or, fld_or]
  · rw [fld_at'_same, fld_at'_apart hclass, fld_at'_apart gen, fld_at'_apart alg] <;> simp
  · rw [fld_at'_apart colour, fld_at'_same, fld_at'_apart gen, fld_at'_apart alg] <;> simp
  · rw [fld_at'_apart colour, fld_at'_apart hclass, fld_at'_same, fld_at'_apart alg] <;> simp
  · rw [fld_at'_apart colour, fld_at'_apart hclass, fld_at'_apart gen, fld_at'_same] <;> simp

/-- Usage and STATE in word 1. -/
theorem word1_fields (usage : BitVec 16) (mask : Byte) (dec exp : BitVec 3) (state : BitVec 2) :
    let w := Slot.word1 usage mask dec exp state
    fld w 0 16 = usage ∧ fld w 30 2 = state := by
  refine ⟨?_, ?_⟩ <;> rw [Slot.word1, fld_or, fld_or, fld_or, fld_or]
  · rw [fld_at'_same, fld_at'_apart (mask &&& _), fld_at'_apart dec, fld_at'_apart exp, fld_at'_apart state] <;> simp
  · rw [fld_at'_apart usage, fld_at'_apart (mask &&& _), fld_at'_apart dec, fld_at'_apart exp, fld_at'_same] <;> simp

/-- CHAIN_POS, CHAIN_LEN and CHILD in word 2. -/
theorem word2_fields (pos len child : Byte) (hold : Bool) :
    let w := Slot.word2 pos len child hold
    fld w 0 8 = pos ∧ fld w 8 8 = len ∧ fld w 16 8 = child := by
  refine ⟨?_, ?_, ?_⟩ <;> rw [Slot.word2, fld_or, fld_or, fld_or]
  · rw [fld_at'_same, fld_at'_apart len, fld_at'_apart child, fld_bit'_apart hold] <;> simp
  · rw [fld_at'_apart pos, fld_at'_same, fld_at'_apart child, fld_bit'_apart hold] <;> simp
  · rw [fld_at'_apart pos, fld_at'_apart len, fld_at'_same, fld_bit'_apart hold] <;> simp

/-- NOT_AFTER and MOD_LIMBS in word 3. -/
theorem word3_fields (notAfter : BitVec 16) (limbs : BitVec 9) :
    let w := Slot.word3 notAfter limbs
    fld w 0 16 = notAfter ∧ fld w 16 9 = limbs := by
  refine ⟨?_, ?_⟩ <;> rw [Slot.word3, fld_or]
  · rw [fld_at'_same, fld_at'_apart limbs] <;> simp
  · rw [fld_at'_apart notAfter, fld_at'_same] <;> simp

/-! ### A slot written -/

/-- A written slot reads back under its tag; every other slot stays. -/
theorem slot_put (c : Slc) (i x : Nat) (s : Slot) : (c.put i s).slot x = if x = i then c.sealed i s else c.slot x := by
  simp only [Slc.slot, Slc.put, Tab.get_set]
  split <;> rfl

/-- `d` has the keys of `c`: the same tags. -/
theorem sealed_congr {c d : Slc} (keys : d.keys = c.keys) (i : Nat) (s : Slot) : d.sealed i s = c.sealed i s := by
  simp only [Slc.sealed, Slc.tagOf, keys]

/-- A slot as the bank writes it passes its own check (R330). -/
theorem tagOf_sealed (c : Slc) (i : Nat) (s : Slot) : c.tagOf i (c.sealed i s) = (c.sealed i s).tag := rfl

/-! ### A chain written (R328, R336) -/

/-- Slot `m` of a chain of `n`, as it is written but for its tag. -/
def chainSlot (colour : BitVec 12) (t : Template) (notAfter : BitVec 16) (limbs : BitVec 9) (gen : Byte) (n m : Nat) (mat : List Byte) : Slot :=
  { mat := Crypto.padR 32 mat, w0 := Slot.word0 colour t.hclass gen t.alg, w1 := Slot.word1 t.usage t.mask t.dec t.expo Slot.key
    w2 := Slot.word2 (BitVec.ofNat 8 m) (BitVec.ofNat 8 n) t.child false, w3 := Slot.word3 notAfter limbs, tag := [] }

/-- Slot `i + m` of a chain written, with its bad mark cleared. -/
def putLink (i : Nat) (f : Nat → List Byte → Slot) (c : Slc) (x : List Byte × Nat) : Slc :=
  { c.put (i + x.2) (f x.2 x.1) with bad := c.bad.set false (i + x.2) false }

theorem putChain_eq (c : Slc) (i : Nat) (colour : BitVec 12) (t : Template) (notAfter : BitVec 16) (limbs : BitVec 9) (mats : List (List Byte)) :
    c.putChain i colour t notAfter limbs mats =
      mats.zipIdx.foldl (putLink i (chainSlot colour t notAfter limbs ((c.slot i).gen + 1) mats.length)) c := rfl

theorem slot_putLink (i : Nat) (f : Nat → List Byte → Slot) (c : Slc) (x : List Byte × Nat) (y : Nat) :
    (putLink i f c x).slot y = if y = i + x.2 then c.sealed (i + x.2) (f x.2 x.1) else c.slot y := slot_put ..

/-- What a chain write leaves, from its `k`th slot on. -/
theorem putLinks_spec (i : Nat) (f : Nat → List Byte → Slot) (mats : List (List Byte)) (k : Nat) (c : Slc) :
    let d := (mats.zipIdx k).foldl (putLink i f) c
    (∀ y, y < i + k ∨ i + (k + mats.length) ≤ y → d.slot y = c.slot y) ∧
      ∀ m (h : m < mats.length), d.slot (i + (k + m)) = c.sealed (i + (k + m)) (f (k + m) mats[m]) := by
  induction mats generalizing k c with
  | nil => exact ⟨fun _ _ => rfl, fun _ h => absurd h (Nat.not_lt_zero _)⟩
  | cons b mats ih =>
    obtain ⟨outside, inside⟩ := ih (k + 1) (putLink i f c (b, k))
    rw [List.zipIdx_cons, List.foldl_cons]
    refine ⟨fun y hy => ?_, fun m h => ?_⟩
    · rw [List.length_cons] at hy
      rw [outside y (by omega), slot_putLink, if_neg (by omega)]
    · cases m with
      | zero =>
        rw [outside (i + (k + 0)) (by omega), slot_putLink, if_pos (by rw [Nat.add_zero])]
        rfl
      | succ m =>
        have later := inside m (by simpa using h)
        rw [show k + 1 + m = k + (m + 1) by omega] at later
        exact later.trans (sealed_congr rfl ..)

/-- A chain written at slot `i`: its slots, and every other slot as it was. -/
theorem putChain_spec (c : Slc) (i : Nat) (colour : BitVec 12) (t : Template) (notAfter : BitVec 16) (limbs : BitVec 9) (mats : List (List Byte)) :
    let d := c.putChain i colour t notAfter limbs mats
    (∀ y, y < i ∨ i + mats.length ≤ y → d.slot y = c.slot y) ∧
      ∀ m (h : m < mats.length), d.slot (i + m) =
        c.sealed (i + m) (chainSlot colour t notAfter limbs ((c.slot i).gen + 1) mats.length m mats[m]) := by
  obtain ⟨outside, inside⟩ :=
    putLinks_spec i (chainSlot colour t notAfter limbs ((c.slot i).gen + 1) mats.length) mats 0 c
  simp only [Nat.zero_add, Nat.add_zero] at outside inside
  rw [putChain_eq]
  exact ⟨outside, inside⟩

/-- The fields of a slot of a chain written, which its tag leaves. -/
structure Linked (s : Slot) (colour : BitVec 12) (t : Template) (limbs : BitVec 9) (gen : Byte) (n m : Nat) (mat : List Byte) : Prop where
  mat      : s.mat = Crypto.padR 32 mat
  state    : s.state = Slot.key
  colour   : s.colour = colour
  alg      : s.alg = t.alg
  usage    : s.usage = t.usage
  chainPos : s.chainPos = BitVec.ofNat 8 m
  chainLen : s.chainLen = BitVec.ofNat 8 n
  limbs    : (fld s.w3 16 9 : BitVec 9) = limbs
  gen      : s.gen = gen

theorem chainSlot_linked (c : Slc) (i : Nat) (colour : BitVec 12) (t : Template) (notAfter : BitVec 16) (limbs : BitVec 9) (gen : Byte)
    (n m : Nat) (mat : List Byte) :
    Linked (c.sealed i (chainSlot colour t notAfter limbs gen n m mat)) colour t limbs gen n m mat := by
  obtain ⟨hcolour, -, hgen, halg⟩ := word0_fields colour t.hclass gen t.alg
  obtain ⟨husage, hstate⟩ := word1_fields t.usage t.mask t.dec t.expo Slot.key
  obtain ⟨hpos, hlen, -⟩ := word2_fields (BitVec.ofNat 8 m) (BitVec.ofNat 8 n) t.child false
  obtain ⟨-, hlimbs⟩ := word3_fields notAfter limbs
  exact ⟨rfl, hstate, hcolour, halg, husage, hpos, hlen, hlimbs, hgen⟩

/-! ### A chain destroyed (R338, R351) -/

theorem slot_destroy1 (c : Slc) (i x : Nat) :
    (c.destroy1 i).slot x = if x = i then c.sealed i (Slc.emptySlot ((c.slot i).gen + 1)) else c.slot x := slot_put ..

theorem isBad_destroy1 (c : Slc) (i x : Nat) : (c.destroy1 i).isBad x = if x = i then false else c.isBad x :=
  Tab.get_set false c.bad i x false

/-- Slots destroyed one after another, no slot twice. -/
theorem destroyed_spec {is : List Nat} (once : is.Nodup) (c : Slc) :
    let d := is.foldl Slc.destroy1 c
    d.keys = c.keys ∧
    (∀ x, d.slot x = if x ∈ is then c.sealed x (Slc.emptySlot ((c.slot x).gen + 1)) else c.slot x) ∧
      ∀ x, d.isBad x = if x ∈ is then false else c.isBad x := by
  induction is generalizing c with
  | nil => exact ⟨rfl, fun _ => rfl, fun _ => rfl⟩
  | cons i is ih =>
    obtain ⟨fresh, once⟩ := List.nodup_cons.1 once
    obtain ⟨keys, slots, bads⟩ := ih once (c.destroy1 i)
    refine ⟨keys, fun x => ?_, fun x => ?_⟩
    · rw [List.foldl_cons, slots]
      by_cases here : x = i
      · subst here
        rw [if_neg fresh, slot_destroy1, if_pos rfl, if_pos List.mem_cons_self]
      · rw [slot_destroy1, if_neg here, sealed_congr (c := c) (d := c.destroy1 i) rfl]
        simp only [List.mem_cons, here, false_or]
    · rw [List.foldl_cons, bads, isBad_destroy1]
      by_cases here : x = i
      · simp [here]
      · simp only [List.mem_cons, here, false_or, if_false]

/-- The slots of a chain are listed once. -/
theorem chainOf_nodup (c : Slc) (i : Nat) : (c.chainOf i).Nodup := by
  simp only [Slc.chainOf]
  split
  · exact List.nodup_singleton i
  · have rest : ∀ l : List Nat, l.Sublist ((List.range (c.slot i).chainLen.toNat).drop 1) → (i :: l.map (i + ·)).Nodup := fun l sub => by
      have range : (List.range (c.slot i).chainLen.toNat).Nodup := List.nodup_range
      refine List.nodup_cons.2 ⟨fun mem => ?_, ((range.sublist (List.drop_sublist ..)).sublist sub).map fun a b => Nat.add_left_cancel⟩
      obtain ⟨k, hk, same⟩ := List.mem_map.1 mem
      have zero : k = 0 := by omega
      subst zero
      have later := sub.subset hk
      cases len : (c.slot i).chainLen.toNat with
      | zero => simp [len] at later
      | succ n => simp [len, List.range_succ_eq_map] at later
    exact rest _ List.filter_sublist

/-- A command that destroys the slots `is` of the Cellar. -/
theorem destroyed_of_slc {is : List Nat} (once : is.Nodup) {p q : Part} (slc : q.slc = is.foldl Slc.destroy1 p.slc) : Destroyed is p q := by
  obtain ⟨keys, slots, bads⟩ := destroyed_spec once p.slc
  rw [← slc] at keys slots bads
  refine ⟨fun i hi => ?_, fun i hi => ⟨?_, ?_⟩⟩
  · have own : q.slot i = p.slc.sealed i (Slc.emptySlot ((p.slot i).gen + 1)) := (slots i).trans (if_pos hi)
    obtain ⟨-, -, gen, -⟩ := word0_fields 0 0 ((p.slot i).gen + 1) 0
    refine ⟨?_, ?_, ?_, (bads i).trans (if_pos hi), ?_⟩
    · rw [own]
      exact BitVec.extractLsb'_zero ..
    · rw [own]
      exact gen
    · rw [own]
      rfl
    · rw [Slc.tagOk, show q.slc.slot i = _ from own, ← sealed_congr keys, tagOf_sealed, beq_self_eq_true]
  · exact (slots i).trans (if_neg hi)
  · exact (bads i).trans (if_neg hi)

/-! ### A chain narrowed (R338) -/

/-- A field of a word whose mask keeps it. -/
theorem fld_and (a b : Word) (lo len : Nat) : fld (a &&& b) lo len = fld a lo len &&& fld b lo len := BitVec.extractLsb'_and

/-- The usage, limit, generation and material of a slot narrowed. -/
theorem narrowSlot_fields (usage lim : BitVec 16) (t : Slot) :
    let s := Part.narrowSlot usage lim t
    s.usage = t.usage &&& usage ∧ s.notAfter = (if lim = 0 then t.notAfter else lim) ∧ s.gen = t.gen ∧ s.mat = t.mat := by
  have high : fld (0xFFFF0000 : Word) 0 16 = 0 := by decide
  refine ⟨?_, ?_, rfl, rfl⟩
  · simp only [Slot.usage, Part.narrowSlot]
    rw [fld_and, fld_or, fld_at'_same usage (by omega), high]
    exact congrArg _ BitVec.zero_or
  · simp only [Slot.notAfter, Part.narrowSlot]
    split
    · rfl
    · rw [fld_or, fld_and, high, fld_at'_same lim (by omega)]
      exact (congrArg (· ||| lim) BitVec.and_zero).trans BitVec.zero_or

/-- Slots rewritten one after another, no slot twice. -/
theorem rewritten_spec (f : Slot → Slot) {is : List Nat} (once : is.Nodup) (c : Slc) :
    let d := is.foldl (fun c i => c.put i (f (c.slot i))) c
    ∀ x, d.slot x = if x ∈ is then c.sealed x (f (c.slot x)) else c.slot x := by
  induction is generalizing c with
  | nil => exact fun _ => rfl
  | cons i is ih =>
    obtain ⟨fresh, once⟩ := List.nodup_cons.1 once
    intro d x
    refine (ih once (c.put i (f (c.slot i))) x).trans ?_
    by_cases here : x = i
    · subst here
      rw [if_neg fresh, slot_put, if_pos rfl, if_pos List.mem_cons_self]
    · rw [slot_put, if_neg here, sealed_congr (c := c) (d := c.put i (f (c.slot i))) rfl]
      simp only [List.mem_cons, here, false_or]

end Sys2Proof.Safety
end

section
/-! SUPPORT. Administrative commands that begin at once: the body of each is run, and how it ends (R386 to R391, R472, R541). -/

namespace Sys2Proof.Safety

open Sys2Proof.Machine

/-! ### A command that begins runs its body -/

section
variable {k : Part.AdmKind} {c : AdmCmd} {body : Nat → Part → Option Part} {p : Part}

theorem AdmReady.row (ready : AdmReady p k c) :
    p.admRow k c body = (body (admCtx p c.fn) (admBegun p k c)).getD (admTaken k c p) := by
  have mode : p.sys.mode ≠ .quarantine ∧ p.sys.mode ≠ .standby ∧ p.admHeld = false := by
    rcases ready.serving with mode | mode <;> simp [mode, Part.admHeld, ready.unfrozen]
  obtain ⟨noQuarantine, noStandby, serves⟩ := mode
  have served : c.fn.val = 0 ∨ (p.tnt.states.get 0 c.fn ≠ 0 ∧ p.tnt.states.get 0 c.fn ≠ 5) ∨ p.admHeld = true := by
    by_cases manager : c.fn.val = 0
    · exact .inl manager
    · rw [ready.active manager]
      exact .inr (.inl ⟨by decide, by decide⟩)
  have gate : ¬ (k.classA && !(admBegun p k c).gateOpen) = true := by
    rw [show (admBegun p k c).gateOpen = p.gateOpen from rfl]
    cases classA : k.classA with
    | false => exact Bool.false_ne_true
    | true =>
      rw [ready.gate classA]
      exact Bool.false_ne_true
  rw [admRow_begins ready.present ready.sound ready.kept ready.idle noQuarantine ready.unheld served ready.context ready.room serves
    ready.posts, Part.admRun, if_neg (mt (barred_iff (k := k) (p := admBegun p k c)).1 fun barred => noStandby barred.1), ready.fields]
  exact (if_neg gate).trans (if_neg fun ⟨tenant, state⟩ => state (ready.active tenant))

variable {s : State} {i : Instr}

theorem AdmReady.yields {q : Part} (ready : AdmReady s.part k c) (arm : exec i s = onPart (Part.admRow k c body) s)
    (does : body (admCtx s.part c.fn) (admBegun s.part k c) = some q) : Yields i s q :=
  .of_onPart arm (by rw [ready.row, does, Option.getD_some])

/-- A command whose body fails is refused. -/
theorem AdmReady.fails {status : Byte} {detail : Byte} (ready : AdmReady s.part k c) (arm : exec i s = onPart (Part.admRow k c body) s)
    (bad : (status == 0 || status == 1) = false)
    (does : body (admCtx s.part c.fn) (admBegun s.part k c) = some ((admBegun s.part k c).fail (admCtx s.part c.fn) status detail)) :
    ∃ q, Yields i s q ∧ AdmRefuses k.op c status detail s.part q :=
  ⟨_, ready.yields arm does, fail_refuses detail bad⟩

end

/-! ### The end of a command -/

/-- Command `c` of kind `k`, begun in `p`, is at work in `r`: its channel and its context are as they began. -/
structure AtCommand (k : Part.AdmKind) (c : AdmCmd) (p r : Part) : Prop where
  dsp : r.dsp = (admBegun p k c).dsp
  adm : r.tnt.adm = (admBegun p k c).tnt.adm

/-- From `r` to `q` a command has ended: of the part only channels and contexts have changed. -/
def Told (r q : Part) : Prop := q = { r with tnt := { r.tnt with adm := q.tnt.adm }, dsp := q.dsp }

section
variable {r q : Part}

theorem Told.slc (h : Told r q) : q.slc = r.slc := by rw [h]
theorem Told.mir (h : Told r q) : q.mir = r.mir := by rw [h]
theorem Told.bat (h : Told r q) : q.bat = r.bat := by rw [h]
theorem Told.nvm (h : Told r q) : q.nvm = r.nvm := by rw [h]
theorem Told.tnt (h : Told r q) : q.tnt = { r.tnt with adm := q.tnt.adm } := by rw [h]
theorem Told.slot (h : Told r q) (j : Nat) : q.slot j = r.slot j := by rw [Part.slot, h.slc, Part.slot]
theorem Told.counted (h : Told r q) (n : Nat) : q.counted n = r.counted n := by rw [Part.counted, h.tnt, Part.counted]

end

section
variable {k : Part.AdmKind} {c : AdmCmd} {p r : Part}

theorem AtCommand.begun : AtCommand k c p (admBegun p k c) := ⟨rfl, rfl⟩

theorem AtCommand.later {q : Part} (h : AtCommand k c p r) (dsp : q.dsp = r.dsp) (adm : q.tnt.adm = r.tnt.adm) : AtCommand k c p q :=
  ⟨dsp.trans h.dsp, adm.trans h.adm⟩

theorem AtCommand.channel (h : AtCommand k c p r) (m : Nat) : r.adm m = (admBegun p k c).adm m := by rw [Part.adm, h.adm, Part.adm]

/-- The end of a command in its context, with its channel keeping `out`. -/
theorem finish_begun {status detail : Byte} {res out : List Byte} {count : Word} (dsp : r.dsp = (admBegun p k c).dsp)
    (own : r.adm c.fn = { (admBegun p k c).adm c.fn with out := out }) (others : ∀ m, m ≠ c.fn.val → r.adm m = p.adm m)
    (result : (status ≠ 0 → status ≠ 1 → res = []) ∧ (if status = 0 ∨ status = 1 then count else 0) = BitVec.ofNat 32 out.length) :
    let q := r.finish (admCtx p c.fn) status detail res count
    AdmEnds k.op c status detail res out p q ∧ q = { r with dsp := q.dsp } := by
  have ctx : ∀ j, r.ctx j = (admBegun p k c).ctx j := fun j => by rw [Part.ctx, dsp, Part.ctx]
  have began := (ctx (admCtx p c.fn)).trans admBegun_ctx
  have running : (r.ctx (admCtx p c.fn)).state = .running := by rw [began]
  have counts : (r.ctx (admCtx p c.fn)).discard = false := by rw [began]
  have unbound : r.unbind (admCtx p c.fn) = r := by rw [Part.unbind, began]
  have ended := finish_running (status := status) detail res count running counts
  have left := finish_running_ctx (status := status) detail res count running counts
  rw [unbound] at ended
  rw [began] at left
  have kept : (if status = 0 ∨ status = 1 then res else []) = res := by
    split
    · rfl
    · next bad => exact (result.1 (fun h => bad (.inl h)) fun h => bad (.inr h)).symm
  have channel : ∀ m, (r.finish (admCtx p c.fn) status detail res count).adm m = r.adm m := fun m => by
    rw [ended]
    rfl
  refine ⟨⟨?_, ?_, ?_, fun m other => ?_, fun j other => ?_⟩, ?_⟩
  · rw [channel, own, admBegun_adm]
  · rw [left]
    exact ⟨rfl, rfl, rfl, rfl⟩
  · rw [left]
    exact ⟨rfl, rfl, kept, result.2⟩
  · rw [channel, others m other]
  · rw [ended, Part.ctx, Part.modDsp_dsp, ← Part.ctx, ctx_modCtx, if_neg other, ctx, admBegun_ctx_other other]
  · rw [ended]
    rfl

/-- A command that ends well: RESULT, and octets for its buffer (R388, R389). -/
theorem AtCommand.done (h : AtCommand k c p r) (res out : List Byte) :
    let q := r.admDone c.fn (admCtx p c.fn) res out
    AdmEnds k.op c 0 0 res out p q ∧ Told r q := by
  obtain ⟨ended, rest⟩ := finish_begun (r := r.modAdm c.fn fun a => { a with out := out }) (detail := 0) (status := 0) (res := res)
    (count := BitVec.ofNat 32 out.length) (out := out) h.dsp (by rw [adm_modAdm_self, h.channel])
    (fun m other => by rw [adm_modAdm_other _ _ other, h.channel, admBegun_adm_other other]) ⟨fun bad => absurd rfl bad, if_pos (.inl rfl)⟩
  refine ⟨ended, ?_⟩
  unfold Told
  rw [Part.admDone, rest]
  rfl

/-- A command that fails after what it has done before. -/
theorem AtCommand.failed (h : AtCommand k c p r) {status : Byte} (detail : Byte) (bad : status ≠ 0 ∧ status ≠ 1) :
    let q := r.fail (admCtx p c.fn) status detail
    AdmEnds k.op c status detail [] [] p q ∧ Told r q := by
  obtain ⟨ended, rest⟩ := finish_begun (r := r) (detail := detail) (status := status) (res := []) (count := 0) (out := []) h.dsp
    (by rw [h.channel, admBegun_adm]) (fun m other => by rw [h.channel, admBegun_adm_other other])
    ⟨fun _ _ => rfl, if_neg (not_or.2 bad)⟩
  refine ⟨ended, ?_⟩
  unfold Told
  rw [Part.fail, rest]

end

/-! ### What commands change -/

/-- From `p` to `q` at most channels, contexts and counts of functions, slots and the ledger have changed. -/
def Commanded (p q : Part) : Prop := q = { p with tnt := q.tnt, dsp := q.dsp, slc := q.slc, mir := q.mir }

theorem Commanded.trans {p q r : Part} (h : Commanded p q) (k : Commanded q r) : Commanded p r := by
  unfold Commanded at *
  rw [k, h]

theorem Commanded.nvm {p q : Part} (h : Commanded p q) : q.nvm = p.nvm := by rw [h]
theorem Commanded.acu {p q : Part} (h : Commanded p q) : q.acu = p.acu := by rw [h]
theorem Commanded.priv {p q : Part} (h : Commanded p q) : q.priv = p.priv := by rw [h]

theorem Told.commanded {r q : Part} (h : Told r q) : Commanded r q := by
  unfold Commanded
  rw [h]

/-- An entry of the ledger changes the pair block only (R541, R546). -/
theorem ledger_mir (items : List Byte) (w : Option Nat) (n : Option (Nat × BitVec 64)) (p : Part) :
    p.ledger items w n = { p with mir := (p.ledger items w n).mir } := by
  unfold Part.ledger
  split
  · rfl
  · split <;> rfl

theorem ledger_slc (items : List Byte) (w : Option Nat) (n : Option (Nat × BitVec 64)) (p : Part) : (p.ledger items w n).slc = p.slc := by
  rw [ledger_mir]

theorem ledger_bat (items : List Byte) (w : Option Nat) (n : Option (Nat × BitVec 64)) (p : Part) : (p.ledger items w n).bat = p.bat := by
  rw [ledger_mir]

theorem ledger_nvm (items : List Byte) (w : Option Nat) (n : Option (Nat × BitVec 64)) (p : Part) : (p.ledger items w n).nvm = p.nvm := by
  rw [ledger_mir]

theorem ledger_tnt (items : List Byte) (w : Option Nat) (n : Option (Nat × BitVec 64)) (p : Part) : (p.ledger items w n).tnt = p.tnt := by
  rw [ledger_mir]

section
variable {k : Part.AdmKind} {c : AdmCmd} {p r : Part}

theorem AtCommand.ledger (h : AtCommand k c p r) (items : List Byte) (w : Option Nat) (n : Option (Nat × BitVec 64)) :
    AtCommand k c p (r.ledger items w n) := by
  rw [ledger_mir]
  exact h.later rfl rfl

end

/-- A change of slots and of the counts, with its entry. -/
def slotsChanged (i : Nat) (is : List Nat) (g : Slc → Slc) (n : Nat) (count : Nat → Nat) (p : Part) : Part :=
  ((p.modSlc g).modCounted n count).ledgerSlots i is

section
variable {i : Nat} {is : List Nat} {g : Slc → Slc} {n : Nat} {count : Nat → Nat} {p : Part}

theorem slotsChanged_slc : (slotsChanged i is g n count p).slc = g p.slc := by
  rw [slotsChanged, Part.ledgerSlots, ledger_mir]
  rfl

theorem slotsChanged_counted : (slotsChanged i is g n count p).counted n = count (p.counted n) := by
  rw [slotsChanged, Part.ledgerSlots, ledger_mir]
  exact Tab.get_upd_self ..

theorem slotsChanged_commanded : Commanded p (slotsChanged i is g n count p) := by
  rw [slotsChanged, Part.ledgerSlots, ledger_mir]
  rfl

theorem AtCommand.slotsChanged {k : Part.AdmKind} {c : AdmCmd} {p r : Part} (h : AtCommand k c p r) :
    AtCommand k c p (slotsChanged i is g n count r) :=
  (h.later (q := (r.modSlc g).modCounted n count) rfl rfl).ledger ..

end

/-- A change of slots alone, with its entry. -/
def slotsRewritten (i : Nat) (is : List Nat) (g : Slc → Slc) (p : Part) : Part := (p.modSlc g).ledgerSlots i is

section
variable {i : Nat} {is : List Nat} {g : Slc → Slc} {p : Part}

theorem slotsRewritten_slc : (slotsRewritten i is g p).slc = g p.slc := by
  rw [slotsRewritten, Part.ledgerSlots, ledger_mir]
  rfl

theorem slotsRewritten_commanded : Commanded p (slotsRewritten i is g p) := by
  rw [slotsRewritten, Part.ledgerSlots, ledger_mir]
  rfl

theorem AtCommand.slotsRewritten {k : Part.AdmKind} {c : AdmCmd} {p r : Part} (h : AtCommand k c p r) :
    AtCommand k c p (slotsRewritten i is g r) :=
  (h.later (q := r.modSlc g) rfl rfl).ledger ..

end

/-! ### Open sessions (R472) -/

/-- A ceremony session of the function's colour is open. -/
abbrev SessionOpen (p : Part) (n : Nat) : Prop := p.sys.session.active = true ∧ p.sys.session.fn = n

theorem sessionFree_open {p : Part} {n : Nat} (opened : SessionOpen p n) (i : Nat) (go : Part → Option Part) :
    Part.sessionFree n i go p = some (p.fail i 0x12 0x40) :=
  if_pos (by rw [opened.1, opened.2, Bool.true_and, beq_self_eq_true])

theorem sessionFree_free {p : Part} {n : Nat} (free : ¬ SessionOpen p n) (i : Nat) (go : Part → Option Part) :
    Part.sessionFree n i go p = go p :=
  if_neg fun h => free (by simpa using h)

/-- The row of a command that no function of an open session may give. -/
def SessionRow (s : State) (c : AdmCmd) (k : Instr × Part.AdmKind) : Prop :=
  ∃ body, exec k.1 s = onPart (Part.admRow k.2 c body) s ∧ ∀ i p, SessionOpen p c.fn → body i p = some (p.fail i 0x12 0x40)

/-- The six key commands of R472. -/
theorem admKinds_sessionRow (s : State) (c : AdmCmd) (input : Option (List Byte)) :
    ∀ k ∈ admKinds s.part c input, k.2.op ∈ [0x10, 0x11, 0x12, 0x14, 0x15, 0x16] → SessionRow s c k := by
  simp only [admKinds, List.forall_mem_cons]
  refine ⟨?_, fun _ => ⟨Part.keyLand c, rfl, fun i p opened => by unfold Part.keyLand; exact sessionFree_open opened ..⟩,
    fun _ => ⟨Part.keyGenerate c, rfl, fun i p opened => by unfold Part.keyGenerate; exact sessionFree_open opened ..⟩,
    fun _ => ⟨Part.keyLoadBlob c, rfl, fun i p opened => by unfold Part.keyLoadBlob; exact sessionFree_open opened ..⟩, ?_,
    fun _ => ⟨Part.keyDestroy c, rfl, fun i p opened => sessionFree_open opened ..⟩,
    fun _ => ⟨Part.keyNarrow c, rfl, fun i p opened => sessionFree_open opened ..⟩,
    fun _ => ⟨Part.storageRotate c, rfl, fun i p opened => by unfold Part.storageRotate; exact sessionFree_open opened ..⟩, ?_⟩
  · exact fun listed => absurd listed (by simp)
  · exact fun listed => absurd listed (by simp)
  and_intros
  iterate 21 exact fun listed => absurd listed (by simp)
  exact List.forall_mem_nil _

theorem keyCommand_sessionOpen {s : State} {c : AdmCmd} {input : Option (List Byte)} {k : Instr × Part.AdmKind}
    (listed : k ∈ admKinds s.part c input) (key : k.2.op ∈ [0x10, 0x11, 0x12, 0x14, 0x15, 0x16]) (ready : AdmReady s.part k.2 c)
    (opened : SessionOpen s.part c.fn) : ∃ q, Yields k.1 s q ∧ AdmRefuses k.2.op c 0x12 0x40 s.part q := by
  obtain ⟨body, arm, refuses⟩ := admKinds_sessionRow s c input k listed key
  exact ready.fails arm (by decide) (refuses _ _ opened)

end Sys2Proof.Safety
end

section
/-! SUPPORT. What a command that begins leaves as it was, and reads of keys (R294, R327, R346, R348, R384). -/

namespace Sys2Proof.Safety

open Sys2Proof.Machine

/-! ### Reads of keys (R327) -/

/-- A read by handle answers slots where both its checks pass: the slots of the chain, head first. -/
theorem slotRead_ok_iff {h : BitVec 32} {colour : BitVec 12} {accepted : List (BitVec 4)} {p : Part} {ss : List Slot} :
    (p.slotRead h colour accepted).1 = .ok ss ↔ (p.headCheck h colour accepted).1 = none ∧
      (p.chainCheck (hIndex h) (p.slot (hIndex h)) 1 ((p.slot (hIndex h)).chainLen.toNat - 1)).1 = none ∧
      (List.range (max 1 (p.slot (hIndex h)).chainLen.toNat)).map (fun k => p.slot (hIndex h + k)) = ss := by
  unfold Part.slotRead
  rcases head : p.headCheck h colour accepted with ⟨_ | e, p'⟩
  · obtain ⟨-, rfl⟩ := Prod.mk.inj (head.symm.trans (headCheck_passes (congrArg Prod.fst head)))
    simp only
    rcases chain : Part.chainCheck (hIndex h) (p'.slot (hIndex h)) 1 ((p'.slot (hIndex h)).chainLen.toNat - 1) p' with ⟨_ | e, r⟩
    · obtain ⟨-, rfl⟩ := Prod.mk.inj (chain.symm.trans (chainCheck_passes (congrArg Prod.fst chain)))
      simp
    · simp
  · simp

/-! ### What a command that begins leaves -/

section
variable {p : Part} {k : Part.AdmKind} {c : AdmCmd}

@[simp] theorem admBegun_sys : (admBegun p k c).sys = p.sys := rfl
@[simp] theorem admBegun_slc : (admBegun p k c).slc = p.slc := rfl
@[simp] theorem admBegun_bat : (admBegun p k c).bat = p.bat := rfl
@[simp] theorem admBegun_nvm : (admBegun p k c).nvm = p.nvm := rfl
@[simp] theorem admBegun_slot (j : Nat) : (admBegun p k c).slot j = p.slot j := rfl
@[simp] theorem admBegun_counted (n : Nat) : (admBegun p k c).counted n = p.counted n := rfl
@[simp] theorem admBegun_vaultRead (o n : Nat) : (admBegun p k c).vaultRead o n = p.vaultRead o n := rfl

@[simp] theorem admBegun_bankUp (b : Nat) : (admBegun p k c).bankUp b = p.bankUp b := by
  unfold Part.bankUp
  rfl

@[simp] theorem admBegun_banksUp (is : List Nat) : (admBegun p k c).banksUp is = p.banksUp is := by
  unfold Part.banksUp
  simp only [admBegun_bankUp]

@[simp] theorem admBegun_slotsFit (n m : Nat) : (admBegun p k c).slotsFit n m = p.slotsFit n m := by
  unfold Part.slotsFit Part.slotsSet
  rfl

@[simp] theorem admBegun_rangeFree (i m : Nat) : (admBegun p k c).rangeFree i m = p.rangeFree i m := by
  unfold Part.rangeFree
  rw [admBegun_banksUp]
  rfl

@[simp] theorem admBegun_storageRoot : (admBegun p k c).storageRoot = p.storageRoot := by
  unfold Part.storageRoot Part.vaultInUse Part.rootUsable Part.vaultRead Part.rootDerive
  rfl

@[simp] theorem admBegun_storageKey (colour : BitVec 12) : (admBegun p k c).storageKey colour = p.storageKey colour := by
  rw [Part.storageKey, admBegun_storageRoot, Part.storageKey, admBegun_vaultRead]

@[simp] theorem admBegun_jobParamOk (kind param : Nat) : (admBegun p k c).jobParamOk kind param = p.jobParamOk kind param := by
  unfold Part.jobParamOk
  rfl

@[simp] theorem admBegun_entDraw (cls : EntClass) (n : Nat) : ((admBegun p k c).entDraw cls n).1 = (p.entDraw cls n).1 := by
  unfold Part.entDraw
  rfl

@[simp] theorem admBegun_headCheck (h : BitVec 32) (colour : BitVec 12) (accepted : List (BitVec 4)) :
    ((admBegun p k c).headCheck h colour accepted).1 = (p.headCheck h colour accepted).1 := by
  simp only [Part.headCheck, apply_ite Prod.fst, admBegun_bankUp]
  rfl

theorem admBegun_chainCheck (i : Nat) (s : Slot) (m n : Nat) :
    ((admBegun p k c).chainCheck i s m n).1 = (p.chainCheck i s m n).1 := by
  induction n generalizing m with
  | zero => rfl
  | succ n ih =>
    simp only [Part.chainCheck, apply_ite Prod.fst, admBegun_bankUp, ih]
    rfl

theorem admBegun_slotRead {h : BitVec 32} {colour : BitVec 12} {accepted : List (BitVec 4)} {ss : List Slot} :
    ((admBegun p k c).slotRead h colour accepted).1 = .ok ss ↔ (p.slotRead h colour accepted).1 = .ok ss := by
  simp only [slotRead_ok_iff, admBegun_headCheck, admBegun_chainCheck, admBegun_slot]

end

/-! ### Draws -/

/-- A draw that is served. -/
theorem entDraw_drawn {cls : EntClass} {n : Nat} {bs : List Byte} {p : Part} (drawn : (p.entDraw cls n).1 = some bs) :
    p.entDraw cls n = (some bs, (p.entDraw cls n).2) := Prod.ext drawn rfl

/-- A command at work may draw. -/
theorem AtCommand.drawn {k : Part.AdmKind} {c : AdmCmd} {p r : Part} (h : AtCommand k c p r) (cls : EntClass) (n : Nat) :
    AtCommand k c p (r.entDraw cls n).2 :=
  have draw := entDraw_spec cls n r
  h.later draw.dsp (by rw [draw.tnt])

end Sys2Proof.Safety
end

section
/-! SUPPORT. Octets cut in pieces, and the length of what a blob's cipher opens (R343). -/

namespace Sys2Proof.Safety

open Sys2Proof.Machine

/-! ### Pieces of octets -/

section
variable {n : Nat}

/-- The pieces in their order, each where its octets stand. -/
theorem getElem?_chunks (pos : 0 < n) : ∀ {fuel : Nat} {bs : List Byte}, bs.length < fuel → ∀ m,
    (Crypto.chunks n fuel bs)[m]? = if n * m < bs.length then some ((bs.drop (n * m)).take n) else none
  | fuel + 1, [], _, m => by simp [Crypto.chunks]
  | fuel + 1, b :: bs, room, 0 => by simp [Crypto.chunks]
  | fuel + 1, b :: bs, room, m + 1 => by
    have fewer : ((b :: bs).drop n).length < fuel := by
      rw [List.length_drop]
      rw [List.length_cons] at room ⊢
      omega
    rw [Crypto.chunks, if_neg (List.cons_ne_nil b bs), List.getElem?_cons_succ, getElem?_chunks pos fewer, List.length_drop,
      List.drop_drop, Nat.mul_succ, Nat.add_comm n]
    exact if_congr (by omega) rfl rfl

theorem flatten_chunks (pos : 0 < n) : ∀ {fuel : Nat} {bs : List Byte}, bs.length < fuel → (Crypto.chunks n fuel bs).flatten = bs
  | fuel + 1, [], _ => by simp [Crypto.chunks]
  | fuel + 1, b :: bs, room => by
    have fewer : ((b :: bs).drop n).length < fuel := by
      rw [List.length_drop]
      rw [List.length_cons] at room ⊢
      omega
    rw [Crypto.chunks, if_neg (List.cons_ne_nil b bs), List.flatten_cons, flatten_chunks pos fewer, List.take_append_drop]

theorem flatten_pieces (pos : 0 < n) (bs : List Byte) : (Crypto.pieces n bs).flatten = bs := flatten_chunks pos (Nat.lt_succ_self _)

variable {bs : List Byte} {k : Nat}

/-- Octets that fill `k` pieces. -/
theorem getElem?_pieces (pos : 0 < n) (whole : bs.length = n * k) (m : Nat) :
    (Crypto.pieces n bs)[m]? = if m < k then some ((bs.drop (n * m)).take n) else none := by
  rw [Crypto.pieces, getElem?_chunks pos (Nat.lt_succ_self _), whole]
  exact if_congr (Nat.mul_lt_mul_left pos) rfl rfl

theorem length_pieces (pos : 0 < n) (whole : bs.length = n * k) : (Crypto.pieces n bs).length = k := by
  refine Nat.le_antisymm (List.getElem?_eq_none_iff.1 ?_) (Nat.le_of_not_lt fun fewer => ?_)
  · rw [getElem?_pieces pos whole, if_neg (Nat.lt_irrefl k)]
  · have last := List.getElem?_eq_none_iff.2 (Nat.le_refl (Crypto.pieces n bs).length)
    rw [getElem?_pieces pos whole, if_pos fewer] at last
    exact nomatch last

theorem getElem_pieces (pos : 0 < n) (whole : bs.length = n * k) {m : Nat} (h : m < (Crypto.pieces n bs).length) :
    (Crypto.pieces n bs)[m] = (bs.drop (n * m)).take n := by
  have at' := getElem?_pieces pos whole m
  rw [List.getElem?_eq_getElem h, if_pos (length_pieces pos whole ▸ h)] at at'
  exact Option.some.inj at'

end

/-! ### The cipher of a blob -/

@[simp] theorem length_xorB : ∀ a b : List Byte, (Crypto.xorB a b).length = a.length
  | [], _ => by simp [Crypto.xorB]
  | _ :: _, [] => by simp [Crypto.xorB]
  | _ :: as, _ :: bs => by simp [Crypto.xorB, length_xorB as bs]

theorem length_sivCrypt (ek tag bs : List Byte) : (Crypto.sivCrypt ek tag bs).length = bs.length := by
  have lengths : ∀ (l : List (List Byte)) (k : Nat), ((l.zipIdx k).map fun x => x.1.length) = l.map List.length := fun l k => by
    conv_rhs => rw [← List.zipIdx_map_fst k l, List.map_map]
    rfl
  simp only [Crypto.sivCrypt, List.length_flatMap, length_xorB]
  rw [lengths, ← List.length_flatten, flatten_pieces (by decide)]

/-- A blob that opens gives as many octets as its ciphertext has before the tag. -/
theorem length_sivOpen {key nonce aad ct mat : List Byte} (opens : Crypto.sivOpen key nonce aad ct = some mat) : mat.length = ct.length - 16 := by
  unfold Crypto.sivOpen at opens
  rw [Option.ite_none_right_eq_some] at opens
  rw [← Option.some.inj opens.2, length_sivCrypt, List.length_take]
  exact Nat.min_eq_left (Nat.sub_le ..)

end Sys2Proof.Safety
end

section
/-! SUPPORT. The key commands that write slots: KEY_LAND, KEY_GENERATE and KEY_LOAD_BLOB (R336, R338, R341, R343, R389). -/

namespace Sys2Proof.Safety

open Sys2Proof.Machine

/-- Command `i` of opcode `op` yields a part in which it has ended well with `res` and `out`, of which `eff` holds, and in which only
slots, counts, channels, contexts and the ledger have changed. -/
def Ends (s : State) (i : Instr) (op : Nat) (c : AdmCmd) (res out : List Byte) (eff : Part → Prop) : Prop :=
  ∃ q, Yields i s q ∧ AdmEnds op c 0 0 res out s.part q ∧ Commanded s.part q ∧ eff q

/-- Command `i` of opcode `op` is refused with a status and a detail. -/
def Refused (s : State) (i : Instr) (op : Nat) (c : AdmCmd) (status detail : Byte) : Prop :=
  ∃ q, Yields i s q ∧ AdmRefuses op c status detail s.part q

section
variable {s : State} {i : Instr} {k : Part.AdmKind} {c : AdmCmd} {body : Nat → Part → Option Part} {r : Part} {res out : List Byte}
  (ready : AdmReady s.part k c) (arm : exec i s = onPart (Part.admRow k c body) s) (work : AtCommand k c s.part r)
  (does : body (admCtx s.part c.fn) (admBegun s.part k c) = some (r.admDone c.fn (admCtx s.part c.fn) res out))
include ready arm work does

/-- A command whose body leaves `r` and ends well. -/
theorem AdmReady.done : ∃ q, Yields i s q ∧ AdmEnds k.op c 0 0 res out s.part q ∧ Told r q :=
  have ⟨ended, told⟩ := work.done res out
  ⟨_, ready.yields arm does, ended, told⟩

theorem AdmReady.ends {eff : Part → Prop} (rest : Commanded (admBegun s.part k c) r) (effect : ∀ q, Told r q → eff q) :
    Ends s i k.op c res out eff :=
  have ⟨q, yields, ended, told⟩ := ready.done arm work does
  ⟨q, yields, ended, (rest.trans told.commanded : Commanded _ _), effect q told⟩

end

/-- The handle of a slot. -/
abbrev handleOctets (cls : BitVec 4) (gen : Byte) (j : Nat) : List Byte := leBytes 4 (mkHandle cls gen j).toNat

/-- `m` slots from `j` on have been written and counted for function `n`: no other slot has changed. -/
def Landed (p q : Part) (n j m : Nat) : Prop := (∀ x, x < j ∨ j + m ≤ x → q.slot x = p.slot x) ∧ q.counted n = p.counted n + m

/-! ### KEY_LAND (R341) -/

/-- A landing slot as KEY_LAND writes it, but for its tag. -/
def landingSlot (colour : BitVec 12) (gen child : Byte) (notAfter : BitVec 16) : Slot :=
  { mat := List.replicate 32 0, w0 := Slot.word0 colour 5 gen 0, w1 := Slot.word1 0 0 0 0 Slot.landing
    w2 := Slot.word2 0 1 child false, w3 := Slot.word3 notAfter 0, tag := [] }

theorem landingSlot_fields (colour : BitVec 12) (gen child : Byte) (notAfter : BitVec 16) :
    let s := landingSlot colour gen child notAfter
    s.state = Slot.landing ∧ s.hclass = 5 ∧ s.colour = colour ∧ s.gen = gen ∧ s.mat = List.replicate 32 0 ∧ s.child = child ∧
      s.notAfter = notAfter := by
  obtain ⟨hcolour, hclass, hgen, -⟩ := word0_fields colour 5 gen 0
  obtain ⟨-, hstate⟩ := word1_fields 0 0 0 0 Slot.landing
  obtain ⟨-, -, hchild⟩ := word2_fields 0 1 child false
  obtain ⟨hlimit, -⟩ := word3_fields notAfter 0
  exact ⟨hstate, hclass, hcolour, hgen, rfl, hchild, hlimit⟩

section
variable {p : Part} {c : AdmCmd} {i : Nat}

/-- KEY_LAND's change: slot `j` a landing slot with the template and limit of the command, counted. -/
def landingOpened (c : AdmCmd) (i : Nat) (p : Part) : Part :=
  let j := Part.firstPick c
  slotsChanged i [j] (·.put j (landingSlot (Part.colourOf c.fn) ((p.slot j).gen + 1) (c.a0.setWidth 8) (c.a1.setWidth 16))) c.fn (· + 1) p

theorem landingOpened_slot (x : Nat) : (landingOpened c i p).slot x =
    if x = Part.firstPick c then p.slc.sealed (Part.firstPick c) (landingSlot (Part.colourOf c.fn) ((p.slot (Part.firstPick c)).gen + 1)
      (c.a0.setWidth 8) (c.a1.setWidth 16)) else p.slot x := by
  rw [Part.slot, landingOpened, slotsChanged_slc, slot_put]
  rfl

theorem landingOpened_lands : Landed p (landingOpened c i p) c.fn (Part.firstPick c) 1 :=
  ⟨fun x outside => (landingOpened_slot x).trans (if_neg (by omega)), slotsChanged_counted⟩

theorem landingOpened_fields :
    let s := (landingOpened c i p).slot (Part.firstPick c)
    s.state = Slot.landing ∧ s.hclass = 5 ∧ s.colour = Part.colourOf c.fn ∧ s.gen = (p.slot (Part.firstPick c)).gen + 1 ∧
      s.mat = List.replicate 32 0 ∧ s.child = c.a0.setWidth 8 ∧ s.notAfter = c.a1.setWidth 16 := by
  rw [landingOpened_slot, if_pos rfl]
  exact landingSlot_fields ..

section
variable (free : ¬ SessionOpen p c.fn)
include free

theorem keyLand_outOfRange (bad : c.a0 = 0 ∨ 255 < c.a0.toNat ∨ 0xFFFF < c.a1.toNat) :
    Part.keyLand c i p = some (p.fail i 0x10 0x0A) := by
  rw [Part.keyLand, sessionFree_free free, if_pos bad]

variable (good : ¬ (c.a0 = 0 ∨ 255 < c.a0.toNat ∨ 0xFFFF < c.a1.toNat))
include good

theorem keyLand_full (full : p.slotsFit c.fn 1 = false) : Part.keyLand c i p = some (p.fail i 0x13 1) := by
  rw [Part.keyLand, sessionFree_free free, if_neg good, full]
  rfl

theorem keyLand_lands (fits : p.slotsFit c.fn 1 = true) (range : p.rangeFree (Part.firstPick c) 1 = true) :
    Part.keyLand c i p = some ((landingOpened c i p).admDone c.fn i
      (handleOctets 5 ((p.slot (Part.firstPick c)).gen + 1) (Part.firstPick c)) []) := by
  obtain ⟨-, -, -, gen, -⟩ := landingOpened_fields (p := p) (c := c) (i := i)
  rw [Part.keyLand, sessionFree_free free, if_neg good, fits, range, ← gen]
  rfl

end
end

theorem landed_begun {p q : Part} {k : Part.AdmKind} {n j m : Nat} : Landed (admBegun p k c) q n j m ↔ Landed p q n j m := by
  simp only [Landed, admBegun_slot, admBegun_counted]

theorem landingOpened_begun {k : Part.AdmKind} :
    AtCommand k c p (landingOpened c i (admBegun p k c)) ∧ Commanded (admBegun p k c) (landingOpened c i (admBegun p k c)) :=
  ⟨AtCommand.begun.slotsChanged, slotsChanged_commanded⟩

theorem Landed.told {p r q : Part} {n j m : Nat} (h : Landed p r n j m) (told : Told r q) : Landed p q n j m :=
  ⟨fun x outside => (told.slot x).trans (h.1 x outside), (told.counted n).trans h.2⟩

/-- KEY_LAND (R341). -/
theorem keyLand_ends {s : State} {c : AdmCmd} (ready : AdmReady s.part { op := 0x10, classA := true } c) (free : ¬ SessionOpen s.part c.fn)
    (good : ¬ (c.a0 = 0 ∨ 255 < c.a0.toNat ∨ 0xFFFF < c.a1.toNat)) (fits : s.part.slotsFit c.fn 1 = true)
    (range : s.part.rangeFree (Part.firstPick c) 1 = true) :
    let j := Part.firstPick c
    Ends s (.keyLand c) 0x10 c (handleOctets 5 ((s.part.slot j).gen + 1) j) [] fun q =>
      (q.slot j).state = Slot.landing ∧ (q.slot j).hclass = 5 ∧ (q.slot j).colour = Part.colourOf c.fn ∧
        (q.slot j).gen = (s.part.slot j).gen + 1 ∧ (q.slot j).mat = List.replicate 32 0 ∧ (q.slot j).child = c.a0.setWidth 8 ∧
        (q.slot j).notAfter = c.a1.setWidth 16 ∧ Landed s.part q c.fn j 1 := by
  have does := keyLand_lands (p := admBegun s.part { op := 0x10, classA := true } c) (i := admCtx s.part c.fn)
    free good (by rwa [admBegun_slotsFit]) (by rwa [admBegun_rangeFree])
  rw [admBegun_slot] at does
  refine ready.ends rfl landingOpened_begun.1 does landingOpened_begun.2 fun q told => ?_
  obtain ⟨state, hclass, colour, gen, mat, child, limit⟩ := landingOpened_fields (p := admBegun s.part { op := 0x10, classA := true } c)
    (c := c) (i := admCtx s.part c.fn)
  rw [admBegun_slot] at gen
  rw [told.slot]
  exact ⟨state, hclass, colour, gen, mat, child, limit, landed_begun.1 (landingOpened_lands.told told)⟩

/-! ### Chains written for a command (R336) -/

/-- A chain has been written at slot `j` for function `n`, as one of its colour. -/
def ChainLanded (p q : Part) (n j : Nat) (t : Template) (limbs : BitVec 9) (mats : List (List Byte)) : Prop :=
  Landed p q n j mats.length ∧ ∀ m (h : m < mats.length),
    Linked (q.slot (j + m)) (Part.colourOf n) t limbs ((p.slot j).gen + 1) mats.length m mats[m]

theorem ChainLanded.told {p r q : Part} {n j : Nat} {t : Template} {limbs : BitVec 9} {mats : List (List Byte)}
    (h : ChainLanded p r n j t limbs mats) (told : Told r q) : ChainLanded p q n j t limbs mats :=
  ⟨h.1.told told, fun m hm => by rw [told.slot]; exact h.2 m hm⟩

section
variable {p : Part} {i n j : Nat} {g : Slc → Slc} {t : Template} {notAfter : BitVec 16} {limbs : BitVec 9} {mats : List (List Byte)}

/-- A command whose change of the slots is a chain written. -/
theorem chainLanded {m : Nat} (count : mats.length = m)
    (writes : ∀ x, (g p.slc).slot x = (p.slc.putChain j (Part.colourOf n) t notAfter limbs mats).slot x) :
    ChainLanded p (slotsChanged i (Part.rangeOf j m) g n (· + m) p) n j t limbs mats := by
  subst count
  obtain ⟨outside, inside⟩ := putChain_spec p.slc j (Part.colourOf n) t notAfter limbs mats
  refine ⟨⟨fun x hx => ?_, slotsChanged_counted⟩, fun m hm => ?_⟩ <;> rw [Part.slot, slotsChanged_slc, writes]
  · exact outside x hx
  · rw [inside m hm]
    exact chainSlot_linked ..

/-- The generation of its head. -/
theorem ChainLanded.gen {q : Part} (h : ChainLanded p q n j t limbs mats) (nonempty : 0 < mats.length) :
    (q.slot j).gen = (p.slot j).gen + 1 :=
  (h.2 0 nonempty).gen

end

/-! ### KEY_GENERATE (R311, R389) -/

section
variable {p : Part} {c : AdmCmd} {i : Nat}

theorem symLen_le {alg k : Nat} (sym : Part.symLen alg = some k) : k ≤ 32 := by
  unfold Part.symLen at sym
  split at sym <;> simp_all <;> omega

/-- The slots of a key pair that R312 lists. -/
theorem pairOf_slots {alg limbs kind param slots pub : Nat} (pair : Part.pairOf alg limbs = some (kind, param, slots, pub))
    (ok : p.jobParamOk kind param = true) : 0 < slots ∧ slots < 256 := by
  unfold Part.pairOf at pair
  split at pair <;> simp only [Option.some.injEq, Prod.mk.injEq, reduceCtorEq] at pair <;> obtain ⟨rfl, rfl, rfl, rfl⟩ := pair
  · simp only [Part.jobParamOk, decide_eq_true_eq] at ok
    omega
  all_goals omega

/-- A generated key written: the chain, and the end of the command. -/
theorem landGenerated_eq {t : Template} {limbs : Nat} {mats : List (List Byte)} {pub : List Byte} (nonempty : 0 < mats.length) :
    Part.landGenerated c i t limbs mats pub p =
      (slotsChanged i (Part.rangeOf (Part.firstPick c) mats.length)
        (·.putChain (Part.firstPick c) (Part.colourOf c.fn) t 0 (BitVec.ofNat 9 limbs) mats) c.fn (· + mats.length) p).admDone c.fn i
        (handleOctets t.hclass ((p.slot (Part.firstPick c)).gen + 1) (Part.firstPick c)) pub := by
  have lands := chainLanded (i := i) (p := p) (n := c.fn) (g := (·.putChain (Part.firstPick c) (Part.colourOf c.fn) t 0 (BitVec.ofNat 9 limbs) mats))
    rfl fun _ => rfl
  rw [← lands.gen nonempty]
  rfl

section
variable (free : ¬ SessionOpen p c.fn) {bs : List Byte}
include free

theorem keyGenerate_symmetric {k : Nat} (good : ¬ (c.a0 = 0 ∨ 255 < c.a0.toNat))
    (sym : Part.symLen (p.slc.template c.a0.toNat).alg.toNat = some k) (hclass : (p.slc.template c.a0.toNat).hclass = 1) (noLimbs : c.a1 = 0)
    (fits : p.slotsFit c.fn 1 = true) (range : p.rangeFree (Part.firstPick c) 1 = true) (drawn : (p.entDraw .fresh 64).1 = some bs) :
    Part.keyGenerate c i p =
      some (Part.landGenerated c i (p.slc.template c.a0.toNat) 0 [bs.take k] [] (p.entDraw .fresh 64).2) := by
  have inRange : ¬ (c.a0 = 0 ∨ 255 < c.a0.toNat ∨ ((p.slc.template c.a0.toNat).alg ≠ 0x20 ∧ c.a1.toNat ≠ 0)) := by
    rw [noLimbs]
    simpa using good
  simp only [Part.keyGenerate]
  rw [sessionFree_free free, if_neg inRange, sym]
  simp only [hclass, fits, range, ne_eq, not_true_eq_false, Nat.not_lt_zero, Bool.not_true, Bool.false_eq_true, if_false]
  rw [entDraw_drawn drawn]

theorem keyGenerate_pair {kind param slots pub : Nat} (good : ¬ (c.a0 = 0 ∨ 255 < c.a0.toNat))
    (noSym : Part.symLen (p.slc.template c.a0.toNat).alg.toNat = none)
    (pair : Part.pairOf (p.slc.template c.a0.toNat).alg.toNat c.a1.toNat = some (kind, param, slots, pub))
    (limbs : (p.slc.template c.a0.toNat).alg ≠ 0x20 → c.a1 = 0)
    (hclass : (p.slc.template c.a0.toNat).hclass = if (p.slc.template c.a0.toNat).alg.toNat < 0x40 then 2 else 4)
    (ok : p.jobParamOk kind param = true) (room : pub ≤ c.head.len.toNat)
    (fits : p.slotsFit c.fn slots = true) (range : p.rangeFree (Part.firstPick c) slots = true) (drawn : (p.entDraw .fresh 64).1 = some bs) :
    let key := Pk.fit (32 * slots + pub) (Pk.keygen kind param bs)
    Part.keyGenerate c i p = some (Part.landGenerated c i (p.slc.template c.a0.toNat) c.a1.toNat
      (Crypto.pieces 32 (key.take (32 * slots))) (key.drop (32 * slots)) (p.entDraw .fresh 64).2) := by
  intro key
  have inRange : ¬ (c.a0 = 0 ∨ 255 < c.a0.toNat ∨ ((p.slc.template c.a0.toNat).alg ≠ 0x20 ∧ c.a1.toNat ≠ 0)) := by
    rw [← or_assoc]
    refine not_or.2 ⟨good, fun ⟨other, given⟩ => given ?_⟩
    rw [limbs other]
    rfl
  simp only [Part.keyGenerate]
  rw [sessionFree_free free, if_neg inRange, noSym]
  simp only [pair, hclass, ok, fits, range, ne_eq, not_true_eq_false, Nat.not_lt.2 room, Bool.not_true, Bool.false_eq_true, or_self, if_false]
  rw [entDraw_drawn drawn]

end

/-- What a key generated leaves: the chain written, the drawn octets gone from the Brine Wells only. -/
theorem landGenerated_ends {s : State} {k : Part.AdmKind} {t : Template} {limbs : Nat} {mats : List (List Byte)} {pub : List Byte}
    {cls : EntClass} {m : Nat} (ready : AdmReady s.part k c) (arm : exec (.keyGenerate c) s = onPart (Part.admRow k c (Part.keyGenerate c)) s)
    (nonempty : 0 < mats.length)
    (does : Part.keyGenerate c (admCtx s.part c.fn) (admBegun s.part k c) =
      some (Part.landGenerated c (admCtx s.part c.fn) t limbs mats pub ((admBegun s.part k c).entDraw cls m).2)) :
    ∃ q, Yields (.keyGenerate c) s q ∧
      AdmEnds k.op c 0 0 (handleOctets t.hclass ((s.part.slot (Part.firstPick c)).gen + 1) (Part.firstPick c)) pub s.part q ∧
      q.nvm = s.part.nvm ∧ q.acu = s.part.acu ∧ q.priv = s.part.priv ∧
      ChainLanded s.part q c.fn (Part.firstPick c) t (BitVec.ofNat 9 limbs) mats := by
  have draw := entDraw_spec cls m (admBegun s.part k c)
  have slot : ∀ j, ((admBegun s.part k c).entDraw cls m).2.slot j = s.part.slot j := fun j => by rw [Part.slot, draw.slc, Part.slot]; rfl
  have counted : ((admBegun s.part k c).entDraw cls m).2.counted c.fn = s.part.counted c.fn := by rw [Part.counted, draw.tnt]; rfl
  rw [landGenerated_eq nonempty, slot] at does
  obtain ⟨q, yields, ended, told⟩ := ready.done arm (AtCommand.begun.drawn ..).slotsChanged does
  have rest := slotsChanged_commanded.trans told.commanded
  have lands := (chainLanded rfl fun _ => rfl).told told
  simp only [ChainLanded, Landed, slot, counted] at lands
  exact ⟨q, yields, ended, rest.nvm.trans draw.nvm, rest.acu.trans draw.acu, rest.priv.trans draw.priv, lands⟩

end

end Sys2Proof.Safety
end

section
/-! SUPPORT. KEY_GENERATE: the key that it leaves in the Salt Cellar (R311, R336, R389). -/

namespace Sys2Proof.Safety

open Sys2Proof.Machine

section
variable {c : AdmCmd}

/-- Slot `x` of a chain of `n` written holds piece `m` of the key `key` and the fields of its template. -/
def HoldsPiece (x : Slot) (colour : BitVec 12) (t : Template) (limbs : Nat) (gen : Byte) (n m : Nat) (key : List Byte) : Prop :=
  x.mat = Crypto.padR 32 ((key.drop (32 * m)).take 32) ∧ x.state = Slot.key ∧ x.colour = colour ∧ x.alg = t.alg ∧ x.usage = t.usage ∧
    x.chainPos.toNat = m ∧ x.chainLen.toNat = n ∧ (fld x.w3 16 9 : BitVec 9).toNat = limbs ∧ x.gen = gen

theorem Linked.holdsPiece {x : Slot} {colour : BitVec 12} {t : Template} {limbs n m : Nat} {gen : Byte} {mat key : List Byte}
    (h : Linked x colour t (BitVec.ofNat 9 limbs) gen n m mat) (small : n < 256) (inside : m < n)
    (piece : mat = (key.drop (32 * m)).take 32) : HoldsPiece x colour t (limbs % 512) gen n m key := by
  refine ⟨h.mat.trans (by rw [piece]), h.state, h.colour, h.alg, h.usage, ?_, ?_, ?_, h.gen⟩
  · rw [h.chainPos, BitVec.toNat_ofNat]
    exact Nat.mod_eq_of_lt (inside.trans small)
  · rw [h.chainLen, BitVec.toNat_ofNat]
    exact Nat.mod_eq_of_lt small
  · rw [h.limbs, BitVec.toNat_ofNat]

/-- KEY_GENERATE ends with `key` written in `slots` slots and `pub` for the buffer. -/
def Generates (s : State) (c : AdmCmd) (t : Template) (slots : Nat) (key pub : List Byte) (limbs : Nat) : Prop :=
  let j := Part.firstPick c
  ∃ q, Yields (.keyGenerate c) s q ∧ AdmEnds 0x11 c 0 0 (handleOctets t.hclass ((s.part.slot j).gen + 1) j) pub s.part q ∧
    q.nvm = s.part.nvm ∧ q.acu = s.part.acu ∧ q.priv = s.part.priv ∧ Landed s.part q c.fn j slots ∧
    ∀ m, m < slots → HoldsPiece (q.slot (j + m)) (Part.colourOf c.fn) t limbs ((s.part.slot j).gen + 1) slots m key

section
variable {s : State} (ready : AdmReady s.part { op := 0x11, classA := true } c)
include ready

theorem generates {t : Template} {limbs : Nat} {mats : List (List Byte)} {key pub : List Byte}
    (nonempty : 0 < mats.length) (small : mats.length < 256) (pieces : ∀ m (h : m < mats.length), mats[m] = (key.drop (32 * m)).take 32)
    (does : Part.keyGenerate c (admCtx s.part c.fn) (admBegun s.part { op := 0x11, classA := true } c) =
      some (Part.landGenerated c (admCtx s.part c.fn) t limbs mats pub ((admBegun s.part { op := 0x11, classA := true } c).entDraw .fresh 64).2)) :
    Generates s c t mats.length key pub (limbs % 512) := by
  obtain ⟨q, yields, ended, nvm, acu, priv, landed, links⟩ := landGenerated_ends ready rfl nonempty does
  exact ⟨q, yields, ended, nvm, acu, priv, landed, fun m hm => (links m hm).holdsPiece small hm (pieces m hm)⟩

variable (free : ¬ SessionOpen s.part c.fn) {bs : List Byte} (good : ¬ (c.a0 = 0 ∨ 255 < c.a0.toNat))
  (drawn : (s.part.entDraw .fresh 64).1 = some bs)
include free good drawn

theorem keyGenerate_endsSymmetric {k : Nat} (sym : Part.symLen (s.part.slc.template c.a0.toNat).alg.toNat = some k)
    (hclass : (s.part.slc.template c.a0.toNat).hclass = 1) (noLimbs : c.a1 = 0)
    (fits : s.part.slotsFit c.fn 1 = true) (range : s.part.rangeFree (Part.firstPick c) 1 = true) :
    Generates s c (s.part.slc.template c.a0.toNat) 1 (bs.take k) [] 0 := by
  have does := keyGenerate_symmetric (p := admBegun s.part { op := 0x11, classA := true } c) (i := admCtx s.part c.fn) free good sym hclass
    noLimbs (by rwa [admBegun_slotsFit]) (by rwa [admBegun_rangeFree]) ((admBegun_entDraw ..).trans drawn)
  refine generates ready (mats := [bs.take k]) (limbs := 0) Nat.one_pos (by simp) (fun m hm => ?_)
    does
  have short := (List.length_take_le k bs).trans (symLen_le sym)
  obtain rfl : m = 0 := by simpa using hm
  exact (List.take_of_length_le short).symm

theorem keyGenerate_endsPair {kind param slots pub : Nat} (noSym : Part.symLen (s.part.slc.template c.a0.toNat).alg.toNat = none)
    (pair : Part.pairOf (s.part.slc.template c.a0.toNat).alg.toNat c.a1.toNat = some (kind, param, slots, pub))
    (limbs : (s.part.slc.template c.a0.toNat).alg ≠ 0x20 → c.a1 = 0)
    (hclass : (s.part.slc.template c.a0.toNat).hclass = if (s.part.slc.template c.a0.toNat).alg.toNat < 0x40 then 2 else 4)
    (ok : s.part.jobParamOk kind param = true) (room : pub ≤ c.head.len.toNat)
    (fits : s.part.slotsFit c.fn slots = true) (range : s.part.rangeFree (Part.firstPick c) slots = true) :
    let key := Pk.fit (32 * slots + pub) (Pk.keygen kind param bs)
    Generates s c (s.part.slc.template c.a0.toNat) slots (key.take (32 * slots)) (key.drop (32 * slots)) (c.a1.toNat % 512) := by
  intro key
  obtain ⟨nonempty, small⟩ := pairOf_slots pair ok
  have whole : (key.take (32 * slots)).length = 32 * slots := by simp [key]
  have length := length_pieces (by decide) whole
  have does := keyGenerate_pair (p := admBegun s.part { op := 0x11, classA := true } c) (i := admCtx s.part c.fn) free good noSym pair limbs hclass
    (by rwa [admBegun_jobParamOk]) room (by rwa [admBegun_slotsFit]) (by rwa [admBegun_rangeFree]) ((admBegun_entDraw ..).trans drawn)
  have made := generates ready (by rwa [length]) (by rwa [length]) (fun m hm => getElem_pieces (by decide) whole hm) does
  rwa [length] at made

end

end

end Sys2Proof.Safety
end

section
/-! SUPPORT. KEY_LOAD_BLOB and KEY_SEAL_BLOB (R343, R344, R389). -/

namespace Sys2Proof.Safety

open Sys2Proof.Machine

/-! ### KEY_LOAD_BLOB (R343, R344) -/

/-- The octets of the blob, as the command gives their number. -/
abbrev blobOctets (c : AdmCmd) : List Byte := (c.buf.getD []).take c.a0.toNat

/-- The header of the blob. -/
abbrev blobHeader (c : AdmCmd) : List Byte := (blobOctets c).take 36

/-- The slots that the header counts. -/
abbrev blobSlots (c : AdmCmd) : Nat := ((blobHeader c).getD 7 0).toNat

/-- The KEY_ID that the header names. -/
abbrev blobKeyId (c : AdmCmd) : Nat := ofLe (((blobHeader c).drop 20).take 4)

/-- The blob is whole, its fields are valid, and it is of the function's colour. -/
abbrev BlobWhole (c : AdmCmd) : Prop :=
  c.a0.toNat ≤ c.head.len.toNat ∧ (blobOctets c).length = 64 + 32 * blobSlots c ∧ Part.blobFormatOk (blobHeader c) = true ∧
    ofLe (((blobHeader c).drop 24).take 4) = (Part.colourOf c.fn).toNat

theorem blobSlots_pos {c : AdmCmd} (whole : BlobWhole c) : 0 < blobSlots c := by
  obtain ⟨-, -, format, -⟩ := whole
  refine Nat.pos_of_ne_zero fun zero => ?_
  have octet : (blobHeader c).getD 7 0 = 0 := BitVec.eq_of_toNat_eq zero
  simp only [Part.blobFormatOk, octet, bne_self_eq_false, Bool.and_false, Bool.false_and, Bool.false_eq_true] at format

/-- The chain of the blob written at the chosen slot, and the owner's key used by the Ladle. -/
def blobChain (c : AdmCmd) (mat : List Byte) (x : Slc) : Slc :=
  let col := Part.colourOf c.fn
  let x := x.putChain (Part.firstPick c) col (Part.blobTemplate (blobHeader c)) (BitVec.ofNat 16 (ofLe (((blobHeader c).drop 16).take 2)))
    (BitVec.ofNat 9 (ofLe (((blobHeader c).drop 13).take 2))) ((Crypto.pieces 32 mat).take (blobSlots c))
  { x with cache := (col.toNat :: x.cache.filter (· != col.toNat)).take 16 }

/-- The blob lands as one chain, counted. -/
def blobLanded (c : AdmCmd) (i : Nat) (mat : List Byte) (p : Part) : Part :=
  slotsChanged i (Part.rangeOf (Part.firstPick c) (blobSlots c)) (blobChain c mat) c.fn (· + blobSlots c) p

section
variable {p : Part} {c : AdmCmd} {i : Nat} (free : ¬ SessionOpen p c.fn)
include free

theorem keyLoadBlob_refused (bad : ¬ BlobWhole c ∨ p.storageKey (Part.colourOf c.fn) = none) :
    Part.keyLoadBlob c i p = some (p.fail i 0x10 0x0A) := by
  simp only [Part.keyLoadBlob]
  rw [sessionFree_free free]
  cases owner : p.storageKey (Part.colourOf c.fn) with
  | none => rfl
  | some key =>
    refine if_pos ?_
    by_contra fine
    simp only [not_or, Nat.not_lt, ne_eq, not_not, Bool.not_eq_true', Bool.not_eq_false, beq_iff_eq] at fine
    obtain ⟨inside, count, format, colour, -⟩ := fine
    exact bad.resolve_right (by simp [owner]) ⟨inside, count, format, colour⟩

variable (whole : BlobWhole c) {key : List Byte} (owner : p.storageKey (Part.colourOf c.fn) = some (blobKeyId c, key))
include whole owner

theorem keyLoadBlob_opens : Part.keyLoadBlob c i p =
    match Crypto.sivOpen key (((blobOctets c).drop 36).take 12) (blobHeader c) ((blobOctets c).drop 48) with
    | none => some (p.fail i 0x10 0x0A)
    | some mat =>
      if !p.slotsFit c.fn (blobSlots c) then some (p.fail i 0x13 1)
      else if !p.rangeFree (Part.firstPick c) (blobSlots c) then none
      else
        let q := blobLanded c i mat p
        some (q.admDone c.fn i (handleOctets (((blobHeader c).getD 5 0).setWidth 4) (q.slot (Part.firstPick c)).gen (Part.firstPick c)) []) := by
  obtain ⟨inside, count, format, colour⟩ := whole
  simp only [Part.keyLoadBlob]
  rw [sessionFree_free free, owner]
  refine (if_neg ?_).trans ?_
  · simp only [not_or, Nat.not_lt, ne_eq, not_not, Bool.not_eq_true', Bool.not_eq_false, beq_iff_eq]
    exact ⟨inside, count, format, colour, trivial⟩
  · rfl

theorem keyLoadBlob_unopened (fails : Crypto.sivOpen key (((blobOctets c).drop 36).take 12) (blobHeader c) ((blobOctets c).drop 48) = none) :
    Part.keyLoadBlob c i p = some (p.fail i 0x10 0x0A) := by
  rw [keyLoadBlob_opens free whole owner, fails]

end

/-- The chain of a blob that has opened. -/
theorem blobLanded_lands {c : AdmCmd} {i : Nat} {p : Part} {mat : List Byte} (filled : mat.length = 32 * blobSlots c) :
    Landed p (blobLanded c i mat p) c.fn (Part.firstPick c) (blobSlots c) ∧ ∀ m, m < blobSlots c →
      Linked ((blobLanded c i mat p).slot (Part.firstPick c + m)) (Part.colourOf c.fn) (Part.blobTemplate (blobHeader c))
        (BitVec.ofNat 9 (ofLe (((blobHeader c).drop 13).take 2))) ((p.slot (Part.firstPick c)).gen + 1) (blobSlots c) m
        ((mat.drop (32 * m)).take 32) := by
  have length := length_pieces (by decide) filled
  have all : (Crypto.pieces 32 mat).take (blobSlots c) = Crypto.pieces 32 mat := List.take_of_length_le length.le
  obtain ⟨landed, links⟩ := chainLanded (i := i) (p := p) (g := blobChain c mat)
    (notAfter := BitVec.ofNat 16 (ofLe (((blobHeader c).drop 16).take 2))) length fun x => by rw [← all]; rfl
  rw [length] at landed
  refine ⟨landed, fun m hm => ?_⟩
  have link := links m (by rwa [length])
  rwa [getElem_pieces (by decide) filled, length] at link

section
variable {s : State} {c : AdmCmd} (ready : AdmReady s.part { op := 0x12, classA := true, reads := 64 } c) (free : ¬ SessionOpen s.part c.fn)
include ready free

theorem keyLoadBlob_ends (whole : BlobWhole c) {key mat : List Byte} (owner : s.part.storageKey (Part.colourOf c.fn) = some (blobKeyId c, key))
    (opens : Crypto.sivOpen key (((blobOctets c).drop 36).take 12) (blobHeader c) ((blobOctets c).drop 48) = some mat)
    (fits : s.part.slotsFit c.fn (blobSlots c) = true) (range : s.part.rangeFree (Part.firstPick c) (blobSlots c) = true) :
    let j := Part.firstPick c
    Ends s (.keyLoadBlob c) 0x12 c (handleOctets (((blobHeader c).getD 5 0).setWidth 4) ((s.part.slot j).gen + 1) j) [] fun q =>
      Landed s.part q c.fn j (blobSlots c) ∧ ∀ x, x < blobSlots c →
        (q.slot (j + x)).mat = Crypto.padR 32 ((mat.drop (32 * x)).take 32) ∧ (q.slot (j + x)).state = Slot.key ∧
        (q.slot (j + x)).colour = Part.colourOf c.fn ∧ (q.slot (j + x)).alg = (blobHeader c).getD 6 0 := by
  intro j
  have filled : mat.length = 32 * blobSlots c := by
    rw [length_sivOpen opens, List.length_drop, whole.2.1]
    omega
  have does := keyLoadBlob_opens (i := admCtx s.part c.fn) (p := admBegun s.part { op := 0x12, classA := true, reads := 64 } c) free whole
    ((admBegun_storageKey _).trans owner)
  obtain ⟨landed, links⟩ := blobLanded_lands (i := admCtx s.part c.fn) (p := admBegun s.part { op := 0x12, classA := true, reads := 64 } c) filled
  have head := (links 0 (blobSlots_pos whole)).gen
  rw [Nat.add_zero, admBegun_slot] at head
  rw [opens] at does
  simp only [admBegun_slotsFit, fits, admBegun_rangeFree, range, head, Bool.not_true, Bool.false_eq_true, if_false] at does
  refine ready.ends rfl AtCommand.begun.slotsChanged does slotsChanged_commanded fun q told => ⟨landed_begun.1 (landed.told told), fun x hx => ?_⟩
  have link := links x hx
  rw [told.slot]
  exact ⟨link.mat, link.state, link.colour, link.alg⟩

end

end Sys2Proof.Safety
end

section
/-! SUPPORT. KEY_SEAL_BLOB, KEY_DESTROY, KEY_NARROW and STORAGE_ROTATE (R338, R344, R348, R389). -/

namespace Sys2Proof.Safety

open Sys2Proof.Machine

/-! ### KEY_SEAL_BLOB (R344) -/

section
variable {p : Part} {c : AdmCmd} {i : Nat} {ss : List Slot}
  (read : (p.slotRead c.a0 (Part.colourOf c.fn) [1, 2, 3, 4]).1 = .ok ss)
include read

theorem slotRead_head : ss.headD (Slc.emptySlot 0) = p.slot (hIndex c.a0) := by
  obtain ⟨-, -, rfl⟩ := slotRead_ok_iff.1 read
  rw [List.headD_eq_head?_getD, List.head?_map, List.head?_range, if_neg (by omega)]
  rfl

/-- A key that its EXPORT_CLASS does not let out. -/
theorem keySealBlob_kept (kept : (p.slot (hIndex c.a0)).exportClass = 0 ∨ 4 ≤ (p.slot (hIndex c.a0)).exportClass.toNat) :
    Part.keySealBlob c i p = some (p.fail i 0x12 0x20) := by
  rw [Part.keySealBlob, slotRead_answers read]
  simp only [slotRead_head read]
  exact if_pos kept

theorem keySealBlob_seals {id : Nat} {key bs : List Byte} (owner : p.storageKey (Part.colourOf c.fn) = some (id, key))
    (drawn : (p.entDraw .fresh 16).1 = some bs)
    (exportable : ¬ ((p.slot (hIndex c.a0)).exportClass = 0 ∨ 4 ≤ (p.slot (hIndex c.a0)).exportClass.toNat))
    (room : 64 + 32 * ss.length ≤ c.head.len.toNat) :
    let head := Part.blobHead (p.slot (hIndex c.a0)) id (Part.colourOf c.fn)
    Part.keySealBlob c i p = some (((p.entDraw .fresh 16).2.cacheOwner (Part.colourOf c.fn)).admDone c.fn i []
      (head ++ bs.take 12 ++ Crypto.sivSeal key (bs.take 12) head (ss.flatMap Slot.mat))) := by
  rw [Part.keySealBlob, slotRead_answers read]
  simp only [slotRead_head read]
  rw [if_neg exportable, if_neg (Nat.not_lt.2 room), owner]
  simp only
  rw [entDraw_drawn drawn]

end

section
variable {s : State} {c : AdmCmd} (ready : AdmReady s.part { op := 0x13 } c) {ss : List Slot}
  (read : (s.part.slotRead c.a0 (Part.colourOf c.fn) [1, 2, 3, 4]).1 = .ok ss)
include ready read

theorem keySealBlob_refused (kept : (s.part.slot (hIndex c.a0)).exportClass = 0 ∨ 4 ≤ (s.part.slot (hIndex c.a0)).exportClass.toNat) :
    ∃ q, Yields (.keySealBlob c) s q ∧ AdmEnds 0x13 c 0x12 0x20 [] [] s.part q ∧ q.slc = s.part.slc := by
  obtain ⟨q, yields, ended, rest⟩ := ready.fails (body := Part.keySealBlob c) (i := .keySealBlob c) rfl (by decide)
    (keySealBlob_kept (p := admBegun s.part { op := 0x13 } c) (admBegun_slotRead.2 read) (by rwa [admBegun_slot]))
  exact ⟨q, yields, ended, by rw [rest]⟩

theorem keySealBlob_ends {id : Nat} {key bs : List Byte} (owner : s.part.storageKey (Part.colourOf c.fn) = some (id, key))
    (drawn : (s.part.entDraw .fresh 16).1 = some bs)
    (exportable : ¬ ((s.part.slot (hIndex c.a0)).exportClass = 0 ∨ 4 ≤ (s.part.slot (hIndex c.a0)).exportClass.toNat))
    (room : 64 + 32 * ss.length ≤ c.head.len.toNat) :
    let head := Part.blobHead (s.part.slot (hIndex c.a0)) id (Part.colourOf c.fn)
    ∃ q, Yields (.keySealBlob c) s q ∧ q.slc.slots = s.part.slc.slots ∧
      AdmEnds 0x13 c 0 0 [] (head ++ bs.take 12 ++ Crypto.sivSeal key (bs.take 12) head (ss.flatMap Slot.mat)) s.part q := by
  have does := keySealBlob_seals (i := admCtx s.part c.fn) (p := admBegun s.part { op := 0x13 } c) (admBegun_slotRead.2 read)
    ((admBegun_storageKey _).trans owner) ((admBegun_entDraw ..).trans drawn) exportable room
  have work : AtCommand { op := 0x13 } c s.part (((admBegun s.part { op := 0x13 } c).entDraw .fresh 16).2.cacheOwner (Part.colourOf c.fn)) :=
    (AtCommand.begun.drawn ..).later rfl rfl
  have draw := entDraw_spec .fresh 16 (admBegun s.part { op := 0x13 } c)
  obtain ⟨q, yields, ended, told⟩ := ready.done (i := .keySealBlob c) rfl work does
  refine ⟨q, yields, ?_, ended⟩
  have slots : q.slc.slots = ((admBegun s.part { op := 0x13 } c).entDraw .fresh 16).2.slc.slots := by
    rw [told.slc]
    rfl
  rw [slots, draw.slc]
  rfl

end

/-! ### Commands on a handle (R327) -/

/-- A failed check of the head slot marks it bad, at most, and records that. -/
theorem markBad_spec (i : Nat) (b : Bool) (p : Part) :
    Recorded { p with slc := (p.markBad i b).slc } (p.markBad i b) ∧ (p.markBad i b).slc.slots = p.slc.slots := by
  unfold Part.markBad
  split
  · exact ⟨.refl p, rfl⟩
  · have posted := Recorded.post 0x8001#16 (at' (BitVec.ofNat 20 i) 0 ||| bit' b 20) 0
      (p.modSlc fun c => { c with bad := c.bad.set false i true, lastBad := BitVec.ofNat 20 i, byScrub := b, newBad := true })
    have slc := posted.slc
    refine ⟨?_, by rw [slc]; rfl⟩
    rw [slc]
    exact posted

theorem headCheck_leaves (h : BitVec 32) (colour : BitVec 12) (accepted : List (BitVec 4)) (p : Part) :
    (p.headCheck h colour accepted).2 = p ∨ (p.headCheck h colour accepted).2 = p.markBad (hIndex h) false := by
  simp only [Part.headCheck]
  split_ifs
  exacts [.inl rfl, .inl rfl, .inr rfl, .inr rfl, .inl rfl, .inl rfl, .inl rfl]

/-- A command at work whose handle fails its check is at work still, and no slot has changed. -/
theorem AtCommand.checked {k : Part.AdmKind} {c : AdmCmd} {p r : Part} (work : AtCommand k c p r) (h : BitVec 32) (colour : BitVec 12)
    (accepted : List (BitVec 4)) :
    AtCommand k c p (r.headCheck h colour accepted).2 ∧ (r.headCheck h colour accepted).2.slc.slots = r.slc.slots := by
  rcases headCheck_leaves h colour accepted r with same | marked
  · rw [same]
    exact ⟨work, rfl⟩
  · obtain ⟨recorded, slots⟩ := markBad_spec (hIndex h) false r
    rw [marked]
    exact ⟨work.later recorded.dsp (by rw [recorded.tnt]), slots⟩

section
variable {c : AdmCmd} {i : Nat} {p : Part} {go : Part → Option Part}

theorem onHandle_bad {st why : Byte} (bad : (p.headCheck c.a0 (Part.colourOf c.fn) [1, 2, 3, 4, 5]).1 = some (st, why)) :
    Part.onHandle c i c.a0 go p = some ((p.headCheck c.a0 (Part.colourOf c.fn) [1, 2, 3, 4, 5]).2.fail i st (why <<< 4)) := by
  have pair : p.headCheck c.a0 (Part.colourOf c.fn) [1, 2, 3, 4, 5] = (some (st, why), (p.headCheck c.a0 (Part.colourOf c.fn) [1, 2, 3, 4, 5]).2) :=
    Prod.ext bad rfl
  have detail : Part.keyDetail why 0 = why <<< 4 := by simp [Part.keyDetail]
  rw [Part.onHandle, pair, ← detail]

theorem onHandle_good (good : (p.headCheck c.a0 (Part.colourOf c.fn) [1, 2, 3, 4, 5]).1 = none) : Part.onHandle c i c.a0 go p = go p := by
  rw [Part.onHandle, headCheck_passes good]

/-- The statuses of R327. -/
theorem headCheck_status {h : BitVec 32} {colour : BitVec 12} {accepted : List (BitVec 4)} {st why : Byte}
    (bad : (p.headCheck h colour accepted).1 = some (st, why)) : st ≠ 0 ∧ st ≠ 1 := by
  simp only [Part.headCheck] at bad
  split_ifs at bad <;> cases bad <;> decide

end

section
variable {s : State} {c : AdmCmd} {k : Part.AdmKind} {i : Instr} {go : Part → Option Part} {body : Nat → Part → Option Part}

/-- A command whose handle fails its check ends with the status of the check (R327, R390). -/
theorem onHandle_refused (ready : AdmReady s.part k c) (arm : exec i s = onPart (Part.admRow k c body) s)
    (does : body (admCtx s.part c.fn) (admBegun s.part k c) = Part.onHandle c (admCtx s.part c.fn) c.a0 go (admBegun s.part k c))
    {st why : Byte} (bad : (s.part.headCheck c.a0 (Part.colourOf c.fn) [1, 2, 3, 4, 5]).1 = some (st, why)) :
    ∃ q, Yields i s q ∧ AdmEnds k.op c st (why <<< 4) [] [] s.part q ∧ q.slc.slots = s.part.slc.slots := by
  obtain ⟨work, slots⟩ := AtCommand.begun.checked (k := k) (c := c) (p := s.part) c.a0 (Part.colourOf c.fn) [1, 2, 3, 4, 5]
  obtain ⟨ended, told⟩ := work.failed (why <<< 4) (headCheck_status bad)
  exact ⟨_, ready.yields arm (does.trans (onHandle_bad ((admBegun_headCheck ..).trans bad))), ended, by rw [told.slc]; exact slots⟩

end

/-! ### KEY_DESTROY and KEY_NARROW (R338) -/

/-- The slots of the chain that the command's handle names. -/
abbrev namedChain (p : Part) (c : AdmCmd) : List Nat := p.slc.chainOf (hIndex c.a0)

/-- KEY_NARROW's arguments are in range, and the key is one that it may narrow. -/
abbrev MayNarrow (p : Part) (c : AdmCmd) : Prop :=
  let x := p.slot (hIndex c.a0)
  let lim : BitVec 16 := c.a2.setWidth 16
  c.a1.toNat ≤ 0xFFFF ∧ c.a2.toNat ≤ 0xFFFF ∧ x.state = Slot.key ∧ (lim = 0 ∨ x.notAfter = 0 ∨ lim.toNat ≤ x.notAfter.toNat)

/-- The chain narrowed. -/
def chainNarrowed (c : AdmCmd) (is : List Nat) (x : Slc) : Slc :=
  is.foldl (fun x j => x.put j (Part.narrowSlot (c.a1.setWidth 16) (c.a2.setWidth 16) (x.slot j))) x

section
variable {c : AdmCmd} {i : Nat} {p : Part} (free : ¬ SessionOpen p c.fn)
  (good : (p.headCheck c.a0 (Part.colourOf c.fn) [1, 2, 3, 4, 5]).1 = none)
include free good

theorem keyDestroy_destroys (up : p.banksUp (namedChain p c) = true) :
    Part.keyDestroy c i p = some ((slotsChanged i (namedChain p c) (fun x => (namedChain p c).foldl Slc.destroy1 x) c.fn
      (· - max 1 (p.slot (hIndex c.a0)).chainLen.toNat) p).admDone c.fn i [] []) := by
  rw [Part.keyDestroy, sessionFree_free free, onHandle_good good]
  exact if_neg (by rw [up]; exact Bool.false_ne_true)

theorem keyNarrow_outOfRange (bad : ¬ MayNarrow p c) : Part.keyNarrow c i p = some (p.fail i 0x10 0x0A) := by
  rw [Part.keyNarrow, sessionFree_free free, onHandle_good good]
  refine if_pos ?_
  by_contra fine
  simp only [not_or, not_and, Nat.not_lt, ne_eq, not_not] at fine
  obtain ⟨usage, limit, state, later⟩ := fine
  exact bad ⟨usage, limit, state, by tauto⟩

theorem keyNarrow_narrows (may : MayNarrow p c) (up : p.banksUp (namedChain p c) = true) :
    Part.keyNarrow c i p = some ((slotsRewritten i (namedChain p c) (chainNarrowed c (namedChain p c)) p).admDone c.fn i [] []) := by
  obtain ⟨usage, limit, state, later⟩ := may
  rw [Part.keyNarrow, sessionFree_free free, onHandle_good good]
  refine (if_neg ?_).trans (if_neg (by rw [up]; exact Bool.false_ne_true))
  simp only [not_or, not_and, Nat.not_lt, ne_eq, not_not]
  exact ⟨usage, limit, state, by tauto⟩

end

section
variable {s : State} {c : AdmCmd} (free : ¬ SessionOpen s.part c.fn)
include free

theorem keyDestroy_refused (ready : AdmReady s.part { op := 0x14, classA := true } c) {st why : Byte}
    (bad : (s.part.headCheck c.a0 (Part.colourOf c.fn) [1, 2, 3, 4, 5]).1 = some (st, why)) :
    ∃ q, Yields (.keyDestroy c) s q ∧ AdmEnds 0x14 c st (why <<< 4) [] [] s.part q ∧ q.slc.slots = s.part.slc.slots :=
  onHandle_refused ready (body := Part.keyDestroy c) rfl (sessionFree_free (p := admBegun s.part { op := 0x14, classA := true } c) free ..) bad

theorem keyNarrow_refused (ready : AdmReady s.part { op := 0x15, classA := true } c) {st why : Byte}
    (bad : (s.part.headCheck c.a0 (Part.colourOf c.fn) [1, 2, 3, 4, 5]).1 = some (st, why)) :
    ∃ q, Yields (.keyNarrow c) s q ∧ AdmEnds 0x15 c st (why <<< 4) [] [] s.part q ∧ q.slc.slots = s.part.slc.slots :=
  onHandle_refused ready (body := Part.keyNarrow c) rfl (sessionFree_free (p := admBegun s.part { op := 0x15, classA := true } c) free ..) bad

variable (good : (s.part.headCheck c.a0 (Part.colourOf c.fn) [1, 2, 3, 4, 5]).1 = none)
include good

theorem keyDestroy_ends (ready : AdmReady s.part { op := 0x14, classA := true } c) (up : s.part.banksUp (namedChain s.part c) = true) :
    Ends s (.keyDestroy c) 0x14 c [] [] fun q => Destroyed (namedChain s.part c) s.part q ∧
      q.counted c.fn = s.part.counted c.fn - max 1 (s.part.slot (hIndex c.a0)).chainLen.toNat := by
  have does := keyDestroy_destroys (i := admCtx s.part c.fn) (p := admBegun s.part { op := 0x14, classA := true } c) free
    ((admBegun_headCheck ..).trans good) ((admBegun_banksUp _).trans up)
  refine ready.ends rfl AtCommand.begun.slotsChanged does slotsChanged_commanded fun q told => ⟨?_, ?_⟩
  · exact destroyed_of_slc (chainOf_nodup ..) (told.slc.trans slotsChanged_slc)
  · exact (told.counted _).trans slotsChanged_counted

theorem keyNarrow_bad (ready : AdmReady s.part { op := 0x15, classA := true } c) (bad : ¬ MayNarrow s.part c) :
    Refused s (.keyNarrow c) 0x15 c 0x10 0x0A :=
  ready.fails (body := Part.keyNarrow c) rfl (by decide)
    (keyNarrow_outOfRange (p := admBegun s.part { op := 0x15, classA := true } c) free ((admBegun_headCheck ..).trans good) bad)

theorem keyNarrow_ends (ready : AdmReady s.part { op := 0x15, classA := true } c) (up : s.part.banksUp (namedChain s.part c) = true)
    (may : MayNarrow s.part c) :
    let is := namedChain s.part c
    let lim : BitVec 16 := c.a2.setWidth 16
    Ends s (.keyNarrow c) 0x15 c [] [] fun q => (∀ y, y ∉ is → q.slot y = s.part.slot y) ∧ ∀ y ∈ is,
      (q.slot y).usage = (s.part.slot y).usage &&& c.a1.setWidth 16 ∧
      (q.slot y).notAfter = (if lim = 0 then (s.part.slot y).notAfter else lim) ∧
      (q.slot y).gen = (s.part.slot y).gen ∧ (q.slot y).mat = (s.part.slot y).mat := by
  intro is lim
  have does := keyNarrow_narrows (i := admCtx s.part c.fn) (p := admBegun s.part { op := 0x15, classA := true } c) free
    ((admBegun_headCheck ..).trans good) may ((admBegun_banksUp _).trans up)
  refine ready.ends rfl AtCommand.begun.slotsRewritten does slotsRewritten_commanded fun q told => ?_
  have slots : ∀ y, q.slot y =
      if y ∈ is then s.part.slc.sealed y (Part.narrowSlot (c.a1.setWidth 16) lim (s.part.slot y)) else s.part.slot y := fun y => by
    rw [told.slot, Part.slot, slotsRewritten_slc]
    exact rewritten_spec _ (chainOf_nodup ..) s.part.slc y
  refine ⟨fun y outside => (slots y).trans (if_neg outside), fun y inside => ?_⟩
  rw [slots, if_pos inside]
  exact narrowSlot_fields ..

end

end Sys2Proof.Safety
end

section
/-! SUPPORT. STORAGE_ROTATE and the monotonic counters: CTR_READ and CTR_ADVANCE (R348 to R350, R385, R389). -/

namespace Sys2Proof.Safety

open Sys2Proof.Machine

/-! ### STORAGE_ROTATE (R348) -/

/-- The entry of an owner's next storage key. -/
abbrev nextEntry (p : Part) (n : Nat) (root key : List Byte) : List Byte :=
  leBytes 4 (p.nextKeyId n) ++ [1, 0, 0, 0] ++ Crypto.keyWrap (Crypto.aes root) key

section
variable {c : AdmCmd} {i : Nat} {p : Part} {root key : List Byte}

theorem storageRotate_rotates (free : ¬ SessionOpen p c.fn) (held : p.storageRoot = some root)
    (drawn : (p.entDraw .predict 32).1 = some key) :
    let r := (p.entDraw .predict 32).2
    Part.storageRotate c i p = some (((r.putSkey c.fn (r.nextKeyId c.fn) root key).ledger (Part.skeyItem c.fn (r.nextKeyId c.fn) key) (some i)
      none).admDone c.fn i (leBytes 4 (r.nextKeyId c.fn)) []) := by
  rw [Part.storageRotate, sessionFree_free free, held]
  simp only
  rw [entDraw_drawn drawn]

theorem putSkey_slc (n id : Nat) : (p.putSkey n id root key).slc = { p.slc with cache := [] } := rfl

theorem putSkey_vault (n id : Nat) : (p.putSkey n id root key).bat.vault = p.bat.vault.write ram (Part.skeyOffset (Part.colourOf n))
    (leBytes 4 id ++ [1, 0, 0, 0] ++ Crypto.keyWrap (Crypto.aes root) key) := rfl

theorem nextKeyId_congr {q : Part} (vault : q.bat.vault = p.bat.vault) (n : Nat) : q.nextKeyId n = p.nextKeyId n := by
  rw [Part.nextKeyId, Part.vaultRead, vault]
  rfl

end

theorem storageRotate_ends {s : State} {c : AdmCmd} {root key : List Byte} (ready : AdmReady s.part { op := 0x16, classA := true } c)
    (free : ¬ SessionOpen s.part c.fn) (held : s.part.storageRoot = some root) (drawn : (s.part.entDraw .predict 32).1 = some key) :
    ∃ q, Yields (.storageRotate c) s q ∧ AdmEnds 0x16 c 0 0 (leBytes 4 (s.part.nextKeyId c.fn)) [] s.part q ∧
      q.slc = { s.part.slc with cache := [] } ∧
      q.bat.vault = s.part.bat.vault.write ram (Part.skeyOffset (Part.colourOf c.fn)) (nextEntry s.part c.fn root key) := by
  have does := storageRotate_rotates (i := admCtx s.part c.fn) (p := admBegun s.part { op := 0x16, classA := true } c) free
    ((admBegun_storageRoot ..).trans held) ((admBegun_entDraw ..).trans drawn)
  have draw := entDraw_spec .predict 32 (admBegun s.part { op := 0x16, classA := true } c)
  have vault := draw.vault
  have slc := draw.slc
  have work := AtCommand.begun.drawn (k := { op := 0x16, classA := true }) (c := c) (p := s.part) .predict 32
  simp only at does vault slc
  generalize ((admBegun s.part { op := 0x16, classA := true } c).entDraw .predict 32).2 = r at does vault slc work
  rw [nextKeyId_congr (p := s.part) vault] at does
  have put := work.later (q := r.putSkey c.fn (s.part.nextKeyId c.fn) root key) rfl rfl
  obtain ⟨q, yields, ended, told⟩ := ready.done (i := .storageRotate c) rfl (put.ledger ..) does
  refine ⟨q, yields, ended, ?_, ?_⟩
  · rw [told.slc, ledger_slc, putSkey_slc, slc, admBegun_slc]
  · rw [told.bat, ledger_bat, putSkey_vault, vault, admBegun_bat]

/-! ### Counters (R349, R350, R385) -/

/-- The group of counter `g` holds no sound table: its counters are unusable (R350). -/
abbrev GroupLost (p : Part) (g : Nat) : Prop := g / 256 ∈ p.tnt.badGroups

/-- The index of the function's counter `a` among all of the part. -/
abbrev counterNo (p : Part) (c : AdmCmd) : Nat := 256 * (p.tnt.t.get {} c.fn).st.eff.grpBase.toNat + c.a0.toNat

section
variable {c : AdmCmd} {i : Nat} {p : Part}

theorem counterIndex_outside (outside : 256 * (p.tnt.t.get {} c.fn).st.eff.groups.toNat ≤ c.a0.toNat) : p.counterIndex c.fn c.a0 = none :=
  if_neg (Nat.not_lt.2 outside)

theorem counterIndex_inside (inside : c.a0.toNat < 256 * (p.tnt.t.get {} c.fn).st.eff.groups.toNat) :
    p.counterIndex c.fn c.a0 = some (counterNo p c) := if_pos inside

theorem ctrRead_outside (outside : p.counterIndex c.fn c.a0 = none) : Part.ctrRead c i p = some (p.fail i 0x13 2) := by
  rw [Part.ctrRead, outside]

theorem ctrAdvance_outside (outside : p.counterIndex c.fn c.a0 = none) : Part.ctrAdvance c i p = some (p.fail i 0x13 2) := by
  rw [Part.ctrAdvance, outside]

variable {g : Nat} (index : p.counterIndex c.fn c.a0 = some g)
include index

theorem ctrRead_lost (lost : GroupLost p g) : Part.ctrRead c i p = some (p.fail i 0x7F 0) := by
  rw [Part.ctrRead, index]
  exact if_pos (by simpa using lost)

theorem ctrAdvance_lost (lost : GroupLost p g) : Part.ctrAdvance c i p = some (p.fail i 0x7F 0) := by
  rw [Part.ctrAdvance, index]
  exact if_pos (by simpa using lost)

variable (kept : ¬ GroupLost p g)
include kept

theorem ctrRead_reads : Part.ctrRead c i p = some (p.admDone c.fn i (leBytes 8 (p.counterRead g).toNat) []) := by
  rw [Part.ctrRead, index]
  exact if_neg (by simpa using kept)

theorem ctrAdvance_outOfRange (bad : c.a1 = 0 ∨ 2 ^ 64 ≤ (p.tnt.counters.get 0 g).toNat + c.a1.toNat) :
    Part.ctrAdvance c i p = some (p.fail i 0x10 0x0A) := by
  rw [Part.ctrAdvance, index]
  exact (if_neg (by simpa using kept)).trans (if_pos bad)

end

/-- The counter stored, and its readable value held or let go: on a pair that is not in SOLO it stays what it was until the entry is
acknowledged. -/
def counterSet (g v : Nat) (p : Part) : Part :=
  p.modTnt fun t =>
    { t with counters := t.counters.set 0 g (BitVec.ofNat 64 v)
             acked := if p.paired && !Part.alone p.mir then t.acked.set none g (some (p.counterRead g)) else t.acked.set none g none }

theorem ctrAdvance_advances {c : AdmCmd} {i g : Nat} {p : Part} (index : p.counterIndex c.fn c.a0 = some g) (kept : ¬ GroupLost p g)
    (good : ¬ (c.a1 = 0 ∨ 2 ^ 64 ≤ (p.tnt.counters.get 0 g).toNat + c.a1.toNat)) :
    let v := (p.tnt.counters.get 0 g).toNat + c.a1.toNat
    Part.ctrAdvance c i p = some ((((counterSet g v p).epochStep (g / 256)).ledger (Part.counterItem g (BitVec.ofNat 64 v)) (some i)
      (some (g, BitVec.ofNat 64 v))).admDone c.fn i (leBytes 8 v) []) := by
  rw [Part.ctrAdvance, index]
  exact (if_neg (by simpa using kept)).trans (if_neg good)

end Sys2Proof.Safety
end

section
/-! SUPPORT. What CTR_READ and CTR_ADVANCE leave: the value, what reads it, and the table of its group (R349, R350, R385, R389). -/

namespace Sys2Proof.Safety

open Sys2Proof.Machine

/-! ### Octets written and read back -/

theorem getElem_read (d : Byte) (m : Mem) (a n i : Nat) (h : i < (m.read d a n).length) : (m.read d a n)[i] = Tab.get d m (a + i) := by
  induction n generalizing a i with
  | zero => exact absurd h (Nat.not_lt_zero i)
  | succ n ih =>
    cases i with
    | zero => rfl
    | succ i => exact (ih (a + 1) i (by simpa [Mem.read] using h)).trans (by rw [Nat.add_right_comm, Nat.add_assoc])

theorem read_write_self (d : Byte) (m : Mem) (a : Nat) {bs : List Byte} {n : Nat} (len : bs.length = n) : (m.write d a bs).read d a n = bs := by
  subst len
  refine List.ext_getElem (length_read ..) fun i hi hi' => ?_
  rw [getElem_read, Mem.get_write_self d m a i bs hi']

/-! ### The counter stored -/

section
variable {g v : Nat} {p : Part}

theorem counterSet_value (small : v < 2 ^ 64) : ((counterSet g v p).tnt.counters.get 0 g).toNat = v := by
  rw [show (counterSet g v p).tnt.counters = p.tnt.counters.set 0 g (BitVec.ofNat 64 v) from rfl, Tab.get_set_self, BitVec.toNat_ofNat]
  exact Nat.mod_eq_of_lt small

theorem counterSet_other {y : Nat} (other : y ≠ g) : (counterSet g v p).tnt.counters.get 0 y = p.tnt.counters.get 0 y :=
  Tab.get_set_other _ _ _ _ _ other

theorem counterSet_acked : (counterSet g v p).tnt.acked.get none g = if p.paired && !Part.alone p.mir then some (p.counterRead g) else none := by
  have acked : (counterSet g v p).tnt.acked =
      p.tnt.acked.set none g (if p.paired && !Part.alone p.mir then some (p.counterRead g) else none) := by
    unfold counterSet
    rw [Part.modTnt_tnt]
    split <;> rfl
  rw [acked, Tab.get_set_self]

/-- On an unpaired part the value is readable at once. -/
theorem counterSet_unpaired (unpaired : p.paired = false) (small : v < 2 ^ 64) : ((counterSet g v p).counterRead g).toNat = v := by
  rw [Part.counterRead, counterSet_acked, unpaired]
  exact counterSet_value small

/-- On a pair that is not in SOLO what reads stays. -/
theorem counterSet_paired (paired : p.paired = true) (pair : Part.alone p.mir = false) : (counterSet g v p).counterRead g = p.counterRead g := by
  rw [Part.counterRead, counterSet_acked, paired, pair]
  rfl

end

theorem counterRead_congr {p q : Part} (same : q.tnt = { p.tnt with adm := q.tnt.adm }) (g : Nat) : q.counterRead g = p.counterRead g := by
  rw [Part.counterRead, same]
  rfl

/-! ### The group's table written (R350) -/

/-- The table of group `g` at epoch `e`. -/
def tableAt (p : Part) (g : Nat) (e : BitVec 64) : CtrTable :=
  { epoch := e, values := p.groupValues g, mac := some (p.tableMac e (p.groupValues g)) }

/-- The sector of group `g` that holds none of its present table. -/
abbrev nextSector (p : Part) (g : Nat) : Nat := 2 * g + if (p.sectorTable g false).isSome then 1 else 0

section
variable {g : Nat} {p : Part}

theorem epochStep_eq : p.epochStep g = { p with
    nvm := { p.nvm with ctrTab := p.nvm.ctrTab.set none (nextSector p g) (some (tableAt p g (p.vaultEpoch g + 1))) }
    bat := { p.bat with vault := p.bat.vault.write ram (0x100 + 8 * g) (leBytes 8 (p.vaultEpoch g + 1).toNat) } } := rfl

theorem epochStep_epoch : (p.epochStep g).vaultRead (0x100 + 8 * g) 8 = leBytes 8 (p.vaultEpoch g + 1).toNat := by
  rw [epochStep_eq]
  exact read_write_self _ _ _ (length_leBytes ..)

end

/-! ### The counter advanced -/

/-- Counter `g` holds `v`, and the table of its group stands at the next epoch in the sector that held none of the present one. -/
structure CounterAdvanced (g v : Nat) (p q : Part) : Prop where
  value    : (q.tnt.counters.get 0 g).toNat = v
  others   : ∀ y, y ≠ g → q.tnt.counters.get 0 y = p.tnt.counters.get 0 y
  unpaired : p.paired = false → (q.counterRead g).toNat = v
  paired   : p.paired = true → Part.alone p.mir = false → q.counterRead g = p.counterRead g
  epoch    : q.vaultRead (0x100 + 8 * (g / 256)) 8 = leBytes 8 (p.vaultEpoch (g / 256) + 1).toNat
  table    : q.nvm = { p.nvm with ctrTab := p.nvm.ctrTab.set none (nextSector p (g / 256)) (some
    { epoch := p.vaultEpoch (g / 256) + 1, values := q.groupValues (g / 256)
      mac := some (p.tableMac (p.vaultEpoch (g / 256) + 1) (q.groupValues (g / 256))) }) }
  rest     : q = { p with tnt := q.tnt, dsp := q.dsp, bat := q.bat, mir := q.mir, nvm := q.nvm }

section
variable {g v : Nat} {p : Part}

theorem counterSet_tableAt (group : Nat) (e : BitVec 64) : tableAt (counterSet g v p) group e =
    { epoch := e, values := (counterSet g v p).groupValues group, mac := some (p.tableMac e ((counterSet g v p).groupValues group)) } := rfl

theorem counterSet_nextSector (group : Nat) : nextSector (counterSet g v p) group = nextSector p group := rfl

theorem counterSet_vaultEpoch (group : Nat) : (counterSet g v p).vaultEpoch group = p.vaultEpoch group := rfl

/-- A counter set, its table written and its entry sent. -/
theorem counterAdvanced {q : Part} (small : v < 2 ^ 64) {items : List Byte} {w : Option Nat} {n : Option (Nat × BitVec 64)}
    (told : Told (((counterSet g v p).epochStep (g / 256)).ledger items w n) q) : CounterAdvanced g v p q := by
  have tnt : q.tnt = { (counterSet g v p).tnt with adm := q.tnt.adm } := by rw [told.tnt, ledger_tnt, epochStep_eq]
  have counters : q.tnt.counters = (counterSet g v p).tnt.counters := by rw [tnt]
  have values : q.groupValues (g / 256) = (counterSet g v p).groupValues (g / 256) := by rw [Part.groupValues, counters, Part.groupValues]
  refine ⟨?_, fun y other => ?_, fun unpaired => ?_, fun paired pair => ?_, ?_, ?_, ?_⟩
  · rw [counters, counterSet_value small]
  · rw [counters, counterSet_other other]
  · rw [counterRead_congr tnt, counterSet_unpaired unpaired small]
  · rw [counterRead_congr tnt, counterSet_paired paired pair]
  · rw [Part.vaultRead, told.bat, ledger_bat, ← Part.vaultRead, epochStep_epoch, counterSet_vaultEpoch]
  · rw [told.nvm, ledger_nvm, epochStep_eq, counterSet_nextSector, counterSet_tableAt, counterSet_vaultEpoch, values]
    rfl
  · rw [told, ledger_mir, epochStep_eq]
    rfl

end

/-! ### The commands (R385, R389) -/

section
variable {p : Part} {k : Part.AdmKind} {c : AdmCmd} {g v : Nat}

@[simp] theorem admBegun_counters : (admBegun p k c).tnt.counters = p.tnt.counters := by
  simp only [admBegun]

@[simp] theorem admBegun_acked : (admBegun p k c).tnt.acked = p.tnt.acked := by
  simp only [admBegun]

@[simp] theorem admBegun_badGroups : (admBegun p k c).tnt.badGroups = p.tnt.badGroups := by
  simp only [admBegun]

@[simp] theorem admBegun_tenants : (admBegun p k c).tnt.t = p.tnt.t := by
  simp only [admBegun]

@[simp] theorem admBegun_counterRead : (admBegun p k c).counterRead g = p.counterRead g := by
  rw [Part.counterRead, admBegun_acked, admBegun_counters, Part.counterRead]

@[simp] theorem admBegun_counterIndex (n : Nat) (a : Word) : (admBegun p k c).counterIndex n a = p.counterIndex n a := by
  rw [Part.counterIndex, admBegun_tenants, Part.counterIndex]

@[simp] theorem admBegun_vaultEpoch (group : Nat) : (admBegun p k c).vaultEpoch group = p.vaultEpoch group := by
  rw [Part.vaultEpoch, admBegun_vaultRead, Part.vaultEpoch]

@[simp] theorem admBegun_tableMac (e : BitVec 64) (values : Tab (BitVec 64)) : (admBegun p k c).tableMac e values = p.tableMac e values := by
  rw [Part.tableMac, Part.rootDerive, admBegun_sys]
  rfl

@[simp] theorem admBegun_sectorTable (group : Nat) (second : Bool) :
    (admBegun p k c).sectorTable group second = p.sectorTable group second := by
  simp only [Part.sectorTable, Part.rootUsable, admBegun_vaultEpoch, admBegun_tableMac, admBegun_nvm, admBegun_sys]

/-- A counter advanced by a command that has begun. -/
theorem CounterAdvanced.begun {q : Part} (h : CounterAdvanced g v (admBegun p k c) q) : CounterAdvanced g v p q where
  value := h.value
  others y other := (h.others y other).trans (by rw [admBegun_counters])
  unpaired := h.unpaired
  paired both pair := (h.paired both pair).trans admBegun_counterRead
  epoch := h.epoch.trans (by rw [admBegun_vaultEpoch])
  table := h.table.trans (by rw [nextSector, admBegun_sectorTable, admBegun_vaultEpoch, admBegun_tableMac, admBegun_nvm])
  rest := h.rest.trans rfl

end

section
variable {s : State} {c : AdmCmd} {g : Nat} (index : s.part.counterIndex c.fn c.a0 = some g) (kept : ¬ GroupLost s.part g)
include index kept

theorem ctrRead_ends (ready : AdmReady s.part { op := 0x20 } c) :
    Ends s (.ctrRead c) 0x20 c (leBytes 8 (s.part.counterRead g).toNat) [] fun q =>
      q.slc = s.part.slc ∧ q.mir = s.part.mir ∧ q.tnt = { s.part.tnt with adm := q.tnt.adm } := by
  have does := ctrRead_reads (i := admCtx s.part c.fn) (p := admBegun s.part { op := 0x20 } c) ((admBegun_counterIndex ..).trans index)
    (by rwa [GroupLost, admBegun_badGroups])
  rw [admBegun_counterRead] at does
  exact ready.ends rfl .begun does rfl fun q told => ⟨told.slc, told.mir, told.tnt⟩

theorem ctrAdvance_ends (ready : AdmReady s.part { op := 0x21, classA := true } c)
    (good : ¬ (c.a1 = 0 ∨ 2 ^ 64 ≤ (s.part.tnt.counters.get 0 g).toNat + c.a1.toNat)) :
    let v := (s.part.tnt.counters.get 0 g).toNat + c.a1.toNat
    ∃ q, Yields (.ctrAdvance c) s q ∧ AdmEnds 0x21 c 0 0 (leBytes 8 v) [] s.part q ∧ CounterAdvanced g v s.part q := by
  intro v
  have small : v < 2 ^ 64 := Nat.lt_of_not_le (not_or.1 good).2
  have does := ctrAdvance_advances (i := admCtx s.part c.fn) (p := admBegun s.part { op := 0x21, classA := true } c)
    ((admBegun_counterIndex ..).trans index) (by rwa [GroupLost, admBegun_badGroups]) (by rwa [admBegun_counters])
  rw [admBegun_counters] at does
  have work : AtCommand { op := 0x21, classA := true } c s.part
      ((counterSet g v (admBegun s.part { op := 0x21, classA := true } c)).epochStep (g / 256)) := ⟨rfl, rfl⟩
  obtain ⟨q, yields, ended, told⟩ := ready.done (i := .ctrAdvance c) rfl (work.ledger ..) does
  exact ⟨q, yields, ended, (counterAdvanced small told).begun⟩

end

end Sys2Proof.Safety
end

section
/-! SUPPORT. QUERY: the fields of the usage report in place (R389, R392). -/

namespace Sys2Proof.Safety

open Sys2Proof.Machine

/-! ### Fields of octets put one after another -/

/-- A field of octets made of fields. -/
theorem field_flatten (L : List (List Byte)) {o k : Nat} (i : Nat) (h : i < L.length) (at' : ((L.map List.length).take i).sum = o)
    (size : L[i].length = k) : (L.flatten.drop o).take k = L[i] := by
  have field := List.drop_take_succ_flatten_eq_getElem L i h
  have next : ((L.map List.length).take (i + 1)).sum = o + k := by
    rw [List.take_succ_eq_append_getElem (by simpa using h), List.sum_append, at', List.getElem_map, size, List.sum_singleton]
  rwa [next, at', List.drop_take, Nat.add_sub_cancel_left] at field

theorem ofLe_leBytes (k v : Nat) : ofLe (leBytes k v) = v % 256 ^ k := by
  induction k generalizing v with
  | zero => simp [leBytes, ofLe, Nat.mod_one]
  | succ k ih =>
    rw [leBytes, ofLe, ih, BitVec.toNat_ofNat]
    exact (Nat.mod_mul (x := v) (a := 256) (b := 256 ^ k)).symm.trans (by rw [Nat.pow_succ'])

/-- A field wide enough for its value. -/
theorem ofLe_leBytes_toNat {w : Nat} (k : Nat) (v : BitVec w) (wide : w ≤ 8 * k) : ofLe (leBytes k v.toNat) = v.toNat := by
  rw [ofLe_leBytes]
  refine Nat.mod_eq_of_lt (v.isLt.trans_le ?_)
  rw [show 256 = 2 ^ 8 from rfl, ← Nat.pow_mul]
  exact Nat.pow_le_pow_right (by decide) wide

/-! ### The report (R392) -/

/-- The fields of the usage report of a function, in their order. -/
def reportFields (p : Part) (n : Nat) : List (List Byte) :=
  let st := p.tntState n
  let t := (p.tnt.t.get {} n).st.eff
  [leBytes 4 t.slots.toNat, leBytes 4 (p.counted n), leBytes 4 t.inflight.toNat, leBytes 4 (p.ctxsOf n).length,
    leBytes 2 t.granBase.toNat, leBytes 2 t.grans.toNat, leBytes 2 t.qpBase.toNat, leBytes 1 t.qpCount.toNat, [t.weight],
    [t.floor.setWidth 8 ||| (st.setWidth 8 <<< 4)],
    [(if p.sys.session.active && p.sys.session.fn == n then 1 else 0) ||| (if (p.migOf n).isSome then 2 else 0)
      ||| (if (p.fn n).wedged then 4 else 0)],
    leBytes 2 t.groups.toNat, leBytes 2 t.grpBase.toNat,
    leBytes 2 ((List.range t.groups.toNat).filter fun g => p.tnt.badGroups.contains (t.grpBase.toNat + g)).length,
    p.vaultRead (Part.skeyOffset (Part.colourOf n)) 4, leBytes 2 p.bat.frac.toNat, leBytes 6 p.bat.secs.toNat, List.replicate 20 0]

section
variable {p : Part} {n : Nat}

theorem usageReport_eq : p.usageReport n = if p.tntState n = 0 then List.replicate 64 0 else (reportFields p n).flatten := by
  simp [Part.usageReport, reportFields, List.append_assoc]

/-- Octets `o` to `o + k - 1` of a report as a number. -/
abbrev reportField (out : List Byte) (o k : Nat) : Nat := ofLe ((out.drop o).take k)

/-- CLASS_FLOOR and TNT_STATE in one octet. -/
theorem floor_state (floor : BitVec 2) (st : BitVec 3) :
    (floor.setWidth 8 ||| (st.setWidth 8 <<< 4) : Byte).toNat = floor.toNat + 16 * st.toNat := by
  revert floor st
  decide

/-- What the fields hold. -/
structure Reports (p : Part) (n : Nat) (out : List Byte) : Prop where
  slots : reportField out 0 4 = (p.tnt.t.get {} n).st.eff.slots.toNat
  counted : reportField out 4 4 = p.counted n % 2 ^ 32
  inflight : reportField out 8 4 = (p.tnt.t.get {} n).st.eff.inflight.toNat
  granBase : reportField out 16 2 = (p.tnt.t.get {} n).st.eff.granBase.toNat
  grans : reportField out 18 2 = (p.tnt.t.get {} n).st.eff.grans.toNat
  qpBase : reportField out 20 2 = (p.tnt.t.get {} n).st.eff.qpBase.toNat
  qpCount : reportField out 22 1 = (p.tnt.t.get {} n).st.eff.qpCount.toNat
  weight : reportField out 23 1 = (p.tnt.t.get {} n).st.eff.weight.toNat
  state : reportField out 24 1 = (p.tnt.t.get {} n).st.eff.floor.toNat + 16 * (p.tntState n).toNat
  groups : reportField out 26 2 = (p.tnt.t.get {} n).st.eff.groups.toNat
  grpBase : reportField out 28 2 = (p.tnt.t.get {} n).st.eff.grpBase.toNat
  frac : reportField out 36 2 = p.bat.frac.toNat
  secs : reportField out 38 6 = p.bat.secs.toNat % 2 ^ 48
  zero : reportField out 44 20 = 0

/-- The octets that each field takes. -/
def reportLengths : List Nat := [4, 4, 4, 4, 2, 2, 2, 1, 1, 1, 1, 2, 2, 2, 4, 2, 6, 20]

theorem map_length_reportFields : (reportFields p n).map List.length = reportLengths := by
  simp [reportFields, reportLengths, Part.vaultRead]

theorem reportFields_field (i : Nat) {o k : Nat} (h : i < reportLengths.length) (at' : (reportLengths.take i).sum = o)
    (size : reportLengths[i] = k) {bs : List Byte} (field : (reportFields p n)[i]? = some bs) :
    reportField (reportFields p n).flatten o k = ofLe bs := by
  obtain ⟨inside, rfl⟩ := List.getElem?_eq_some_iff.1 field
  simp only [← map_length_reportFields (p := p) (n := n), List.getElem_map] at at' size
  exact congrArg ofLe (field_flatten _ i inside at' size)

theorem reportFields_reports : Reports p n (reportFields p n).flatten where
  slots := (reportFields_field 0 (by decide) rfl rfl rfl).trans (ofLe_leBytes_toNat 4 _ (by decide))
  counted := (reportFields_field 1 (by decide) rfl rfl rfl).trans (ofLe_leBytes 4 _)
  inflight := (reportFields_field 2 (by decide) rfl rfl rfl).trans (ofLe_leBytes_toNat 4 _ (by decide))
  granBase := (reportFields_field 4 (by decide) rfl rfl rfl).trans (ofLe_leBytes_toNat 2 _ (by decide))
  grans := (reportFields_field 5 (by decide) rfl rfl rfl).trans (ofLe_leBytes_toNat 2 _ (by decide))
  qpBase := (reportFields_field 6 (by decide) rfl rfl rfl).trans (ofLe_leBytes_toNat 2 _ (by decide))
  qpCount := (reportFields_field 7 (by decide) rfl rfl rfl).trans (ofLe_leBytes_toNat 1 _ (by decide))
  weight := reportFields_field 8 (by decide) rfl rfl rfl
  state := (reportFields_field 9 (by decide) rfl rfl rfl).trans (floor_state _ _)
  groups := (reportFields_field 11 (by decide) rfl rfl rfl).trans (ofLe_leBytes_toNat 2 _ (by decide))
  grpBase := (reportFields_field 12 (by decide) rfl rfl rfl).trans (ofLe_leBytes_toNat 2 _ (by decide))
  frac := (reportFields_field 15 (by decide) rfl rfl rfl).trans (ofLe_leBytes_toNat 2 _ (by decide))
  secs := (reportFields_field 16 (by decide) rfl rfl rfl).trans (ofLe_leBytes 6 _)
  zero := (reportFields_field 17 (by decide) rfl rfl rfl).trans (by decide)

theorem length_reportFields : (reportFields p n).flatten.length = 64 := by
  rw [List.length_flatten, map_length_reportFields]
  rfl

end

/-! ### The command (R389) -/

/-- The function that QUERY reports on: the caller, or the manager's target. -/
abbrev queried (c : AdmCmd) : Nat :=
  if c.fn.val ≠ 0 then c.fn.val else if c.head.target.toNat = 1024 then 0 else c.head.target.toNat + 1

theorem admBegun_tntState {p : Part} {k : Part.AdmKind} {c : AdmCmd} (n : Nat) : (admBegun p k c).tntState n = p.tntState n := by
  have states : (admBegun p k c).tnt.states = p.tnt.states := by simp only [admBegun]
  rw [Part.tntState, states, admBegun_sys, Part.tntState]

/-- A report on a part where a command has begun. -/
theorem Reports.begun {p : Part} {k : Part.AdmKind} {c : AdmCmd} {n : Nat} {out : List Byte} (h : Reports (admBegun p k c) n out) :
    Reports p n out := by
  obtain ⟨slots, counted, inflight, granBase, grans, qpBase, qpCount, weight, state, groups, grpBase, frac, secs, zero⟩ := h
  rw [admBegun_tenants] at slots inflight granBase grans qpBase qpCount weight state groups grpBase
  rw [admBegun_counted] at counted
  rw [admBegun_tntState] at state
  exact ⟨slots, counted, inflight, granBase, grans, qpBase, qpCount, weight, state, groups, grpBase, frac, secs, zero⟩

section
variable {s : State} {c : AdmCmd} (ready : AdmReady s.part { op := 0x40, writes := 64 } c)
include ready

theorem query_outOfRange (manager : c.fn.val = 0) (bad : 1024 < c.head.target.toNat) : Refused s (.query c) 0x40 c 0x10 0x0A :=
  ready.fails (body := Part.admQuery c) rfl (by decide) (if_pos ⟨manager, bad⟩)

/-- A function that serves a command has a state: the manager, or a tenant that is not NONE. -/
theorem tntState_manager : s.part.tntState 0 = 1 := by
  rcases ready.serving with mode | mode <;> simp [Part.tntState, mode]

theorem query_ends (good : c.fn.val ≠ 0 ∨ c.head.target.toNat ≤ 1024) :
    ∃ out, Ends s (.query c) 0x40 c [] out (fun q => q.slc = s.part.slc ∧ q.mir = s.part.mir) ∧ out.length = 64 ∧
      (queried c ≠ 0 → s.part.tnt.states.get 0 (queried c) = 0 → out = List.replicate 64 0) ∧
      (queried c = 0 ∨ s.part.tnt.states.get 0 (queried c) ≠ 0 → Reports s.part (queried c) out) := by
  have does : Part.admQuery c (admCtx s.part c.fn) (admBegun s.part { op := 0x40, writes := 64 } c) =
      some ((admBegun s.part { op := 0x40, writes := 64 } c).admDone c.fn (admCtx s.part c.fn) []
        ((admBegun s.part { op := 0x40, writes := 64 } c).usageReport (queried c))) :=
    if_neg fun ⟨manager, bad⟩ => good.elim (absurd manager) (Nat.not_le.2 bad)
  refine ⟨_, ready.ends rfl .begun does rfl fun q told => ⟨told.slc, told.mir⟩, ?_, fun tenant empty => ?_, fun held => ?_⟩ <;>
    rw [usageReport_eq, admBegun_tntState]
  · split
    · rfl
    · exact length_reportFields
  · rw [if_pos (by rw [Part.tntState, if_pos tenant, empty])]
  · rw [if_neg]
    · exact reportFields_reports.begun
    · by_cases manager : queried c = 0
      · rw [manager, tntState_manager ready]
        decide
      · rw [Part.tntState, if_pos manager]
        exact held.resolve_left manager

end

end Sys2Proof.Safety
end

section
/-! SUPPORT. The decoding of an administrative command's descriptor (R90, R92, R110, R129, R389). -/

namespace Sys2Proof.Safety

open Sys2Proof.Machine

/-! ### The second half of a descriptor -/

/-- A fold that keeps what it has or picks an element ends with one of them. -/
theorem foldl_picks {α : Type} {f : Option α → α → Option α} (picks : ∀ b a, f b a = b ∨ f b a = some a) {x : α} :
    ∀ {l : List α} {b : Option α}, l.foldl f b = some x → b = some x ∨ x ∈ l
  | [], _, same => .inl same
  | a :: l, b, same => by
    rcases foldl_picks picks (l := l) same with picked | later
    · rcases picks b a with kept | taken
      · exact .inl (kept.symm.trans picked)
      · exact .inr (Option.some.inj (taken.symm.trans picked) ▸ List.mem_cons_self)
    · exact .inr (List.mem_cons_of_mem a later)

/-- A second half at hand is a listed context fetched later. -/
theorem secondHalf_listed {p : Part} {n : Nat} {x : Nat × Ctx} (found : p.secondHalf n = some x) :
    x ∈ p.dsp.ctxs ∧ (p.ctx n).order < x.2.order := by
  have listed := foldl_picks (fun b a => ?_) found
  · obtain ⟨mem, later⟩ := List.mem_filter.1 (listed.resolve_left nofun)
    exact ⟨mem, of_decide_eq_true (Bool.and_eq_true_iff.1 later).2⟩
  · cases b with
    | none => exact .inr rfl
    | some y =>
      simp only
      split
      · exact .inr rfl
      · exact .inl rfl

/-- Context `n` is listed once. -/
def ListedOnce (p : Part) (n : Nat) : Prop := ∀ x ∈ p.dsp.ctxs, x.1 = n → x.2 = p.ctx n

/-- An administrative command has no second half to read: at most another context fetched for it is given back. -/
theorem takeSecond_admin {p : Part} {n : Nat} (admin : 4096 ≤ (p.ctx n).qp) (once : ListedOnce p n) :
    ∃ t, p.takeSecond n = { p with dsp := { p.dsp with ctxs := t } } ∧ t.get {} n = p.ctx n := by
  unfold Part.takeSecond
  cases found : p.secondHalf n with
  | none =>
    refine ⟨p.dsp.ctxs, ?_, rfl⟩
    simp only [Part.when, Nat.not_lt.2 admin, decide_false, Bool.false_eq_true, if_false]
  | some x =>
    obtain ⟨listed, later⟩ := secondHalf_listed found
    have other : n ≠ x.1 := fun same => absurd later (by rw [once x listed same.symm]; exact Nat.lt_irrefl _)
    exact ⟨_, rfl, Tab.get_set_other _ _ _ _ _ other⟩

theorem effClassOf_admin {p q : Part} (same : q.tnt = p.tnt) (f : Nat) {g : Nat} (admin : 4096 ≤ g) (cls : Nat) :
    q.effClassOf f g cls = p.effClassOf f g cls := by
  simp only [Part.effClassOf, if_pos admin, same]

/-! ### The lookups (R110) -/

/-- The lookups all pass where each head slot passes, and change nothing. -/
theorem handleCheck_passes_iff {colour : BitVec 12} {p : Part} : ∀ {l : List (BitVec 32 × List (BitVec 4))} {k : Nat},
    (Part.handleCheck colour l k p).1 = none ↔ ∀ x ∈ l, x.1 = 0 ∨ (p.headCheck x.1 colour x.2).1 = none
  | [], _ => by simp [Part.handleCheck]
  | (h, acc) :: l, k => by
    rw [Part.handleCheck, List.forall_mem_cons]
    by_cases zero : h = 0
    · rw [if_pos zero, handleCheck_passes_iff]
      exact (and_iff_right (.inl zero)).symm
    · rw [if_neg zero]
      rcases head : p.headCheck h colour acc with ⟨_ | e, p'⟩
      · obtain ⟨-, rfl⟩ := Prod.mk.inj (head.symm.trans (headCheck_passes (congrArg Prod.fst head)))
        simp only [handleCheck_passes_iff, or_true, true_and]
      · exact iff_of_false nofun fun all => all.1.elim zero nofun

theorem handleCheck_passes {colour : BitVec 12} {p : Part} : ∀ {l : List (BitVec 32 × List (BitVec 4))} {k : Nat},
    (Part.handleCheck colour l k p).1 = none → Part.handleCheck colour l k p = (none, p)
  | [], _, _ => rfl
  | (h, acc) :: l, k, passes => by
    rw [Part.handleCheck] at passes ⊢
    split
    · next zero => exact handleCheck_passes (by rwa [if_pos zero] at passes)
    · next named =>
      rw [if_neg named] at passes
      rcases head : p.headCheck h colour acc with ⟨_ | e, p'⟩
      · obtain ⟨-, rfl⟩ := Prod.mk.inj (head.symm.trans (headCheck_passes (congrArg Prod.fst head)))
        rw [head] at passes
        exact handleCheck_passes passes
      · rw [head] at passes
        exact nomatch passes

/-- What the Cellar answers has nothing to do with messages issued. -/
theorem Asked.headCheck {p q : Part} (asked : Asked p q) (h : BitVec 32) (colour : BitVec 12) (accepted : List (BitVec 4)) :
    (q.headCheck h colour accepted).1 = (p.headCheck h colour accepted).1 := by
  rw [asked]
  simp only [Part.headCheck, apply_ite Prod.fst]
  rfl

theorem Asked.handleCheck {p q : Part} (asked : Asked p q) {colour : BitVec 12} {l : List (BitVec 32 × List (BitVec 4))} {k : Nat}
    (passes : (Part.handleCheck colour l k p).1 = none) : Part.handleCheck colour l k q = (none, q) :=
  handleCheck_passes (handleCheck_passes_iff.2 fun x mem => (handleCheck_passes_iff.1 passes x mem).imp_right (asked.headCheck ..).trans)

/-! ### DESCRIPTOR_DECODE (R90, R92, R110, R129) -/

/-- The descriptor of the octets read: the second half counts where it is long. -/
abbrev descOf (d : List Byte) : List Byte := if (Part.headOf d).long then d else Pk.fit 128 (d.take 64)

/-- The input of a descriptor: what its IN_ADDR holds, or its own octets. -/
abbrev inputOf (d : List Byte) (input : Option (List Byte)) : List Byte :=
  if (Part.headOf d).inPtr then Pk.fit (Part.dNum (descOf d) 16 2) (input.getD [])
  else (Part.inlineOf (Part.headOf d) (descOf d)).take (Part.dNum (descOf d) 16 2)

/-- The context with its descriptor's fields, before its checks. -/
abbrev descLoaded (p : Part) (n : Nat) (d : List Byte) : Part :=
  (p.when (Part.headOf d).long (Part.takeSecond n)).modCtx n
    (Part.loadCtx (Part.headOf d) (descOf d) (p.effClassOf (p.ctx n).fn (p.ctx n).qp (Part.headOf d).cls))

/-- A fetched context of an administrative command, whose turn it is, on a part that serves. -/
structure DecodesNow (p : Part) (n : Nat) : Prop where
  fetched : (p.ctx n).state = .fetched
  first   : p.earlierFetched n = false
  admin   : 4096 ≤ (p.ctx n).qp
  once    : ListedOnce p n
  ready   : p.slc.ready = true
  serving : p.sys.mode ≠ .quarantine ∧ p.sys.mode ≠ .standby
  active  : ¬ (p.tnt.states.get 0 (p.ctx n).fn = 2 ∨ p.tnt.states.get 0 (p.ctx n).fn = 3 ∨ p.tnt.states.get 0 (p.ctx n).fn = 4)

section
variable {p : Part} {n : Nat} {d : List Byte} {input : Option (List Byte)}

/-- What the load of an administrative command's descriptor leaves. -/
theorem descLoaded_spec (admin : 4096 ≤ (p.ctx n).qp) (once : ListedOnce p n) :
    ∃ t, p.when (Part.headOf d).long (Part.takeSecond n) = { p with dsp := { p.dsp with ctxs := t } } ∧ t.get {} n = p.ctx n := by
  cases long : (Part.headOf d).long with
  | true => exact takeSecond_admin admin once
  | false => exact ⟨p.dsp.ctxs, rfl, rfl⟩

/-- The checks that follow the load all pass. -/
structure DescSound (q : Part) (colour : BitVec 12) (d : List Byte) (input : Option (List Byte)) (e : ProgEntry) (mask : List Bool) : Prop where
  format  : q.descFault true (Part.headOf d) (descOf d) = none
  read    : (Part.headOf d).inPtr = true → input.isSome = true
  gate    : q.gateOpen = true
  program : q.programEntry ((Part.headOf d).kind == 1) (Part.headOf d).program (BitVec.ofNat 32 (Part.dNum (descOf d) 20 4)) = some (e, mask)
  single  : e.single = none
  handles : (Part.handleCheck colour ((Part.handlesOf (Part.headOf d) (descOf d)).zip (e.handles ++ List.replicate 4 [])) 0 q).1 = none

theorem Asked.gateOpen {p q : Part} (asked : Asked p q) : q.gateOpen = p.gateOpen := by
  rw [asked]
  rfl

theorem Asked.programEntry {p q : Part} (asked : Asked p q) (bulk : Bool) (num : Nat) (param : Word) :
    q.programEntry bulk num param = p.programEntry bulk num param := by
  rw [asked]
  rfl

theorem fit_of_length {k : Nat} {bs : List Byte} (len : bs.length = k) : Pk.fit k bs = bs := by
  rw [Pk.fit, Crypto.padR, len, Nat.sub_self, List.replicate_zero, List.append_nil, List.take_of_length_le len.le]

theorem descriptorDecode_decodes (now : DecodesNow p n) {raw : List Byte} (octets : Pk.fit 128 raw = d) {e : ProgEntry} {mask : List Bool}
    (sound : DescSound (descLoaded p n d) (Part.colourOf (p.ctx n).fn) d input e mask) :
    ∃ r, Asked (descLoaded p n d) r ∧ p.descriptorDecode n (some raw) input =
      (r.writeContext n (descOf d) (inputOf d input)).modCtx n fun c => { c with state := .decoded } := by
  obtain ⟨t, taken, own⟩ := descLoaded_spec (d := d) now.admin now.once
  have second : p.secondReady n = true := by simp [Part.secondReady, now.admin]
  have turn : ¬ ((p.ctx n).state ≠ .fetched ∨ p.earlierFetched n = true) := by simp [now.fetched, now.first]
  have tnt : (p.when (Part.headOf d).long (Part.takeSecond n)).tnt = p.tnt := by rw [taken]
  have loadedTnt : (descLoaded p n d).tnt = p.tnt := tnt
  have loadedSys : (descLoaded p n d).sys = p.sys := by rw [descLoaded, taken]; rfl
  have asked : Asked (descLoaded p n d) ((descLoaded p n d).when (Part.readsInput (Part.headOf d) none)
      (Part.issueRead (p.ctx n).fn (BitVec.ofNat 64 (Part.dNum (descOf d) 24 8)) (Part.dNum (descOf d) 16 2))) := by
    unfold Part.when
    split
    · exact issueRead_asked ..
    · rfl
  simp only [Part.descriptorDecode]
  rw [if_neg turn]
  simp only [octets]
  rw [if_neg (by simp [second]), if_neg (by simp [now.ready]), effClassOf_admin tnt _ now.admin]
  rw [if_neg (by rw [loadedSys]; exact now.serving.1), if_neg (by rw [loadedSys]; exact now.serving.2),
    if_neg (by rw [loadedTnt]; exact now.active)]
  simp only [decide_eq_true now.admin, sound.format]
  generalize Part.when _ _ _ = r at asked ⊢
  refine ⟨r, asked, ?_⟩
  have refusedInput : ¬ ((Part.headOf d).inPtr && input.isNone) = true := by
    rw [Bool.and_eq_true_iff]
    rintro ⟨asks, none⟩
    rw [Option.isNone_iff_eq_none] at none
    exact absurd (sound.read asks) (by rw [none]; decide)
  rw [if_neg refusedInput, asked.gateOpen, sound.gate, if_neg (by simp), asked.programEntry, sound.program]
  simp only [asked.handleCheck sound.handles, sound.single]
  rfl

end

end Sys2Proof.Safety
end

section
/-! SUPPORT. RUN: the decoding of its descriptor in its own context (R389, R472). -/

namespace Sys2Proof.Safety

open Sys2Proof.Machine

/-- The descriptor at the buffer of RUN. -/
abbrev runDesc (c : AdmCmd) : List Byte := Pk.fit 128 (c.buf.getD [])

/-- One of its handles is of a landing slot: RUN is then Class A. -/
abbrev runLands (c : AdmCmd) : Bool := (Part.handlesOf (Part.headOf (runDesc c)) (runDesc c)).any fun x => hClass x == 5

/-- RUN begun, its context as one that has been fetched. -/
abbrev runFetched (c : AdmCmd) (p : Part) : Part :=
  (admBegun p { op := 0x01, reads := 64 } c).modCtx (admCtx p c.fn) fun x =>
    { x with state := .fetched, unit := none, placed := false, classA := runLands c }

/-- RUN decoded. -/
abbrev runDecoded (c : AdmCmd) (input : Option (List Byte)) (p : Part) : Part :=
  ((runFetched c p).descriptorDecode (admCtx p c.fn) (some (runDesc c)) input).modCtx (admCtx p c.fn) fun x => { x with classA := runLands c }

section
variable {p : Part} {c : AdmCmd} {input : Option (List Byte)}

theorem admRunProgram_decodes (whole : c.head.len = 4096) (free : ¬ SessionOpen p c.fn) (i : Nat) :
    Part.admRunProgram c input i p = some (((p.modCtx i fun x =>
      { x with state := .fetched, unit := none, placed := false, classA := runLands c }).descriptorDecode i (some (runDesc c)) input).modCtx i
        fun x => { x with classA := runLands c }) := by
  simp only [Part.admRunProgram]
  rw [if_neg (not_not.2 whole), if_neg]
  rw [Bool.and_assoc, Bool.and_eq_true_iff]
  rintro ⟨-, opened⟩
  exact free (by simpa using opened)

theorem runFetched_ctx : (runFetched c p).ctx (admCtx p c.fn) =
    { state := .fetched, fn := c.fn.val, qp := 4096 + c.fn.val, order := p.dsp.nextOrder, tag := c.head.tag, classA := runLands c } := by
  rw [ctx_modCtx_self, admBegun_ctx]

theorem runFetched_states : (runFetched c p).tnt.states = p.tnt.states := by
  simp only [runFetched, Part.modCtx, Part.modDsp_tnt, admBegun]

/-- An entry written is listed once. -/
theorem mem_set_same {α : Type} [DecidableEq α] {d : α} {t : Tab α} {i : Nat} {v : α} {x : Nat × α} (mem : x ∈ t.set d i v) (same : x.1 = i) :
    x.2 = v := by
  rw [Tab.set] at mem
  split at mem
  · exact absurd same ((Tab.mem_drop ..).1 mem).2
  · rcases (Tab.mem_ins ..).1 mem with rfl | other
    · rfl
    · exact absurd same ((Tab.mem_drop ..).1 other).2

theorem modCtx_listedOnce (p : Part) (i : Nat) (g : Ctx → Ctx) : ListedOnce (p.modCtx i g) i := fun x mem same => by
  rw [ctx_modCtx_self]
  exact mem_set_same mem same

/-- The descriptor of RUN may be decoded where no tenant state bars the manager. -/
theorem runFetched_decodesNow (ready : AdmReady p { op := 0x01, reads := 64 } c) (first : (runFetched c p).earlierFetched (admCtx p c.fn) = false)
    (cellar : p.slc.ready = true) (manager : c.fn.val = 0 → p.tnt.states.get 0 0 ∉ [2, 3, 4]) :
    DecodesNow (runFetched c p) (admCtx p c.fn) where
  fetched := by rw [runFetched_ctx]
  first := first
  admin := by rw [runFetched_ctx]; exact Nat.le_add_right ..
  once := modCtx_listedOnce _ _ _
  ready := cellar
  serving := by
    have serving : p.sys.mode ≠ .quarantine ∧ p.sys.mode ≠ .standby := by rcases ready.serving with mode | mode <;> simp [mode]
    exact serving
  active := by
    rw [runFetched_ctx]
    have barred : ¬ (p.tnt.states.get 0 c.fn = 2 ∨ p.tnt.states.get 0 c.fn = 3 ∨ p.tnt.states.get 0 c.fn = 4) := by
      by_cases zero : c.fn.val = 0
      · simpa [zero] using manager zero
      · rw [ready.active zero]
        decide
    rwa [runFetched_states]

/-- What the decoding leaves. -/
theorem runDecoded_spec (now : DecodesNow (runFetched c p) (admCtx p c.fn)) {e : ProgEntry} {mask : List Bool}
    (sound : DescSound (descLoaded (runFetched c p) (admCtx p c.fn) (runDesc c)) (Part.colourOf c.fn) (runDesc c) input e mask) :
    let q := runDecoded c input p
    let i := admCtx p c.fn
    (q.ctx i).state = .decoded ∧ (q.ctx i).program = BitVec.ofNat 16 (Part.headOf (runDesc c)).program ∧
      q.opBuf = p.opBuf.write ram (512 * i) (Pk.fit 128 (descOf (runDesc c)) ++ Pk.fit 384 (inputOf (runDesc c) input)) ∧
      (q.adm c.fn).busy = true ∧ (q.adm c.fn).ctx = i := by
  intro q i
  obtain ⟨r, asked, decodes⟩ := descriptorDecode_decodes now (fit_of_length (length_fit ..)) (by rwa [runFetched_ctx])
  obtain ⟨t, taken, own⟩ := descLoaded_spec (d := runDesc c) now.admin now.once
  have written := writeOb_written (512 * i) (Pk.fit 128 (descOf (runDesc c)) ++ Pk.fit 384 (inputOf (runDesc c) input)) r
  have same : r.writeContext i (descOf (runDesc c)) (inputOf (runDesc c) input) = { descLoaded (runFetched c p) i (runDesc c) with
      free := r.free, hif := r.hif, cores := (r.writeContext i (descOf (runDesc c)) (inputOf (runDesc c) input)).cores
      opBuf := p.opBuf.write ram (512 * i) (Pk.fit 128 (descOf (runDesc c)) ++ Pk.fit 384 (inputOf (runDesc c) input)) } := by
    rw [Part.writeContext, written.rest, asked, descLoaded, taken]
    rfl
  have program : ((descLoaded (runFetched c p) i (runDesc c)).ctx i).program = BitVec.ofNat 16 (Part.headOf (runDesc c)).program := by
    rw [descLoaded, ctx_modCtx_self]
    rfl
  have channel : (descLoaded (runFetched c p) i (runDesc c)).adm c.fn = (admBegun p { op := 0x01, reads := 64 } c).adm c.fn := by
    rw [descLoaded, taken]
    rfl
  generalize r.writeContext i (descOf (runDesc c)) (inputOf (runDesc c) input) = w at same decodes
  have ended : q = (w.modCtx i fun x => { x with state := .decoded }).modCtx i fun x => { x with classA := runLands c } := by rw [← decodes]
  have ctx : w.ctx i = (descLoaded (runFetched c p) i (runDesc c)).ctx i := by rw [same]; rfl
  have adm : q.adm c.fn = (admBegun p { op := 0x01, reads := 64 } c).adm c.fn := by
    rw [← channel, ended, same]
    rfl
  refine ⟨?_, ?_, ?_, ?_, ?_⟩
  · rw [ended, ctx_modCtx_self, ctx_modCtx_self]
  · rw [ended, ctx_modCtx_self, ctx_modCtx_self, ctx, program]
  · rw [ended, same]
    rfl
  · rw [adm, admBegun_adm]
  · rw [adm, admBegun_adm]

end

section
variable {s : State} {c : AdmCmd} (ready : AdmReady s.part { op := 0x01, reads := 64 } c) (input : Option (List Byte))
include ready

/-- On a part that serves RUN is a row whose class does not matter. -/
theorem run_arm : exec (.run c input) s = onPart (Part.admRow { op := 0x01, reads := 64 } c (Part.admRunProgram c input)) s := by
  have mode : (s.part.sys.mode == .standby) = false := by rcases ready.serving with mode | mode <;> rw [mode] <;> decide
  have arm : exec (.run c input) s = onPart (Part.admRunRow c input) s := rfl
  rw [arm, onPart, onPart, Part.admRunRow, mode, Bool.false_and]

theorem run_outOfRange (bad : c.head.len ≠ 4096) : Refused s (.run c input) 0x01 c 0x10 0x0A :=
  ready.fails (run_arm ready input) (by decide) (if_pos bad)

theorem run_yields (whole : c.head.len = 4096) (free : ¬ SessionOpen s.part c.fn) : Yields (.run c input) s (runDecoded c input s.part) :=
  ready.yields (run_arm ready input)
    (admRunProgram_decodes (p := admBegun s.part { op := 0x01, reads := 64 } c) whole free (admCtx s.part c.fn))

end

end Sys2Proof.Safety
end

section
/-! SUPPORT. The statement on the key commands, counters, QUERY and RUN (R311, R338, R343, R344, R348, R350, R384, R385, R389 to R392, R472). -/

namespace Sys2Proof.Safety

open Sys2Proof.Machine

/-- Settles O44, command by command. -/
theorem keyCommandsCountersAndQueries : Obligations.KeyCommandsCountersAndQueries := by
  intro s c input p n col j kind free ends fails handle keep
  refine ⟨?sessions, ?land, ?lands, ?generate, ?load, ?sealBlob, ?badHandle, ?destroy, ?rotate, ?counters, ?query, ?run⟩
  case sessions => exact fun k listed key ready opened => keyCommand_sessionOpen listed key ready (not_not.1 opened)
  case land =>
    exact fun ready free bad => ready.fails (body := Part.keyLand c) rfl (by decide)
      (keyLand_outOfRange (p := admBegun s.part { op := 0x10, classA := true } c) free bad)
  case lands =>
    intro ready free template known limit
    have good : ¬ (c.a0 = 0 ∨ 255 < c.a0.toNat ∨ 0xFFFF < c.a1.toNat) := by
      rintro (zero | above | above)
      exacts [template zero, Nat.not_lt.2 known above, Nat.not_lt.2 limit above]
    refine ⟨fun full => ?_, fun fits range => keyLand_ends ready free good fits range⟩
    exact ready.fails (body := Part.keyLand c) rfl (by decide)
      (keyLand_full (p := admBegun s.part { op := 0x10, classA := true } c) free good ((admBegun_slotsFit ..).trans full))
  case generate =>
    intro t ready free template known bs drawn made
    have good : ¬ (c.a0 = 0 ∨ 255 < c.a0.toNat) := not_or.2 ⟨template, Nat.not_lt.2 known⟩
    refine ⟨fun k sym hclass noLimbs fits range => keyGenerate_endsSymmetric ready free good drawn sym hclass noLimbs fits range, ?_⟩
    intro kd par slots pub noSym pair limbs hclass ok room key fits range
    exact keyGenerate_endsPair ready free good drawn noSym pair limbs hclass ok room fits range
  case load =>
    intro bs h m whole ready free
    refine ⟨fun bad => ?_, fun key good owner => ⟨fun unopened => ?_, fun mat opens fits range => ?_⟩⟩
    · exact ready.fails (body := Part.keyLoadBlob c) rfl (by decide)
        (keyLoadBlob_refused (p := admBegun s.part { op := 0x12, classA := true, reads := 64 } c) free
          (bad.imp_right (admBegun_storageKey _).trans))
    · exact ready.fails (body := Part.keyLoadBlob c) rfl (by decide)
        (keyLoadBlob_unopened (p := admBegun s.part { op := 0x12, classA := true, reads := 64 } c) free good
          ((admBegun_storageKey _).trans owner) unopened)
    · obtain ⟨q, yields, ended, rest, landed, slots⟩ := keyLoadBlob_ends ready free good owner opens fits range
      exact ⟨q, yields, ended, rest, landed, slots⟩
  case sealBlob =>
    intro ss id key bs ready read owner drawn x
    refine ⟨fun kept => keySealBlob_refused ready read kept, fun exported small room => ?_⟩
    exact keySealBlob_ends ready read owner drawn (not_or.2 ⟨exported, Nat.not_le.2 small⟩) room
  case badHandle =>
    exact fun st why bad free => ⟨fun ready => keyDestroy_refused free ready bad, fun ready => keyNarrow_refused free ready bad⟩
  case destroy =>
    intro good up free is x lim
    refine ⟨fun ready => keyDestroy_ends free good ready up, fun ready => ?_⟩
    intro may
    exact ⟨fun bad => keyNarrow_bad free good ready bad, fun narrows => keyNarrow_ends free good ready up narrows⟩
  case rotate => exact fun root key ready free held drawn => storageRotate_ends ready free held drawn
  case counters =>
    intro t g
    refine ⟨fun outside => ?_, fun inside lost => ?_, fun inside kept => ?_⟩
    · have index := counterIndex_outside (p := p) outside
      exact ⟨fun ready => ready.fails (body := Part.ctrRead c) rfl (by decide) (ctrRead_outside ((admBegun_counterIndex ..).trans index)),
        fun ready => ready.fails (body := Part.ctrAdvance c) rfl (by decide) (ctrAdvance_outside ((admBegun_counterIndex ..).trans index))⟩
    · have index := counterIndex_inside (p := p) inside
      have lost' : ∀ k, GroupLost (admBegun p k c) g := fun k => by rwa [GroupLost, admBegun_badGroups]
      exact ⟨fun ready => ready.fails (body := Part.ctrRead c) rfl (by decide) (ctrRead_lost ((admBegun_counterIndex ..).trans index) (lost' _)),
        fun ready => ready.fails (body := Part.ctrAdvance c) rfl (by decide)
          (ctrAdvance_lost ((admBegun_counterIndex ..).trans index) (lost' _))⟩
    · have index := counterIndex_inside (p := p) inside
      refine ⟨fun ready => ctrRead_ends index kept ready, fun ready => ?_⟩
      intro v
      refine ⟨fun bad => ?_, fun nonzero small => ?_⟩
      · exact ready.fails (body := Part.ctrAdvance c) rfl (by decide)
          (ctrAdvance_outOfRange (p := admBegun p (kind 0x21 true) c) ((admBegun_counterIndex ..).trans index)
            (by rwa [GroupLost, admBegun_badGroups]) (by rwa [admBegun_counters]))
      · obtain ⟨q, yields, ended, advanced⟩ := ctrAdvance_ends index kept ready (not_or.2 ⟨nonzero, Nat.not_le.2 small⟩)
        exact ⟨q, yields, ended, advanced.value, advanced.others, advanced.unpaired, advanced.paired,
          ⟨advanced.epoch, _, advanced.table, rfl, rfl, rfl⟩, advanced.rest⟩
  case query =>
    intro ready tgt m t
    refine ⟨fun manager bad => query_outOfRange ready manager bad, fun good => ?_⟩
    obtain ⟨out, ended, length, empty, reports⟩ := query_ends ready good
    refine ⟨out, ended, length, empty, fun held => ?_⟩
    obtain ⟨slots, counted, inflight, granBase, grans, qpBase, qpCount, weight, state, groups, grpBase, frac, secs, zero⟩ := reports held
    exact ⟨slots, counted, inflight, granBase, grans, qpBase, qpCount, weight, state, groups, grpBase, frac, secs, zero⟩
  case run =>
    intro ready i d0 h lands b q
    refine ⟨fun bad => run_outOfRange ready input bad, fun whole free => ⟨run_yields ready input whole free, ?_⟩⟩
    intro d given cls b1 first cellar manager format read gate e mask program single handles
    have now := runFetched_decodesNow ready first cellar manager
    have loaded : descLoaded (runFetched c p) i d0 = b1 := by rw [descLoaded, runFetched_ctx]
    exact runDecoded_spec now ⟨by rwa [loaded], read, by rwa [loaded], by rwa [loaded], single, by rwa [loaded]⟩

end Sys2Proof.Safety
end
